-- ==== Sys2Proof/Word.lean ====
section
/-! DEFINITION. The word types of the device (00 R6, Table 3; 05 R92), and exact numbers (04 R67). -/

namespace Sys2Proof

/-- A byte of any structure the device reads or writes. -/
abbrev Byte := BitVec 8

/-- A "word" of the manual: 32 bits (00, Table 3). -/
abbrev W32 := BitVec 32

/-- A 64-bit field. -/
abbrev W64 := BitVec 64

/-- 512 bits: a channel payload, a scratchpad line, a tile register, a context or router word. -/
abbrev Line := BitVec 512

/-- A VE vector register: 64 lanes of 32 bits (07 R137). -/
abbrev VReg := Vector W32 64

/-- A number as the arithmetic sees it (04 R67): finite values are plus or minus m x 2^e. -/
inductive Num where
  | nan
  | inf (neg : Bool)
  | fin (neg : Bool) (m : Nat) (e : Int)
  deriving DecidableEq, Repr

end Sys2Proof
end

