-- ==== Sys2Proof/Syntax.lean ====
section
/-! DEFINITION. The commands of the block: one constructor for each row of the opcode table, and the operand types
they carry. What the outside decides or delivers (bytes, statuses, readings, choices of the service firmware) is an
operand; everything the device holds itself is in State. -/

namespace Sys2Proof

/-- What a check code (05 R94, 07 R142) reports of one read: nothing, a corrected single-bit error, or an
uncorrectable one. The codes themselves are not in the manual (log entry 8, DEDUCED). -/
inductive Ecc where
  | ok
  | corrected
  | bad
  deriving DecidableEq, Repr

/-- One routed layer as the model package carries it (08 R174, R165): experts, top-2, format and bytes of a
dispatched row, format and bytes of a returned row, initial bias (empty where the package carries none). -/
structure LayerInfo where
  layer : Nat
  experts : Nat
  k2 : Bool
  afmt : Nat
  rbytes : Nat
  retFmt : Nat
  retBytes : Nat
  bias : List (BitVec 16)
  deriving DecidableEq, Repr

/-- What the service firmware reads from the model package (12 Table 8, PKG); its format is not in the manual. -/
structure PkgInfo where
  vocab : Nat
  layers : List LayerInfo
  deriving DecidableEq, Repr

/-- An expert message (08 Table 7), its header fields and its rows. -/
structure ExpertMsg where
  mtype : Nat
  ver : Nat
  expert : Nat
  schip : Nat
  srcPart : Nat
  dstPart : Nat
  round : Nat
  gen : Nat
  layer : Nat
  step : Nat
  nrow : Nat
  rfmt : Nat
  rbytes : Nat
  status : Nat
  beats : Nat
  tbytes : Nat
  rows : List Byte
  deriving DecidableEq, Repr

/-- What serving one dispatch cost and gave (08 R180, R186): tile-beats, tier bytes, status, the expert's output. -/
structure ServeWork where
  beats : Nat
  tbytes : Nat
  status : Nat
  rows : List Byte
  deriving DecidableEq, Repr

/-- A fabric transaction (14 Table 7), header fields and data. -/
structure Txn where
  ttype : Nat
  strm : Nat
  dchip : Nat
  schip : Nat
  srcPart : Nat
  dstPart : Nat
  last : Bool
  addr : W64
  len : Nat
  tid : Nat
  status : Nat
  aop : Nat
  operand : W64
  data : List Byte
  deriving DecidableEq, Repr

/-- One record of a pair message (16 Table 9). -/
inductive PairRec where
  /-- SETUP: PRIM, MIRR and per partition (GBASE, GCOUNT, DBASE, DLIMIT, columns). -/
  | setup (prim mirr : BitVec 16) (parts : List (Nat × Nat × Nat × Nat × Nat))
  /-- ALLOC and FREE: a grain id. -/
  | grain (g : Nat)
  /-- DATA: mutable-window offset and bytes. -/
  | data (off : Nat) (bytes : List Byte)
  /-- ENTRY: table (0 drawer, 1 region, 2 budget), index, the entry's bytes. -/
  | entry (table index : Nat) (bytes : List Byte)
  /-- RECORD: the 64-byte commit record. -/
  | record (bytes : List Byte)
  /-- CONFIRM: tenant and charge. -/
  | charge (tenant charge : Nat)
  deriving DecidableEq, Repr

/-- A pair message (16 Table 8). -/
structure PairMsg where
  pkind : Nat
  ver : Nat
  part : Nat
  step : Nat
  vstep : Nat
  status : Nat
  recs : List PairRec
  deriving DecidableEq, Repr

/-- What a training state found (14 R319, R320; 15 R359): lanes that detected, lanes good at 400, 200 and 100 Gbit/s
(Iberaine: 100 Gbit/s, 50 Gbit/s and protocol versions), and whether the state's passing condition holds. -/
structure TrainInfo where
  lanes : BitVec 5
  good : List (BitVec 5)
  versions : Nat
  pass : Bool
  deriving DecidableEq, Repr

/-- A ready CXL device (09 R193): port, half (0 lower or x16, 1 upper), capacity in bytes. -/
structure Cxl where
  port : Nat
  half : Nat
  bytes : Nat
  deriving DecidableEq, Repr

/-- A unit under BIST or wear measurement (16 Table 4, R387). -/
inductive BistUnit where
  | block (b : Nat)
  | segment (die row seg : Nat)
  | spareVe (die : Nat)
  | control
  | lane (link lane : Nat)
  | tier0 (slot : Nat)
  | tier1 (slot : Nat)
  | tier2 (dev : Nat)
  /-- The VE of a live block (a wear gauge point, and a unit that retests and substitutions name). -/
  | ve (b : Nat)
  deriving DecidableEq, Repr

/-- The waiting handshake that a watchdog reports (05 R119, 03 R38): a tile that has not switched, a VE whose
instruction waits, or a context of a tile that waits. -/
inductive WatchSite where
  | tileSwitch (t : Nat)
  | ve (b : Nat)
  | context (t slot : Nat)
  deriving DecidableEq, Repr

/-- The commands, those without operands last. -/
inductive Instr where
  /-- COMMAND_PACKET_ARRIVAL (R282). -/
  | commandPacketArrival (port : Nat) (pkt : List Byte)
  /-- ECHO (R281). -/
  | echo (q : Nat)
  /-- IDENTITY (R367). -/
  | identity (q : Nat)
  /-- TELEMETRY (R368). -/
  | telemetry (q : Nat)
  /-- PART_RESET (R312). -/
  | partReset (p : Nat)
  /-- PART_YIELD (R305). -/
  | partYield (p : Nat)
  /-- PART_EVICT (R307). -/
  | partEvict (p : Nat)
  /-- PART_RESUME (R310). -/
  | partResume (p : Nat)
  /-- ACCT_READ (R313). -/
  | acctRead (p : Nat)
  /-- ACCT_READ_CLEAR (R313). -/
  | acctReadClear (p : Nat)
  /-- SEED (R85). -/
  | seed (p : Nat)
  /-- MODEL_INSTALL (R291). -/
  | modelInstall (p : Nat) (pkg : PkgInfo)
  /-- MODEL_SWITCH (R247). -/
  | modelSwitch (p addr : Nat) (prog : List (BitVec 256))
  /-- MODEL_REMOVE (R289). -/
  | modelRemove (p : Nat)
  /-- EXPERT_MAP (R178). -/
  | expertMap (p : Nat)
  /-- BALANCE (R176). -/
  | balance (p : Nat)
  /-- REQUEST (R256); `adapters`: global addresses of the objects that its tenant's adapter list names, in the package's format. -/
  | request (p : Nat) (adapters : List Nat)
  /-- CANCEL (R13). -/
  | cancel (p : Nat)
  /-- BUDGET_SET (R260). -/
  | budgetSet (p : Nat)
  /-- BUDGET_ADD (R260). -/
  | budgetAdd (p : Nat)
  /-- BUDGET_SET_WEIGHTS (R258). -/
  | budgetSetWeights (p : Nat)
  /-- BUDGET_READ (R258). -/
  | budgetRead (p : Nat)
  /-- DRAWER_CREATE (R267). -/
  | drawerCreate (p : Nat)
  /-- DRAWER_OPEN (R268). -/
  | drawerOpen (p : Nat)
  /-- DRAWER_CLOSE (R269). -/
  | drawerClose (p : Nat)
  /-- DRAWER_COMMIT (R270). -/
  | drawerCommit (p : Nat)
  /-- DRAWER_MOVE (R267). -/
  | drawerMove (p : Nat)
  /-- DRAWER_DELETE (R267). -/
  | drawerDelete (p : Nat)
  /-- DRAWER_READ (R273). -/
  | drawerRead (p : Nat)
  /-- GRAIN_ALLOC (R204). -/
  | grainAlloc (p : Nat)
  /-- GRAIN_MOVE (R205). -/
  | grainMove (p : Nat)
  /-- GRAIN_FREE (R204). -/
  | grainFree (p : Nat)
  /-- LOAD_GRANT (R239). -/
  | loadGrant (p : Nat)
  /-- LOAD_DATA (R240). -/
  | loadData (p : Nat)
  /-- LOAD_CHECK (R242). -/
  | loadCheck (p : Nat)
  /-- MIRROR_CMD (R298). -/
  | mirrorCmd (p : Nat) (pkg : PkgInfo)
  /-- BOOT_IMAGE_PIECE (R361). -/
  | bootImagePiece (pkt : List Byte)
  /-- BOOT_FABCFG_PIECE (R365). -/
  | bootFabcfgPiece (pkt : List Byte)
  /-- BOOT_RETIRE_PIECE (R365). -/
  | bootRetirePiece (pkt : List Byte)
  /-- BOOT_START (R361). -/
  | bootStart (pkt : List Byte)
  /-- SET_ENDPOINT_ID (R347). -/
  | setEndpointId (port op eid : Nat)
  /-- GET_ENDPOINT_ID (R347). -/
  | getEndpointId (port : Nat)
  /-- GET_MCTP_VERSION_SUPPORT (R347). -/
  | getMctpVersionSupport (port msgType : Nat)
  /-- GET_MESSAGE_TYPE_SUPPORT (R347). -/
  | getMessageTypeSupport (port : Nat)
  /-- MCTP_UNSUPPORTED_CONTROL (R347). -/
  | mctpUnsupportedControl (port code : Nat)
  /-- ENTDAA (R346). -/
  | entdaa (port addr : Nat)
  /-- SETDASA (R346). -/
  | setdasa (port static addr : Nat)
  /-- NOP (R140). -/
  | nop (b : Nat)
  /-- HALT (R140). -/
  | halt (b : Nat)
  /-- SBNZ (R140). -/
  | sbnz (b : Nat)
  /-- SLI (R140). -/
  | sli (b : Nat)
  /-- SADD (R140). -/
  | sadd (b : Nat)
  /-- SMUL (R140). -/
  | smul (b : Nat)
  /-- SLD (R142). -/
  | sld (b : Nat) (ecc : Ecc)
  /-- SST (R142). -/
  | sst (b : Nat)
  /-- VEXT (R140). -/
  | vext (b : Nat)
  /-- VBCAST (R138). -/
  | vbcast (b : Nat)
  /-- VIOTA (R140). -/
  | viota (b : Nat)
  /-- VADD (R153). -/
  | vadd (b : Nat)
  /-- VSUB (R153). -/
  | vsub (b : Nat)
  /-- VMUL (R153). -/
  | vmul (b : Nat)
  /-- VFMA (R153). -/
  | vfma (b : Nat)
  /-- VMAX (R153). -/
  | vmax (b : Nat)
  /-- VMIN (R153). -/
  | vmin (b : Nat)
  /-- VABS (R153). -/
  | vabs (b : Nat)
  /-- VNEG (R153). -/
  | vneg (b : Nat)
  /-- VCMP (R140). -/
  | vcmp (b : Nat)
  /-- VSEL (R140). -/
  | vsel (b : Nat)
  /-- VIADD (R140). -/
  | viadd (b : Nat)
  /-- VLOG (R140). -/
  | vlog (b : Nat)
  /-- VSHF (R140). -/
  | vshf (b : Nat)
  /-- VCVTI (R140). -/
  | vcvti (b : Nat)
  /-- MTAIL (R138). -/
  | mtail (b : Nat)
  /-- MOP (R140). -/
  | mop (b : Nat)
  /-- MSET (R140). -/
  | mset (b : Nat)
  /-- VFN (R153). -/
  | vfn (b : Nat)
  /-- EPLD (R151). -/
  | epld (b : Nat) (ecc : Ecc)
  /-- EPRUN (R152). -/
  | eprun (b : Nat) (ecc : Ecc)
  /-- VRSUM (R153). -/
  | vrsum (b : Nat)
  /-- VRMAX (R140). -/
  | vrmax (b : Nat)
  /-- VRARGMAX (R155). -/
  | vrargmax (b : Nat)
  /-- VSCAN (R155). -/
  | vscan (b : Nat)
  /-- VPERM (R140). -/
  | vperm (b : Nat)
  /-- VCVT (R141). -/
  | vcvt (b : Nat)
  /-- VMXQ (R141). -/
  | vmxq (b : Nat)
  /-- VLD (R142). -/
  | vld (b : Nat) (ecc : Ecc)
  /-- VST (R142). -/
  | vst (b : Nat)
  /-- VLDS (R142). -/
  | vlds (b : Nat) (ecc : Ecc)
  /-- VSTS (R142). -/
  | vsts (b : Nat)
  /-- VLDX (R142). -/
  | vldx (b : Nat) (ecc : Ecc)
  /-- VSTX (R142). -/
  | vstx (b : Nat)
  /-- PPUT (R144). -/
  | pput (b : Nat)
  /-- PWR (R144). -/
  | pwr (b : Nat)
  /-- PRD (R144). -/
  | prd (b : Nat) (ecc : Ecc)
  /-- PMARK (R145). -/
  | pmark (b : Nat)
  /-- COLL (R147). -/
  | coll (b : Nat)
  /-- CKPOP (R157). -/
  | ckpop (b : Nat)
  /-- VEPOCH (R155). -/
  | vepoch (b : Nat)
  /-- NSEND (R148). -/
  | nsend (b : Nat)
  /-- NRECV (R148). -/
  | nrecv (b : Nat)
  /-- TXF (R149). -/
  | txf (b : Nat) (agree : Bool) (ecc : Ecc) (who : Option Nat)
  /-- TXWAIT (R149). -/
  | txwait (b : Nat)
  /-- CBWR (R150). -/
  | cbwr (b : Nat)
  /-- RTSEL (R154). -/
  | rtsel (b : Nat) (ecc : Ecc) (last : Bool) (acts : Nat)
  /-- RTCNT (R175). -/
  | rtcnt (b : Nat) (ecc : Ecc)
  /-- VRAND (R155). -/
  | vrand (b : Nat)
  /-- CKTOL (R159). -/
  | cktol (b : Nat)
  /-- CKCMP (R160). -/
  | ckcmp (b : Nat)
  /-- CKDONE (R161). -/
  | ckdone (b : Nat)
  /-- VE_SERVICE_STAGE (R134). -/
  | veServiceStage (b : Nat) (soft : Nat) (bad : Bool)
  /-- MAILBOX_WORD_ARRIVAL (R148). -/
  | mailboxWordArrival (b src : Nat)
  /-- VE_PROGRAM_START (R164). -/
  | veProgramStart (b pc : Nat) (buffer : Bool) (words : List (Nat × Nat))
  /-- ROUTER_TOKEN_ARRIVAL (R116). -/
  | routerTokenArrival (t src : Nat) (chk : Ecc)
  /-- ROUTER_OUTPUT_GRANT (R44). -/
  | routerOutputGrant (t inp lbl : Nat) (memOk : Bool)
  /-- CONFIG_TOKEN_WRITE (R114). -/
  | configTokenWrite (t inp : Nat)
  /-- INJECTOR_SEND (R107). -/
  | injectorSend (p j : Nat)
  /-- STEERING_FIRING (R98). -/
  | steeringFiring (t slot : Nat) (arbP : Bool)
  /-- COUNTER_RUN_START (R103). -/
  | counterRunStart (t slot : Nat)
  /-- COUNTER_EMIT (R103). -/
  | counterEmit (t slot : Nat)
  /-- MATRIX_PASS_START (R128). -/
  | matrixPassStart (t slot : Nat) (memOk : Bool)
  /-- GNXT_TOKEN_CONSUME (R128). -/
  | gnxtTokenConsume (t : Nat) (memOk : Bool)
  /-- BEAT_ISSUE (R18). -/
  | beatIssue (t : Nat) (residueOk memOk : Bool)
  /-- ACCUMULATOR_DRAIN (R58). -/
  | accumulatorDrain (t : Nat)
  /-- WEIGHT_WORD_ACCEPT (R66). -/
  | weightWordAccept (t : Nat)
  /-- EXPANDER_DECODE (R65). -/
  | expanderDecode (t : Nat) (memOk : Bool)
  /-- MOVE_WORD (R51). -/
  | moveWord (t slot : Nat) (memOk : Bool)
  /-- CONTEXT_EPOCH_END (R112). -/
  | contextEpochEnd (t slot : Nat)
  /-- TILE_EPOCH_SWITCH (R115). -/
  | tileEpochSwitch (t : Nat)
  /-- OPERAND_PORT_DELIVERY (R145). -/
  | operandPortDelivery (b lane : Nat)
  /-- HANDSHAKE_WATCHDOG_EXPIRY (R119). -/
  | handshakeWatchdogExpiry (site : WatchSite)
  /-- STREAM_FEED (R227); `agree`: the two copies of the range checker agree (16 R374). -/
  | streamFeed (p : Nat) (agree : Bool)
  /-- STREAM_STAGE (R228). -/
  | streamStage (p : Nat) (agree : Bool)
  /-- STREAM_MARK (R233). -/
  | streamMark (p : Nat)
  /-- STREAM_DRAIN (R229). -/
  | streamDrain (p : Nat) (agree : Bool)
  /-- STREAM_CONFIG (R229). -/
  | streamConfig (p : Nat) (agree : Bool)
  /-- STREAM_END (R229). -/
  | streamEnd (p : Nat)
  /-- MARK_RELEASE_WRITE (R233). -/
  | markReleaseWrite (p : Nat)
  /-- STREAM_STALL_EXPIRY (R233). -/
  | streamStallExpiry (p : Nat)
  /-- TRANSFER_GRANT (R237). -/
  | transferGrant (tier : Nat) (entry : Option (Nat × Option Nat))
  /-- TRANSFER_COMPLETION (R216). -/
  | transferCompletion (id status : Nat)
  /-- TRANSFER_LATE (R214). -/
  | transferLate (id : Nat)
  /-- FIRST_FILL_COMPLETE (R234). -/
  | firstFillComplete (p : Nat)
  /-- ADAPTER_STAGE_COMPLETE (R246). -/
  | adapterStageComplete (p tenant : Nat)
  /-- MOVE_COPY_START (R205). -/
  | moveCopyStart (g : Nat) (own : Option (Nat × Nat))
  /-- MOVE_SWITCH (R205). -/
  | moveSwitch (g status : Nat)
  /-- MOVE_RELEASE (R205). -/
  | moveRelease (g : Nat)
  /-- MOVE_LIMIT_REACHED (R206). -/
  | moveLimitReached (g : Nat)
  /-- HT_SCRUB (R382). -/
  | htScrub (bad : List (Nat × Bool))
  /-- PAGE_RETIREMENT_DONE (R200). -/
  | pageRetirementDone (tier slot : Nat)
  /-- CHANNEL_FAILURE (R217). -/
  | channelFailure (tier slot : Nat)
  /-- MIGRATION_START (R187). -/
  | migrationStart (p layer expert target : Nat)
  /-- MIGRATION_MAP_UPDATE (R187). -/
  | migrationMapUpdate (p : Nat)
  /-- MIGRATION_RELEASE (R187). -/
  | migrationRelease (p : Nat)
  /-- SCAN_SEGMENT_DONE (R371). -/
  | scanSegmentDone (engine status : Nat)
  /-- STEP_BEGIN (R12). -/
  | stepBegin (p addr : Nat) (prog : List (BitVec 256)) (more : Option (Nat × List (BitVec 256)))
  /-- PUBLISH_FENCE (R276). -/
  | publishFence (p : Nat) (sums : List (Nat × Nat))
  /-- STEP_COMMIT (R276). -/
  | stepCommit (p : Nat) (toks : List (Nat × Nat)) (writeFail : List (Nat × Nat))
  /-- VERDICT_WATCHDOG_EXPIRY (R276). -/
  | verdictWatchdogExpiry (p : Nat)
  /-- DEADLINE_JUDGEMENT (R262). -/
  | deadlineJudgement (p : Nat)
  /-- BIAS_UPDATE (R176). -/
  | biasUpdate (p layer : Nat)
  /-- EXPERT_DISPATCH_RECV (R179). -/
  | expertDispatchRecv (m : ExpertMsg)
  /-- EXPERT_CLOSE_RECV (R179). -/
  | expertCloseRecv (m : ExpertMsg)
  /-- EXPERT_RETURN_RECV (R182). -/
  | expertReturnRecv (m : ExpertMsg)
  /-- EXPERT_CANCEL_RECV (R185). -/
  | expertCancelRecv (m : ExpertMsg)
  /-- EXPERT_LAYER_SERVE (R181). -/
  | expertLayerServe (p layer : Nat) (work : List ServeWork)
  /-- RETURN_LIMIT_EXPIRY (R183). -/
  | returnLimitExpiry (p layer : Nat)
  /-- HOME_CLOSE_LIMIT_EXPIRY (R183). -/
  | homeCloseLimitExpiry (p layer : Nat)
  /-- LINK_TRAIN_STATE_PASS (R319). -/
  | linkTrainStatePass (l : Nat) (info : TrainInfo)
  /-- LINK_TRAIN_LIMIT (R319). -/
  | linkTrainLimit (l : Nat)
  /-- SIDEBAND_SEND (R433). -/
  | sidebandSend (l : Nat)
  /-- SIDEBAND_RECV (R433). -/
  | sidebandRecv (msg : List Byte)
  /-- DATA_FRAME_RECV (R324). -/
  | dataFrameRecv (l : Nat) (lanes : List (List Byte))
  /-- IDLE_FRAME_RECV (R324). -/
  | idleFrameRecv (l : Nat) (lanes : List (List Byte))
  /-- NAK_FRAME_RECV (R324). -/
  | nakFrameRecv (l : Nat) (lanes : List (List Byte))
  /-- LANE_SWAP_FRAME_RECV (R321). -/
  | laneSwapFrameRecv (l : Nat) (lanes : List (List Byte))
  /-- LINK_UP_FRAME_RECV (R322). -/
  | linkUpFrameRecv (l : Nat) (lanes : List (List Byte))
  /-- FRAME_TRANSMIT (R325). -/
  | frameTransmit (l ch : Nat)
  /-- IDLE_FRAME_TIMER (R324). -/
  | idleFrameTimer (l : Nat)
  /-- LANE_LOCK_LOSS (R321). -/
  | laneLockLoss (l lane : Nat)
  /-- LANE_ERROR_INTERVAL (R321). -/
  | laneErrorInterval (l lane corrected symbols : Nat)
  /-- LANE_SWAP_EFFECT (R321). -/
  | laneSwapEffect (l : Nat)
  /-- ACK_PROGRESS_TIMEOUT (R322). -/
  | ackProgressTimeout (l : Nat)
  /-- CODEWORD_ALIGNMENT_LOSS (R322). -/
  | codewordAlignmentLoss (l : Nat)
  /-- FAST_RECOVERY_TIMEOUT (R322). -/
  | fastRecoveryTimeout (l : Nat)
  /-- TRANSACTION_FORWARD (R331). -/
  | transactionForward (l : Nat)
  /-- REMOTE_READ (R336). -/
  | remoteRead (t : Txn) (agree : Bool)
  /-- REMOTE_WRITE (R336). -/
  | remoteWrite (t : Txn) (agree : Bool)
  /-- REMOTE_ATOMIC (R337). -/
  | remoteAtomic (t : Txn) (agree : Bool)
  /-- REMOTE_FENCE (R336). -/
  | remoteFence (t : Txn)
  /-- READ_RSP (R336). -/
  | readRsp (t : Txn)
  /-- WRITE_CPL (R336). -/
  | writeCpl (t : Txn)
  /-- ATOMIC_RSP (R336). -/
  | atomicRsp (t : Txn)
  /-- FENCE_CPL (R336). -/
  | fenceCpl (t : Txn)
  /-- LOAD_WRITE_INGRESS (R240). -/
  | loadWriteIngress (t : Txn) (agree : Bool)
  /-- LOAD_FORWARD (R241). -/
  | loadForward (p gid : Nat)
  /-- LOAD_GRANT_EXPIRY (R240). -/
  | loadGrantExpiry (p gid : Nat)
  /-- IBERAINE_STATE_PASS (R359). -/
  | iberaineStatePass (info : TrainInfo)
  /-- RACK_MANAGER_LOST (R348). -/
  | rackManagerLost (m : Nat)
  /-- SUPPLY_GOOD (R409). -/
  | supplyGood (rail : Nat) (straps : BitVec 16)
  /-- RAIL_LOSS (R410). -/
  | railLoss (rail : Nat)
  /-- RESET_N_RISE (R355). -/
  | resetNRise (straps : BitVec 16)
  /-- STARTUP_SELF_TEST (R356). -/
  | startupSelfTest (romOk sramOk : Bool) (badCores : List Nat)
  /-- STARTUP_DOMAINS (R356). -/
  | startupDomains (badSegs : List (Nat × Nat × Nat)) (badVes : List Nat) (badHelper : Bool)
  /-- STARTUP_MEMORY (R356). -/
  | startupMemory (rates bad0 bad1 caps : List Nat)
  /-- STARTUP_TIER2 (R193). -/
  | startupTier2 (ready : List Cxl)
  /-- CONTROL_RECOVERY (R351). -/
  | controlRecovery (failA failB : Bool)
  /-- TELEMETRY_RENEWAL (R368). -/
  | telemetryRenewal (west east : Int) (blocks : List (Nat × Nat × Int))
  /-- BIST_SLICE_START (R380). -/
  | bistSliceStart (u : BistUnit)
  /-- BIST_SLICE_END (R383). -/
  | bistSliceEnd (u : BistUnit) (pass : Bool) (bad : List BistUnit)
  /-- BIST_SLICE_ABORT (R380). -/
  | bistSliceAbort (u : BistUnit)
  /-- BIST_OVERDUE (R384). -/
  | bistOverdue (u : BistUnit)
  /-- WEAR_GAUGE_RENEWAL (R388). -/
  | wearGaugeRenewal (points : List (BistUnit × Nat))
  /-- SUBSTITUTION_SCHEDULE (R391). -/
  | substitutionSchedule (die row seg : Nat)
  /-- FORCED_SUBSTITUTION (R392). -/
  | forcedSubstitution (die row seg : Nat)
  /-- VE_SUBSTITUTION (R394). -/
  | veSubstitution (b image pc : Nat)
  /-- YIELD_BOUNDARY (R305). -/
  | yieldBoundary (p : Nat)
  /-- EVICT_QUIESCE_END (R307). -/
  | evictQuiesceEnd (p : Nat)
  /-- EVICT_SAVE_COMPLETE (R307). -/
  | evictSaveComplete (p : Nat)
  /-- RESUME_RELOAD_COMPLETE (R310). -/
  | resumeReloadComplete (p : Nat)
  /-- PAIR_SETUP_RECV (R396). -/
  | pairSetupRecv (m : PairMsg)
  /-- PAIR_ALLOC_RECV (R399). -/
  | pairAllocRecv (m : PairMsg)
  /-- PAIR_FREE_RECV (R399). -/
  | pairFreeRecv (m : PairMsg)
  /-- PAIR_DATA_RECV (R399). -/
  | pairDataRecv (m : PairMsg)
  /-- PAIR_ENTRY_RECV (R399). -/
  | pairEntryRecv (m : PairMsg)
  /-- PAIR_RECORD_RECV (R399). -/
  | pairRecordRecv (m : PairMsg)
  /-- PAIR_ACK_RECV (R400). -/
  | pairAckRecv (m : PairMsg)
  /-- PAIR_CONFIRM_RECV (R400). -/
  | pairConfirmRecv (m : PairMsg)
  /-- PAIR_HEARTBEAT_RECV (R398). -/
  | pairHeartbeatRecv (m : PairMsg)
  /-- PAIR_INVAL_RECV (R403). -/
  | pairInvalRecv (m : PairMsg)
  /-- PAIR_SYNC_BEGIN_RECV (R397). -/
  | pairSyncBeginRecv (m : PairMsg)
  /-- PAIR_SYNC_END_RECV (R397). -/
  | pairSyncEndRecv (m : PairMsg)
  /-- PAIR_ACK_TIMEOUT (R403). -/
  | pairAckTimeout (p : Nat)
  /-- HEARTBEAT_FRAME_RECV (R406). -/
  | heartbeatFrameRecv (frame : BitVec 64)
  /-- POWER_SAMPLE (R411). -/
  | powerSample (rails : List (Nat × Nat × Nat)) (demandAboveL : Bool)
  /-- CORE_VOLTAGE_STEP (R415). -/
  | coreVoltageStep (die : Nat) (up answered : Bool)
  /-- BRAKE_ASSERT (R422). -/
  | brakeAssert (held : Nat)
  /-- THERMAL_SAMPLE (R423). -/
  | thermalSample (west east : Int × Int) (hbm : List Int)
  /-- THERMAL_TRIP (R424). -/
  | thermalTrip (die : Bool) (reading : Int)
  /-- ORPHAN_CAP_APPLY (R425). -/
  | orphanCapApply (m : Nat)
  /-- TIMEREF_EDGE (R25). -/
  | timerefEdge (sinceAdvance : Nat)
  /-- OSCILLATOR_ADVANCE (R26). -/
  | oscillatorAdvance (sinceEdge : Nat)
  /-- TIMEREF_LOSS (R26). -/
  | timerefLoss (sinceEdge : Nat)
  /-- TIMEREF_RETURN (R26). -/
  | timerefReturn (present sinceAdvance : Nat)
  /-- TWIN_REPLY_RECV (R342). -/
  | twinReplyRecv (pkt : List Byte)
  /-- PART_DEFINE (R301). -/
  | partDefine
  /-- LAYER_REPLACE (R249). -/
  | layerReplace
  /-- CAP_SET (R294). -/
  | capSet
  /-- BRAKE_CFG (R422). -/
  | brakeCfg
  /-- ORPHAN_CFG (R425). -/
  | orphanCfg
  /-- EMERGENCY_RELEASE (R295). -/
  | emergencyRelease
  /-- EMERGENCY_HOLD (R295). -/
  | emergencyHold
  /-- EMERGENCY_SHED (R295). -/
  | emergencyShed
  /-- EMERGENCY_STOP (R295). -/
  | emergencyStop
  /-- POWER_READ (R412). -/
  | powerRead
  /-- PAIR_SETUP (R396). -/
  | pairSetup
  /-- PAIR_END (R407). -/
  | pairEnd
  /-- REPLACE_COPY_START (R249). -/
  | replaceCopyStart
  /-- REPLACE_COPY_DONE (R249). -/
  | replaceCopyDone
  /-- IBERAINE_STATE_LIMIT (R359). -/
  | iberaineStateLimit
  /-- IBERAINE_LIGHT_RETRY (R359). -/
  | iberaineLightRetry
  /-- RESET_N_FALL (R429). -/
  | resetNFall
  /-- TRAIN_PHASE_START (R429). -/
  | trainPhaseStart
  /-- STARTUP_IDENTITY (R366). -/
  | startupIdentity
  /-- STARTUP_MANAGEMENT (R358). -/
  | startupManagement
  /-- STARTUP_IBERAINE (R359). -/
  | startupIberaine
  /-- BOOT_EXCHANGE_HELLO (R361). -/
  | bootExchangeHello
  /-- STARTUP_VERIFICATION (R363). -/
  | startupVerification
  /-- STARTUP_FABRIC (R319). -/
  | startupFabric
  /-- STARTUP_SERVICE_FIRMWARE (R356). -/
  | startupServiceFirmware
  /-- STARTUP_READY (R356). -/
  | startupReady
  /-- LOCKSTEP_DIVERGENCE (R350). -/
  | lockstepDivergence
  /-- SUBSTITUTION_SAVE (R391). -/
  | substitutionSave
  /-- SUBSTITUTION_MAP_WRITE (R391). -/
  | substitutionMapWrite
  /-- SUBSTITUTION_RESTORE_DONE (R391). -/
  | substitutionRestoreDone
  /-- PAIR_SETUP_MESSAGE_SEND (R396). -/
  | pairSetupMessageSend
  /-- PAIR_SETUP_TIMEOUT (R396). -/
  | pairSetupTimeout
  /-- PAIR_HEARTBEAT_SEND (R398). -/
  | pairHeartbeatSend
  /-- HEARTBEAT_FRAME_SEND (R402). -/
  | heartbeatFrameSend
  /-- TWIN_FAILURE (R404). -/
  | twinFailure
  /-- CAP_RESPONSE_ELAPSED (R419). -/
  | capResponseElapsed
  /-- SHED_COMPLETE (R420). -/
  | shedComplete
  /-- UNSHED_COMPLETE (R421). -/
  | unshedComplete
  /-- BRAKE_RELEASE (R422). -/
  | brakeRelease
  /-- THERMAL_LIMIT_STEP (R423). -/
  | thermalLimitStep
  /-- ACCOUNTING_INTERVAL (R315). -/
  | accountingInterval
  /-- PAIR_PATH_LOSS (R404). -/
  | pairPathLoss
  /-- SYNC_END_ACK_TIMEOUT (R397). -/
  | syncEndAckTimeout
  /-- ALERT_PULSE_END (R436). -/
  | alertPulseEnd
  deriving DecidableEq, Repr

end Sys2Proof
end

