-- ==== Sys2Proof/Config.lean ====
section
/-! DEFINITION. What one unit or implementation fixes and the spec leaves open, and the free values: constants without a
body, so that nothing can be proved of a value (log entries 5, 6, 7, 14). -/

namespace Sys2Proof.Config

/-- Free numbers, one for each value of the draw counter (log entry 14, DESIGN CHOICE): choices of the service firmware (entry 7). -/
opaque freeNat : Nat → Nat

/-- Free bytes, one for each value of the draw counter. -/
opaque freeByte : Nat → Byte

/-- Free lines, by draw number and index: what a scratchpad line (0 to 1,023) or a register (1,024 on) holds that nothing
has written since the last step (03 R39, R41; entry 14). -/
opaque freeLine : Nat → Nat → BitVec 512

/-- Check bits of a home table entry over its bits [63:8] (09 R202); the code is not in the manual (entry 8). -/
opaque htCheck : Nat → Byte

/-- The result of VE function `i` of 07 Table 6 on an operand; kept inside the table's bound where it is used (entry 6). -/
opaque veFn : Nat → W32 → W32

/-- The SM3 digest (a published standard, 15 R362): 32 bytes (entry 5). -/
opaque sm3 : List Byte → List Byte

/-- SM2 verification under ROM key KEYID: digest, signature (entry 5). -/
opaque sm2Verify : Nat → List Byte → List Byte → Bool

/-- SM2 signature with the identity key (entry 5). -/
opaque sm2Sign : List Byte → List Byte

/-- SM2 decryption of WRAP with the exchange key, giving the image key (entry 5). -/
opaque sm2Unwrap : List Byte → List Byte

/-- SM4 in CTR mode: key, initial counter block, data (entry 5). -/
opaque sm4Ctr : List Byte → List Byte → List Byte → List Byte

/-- Fused figures of the unit (15 R366, R367): serial number, site code, ROM version, public keys, certificate. -/
opaque serial : W64
opaque site : BitVec 16
opaque romVer : W32
opaque idPub : List Byte
opaque xPub : List Byte
opaque cert : List Byte

/-- MCTP versions that the device reports for a message type, four bytes each (14 R347, log entry 38, PRESUMED). -/
opaque mctpVersions : Nat → List Byte

end Sys2Proof.Config
end

