-- ==== Sys2Proof/Machine/State.lean ====
section
/-! DEFINITION. The state of the block: plain data, everything the spec gives the device, and the queue of waiting
commands. A field's docstring gives its width, the file and rule of spec/ that names it and its value at reset. -/

namespace Sys2Proof.Machine

/-- A table from numbers to values: keys strictly rising; an unlisted key has the table's default. -/
abbrev Tab (α : Type) := List (Nat × α)

/-- Bytes of one tier or buffer: addresses strictly rising, no entry equal to 0 (log entry 4, DESIGN CHOICE). -/
abbrev Memory := List Host.Cell

/-- A number that never equals a real count or index: "none" where a field is a plain number. -/
abbrev none64 : Nat := 0xffff_ffff_ffff_ffff

/-- The model's stops. None is ordinary: every command has a next state wherever the spec gives an effect. -/
inductive Fault where
  /-- Raised by no command: the spec gives the block no fault that stops it (faults are records in State). Safe. -/
  | none
  deriving DecidableEq, Repr

/-- The model's refusals. -/
inductive Refusal where
  /-- An arm of exec without a meaning; raised by Dispatch alone. Safe. -/
  | notModelled (mnemonic : String)
  deriving DecidableEq, Repr

/-! ### The array -/

/-- A channel word (05 R92, R93): payload and tag. The 16 check bits are a function of the rest under a code the
manual does not give (log entry 8, DEDUCED) and are not held. -/
structure Chan where
  /-- payload; 512 bits -/
  payload : Line
  /-- LOOP, loop index; 16 bits -/
  loop : BitVec 16
  /-- KIND: 0 data, 1 control, 2 drain marker, 3 configuration; 2 bits -/
  kind : BitVec 2
  /-- EPOCH; 4 bits -/
  epoch : BitVec 4
  /-- context label of the channel; 3 bits -/
  ctx : BitVec 3
  deriving DecidableEq, Repr

/-- A word in a tile's collector FIFO, with the label and role it was delivered with (07 R147). -/
structure Coll where
  /-- the channel word; 559 bits -/
  word : Chan
  /-- label it was delivered with; 3 bits -/
  label : Nat
  /-- queue role of its entry; 2 bits -/
  role : Nat
  deriving DecidableEq, Repr

/-- One decoded weight operand (03 R62, R65; 04 R79): its code and the NaN flag kept beside it. -/
structure Weight where
  /-- operand code; 16 bits -/
  code : BitVec 16
  /-- NaN flag kept beside a code that has none; 1 bit -/
  nan : Bool
  deriving DecidableEq, Repr

/-- One half of the decoded weight buffer (03 R65): the weight tile it holds, weights in k-major order (8 to a k),
and the block scales (04 R80), 8 columns to each 32 k. -/
structure Half where
  /-- weight tile it holds; 12 bits -/
  kt : Nat
  /-- decoded weights, eight to an index k; up to 2,048 of 16 bits and a flag -/
  weights : List Weight
  /-- block scales, eight to each 32 indices; 8 bits each -/
  scales : List Byte
  deriving DecidableEq, Repr

/-- A pass in progress (03 R58; 06 R127): where the loop nest stands, and what the units between queue W and the
accumulators hold. -/
structure Pass where
  /-- context slot that the pass serves; 3 bits -/
  slot : Nat
  /-- loop index stamped on the pass's outputs (05 R95) -/
  loop : BitVec 16
  /-- the loop index has been taken; 1 bit -/
  stamped : Bool
  /-- problem d, its sizes and offsets (06 R126, R127) -/
  d : Nat
  /-- problems of the pass; 10 bits -/
  nprob : Nat
  /-- repetitions of the problem; 10 bits -/
  rep : Nat
  /-- row groups; 9 bits -/
  nrg : Nat
  /-- weight tiles; 13 bits -/
  nkt : Nat
  /-- offset of the activations; 10 bits -/
  aoff : Nat
  /-- offset of the partial sums; 10 bits -/
  poff : Nat
  /-- offset of the outputs; 10 bits -/
  ooff : Nat
  /-- the problem is skipped (SKIP); 1 bit -/
  skip : Bool
  /-- a further token is required (GNXT); 1 bit -/
  gnxt : Bool
  /-- the pass waits for the token that GNXT calls for -/
  waitGnxt : Bool
  /-- repetition, weight tile, row group, reduction index, quarter of the next beat -/
  j : Nat
  /-- weight tile of the next beat; 12 bits -/
  kt : Nat
  /-- row group of the next beat; 8 bits -/
  rg : Nat
  /-- reduction index of the next beat; 9 bits -/
  k : Nat
  /-- quarter of the next beat with 16-bit operands; 2 bits -/
  quarter : Nat
  /-- the bank of the next beat's row group has been loaded -/
  loaded : Bool
  /-- banks that wait to be stored or drained, oldest first: bank, first scratchpad line, whether it drains -/
  finished : List (Nat × Nat × Bool)
  /-- words of the drain in progress still to be sent on local out 0 -/
  outw : List Line
  /-- words of the unit of weights being accepted and decoded: a coded frame, or a block of words (03 R60) -/
  frame : List Line
  /-- weight tiles started by the expander in the problem in progress -/
  ktStarted : Nat
  /-- weights of the present unit decoded so far -/
  decoded : Nat
  /-- decoded weight buffer, oldest half first; 03 R65; two halves -/
  halves : List Half
  /-- line of the row group that the oldest place of the staging ring q0 to q7 holds; 03 R39, R57 -/
  ringBase : Nat
  /-- lines in the staging ring, line i in q(i mod 8); 03 R39 -/
  ringLen : Nat
  /-- starting partial sums taken from queue P for the row group that is loaded next -/
  psum : List Line
  /-- the other bank holds the partial sums of the row group after the one in progress; 03 R59 -/
  ahead : Bool
  /-- check row (07 R156): c(0..7) and g(0..7) -/
  cRow : List W32
  /-- check row g(0..7); 07 R156; 8 x 32 bits -/
  gRow : List W32
  /-- the bounds of the pass's per-problem work have run out: only drains remain -/
  spent : Bool
  deriving DecidableEq, Repr

/-- A counter run in progress (05 R103): iterations, next iteration, run number; `endTok` when only the run-end token
remains. -/
structure CtrRun where
  /-- iterations of the run; 17 bits -/
  n : Nat
  /-- next iteration; 16 bits -/
  i : Nat
  /-- run number; 16 bits -/
  run : Nat
  /-- only the run-end token remains; 1 bit -/
  endTok : Bool
  deriving DecidableEq, Repr

/-- What a steering, counter or move slot of a tile holds between grants. -/
structure SlotRun where
  /-- fork copies still to send: next copy, number of copies, the token, its ACT (05 R99) -/
  fork : Option (Nat × Nat × Chan × Nat)
  /-- second word of a firing that sends twice on local out 0 (05 Table 5, merge ACT 2) -/
  second : Option Chan
  /-- counter run in progress -/
  ctr : Option CtrRun
  /-- runs begun in this epoch -/
  runs : Nat
  /-- move pass in progress: words copied so far, loop index stamp (03 R51) -/
  mv : Option (Nat × BitVec 16)
  /-- count of the watch clock at which the context was found waiting; none when not (05 R119) -/
  waitSince : Option Nat
  deriving DecidableEq, Repr

/-- A tile (03, 05). Every field's reset value is that of the partition array reset (05 R108) where the spec gives
one, else zero (log entry 3, DESIGN CHOICE). -/
structure Tile where
  /-- active epoch; 4 bits; 05 R105, R108; reset 0 -/
  epoch : BitVec 4
  /-- active context words, one per slot; 8 x 512 bits; 03 R48; reset V = 0 (R108) -/
  ctxA : Tab Line
  /-- pending context words that have arrived, one per slot; 8 x 512 bits; 03 R48; reset none (R108) -/
  ctxP : Tab Line
  /-- active router word; 512 bits; 03 R45; reset V = 0 (R108) -/
  rwA : Line
  /-- pending router word, if it has arrived; 512 bits; 03 R45; reset none (R108) -/
  rwP : Option Line
  /-- marker-passed bits, one per router entry; 56 bits; 05 R111; reset all set: the reset router word uses no entry -/
  passed : BitVec 56
  /-- router input queues, key 8 x input + label, two words each; 03 R43; reset empty (R377) -/
  inq : Tab (List Chan)
  /-- configuration queues of the inputs, two words each; 05 R114; reset empty -/
  cfgq : Tab (List Chan)
  /-- words held at an input by a fault, by input; 05 R117, 03 R46, 05 R94; reset none -/
  held : Tab Chan
  /-- words that have left at outputs N, E, S, W, XN, XE, XS, XW, at most one of each channel and one of the configuration
  path; 02 R22, 05 R114; reset empty -/
  latch : Tab (List Chan)
  /-- words that contexts have handed to local out 0 and 1; 03 R42; reset empty -/
  lout : Tab (List Chan)
  /-- per-context queues, key 4 x slot + role (A W P C), two words each; 03 R43; reset empty -/
  q : Tab (List Chan)
  /-- channels waiting for each output, in order, key output code: 9 x input + label, label 8 the configuration queue; 03
  R44; reset empty -/
  waiters : Tab (List Nat)
  /-- contexts that have ended the epoch; 8 bits; 05 R112; reset 0 -/
  ended : BitVec 8
  /-- contexts stopped by a drain or pairing fault; 8 bits; 05 R113, R101; reset 0 -/
  stopped : BitVec 8
  /-- watch-clock count when the first marker-passed bit of the epoch was set; 05 R119; reset none -/
  firstMark : Option Nat
  /-- watch-clock count when a token of the next epoch was first held in this one; 05 R111, R119; reset none -/
  heldSince : Option Nat
  /-- a word of the next configuration was refused, so that epoch does not start here; 03 R52; reset 0 -/
  cfgBad : Bool
  /-- generator stream 0 (drains); 32 bits; 04 R83; reset 0 (log entry 3, DESIGN CHOICE: loaded at the first epoch switch) -/
  gen0 : W32
  /-- generator stream 1 (expander); 32 bits; 04 R83; reset 0 (log entry 3, DESIGN CHOICE) -/
  gen1 : W32
  /-- scratchpad; 1,024 lines of 512 bits; 03 R41; reset 0 (log entry 3, DESIGN CHOICE) -/
  scratch : Tab Line
  /-- register file q0 to q31 of 512 bits (q16-q31 the accumulator banks); 03 R39, R40; reset 0 (log entry 3, DESIGN CHOICE) -/
  regs : Tab Line
  /-- matrix pass in progress (what q8 to q15 hold of the problem in progress, and the decoded weight buffer; the layout of q8 to q15 is
  not in the spec); 03 R58, R65; reset none -/
  pass : Option Pass
  /-- per-slot state of steering, counter and move contexts; 05 R99, R103; reset idle -/
  slots : Tab SlotRun
  /-- slot last granted by the arithmetic unit, the move path, the steering unit; 05 R105; reset 7, 7, 7 (log entry 3, DESIGN CHOICE: search starts at slot 0) -/
  lastA : Nat
  /-- slot last granted by the move path; 3 bits -/
  lastM : Nat
  /-- slot last granted by the steering unit; 3 bits -/
  lastS : Nat
  /-- slot last served by local out 0 and 1; 05 R105; reset 7, 7 (log entry 3, DESIGN CHOICE) -/
  lastO : Tab Nat
  /-- lines that nothing has written since the last step read free values, drawn with this number; none since power-on
  (03 R41, 13 R305); reset none -/
  junk : Option Nat
  /-- slot that holds the steering unit: a firing of several sends is under way; 05 R99, R105; reset none -/
  unitS : Option Nat
  /-- check FIFO, two words; 07 R157; reset empty -/
  checkFifo : List Line
  /-- collector FIFO of this tile, four words; 07 R147; reset empty -/
  coll : List Coll
  deriving DecidableEq, Repr

/-- A word waiting in one lane of a block's operand port (06 R121, 07 R145). -/
structure PortItem where
  /-- tile index within the block (07 R144) -/
  tile : Nat
  /-- none: a scratchpad line write; some (4 x slot + role): a queue delivery -/
  dest : Option Nat
  /-- scratchpad line; 10 bits -/
  line : Nat
  /-- the channel word; 559 bits -/
  word : Chan
  deriving DecidableEq, Repr

/-- Selection and counts that RTCNT adds (08 R175): for each covered position its two experts; whether top-2. -/
structure LastRt where
  /-- layer of the last RTSEL; 16 bits -/
  layer : Nat
  /-- it was top-2; 1 bit -/
  k2 : Bool
  /-- first choice of each position; 10 bits each -/
  e1 : List Nat
  /-- second choice of each position; 10 bits each -/
  e2 : List Nat
  deriving DecidableEq, Repr

/-- A vector engine (07). Reset values not given by the spec are zero (log entry 3, DESIGN CHOICE). -/
structure Ve where
  /-- v0-v31; 64 lanes x 32 bits; 07 R137; reset 0 -/
  v : Tab VReg
  /-- s1-s15 (s0 reads zero); 32 bits; 07 R137; reset 0 -/
  s : Tab W32
  /-- m1-m7 (m0 reads all ones); 64 bits; 07 R137; reset 0 -/
  m : Tab (BitVec 64)
  /-- number that the free values of registers not written since the last start of a program or of the array are drawn
  with; none since power-on; 07 R137; reset none -/
  junk : Option Nat
  /-- program counter; 15 bits; 07 R137; reset 0 -/
  pc : BitVec 15
  /-- VE epoch; 4 bits; 07 R137, R108; reset 0 -/
  epv : BitVec 4
  /-- lane generators; 64 x 32 bits; 07 R137, R155; reset as R155 loads them at EPV 0 with seed 0 is done at array reset; before it 0 -/
  gens : VReg
  /-- buffer mode; 07 R162; reset true -/
  buffer : Bool
  /-- a program is running; 07 R140 HALT; reset false -/
  running : Bool
  /-- program slots 0 to 3, the words EPLD read; 07 R151; reset empty -/
  slots : Tab (List W32)
  /-- operand cache; 65,536 words of 32 bits; 07 R142; reset 0 -/
  cache : Tab W32
  /-- operand cache initialised since the block's last reset; 07 R164; reset false -/
  cacheInit : Bool
  /-- the four buffers of buffer mode; 4,096 words of 32 bits; 07 R163; reset 0 with valid parity -/
  buf : Tab W32
  /-- mailboxes 0 to 7 of 8 channel words; 07 R148; reset empty -/
  mail : Tab (List Chan)
  /-- words arrived from the VE network and not yet in a mailbox, with their mailbox; 07 R134; reset empty -/
  arrived : List (Nat × Chan)
  /-- port's record of marked queues, 512 x tile + 4 x slot + role; 07 R145; reset empty -/
  marked : List Nat
  /-- transfer ids outstanding; at most 16; 07 R149; reset empty -/
  txOut : List Nat
  /-- status of the first failing transfer since TXWAIT; 16 bits; 07 R149; reset 0 -/
  txFail : Nat
  /-- a CKCMP has failed since the last CKDONE; 07 R161; reset false -/
  ckFailed : Bool
  /-- positions of the last RTSEL in MODE 0 or 1; 08 R175; reset empty -/
  lastRt : LastRt
  /-- operand port lanes, key tile column 0 to 7; 06 R121; reset empty -/
  lanes : Tab (List PortItem)
  /-- corrected single-bit errors of the block; 05 R94, 07 R142; reset 0 -/
  softErrors : Nat
  /-- the count at which the instruction at pc began to wait, on the watch clock; 07 R135; reset none -/
  waitSince : Option Nat
  /-- the spare VE of the die serves this block; 07 R136; reset false -/
  spare : Bool
  deriving DecidableEq, Repr

/-- A word in flight on the VE network (07 R148). -/
structure NetWord where
  /-- source block; 7 bits -/
  src : Nat
  /-- destination block; 7 bits -/
  dst : Nat
  /-- mailbox; 3 bits -/
  box : Nat
  /-- the channel word; 559 bits -/
  word : Chan
  deriving DecidableEq, Repr

/-! ### Commands, replies, events -/

/-- An accepted command (12 R279, R283): header fields, parameter block, arrival port, acceptance count, ORDER. -/
structure Cmd where
  /-- source, SRC; 2 bits -/
  port : Nat
  /-- opcode; 16 bits -/
  opc : Nat
  /-- PART; 8 bits -/
  part : Nat
  /-- FLAGS; 8 bits -/
  flags : Nat
  /-- SEQ; 32 bits -/
  seq : Nat
  /-- BUDGET in us; 32 bits -/
  budget : Nat
  /-- TAG; 64 bits -/
  tag : W64
  /-- PLEN; 32 bits -/
  plen : Nat
  /-- parameter block; PLEN bytes -/
  params : List Byte
  /-- acceptance count; 64 bits -/
  acount : Nat
  /-- ORDER; 32 bits -/
  order : Nat
  deriving DecidableEq, Repr

/-- A reply (12 Table 4), final, interim or NACC. -/
structure Reply where
  /-- RFLAGS: INTERIM, NACC, time quality, EVENT; 8 bits -/
  rflags : Nat
  /-- STATUS; 16 bits -/
  status : Nat
  /-- opcode answered; 16 bits -/
  opc : Nat
  /-- PART; 8 bits -/
  part : Nat
  /-- SRC; 8 bits -/
  src : Nat
  /-- SEQ; 32 bits -/
  seq : Nat
  /-- TAG; 64 bits -/
  tag : W64
  /-- ACOUNT, acceptance count; 64 bits -/
  acount : Nat
  /-- CCOUNT, completion count; 64 bits -/
  ccount : Nat
  /-- ORDER; 32 bits -/
  order : Nat
  /-- DETAIL; 32 bits -/
  detail : Nat
  /-- body; BLEN bytes -/
  body : List Byte
  deriving DecidableEq, Repr

/-- An event (12 R287, R297). -/
structure Event where
  /-- event code; 16 bits -/
  code : Nat
  /-- SEQ of the master's events; 32 bits -/
  seq : Nat
  /-- the time-quality flag: TIMEREF is lost; 1 bit -/
  timeQuality : Bool
  /-- body; bytes -/
  body : List Byte
  deriving DecidableEq, Repr

/-- What the device sends to a master. -/
inductive Packet where
  | reply (r : Reply)
  | event (e : Event)
  /-- a boot packet: BTYPE, body (15 R361) -/
  | boot (btype : Nat) (body : List Byte)
  /-- an answer to an MCTP control message: command code, completion code, body (14 R347) -/
  | mctp (code completion : Nat) (body : List Byte)
  deriving DecidableEq, Repr

/-- The local time counter and its source (02 R25, R26). -/
structure Time where
  /-- local time counter; 64 bits; 02 R25; reset 0 (cleared when the always-on supply becomes good) -/
  count : Nat
  /-- TIMEREF declared lost: the internal oscillator is the source; 02 R26; reset false -/
  lost : Bool
  /-- the oscillator made the last advance; 02 R26; reset false -/
  bridging : Bool
  /-- the watch clock: counts during which injection was not gated to zero; 17 R417; reset 0 -/
  watch : Nat
  deriving DecidableEq, Repr

/-- The command sequencer (12). -/
structure Seqr where
  /-- expected sequence number of each source 0 to 3; 32 bits; 12 R281; reset 0 -/
  expect : Tab Nat
  /-- queues: key 0 to 15 partitions, 16 the device; in total order; 12 R285; reset empty -/
  queues : Tab (List Cmd)
  /-- commands begun and not completed; 12 R280 (ORDER); reset empty -/
  running : List Cmd
  /-- headers accepted so far in the count `lastCount`; 12 R283; reset 0 -/
  inCount : Nat
  /-- the count of the last accepted header; 64 bits -/
  lastCount : Nat
  /-- packets shorter than a header, per port; 12 R445; reset 0 -/
  short : Tab Nat
  /-- SEQ of the next event for master 0 C, 1 A, 2 B; 32 bits; 12 R287; reset 0 -/
  eventSeq : Tab Nat
  deriving DecidableEq, Repr

/-- Outputs to the masters and the twin, oldest first; reset empty (12 R287; 14 R345; 15 R361). -/
structure Out where
  /-- sent on Iberaine channel 1 -/
  iberaine : List Packet
  /-- replies and events held while the Iberaine port is down; 8 MiB; 14 R345 -/
  heldC : List Packet
  /-- replies and events discarded because the buffer was full; 14 R345; reset 0 -/
  disc : Nat
  /-- sent on management port 0 and 1 -/
  mgmtA : List Packet
  /-- sent on management port 1; packets -/
  mgmtB : List Packet
  /-- replies to the twin, on stream 14; 14 R342 -/
  twin : List Packet
  /-- packets of `iberaine` and of `twin` already laid into frames; 14 R333, R342 -/
  framedC : Nat
  /-- packets of `twin` already laid into frames; count -/
  framedT : Nat
  deriving DecidableEq, Repr

/-! ### Partitions -/

/-- A range entry of the partition table (13 Table 2). -/
structure RangeEnt where
  /-- read only; 1 bit -/
  ro : Bool
  /-- tier; 2 bits -/
  tier : Nat
  /-- first frame; 32 bits -/
  first : Nat
  /-- COUNT, frames; 24 bits -/
  count : Nat
  deriving DecidableEq, Repr

/-- A partition table entry (13 Table 1). -/
structure PartEntry where
  /-- BCOLS, one bit per block column; 16 bits -/
  bcols : BitVec 16
  /-- GBASE, first grain; 32 bits -/
  gbase : Nat
  /-- GCOUNT, grains; 32 bits -/
  gcount : Nat
  /-- DBASE, first drawer entry; 32 bits -/
  dbase : Nat
  /-- DLIMIT, drawer entries; 32 bits -/
  dlimit : Nat
  /-- first frame of the save area; 32 bits -/
  savefirst : Nat
  /-- frames of the save area; 32 bits -/
  saveframes : Nat
  /-- used range entries with their index in RANGES -/
  ranges : List (Nat × RangeEnt)
  /-- the 160 bytes as given (15 R367, PTDIG) -/
  raw : List Byte
  deriving DecidableEq, Repr

/-- Role of a partition number (13 R298). -/
inductive Role where
  | unused
  | primary
  | mirror
  deriving DecidableEq, Repr

/-- Pre-emption state of a partition (13 R305 to R310). -/
inductive Preempt where
  | running
  | yielding
  | yielded
  | quiescing
  | saving
  | evicted
  | reloading
  deriving DecidableEq, Repr

/-- The yield record (13 R305), with the eviction flag of R307. -/
structure YieldRec where
  /-- queue position; 64 bits -/
  queuePos : Nat
  /-- admitted requests; 32 bits -/
  admitted : Nat
  /-- next step id; 64 bits -/
  nextStep : Nat
  /-- next round; 32 bits -/
  nextRound : Nat
  /-- epoch; 4 bits -/
  epoch : BitVec 4
  /-- active model; 16 bits -/
  model : Option Nat
  /-- eviction flag; 1 bit -/
  evicted : Bool
  deriving DecidableEq, Repr

/-- The saved state of a tile (13 Table 6 phase 4; 16 R391). -/
structure TileRec where
  /-- logical tile number; 13 bits -/
  t : Nat
  /-- active epoch; 4 bits -/
  epoch : BitVec 4
  /-- active context words; 8 x 512 bits -/
  ctxA : Tab Line
  /-- pending context words; 8 x 512 bits -/
  ctxP : Tab Line
  /-- active router word; 512 bits -/
  rwA : Line
  /-- pending router word; 512 bits -/
  rwP : Option Line
  /-- marker-passed bits; 56 bits -/
  passed : BitVec 56
  /-- generator stream 0; 32 bits -/
  gen0 : W32
  /-- generator stream 1; 32 bits -/
  gen1 : W32
  /-- scratchpad; 1,024 x 512 bits -/
  scratch : Tab Line
  /-- draw number of its unwritten lines -/
  junk : Option Nat
  deriving DecidableEq, Repr

/-- The saved state of a VE (13 Table 6 phases 3 and 4). -/
structure VeRec where
  /-- block; 7 bits -/
  b : Nat
  /-- VE epoch; 4 bits -/
  epv : BitVec 4
  /-- program slots; 4 slots -/
  slots : Tab (List W32)
  /-- mask registers; 8 x 64 bits -/
  m : Tab (BitVec 64)
  /-- lane generators; 64 x 32 bits -/
  gens : VReg
  /-- operand cache; 65,536 x 32 bits -/
  cache : Tab W32
  /-- codebook RAM; 2 x 4,096 x 64 bits -/
  codebook : Tab W64
  deriving DecidableEq, Repr

/-- A save image (13 R307). -/
structure SaveImage where
  /-- tile records; 2 KiB each and the scratchpad -/
  tiles : List TileRec
  /-- VE records; one per block -/
  ves : List VeRec
  deriving DecidableEq, Repr

/-- Balancing parameters and window of one layer (08 Table 5, R176), and its bias tables (R174). -/
structure Balance where
  /-- ENABLE; 1 bit -/
  enable : Bool
  /-- PERIOD; 16 bits -/
  period : Nat
  /-- DELTA, FP16; 16 bits -/
  delta : BitVec 16
  /-- BMAX, FP16; 16 bits -/
  bmax : BitVec 16
  /-- parameters written during a window, taken when it ends -/
  next : Option (Bool × Nat × BitVec 16 × BitVec 16)
  /-- routing steps gathered in the window and demand per expert -/
  gathered : Nat
  /-- demand of each expert in the window; 64 bits each -/
  load : Tab Nat
  /-- a window is being gathered -/
  active : Bool
  /-- count at which ENABLE was last set to 1: a fresh window starts at the first routing step that begins after it -/
  since : Nat
  /-- bias table A; E x 16 bits -/
  biasA : List (BitVec 16)
  /-- bias table B; E x 16 bits -/
  biasB : List (BitVec 16)
  /-- selector: false A, true B -/
  sel : Bool
  deriving DecidableEq, Repr

/-- An expert map entry (08 Table 6). -/
structure XEntry where
  /-- ADDR; 64 bits -/
  addr : W64
  /-- LEN; 32 bits -/
  len : Nat
  /-- HMEM, home member; 4 bits -/
  hmem : Nat
  /-- V; 1 bit -/
  v : Bool
  deriving DecidableEq, Repr

/-- An installed model configuration (12 Table 8). -/
structure Model where
  /-- PMAX, positions of a step; 16 bits -/
  pmax : Nat
  /-- MAXREQ; 16 bits -/
  maxreq : Nat
  /-- CH, prefill chunk; 16 bits -/
  ch : Nat
  /-- TBPP, tail bytes per position, in lines; 16 bits -/
  tbpp : Nat
  /-- STEPEST in counts; 32 bits -/
  stepest : Nat
  /-- IN_W; 8 bits -/
  inW : Nat
  /-- OUT_W; 8 bits -/
  outW : Nat
  /-- GSIZE, members of the group; 8 bits -/
  gsize : Nat
  /-- GMEM, own member index; 8 bits -/
  gmem : Nat
  /-- first frame of the window; 32 bits -/
  wfirst : Nat
  /-- layer frames of the window; 32 bits -/
  wlayer : Nat
  /-- adapter frames of the window; 32 bits -/
  wadapt : Nat
  /-- PKG, address of the package; 64 bits -/
  pkg : W64
  /-- XMAP, address of the expert map; 64 bits -/
  xmap : W64
  /-- OBUF, region table index of the output buffer (log entry 24, DESIGN CHOICE); 32 bits -/
  obuf : Nat
  /-- RLIM, return limit in counts; 32 bits -/
  rlim : Nat
  /-- GROUP: (chip, partition) per member -/
  group : List (Nat × Nat)
  /-- default stop tokens; 4 x 32 bits -/
  dstop : List Nat
  /-- TADP, address of the adapter table; 64 bits -/
  tadp : W64
  /-- vocabulary, from the package; 32 bits -/
  vocab : Nat
  /-- layer table, from the package; one per routed layer -/
  layers : List LayerInfo
  /-- per routed layer: balancing loop and bias tables -/
  bal : Tab Balance
  deriving DecidableEq, Repr

/-- A budget entry (11 Table 3). -/
structure Budget where
  /-- BAL, signed; 64 bits -/
  bal : Int
  /-- RES; 64 bits -/
  res : Nat
  /-- USED, saturating; 64 bits -/
  used : Nat
  /-- IN_W; 8 bits -/
  inW : Nat
  /-- OUT_W; 8 bits -/
  outW : Nat
  /-- WSET; 1 bit -/
  wset : Bool
  deriving DecidableEq, Repr

/-- Accounting counters (13 Table 9), 64 bits each, saturating; reset 0. -/
structure Acct where
  /-- SINCE, count of the last clear; 64 bits -/
  since : Nat
  /-- NOW, end of the last whole accounting interval; 64 bits -/
  now : Nat
  /-- TBEATS; 64 bits -/
  tbeats : Nat
  /-- VEISSUE; 64 bits -/
  veissue : Nat
  /-- read and written bytes of tiers 0, 1, 2: key 2 x tier + (1 when written) -/
  tierb : Tab Nat
  /-- FABB sent; 64 bits -/
  fabSent : Nat
  /-- FABB received; 64 bits -/
  fabRecv : Nat
  /-- ENERGY; 64 bits -/
  energy : Nat
  /-- REMBEATS; 64 bits -/
  remBeats : Nat
  /-- REMTBYTES; 64 bits -/
  remTbytes : Nat
  /-- SERVBEATS; 64 bits -/
  servBeats : Nat
  /-- SERVTBYTES; 64 bits -/
  servTbytes : Nat
  /-- STEPS; 64 bits -/
  steps : Nat
  /-- ABANDON; 64 bits -/
  abandon : Nat
  /-- ISOL; 64 bits -/
  isol : Nat
  /-- STALE; 64 bits -/
  stale : Nat
  /-- LATE; 64 bits -/
  late : Nat
  /-- activity since the last accounting interval: tile-beats plus VE issues west, east; tier bytes 0, 1, 2; fabric bytes (13 Table 10) -/
  act : Tab Nat
  deriving DecidableEq, Repr

/-- The commit record (11 Table 8). -/
structure CommitRec where
  /-- GEN; 16 bits -/
  gen : Nat
  /-- ROUND; 32 bits -/
  round : Nat
  /-- CSTEP; 64 bits -/
  cstep : Nat
  /-- CCOUNT; 64 bits -/
  ccount : Nat
  /-- PSTEP; 64 bits -/
  pstep : Nat
  /-- PCOUNT; 64 bits -/
  pcount : Nat
  /-- NMEM; 32 bits -/
  nmem : Nat
  /-- NEND; 32 bits -/
  nend : Nat
  /-- NOBJ; 32 bits -/
  nobj : Nat
  /-- PART bit 7, in pair mode; 1 bit -/
  pair : Bool
  deriving DecidableEq, Repr

/-- An admitted request (11 R251, R256, R261). -/
structure Req where
  /-- its REQUEST; command -/
  cmd : Cmd
  /-- tenant; 8 bits -/
  tenant : Nat
  /-- SKIPB, skip bytes are returned; 1 bit -/
  skipb : Bool
  /-- ADPT, an adapter is used; 1 bit -/
  adpt : Bool
  /-- stop tokens; 32 bits each -/
  stops : List Nat
  /-- drawer it reads; 24 bits -/
  drawer : Option Nat
  /-- KV region it uses; 16 bits -/
  region : Option Nat
  /-- I, input positions; 32 bits -/
  i : Nat
  /-- G, tokens at most; 32 bits -/
  g : Nat
  /-- input tokens; 32 bits each -/
  input : List Nat
  /-- admission index and count -/
  index : Nat
  /-- count of admission; 64 bits -/
  admitCount : Nat
  /-- readiness: the count at which the drawer is open and the adapter staged; none64 while not -/
  openReady : Nat
  /-- count at which the adapter was staged; none64 while not; 64 bits -/
  adapterReady : Nat
  /-- IN_W at admission; 8 bits -/
  inW : Nat
  /-- OUT_W at admission; 8 bits -/
  outW : Nat
  /-- units charged so far; 64 bits -/
  charged : Nat
  /-- input positions processed and tokens sampled in published steps -/
  done : Nat
  /-- tokens sampled in published steps; 32 bits each -/
  toks : List Nat
  /-- positions processed in published steps (input and decode) -/
  npos : Nat
  /-- count of the first token; 0 while none; 64 bits -/
  first : Nat
  /-- last step published for it; 64 bits -/
  lastStep : Nat
  /-- commit count of the last step published for it; 0 when none -/
  lastCount : Nat
  /-- has been a member of a step -/
  joined : Bool
  /-- skip bytes to return; 8 bits each -/
  skips : List Byte
  /-- CANCELs taken up for it that wait for its end -/
  cancel : List Cmd
  deriving DecidableEq, Repr

/-- A member of a running step (11 R254): admission index, first slot, positions, in decode. -/
structure Member where
  /-- admission index; 32 bits -/
  index : Nat
  /-- first slot; 16 bits -/
  slot : Nat
  /-- positions; 16 bits -/
  n : Nat
  /-- in decode; 1 bit -/
  decode : Bool
  /-- ended within the step: status, DETAIL (09 R216, 08 R183); its fields are not advanced -/
  ended : Option (Nat × Nat)
  /-- cancelled under the first case of R13 -/
  skipped : Bool
  deriving DecidableEq, Repr

/-- One entry of the return filter and dispatch record (08 R182): the layer, expert, home member, the VE and mailbox,
and the slots whose rows it carries; whether its return has come. -/
structure Dispatch where
  /-- layer; 16 bits -/
  layer : Nat
  /-- expert; 10 bits -/
  expert : Nat
  /-- home member; 4 bits -/
  home : Nat
  /-- VE that waits; 7 bits -/
  ve : Nat
  /-- slots whose rows it carries; 12 bits each -/
  slots : List Nat
  /-- its return has come; 1 bit -/
  returned : Bool
  deriving DecidableEq, Repr

/-- Routing of one position in a layer (08 R169, R171): its choices (1,024: no second choice), their slots within capacity,
D1 and D2, and where its record lies: block and word address. -/
structure Pick where
  /-- first choice; 10 bits -/
  e1 : Nat
  /-- its place; 12 bits -/
  s1 : Nat
  /-- it is dropped; 1 bit -/
  d1 : Bool
  /-- second choice; 1,024 none; 10 bits -/
  e2 : Nat
  /-- its place; 12 bits -/
  s2 : Nat
  /-- it is dropped; 1 bit -/
  d2 : Bool
  /-- block of the record; 7 bits -/
  b : Nat
  /-- word address of the record; 16 bits -/
  at_ : Nat
  deriving DecidableEq, Repr

/-- A routed layer of the running step (08 R182): open flag, limit count. -/
structure LayerFilter where
  /-- layer; 16 bits -/
  layer : Nat
  /-- returns are accepted; 1 bit -/
  opened : Bool
  /-- count of the return limit; 64 bits -/
  limit : Nat
  deriving DecidableEq, Repr

/-- A step in progress (11 R253 to R255, R276). -/
structure Step where
  /-- step id; 64 bits -/
  id : Nat
  /-- round; 32 bits -/
  round : Nat
  /-- batch generation; 16 bits -/
  gen : Nat
  /-- count of its begin; 64 bits -/
  begin : Nat
  /-- the count that decided its membership (01 R12) and decides between the cases of a cancel (R13) -/
  since : Nat
  /-- members; up to MAXREQ -/
  members : List Member
  /-- positions; 16 bits -/
  npos : Nat
  /-- drawers whose close or commit rides: the drawer id -/
  riders : List Nat
  /-- the stream program reached END; commit logic asked for verdicts -/
  ended : Bool
  /-- the publish fence has been taken (order 3); 1 bit -/
  fenced : Bool
  /-- count of the fence; 64 bits -/
  fenceAt : Nat
  /-- verdicts by block: true passed -/
  verdicts : Tab Bool
  /-- a VE result check of the step has failed: blocks -/
  failedVe : List Nat
  /-- skip mask bits, key 4,096 x layer + slot: D1, D2 (08 R173) -/
  skip : Tab (Bool × Bool)
  /-- routing of the step's positions, key as `skip`; 08 R169 -/
  picks : Tab Pick
  /-- layers routed in the step, and demand gathered: key 1,024 x layer + expert -/
  routed : List Nat
  /-- demand, key 1,024 x layer + expert; 08 R175; 64 bits each -/
  demand : Tab Nat
  /-- return filter and dispatch records; 08 R182; entries -/
  dispatches : List Dispatch
  /-- routed layers; 08 R182; entries -/
  filters : List LayerFilter
  /-- work of the step, added at its publish or end (13 R314) -/
  tbeats : Nat
  /-- VE issues of the step; 64 bits -/
  veissue : Nat
  /-- tier bytes of the step, key 2 x tier + (1 when written); 64 bits each -/
  tierb : Tab Nat
  /-- fabric bytes sent for it; 64 bits -/
  fabSent : Nat
  /-- fabric bytes received for it; 64 bits -/
  fabRecv : Nat
  /-- sampled tokens at its commit, by admission index (log entry 13, DEDUCED) -/
  toks : List (Nat × Nat)
  /-- transfers of an expert that failed: layer, expert, status, DETAIL; 09 R216 -/
  failed : List (Nat × Nat × Nat × Nat)
  /-- bias selectors the step read when it began: key layer, true B (08 R174) -/
  sel : Tab Bool
  deriving DecidableEq, Repr

/-- A step committed and waiting for its publish (11 Table 9, orders 6 to 8). -/
structure PubWait where
  /-- the committed step; a step -/
  step : Step
  /-- commit count -/
  ccount : Nat
  /-- count at which its RECORD was sent -/
  sentAt : Nat
  /-- requests that end at this publish: their REQUEST, status, DETAIL -/
  ends : List (Cmd × Nat × Nat)
  /-- charges of its members: their REQUEST, tenant, units -/
  charges : List (Cmd × Nat × Nat)
  /-- its members as the step before had left them -/
  before : List Req
  deriving DecidableEq, Repr

/-- A drawer operation in progress (11 Table 6): kind 2 open, 3 close, 4 commit, 5 move (as opcodes 0x040x). -/
structure DrawerOp where
  /-- 2 open, 3 close, 4 commit, 5 move; opcode 0x040x -/
  kind : Nat
  /-- index in the drawer table -/
  drawer : Nat
  /-- its command; command -/
  cmd : Cmd
  /-- grains still to be moved -/
  grains : List Nat
  /-- target tier; 2 bits -/
  tier : Nat
  /-- completion count of the last home switch so far, for a close from its publish on; none64 when none -/
  lastSwitch : Nat
  /-- 0 check running, 1 moving, 2 waits for its step, 3 rides the running step, 4 its step waits for its publish -/
  phase : Nat
  /-- new SLEN; 32 bits -/
  newLen : Nat
  /-- new SBASE; 32 bits -/
  newBase : Nat
  /-- new TCAP; 32 bits -/
  newCap : Nat
  /-- new check value; 32 bits -/
  newCheck : W32
  /-- status it ends with; 16 bits -/
  status : Nat
  /-- DETAIL it ends with; 32 bits -/
  detail : Nat
  deriving DecidableEq, Repr

/-- Copy of a tenant's adapter in the adapter area of the window (10 R246). -/
structure AdapterCopy where
  /-- tenant; 8 bits -/
  tenant : Nat
  /-- its stage has completed; 1 bit -/
  staged : Bool
  /-- tier 0 offset of its first byte -/
  base : Nat
  /-- bytes -/
  size : Nat
  /-- completion count of its stage; 0 before; 64 bits -/
  stamp : Nat
  deriving DecidableEq, Repr

/-- A descriptor in progress (10 R227 to R229). -/
structure Active where
  /-- index in the program; 32 bits -/
  idx : Nat
  /-- the descriptor; 256 bits -/
  desc : BitVec 256
  /-- FEED: frames whose reads have been made pending; STAGE: bytes whose copy has been begun -/
  issued : Nat
  /-- transfers of the present frame or piece that have not completed -/
  left : Nat
  /-- FEED: the pieces of the present frame read so far, by address -/
  got : Tab (List Line)
  /-- FEED: words read and not yet accepted by the operand port (R232) -/
  words : List Line
  /-- FEED: words accepted by the port; STAGE: bytes whose write has completed -/
  done : Nat
  /-- stream epoch it delivers with (R227) -/
  epoch : BitVec 4
  /-- it has waited for a STAGE (R236) -/
  waited : Bool
  deriving DecidableEq, Repr

/-- A partition's stream program and engine state (10). -/
structure Stream where
  /-- descriptors of the running step's program and of appended ones -/
  prog : List (BitVec 256)
  /-- next descriptor -/
  next : Nat
  /-- STAGEs beyond `next` already taken from the appended program (R232): their indices -/
  early : List Nat
  /-- descriptors in progress; entries -/
  active : List Active
  /-- kept releases: mark id, mask (R233) -/
  releases : List (Nat × W64)
  /-- mark ids already reached in the step (R233); 16 bits each -/
  usedMarks : List Nat
  /-- conditional descriptors left after a mark and its mask -/
  cond : Nat
  /-- mask of the conditional run; 64 bits -/
  mask : W64
  /-- reached an unreleased mark at this watch-clock count -/
  markAt : Option Nat
  /-- release words ignored (R233); count -/
  ignored : Nat
  /-- words discarded (R235); count -/
  discarded : Nat
  /-- underruns (R236); count -/
  underruns : Nat
  /-- stream epoch (R227) -/
  epoch : BitVec 4
  /-- queues marked by the stream engines: 65,536 x block + 512 x tile + 4 x slot + role (R229) -/
  marked : List Nat
  /-- words of the release register written and not yet taken by the engine -/
  relWrites : List Line
  /-- the partition must begin its next program with a CONFIG (16 R377) -/
  needConfig : Bool
  deriving DecidableEq, Repr

/-- An injector set on an image (10 R222, R223; 05 R107): remaining records per block column index. -/
structure Inject where
  /-- address of the configuration image; 64 bits -/
  image : W64
  /-- epoch it configures; 4 bits -/
  epoch : BitVec 4
  /-- per block column index: records left as (TGT, SLOT, WORD) -/
  recs : Tab (List (Nat × Nat × Line))
  /-- reads of the image that have not completed; 10 R223, R225 -/
  left : Nat
  deriving DecidableEq, Repr

/-- A load grant (10 Table 7). -/
structure Grant where
  /-- its number; model's own: a reused GID names a new grant -/
  id : Nat
  /-- GID; 4 bits -/
  gid : Nat
  /-- target tier; 2 bits -/
  tier : Nat
  /-- first frame; 32 bits -/
  first : Nat
  /-- frames; 32 bits -/
  frames : Nat
  /-- chips that may write; 14 bits each -/
  src : List Nat
  /-- forward addresses; 64 bits each -/
  fwd : List W64
  /-- count at which it closes; 64 bits -/
  expires : Nat
  /-- load writes that failed; count -/
  failed : Nat
  /-- completed writes waiting to be forwarded: offset, bytes -/
  toFwd : List (Nat × List Byte)
  /-- it is open; 1 bit -/
  opened : Bool
  deriving DecidableEq, Repr

/-- A migration in progress (08 Table 9). -/
structure Migration where
  /-- layer; 16 bits -/
  layer : Nat
  /-- expert; 10 bits -/
  expert : Nat
  /-- MCID; 16 bits -/
  model : Nat
  /-- address of the old copy; 64 bits -/
  src : W64
  /-- address of the new copy; 64 bits -/
  dst : W64
  /-- bytes; 32 bits -/
  len : Nat
  /-- 1 checking, 2 check passed, 3 map updated -/
  phase : Nat
  /-- frames that were free when it began -/
  fresh : List Nat
  deriving DecidableEq, Repr

/-- A model switch in progress (10 R247): 0 waits for requests, 1 yields, 2 drains, configures and fills. -/
structure Switch where
  /-- target model; 16 bits -/
  mcid : Nat
  /-- its command; command -/
  cmd : Cmd
  /-- 0 waits for requests, 1 yields, 2 drains, configures and fills; 2 bits -/
  phase : Nat
  deriving DecidableEq, Repr

/-- Expert ingress of a partition (08 R177 to R185). -/
structure Ingress where
  /-- dispatches held and not served -/
  dispatches : List ExpertMsg
  /-- closes held: source member, round, gen, layer, count -/
  closes : List (Nat × Nat × Nat × Nat × Nat)
  /-- cancels kept: source member, round, gen -/
  cancels : List (Nat × Nat × Nat)
  /-- (round, layer) served in rounds not before the one running -/
  served : List (Nat × Nat)
  /-- members counted as having sent nothing: member, round, layer -/
  absent : List (Nat × Nat × Nat)
  /-- last 0xe405 sent: count; none64 when none -/
  lastEvent : Nat
  deriving DecidableEq, Repr

/-- One of the sixteen partitions (13 Table 1 and the chapters it names). -/
structure Part where
  /-- 13 R298; reset unused -/
  role : Role
  /-- partition table entry; 160 bytes; 13 R299; reset none (0) -/
  entry : PartEntry
  /-- 13 R305, R307; reset running -/
  pre : Preempt
  /-- a yield that only PART_RESUME or PART_DEFINE ends: 0 no, 1 takeover or PAIR_END, 2 unusable column (16 R393, R405, R407); reset 0 -/
  stuck : Nat
  /-- yields asked by others than PART_YIELD (BIST slice, substitution) pending or holding; reset 0 -/
  holds : Nat
  /-- the commands of a yield, eviction, resume or reset in progress; reset none -/
  yieldCmd : Option Cmd
  /-- eviction in progress; 13 R307; command -/
  evictCmd : Option Cmd
  /-- resume in progress; 13 R310; command -/
  resumeCmd : Option Cmd
  /-- partition reset in progress; 13 R312; command -/
  resetCmd : Option Cmd
  /-- 64 bytes in the save area; 13 R305; reset none -/
  yieldRec : Option YieldRec
  /-- 13 R307; reset none -/
  image : Option SaveImage
  /-- rounding seed; 64 bits; 04 R85; reset 0 -/
  seed : W64
  /-- installed models by MCID; 12 R291; reset none -/
  models : Tab Model
  /-- active model; 12 R247; reset none -/
  active : Option Nat
  /-- 10 R247; reset none -/
  switching : Option Switch
  /-- first fill begun and not complete; 10 R234; reset false -/
  filling : Bool
  /-- batch generation; 16 bits; 08 R184; reset 0 -/
  gen : Nat
  /-- next step id; 64 bits; 11 R253; reset 0 (1 once the partition is made primary) -/
  nextStep : Nat
  /-- next round; 32 bits; 08 R179; reset 0 -/
  nextRound : Nat
  /-- 64 bytes; 11 R275; reset zero -/
  crec : CommitRec
  /-- 256 entries of 32 bytes; 11 R258; reset zero -/
  budgets : Tab Budget
  /-- 192 bytes; 13 R313; reset zero -/
  acct : Acct
  /-- admitted requests in admission order; 11 R256; reset none -/
  reqs : List Req
  /-- the running step; 11 R253; reset none -/
  step : Option Step
  /-- committed step whose publish waits; 11 R276; reset none -/
  pub : Option PubWait
  /-- replies waiting for VSTEP: step, port, reply; 16 R400; reset none -/
  waitReplies : List (Nat × Nat × Reply)
  /-- durations of the last 16 committed steps; 11 R257; reset none -/
  durations : List Nat
  /-- steps committed under the current model; 11 R257; reset 0 -/
  committed : Nat
  /-- drawer operations in progress; 11 Table 6; reset none -/
  ops : List DrawerOp
  /-- 10; reset empty -/
  stream : Stream
  /-- 05 R107; reset none -/
  inject : Option Inject
  /-- last epoch the injectors configured; 4 bits; 05 R109; reset 0 -/
  epoch : BitVec 4
  /-- open and closed load grants; 10 R239; reset none -/
  grants : List Grant
  /-- adapters in the window, staged or in flight; 10 R246; reset none -/
  adapters : List AdapterCopy
  /-- completion counts of the opens of its drawers, by index in the drawer table; 01 R12; reset none -/
  opened : Tab Nat
  /-- 08 R187; reset none -/
  migrations : List Migration
  /-- 08 R177-R185; reset empty -/
  ingress : Ingress
  /-- last isolation event sent at this count; 13 R304; reset none64 -/
  lastIsol : Nat
  /-- region table, key region index; 8,192 entries of 32 bytes are kept in `State.regions`; last id received from the twin; 16 R405, R407; reset 0 -/
  lastTwinStep : Nat
  /-- 16 R396-R407: paired, mirror valid, sync running (primary), sync received (mirror), held by two homes; reset false -/
  paired : Bool
  /-- the mirror of the partition is valid; 16 R396, R399; 1 bit -/
  mirrorValid : Bool
  /-- a sync runs (16 R397); 1 bit -/
  syncing : Bool
  /-- count at which SYNC_END was sent; 16 R397; 64 bits -/
  syncSentAt : Nat
  /-- held because both devices claim it; 16 R406; 1 bit -/
  twoHomes : Bool
  /-- lapse in progress without a waiting publish -/
  lapsing : Bool
  /-- mirror: the failing status of an apply that the next ACK carries, 0 none; 16 R399; reset 0 -/
  mirrorFail : Nat
  /-- primary: messages sent that the twin answers with an ACK (RECORD, CONFIRM, INVAL, SYNC_END) and has not answered yet;
  16 R397, R399, R400, R403; reset 0 -/
  acksDue : Nat
  /-- primary when this device declared its twin failed, or by the takeover itself: PVAL keeps its bit (16 R406); reset
  false -/
  claimed : Bool
  /-- completion count of the takeover that made the partition primary; 12 R296; reset 0 -/
  takeover : Nat
  /-- last step of the partition whose confirmation the twin has acknowledged (VSTEP); 16 R400; reset 0 -/
  vstep : Nat
  /-- failures of stages of the next step's program: NEED, LAYER, WHO, status, DETAIL; 09 R216, 10 R232; reset none -/
  doomed : List (Nat × Nat × Nat × Nat × Nat)
  /-- grains the SF frees once no operation on them runs; 11 R267; reset none -/
  toFree : List Nat
  /-- the last step committed, and no yield, hold, resume or abandoned step has come since: its commit count decides
  the next membership; 01 R12; reset false -/
  chained : Bool
  /-- CANCELs still queued whose request has ended meanwhile, with the count at which it ended; 01 R13; reset none -/
  cancelDone : List (Cmd × Nat)
  deriving DecidableEq, Repr

/-- A drawer entry (11 Table 5). -/
structure Drawer where
  /-- STATE: 0 free, 1 closed, 2 opening, 3 open, 4 closing, 5 moving, 6 damaged; 8 bits -/
  state : Nat
  /-- HELD by a request; 1 bit -/
  held : Bool
  /-- TENANT; 8 bits -/
  tenant : Nat
  /-- SIZE in units of 4 KiB; 32 bits -/
  size : Nat
  /-- SBASE, first unit of the summary; 32 bits -/
  sbase : Nat
  /-- SLEN, committed length of the summary; 32 bits -/
  slen : Nat
  /-- TLEN, committed length of the tail; 32 bits -/
  tlen : Nat
  /-- CHECK; 32 bits -/
  check : W32
  /-- TBASE, first unit of the tail; 32 bits -/
  tbase : Nat
  /-- TCAP, capacity of the tail; 32 bits -/
  tcap : Nat
  /-- P_SBASE; 32 bits -/
  pSbase : Nat
  /-- P_SLEN; 32 bits -/
  pSlen : Nat
  /-- P_TLEN; 32 bits -/
  pTlen : Nat
  /-- P_CHECK; 32 bits -/
  pCheck : W32
  /-- P_STEP, 0 when none; 64 bits -/
  pStep : Nat
  deriving DecidableEq, Repr

/-- A region entry (11 Table 7). -/
structure Region where
  /-- STATE: 0 free, 1 live, 6 damaged; 8 bits -/
  state : Nat
  /-- KIND; 8 bits -/
  kind : Nat
  /-- OWNER, admission index; 16 bits -/
  owner : Nat
  /-- BASE, first unit; 32 bits -/
  base : Nat
  /-- CAP in lines; 32 bits -/
  cap : Nat
  /-- LEN in lines; 32 bits -/
  len : Nat
  /-- P_LEN; 32 bits -/
  pLen : Nat
  /-- P_STEP, 0 when none; 64 bits -/
  pStep : Nat
  deriving DecidableEq, Repr

/-! ### Memory tiers and the home table -/

/-- A home table entry (09 Table 6); ST 0 settled, 1 moving, 2 switched, 3 lost. Its check bits are a function of the
rest under a code the manual does not give (log entry 8, DEDUCED). -/
structure HtEntry where
  /-- V; 1 bit -/
  v : Bool
  /-- ST: 0 settled, 1 moving, 2 switched, 3 lost; 2 bits -/
  st : Nat
  /-- MIR; 1 bit -/
  mir : Bool
  /-- PART; 4 bits -/
  part : Nat
  /-- home tier; 2 bits -/
  htier : Nat
  /-- home frame; 22 bits -/
  hf : Nat
  /-- destination tier; 2 bits -/
  dtier : Nat
  /-- destination frame; 22 bits -/
  df : Nat
  deriving DecidableEq, Repr

/-- State of a frame in the frame map (09 R203). -/
inductive FrameState where
  | free
  | plain
  | home
  | destination
  | releasing
  deriving DecidableEq, Repr

/-- Who asked for a move (09 R205). -/
inductive MoveFor where
  | command (c : Cmd)
  | drawer (p drawer : Nat)
  /-- the device's own placement of a mirror grain (09 R211) -/
  | own
  deriving DecidableEq, Repr

/-- A move in progress (09 Table 8). -/
structure Move where
  /-- grain id; 23 bits -/
  grain : Nat
  /-- source tier; 2 bits -/
  srcTier : Nat
  /-- source frame; 22 bits -/
  srcFrame : Nat
  /-- destination tier; 2 bits -/
  dstTier : Nat
  /-- destination frame; 22 bits -/
  dstFrame : Nat
  /-- count at which the move is aborted; 64 bits -/
  limit : Nat
  /-- copying has begun; 1 bit -/
  copying : Bool
  /-- the home has switched; 1 bit -/
  switched : Bool
  /-- partition; 4 bits -/
  part : Nat
  /-- whom the move serves; model's own -/
  purpose : MoveFor
  deriving DecidableEq, Repr

/-- A write or atomic held at the HT gate (09 R208): its grain, and the transfer that it is; a write of the twin's
mirroring (R211) is no transfer and gives its offset in the grain and its bytes. -/
structure HeldWrite where
  /-- grain id; 23 bits -/
  grain : Nat
  /-- the transfer that it is, if it is one; id -/
  transfer : Option Nat
  /-- offset in the grain; 21 bits -/
  off : Nat
  /-- bytes; bytes -/
  bytes : List Byte
  deriving DecidableEq, Repr

/-- What a transfer is for (10 R225, Table 4). -/
inductive Purpose where
  /-- FEED: partition, descriptor index -/
  | feed (p idx : Nat)
  /-- read of a configuration image: partition -/
  | config (p : Nat)
  /-- STAGE read, and its write -/
  | stageRead (p idx : Nat) (dst : Nat)
  | stageWrite (p idx : Nat) (unit : Nat)
  /-- VE transfer: block, local word address, number of the TXF -/
  | txf (b word n : Nat)
  /-- load data or load write: partition, number of the grant, the LOAD_DATA command it serves -/
  | load (p grant : Nat) (cmd : Option Cmd)
  /-- stage of a tenant's adapter (10 R246): partition, tenant, and for a read the tier 0 offset its bytes go to -/
  | adapterRead (p tenant dst : Nat)
  | adapter (p tenant : Nat)
  /-- read of a drawer for DRAWER_READ (11 R273): its command -/
  | drawer (c : Cmd)
  /-- remote access served for this transaction -/
  | remote (t : Txn)
  /-- read or write on another chip for a VE, answered by TID: block, local word address, number of the TXF -/
  | outward (b word n : Nat) (t : Txn)
  /-- its program has ended: read data is discarded, a write in flight finishes (10 R235) -/
  | discard
  deriving DecidableEq, Repr

/-- Need of a transfer (09 R213). -/
inductive Need where
  | none
  | step
  | expert (layer expert : Nat)
  | request (index : Nat)
  /-- the close of this drawer that rides in the step: the reads and writes of its compression graph (11 R269) -/
  | close (drawer : Nat)
  /-- that of a descriptor of the next step's program: NEED, LAYER and WHO, judged when that step begins (10 R232) -/
  | later (need layer who : Nat)
  deriving DecidableEq, Repr

/-- A transfer of a stream engine (09 R213, 10 R224). -/
structure Transfer where
  /-- its number; model's own -/
  id : Nat
  /-- tier; 2 bits -/
  tier : Nat
  /-- partition; 4 bits -/
  part : Nat
  /-- it writes; 1 bit -/
  write : Bool
  /-- tier offset, or mutable-window offset when `window` -/
  addr : Nat
  /-- bytes; 32 bits -/
  len : Nat
  /-- its address is an offset of the mutable window; 1 bit -/
  window : Bool
  /-- bytes to write, or read; bytes -/
  data : List Byte
  /-- when its data is needed (10 R237); margin -/
  need : Need
  /-- whom the transfer serves; model's own -/
  purpose : Purpose
  /-- granted an engine entry, issued at this count -/
  issued : Option Nat
  /-- uses a reserved entry of its partition or load grant -/
  reserved : Bool
  /-- frame the home table translated to when issued -/
  frame : Nat
  deriving DecidableEq, Repr

/-- A memory slot of tier 0 or 1, or a tier 2 device: telemetry and retirement (09 R199, R200, R217; 15 Table 12). -/
structure Slot where
  /-- 0 live, 1 retired, 2 out of service; reset 0 -/
  state : Nat
  /-- corrected errors; 64 bits -/
  corrected : Nat
  /-- uncorrected errors; 64 bits -/
  uncorrected : Nat
  /-- corrected errors per unit since start-up -/
  unitErrors : Tab Nat
  /-- retired units: unit, poison mask -/
  retired : Tab (BitVec 16)
  /-- units being copied to page retirement units, oldest first, each with its poison; 09 R200 -/
  copying : List (Nat × BitVec 16)
  /-- page retirement units taken; 09 R200; count -/
  spent : Nat
  /-- poisoned chunks of units not retired: 256-byte chunk number; 09 R205 -/
  poison : List Nat
  /-- reserve-exhausted event sent -/
  exhausted : Bool
  deriving DecidableEq, Repr

/-- What a scan job serves (15 R369, R372). -/
inductive ScanFor where
  /-- object `obj` of the load check numbered `id` of partition `p` -/
  | load (p id obj : Nat)
  /-- the migration of partition `p` to `dst` -/
  | migration (p : Nat) (dst : Nat)
  /-- the replacement of the object at `dst` -/
  | replace (dst : Nat)
  | open_ (p drawer : Nat)
  | close (p drawer : Nat)
  deriving DecidableEq, Repr

/-- A scan job (15 Table 13) and its progress in segments. -/
structure ScanJob where
  /-- its number; model's own -/
  id : Nat
  /-- ADDR; 64 bits -/
  addr : W64
  /-- LEN; 64 bits -/
  len : Nat
  /-- EXPECT; 64 bits -/
  expect : W64
  /-- ALG; 8 bits -/
  alg : Nat
  /-- CMP; 1 bit -/
  cmp : Bool
  /-- ZW; 1 bit -/
  zw : Bool
  /-- foreground; 1 bit -/
  fg : Bool
  /-- ZOFF; 32 bits -/
  zoff : Nat
  /-- whom the job serves; model's own -/
  serves : ScanFor
  /-- segments handed out and segments finished -/
  started : Nat
  /-- segments finished; count -/
  finished : Nat
  deriving DecidableEq, Repr

/-- A LOAD_CHECK in progress: command, partition, per object status (0xffff not yet known). -/
structure LoadCheck where
  /-- its command; command -/
  cmd : Cmd
  /-- partition; 4 bits -/
  part : Nat
  /-- its number; model's own -/
  id : Nat
  /-- objects and their statuses, 0xffff not yet known; 64 and 16 bits each -/
  objs : List (W64 × Nat)
  /-- number of its grant; model's own -/
  grant : Nat
  /-- it waits for writes of the grant that are in flight; 10 R240 -/
  waits : Bool
  deriving DecidableEq, Repr

/-- A layer replacement in progress (10 Table 9). -/
structure Replace where
  /-- its command; command -/
  cmd : Cmd
  /-- source address; 64 bits -/
  src : W64
  /-- target address; 64 bits -/
  dst : W64
  /-- bytes; 32 bits -/
  len : Nat
  /-- 1 barrier set, 2 copying, 3 checking -/
  phase : Nat
  /-- the copy has been repeated; 1 bit -/
  retried : Bool
  /-- partitions whose programs name the object when it is accepted: key partition; the ids of the steps past the barrier -/
  past : Tab (List Nat)
  deriving DecidableEq, Repr

/-- The byte stores of the device, each in the canonical form of `Memory.wf`. -/
structure Mems where
  /-- bytes of tier 0, 1, 2; 09 R188; reset nothing listed, reads 0 (log entry 4, DESIGN CHOICE) -/
  t0 : Memory
  /-- bytes of tier 1; 48-bit offsets -/
  t1 : Memory
  /-- bytes of tier 2; 48-bit offsets -/
  t2 : Memory
  /-- boot objects 0, 1, 2 as received, by offset; 15 R361; reset nothing listed -/
  image : Memory
  /-- boot object 1 as received; bytes -/
  fabcfg : Memory
  /-- boot object 2 as received; bytes -/
  retire : Memory
  /-- control SRAM bytes [1 MiB, 6 MiB): SF code and data; 15 Table 2; reset nothing listed -/
  sram : Memory
  deriving DecidableEq, Repr

/-- The memory tiers (09, 10), all but their bytes. -/
structure Tiers where
  /-- populated frames of tier 1 and 2; 09 R192, R193; reset 0 (formed at start-up) -/
  n1 : Nat
  /-- populated frames of tier 2; 09 R193; 22 bits -/
  n2 : Nat
  /-- devices forming tier 2; 09 R193; reset none -/
  cxl : List Cxl
  /-- devices found and not used; 09 R193; count -/
  cxlUnused : Nat
  /-- Cmin of tier 1; 09 R192; reset 0 -/
  cmin : Nat
  /-- pin rate reached per HBM3E stack in 0.1 Gbit/s, 0 when it trained at none; 09 R191; reset none -/
  stackRate : List Nat
  /-- detected capacity beyond Cmin per tier 1 channel, in bytes; 09 R192; reset none -/
  capOver : List Nat
  /-- trained at start-up phase H, K -/
  up0 : Bool
  /-- tier 1 trained at start-up; 15 R356; 1 bit -/
  up1 : Bool
  /-- tier 2 trained at start-up; 15 R356; 1 bit -/
  up2 : Bool
  /-- slots: key 256 x tier + slot -/
  slots : Tab Slot
  /-- retired slots of tier 0 and 1 in increasing order; 09 R199 -/
  retired0 : List Nat
  /-- retired slots of tier 1 in increasing order; 09 R199; 6 bits each -/
  retired1 : List Nat
  /-- tier 1 and 2 refused while shed (17 R420) -/
  dark : Bool
  /-- lost in service until the next start-up (09 R217; 17 R410) -/
  out1 : Bool
  /-- tier 2 lost in service until the next start-up; 09 R217; 1 bit -/
  out2 : Bool
  /-- home table: key grain id; 8,388,608 entries of 64 bits; 09 R201; reset zero -/
  ht : Tab HtEntry
  /-- frame map: key 4,194,304 x tier + frame; 09 R203; reset free -/
  frames : Tab FrameState
  /-- moves in progress; 09 R205; reset none -/
  moves : List Move
  /-- freed grains whose frame waits for reads in flight: grain, tier, frame; 09 Table 7; reset none -/
  freeing : List (Nat × Nat × Nat)
  /-- writes held at the HT gate, in gate order; 09 R208; reset none -/
  gate : List HeldWrite
  /-- grain whose DATA is being read for a sync: writes held (16 R397) -/
  syncGrain : Option Nat
  /-- transfers pending and outstanding; 10 R224; reset none -/
  transfers : List Transfer
  /-- next transfer id -/
  nextId : Nat
  /-- objects verified on this device: global address and bytes; 10 R221; reset none -/
  verified : List (Nat × Nat)
  /-- objects in the failed state (10 R249) -/
  failedObjs : List Nat
  /-- scan jobs in progress or waiting; 15 R370, R371; entries -/
  scans : List ScanJob
  /-- segment engines 0 to 7: id of the job each works on, and its segment; 15 R371; reset idle -/
  engines : Tab (Nat × Nat)
  /-- LOAD_CHECKs in progress; 10 R242; entries -/
  checks : List LoadCheck
  /-- DRAWER_READs in progress: command, pieces read so far by window offset; 11 R273; reset none -/
  reads : List (Cmd × Tab (List Byte))
  /-- layer replacements in progress; 10 R249; reset none -/
  replaces : List Replace
  deriving DecidableEq, Repr

/-! ### Fabric, Iberaine, management -/

/-- Training state of a link (14 Table 3) or of the Iberaine port (15 Table 7). -/
inductive LinkState where
  | down
  | sideband
  | detect
  | lock
  | equalise
  | qualify
  | select
  | activate
  | up
  | recovery
  | light
  | power
  | lane
  | rate
  | version
  | failed
  deriving DecidableEq, Repr

/-- One fabric link, or the Iberaine port (14 R316 to R325, R343, R344). -/
structure Link where
  /-- state of training, or up, recovery, down; 14 Table 3; enumeration, down -/
  st : LinkState
  /-- count at which the present training state began; 14 R319 -/
  since : Nat
  /-- rates left to try (0 400, 1 200, 2 100 Gbit/s) and good lanes found per rate -/
  rateIdx : Nat
  /-- good lanes found at each rate; 14 R319; 5 bits each -/
  goods : List (Nat × BitVec 5)
  /-- lanes of the link; 14 R319; 3 bits -/
  width : Nat
  /-- rate: 0 400, 1 200, 2 100 Gbit/s; 14 R319; 2 bits -/
  rate : Nat
  /-- active lanes, spare lane (5 none) -/
  lanes : List Nat
  /-- spare lane, 5 none; 14 R321; 3 bits, reset 5 -/
  spare : Nat
  /-- lanes retired until the next training; 14 R321; 3 bits each -/
  retiredLanes : List Nat
  /-- lanes the partner reports good; 14 R320; 5 bits -/
  partnerLanes : BitVec 5
  /-- rate the partner chose; 14 R320; 2 bits -/
  partnerRate : Nat
  /-- lane swap agreed: retired, spare, own acknowledged, partner acknowledged -/
  swap : Option (Nat × Nat × Bool × Bool)
  /-- transmit: frames waiting per channel, next FSEQ, unacknowledged frames (FSEQ, frame), credits per channel -/
  txq : Tab (List (List Byte))
  /-- next FSEQ; 14 R324; 16 bits -/
  nextSeq : Nat
  /-- frames not yet acknowledged; 14 R324; FSEQ and frame each -/
  replay : List (Nat × List Byte)
  /-- credits left per channel; 14 R325; 16 bits each -/
  credits : Tab Nat
  /-- channel in the middle of a transaction, per channel (14 R333) -/
  lastTurn : Nat
  /-- replays of the oldest frame without acknowledgement, count of last acknowledgement progress -/
  replays : Nat
  /-- count of the last acknowledgement progress; 14 R322; 64 bits -/
  progressAt : Nat
  /-- receive: next expected FSEQ, NAK outstanding, credits to return per channel, partial transactions per channel -/
  expSeq : Nat
  /-- a NAK is outstanding; 14 R324; 1 bit -/
  nakSent : Bool
  /-- credits to return per channel; 14 R325; 16 bits each -/
  credRet : Tab Nat
  /-- partial transaction received per channel; 14 R333; bytes -/
  partialTx : Tab (List Byte)
  /-- codewords put on the wire, oldest first, each as the bytes on its active lanes, lowest lane first; 14 R324 -/
  wire : List (List (List Byte))
  /-- count of the last frame sent; 14 R324; 64 bits -/
  lastSent : Nat
  /-- telemetry: corrected symbols, replays, link changes; 15 Table 12; reset 0 -/
  corrected : Nat
  /-- replays; 15 Table 12; 64 bits -/
  replayCount : Nat
  /-- link changes; 15 Table 12; 64 bits -/
  changes : Nat
  /-- the swap under way is a BIST rotation: the lane that leaves becomes the spare; 16 Table 4; reset false -/
  rotates : Bool
  /-- passed SIDEBAND -/
  sideOk : Bool
  /-- fast recovery began at this count -/
  downAt : Nat
  deriving DecidableEq, Repr

/-- A link entry of the fabric configuration record (14 Table 6). -/
structure LinkEnt where
  /-- EN; 1 bit -/
  en : Bool
  /-- GLB; 1 bit -/
  glb : Bool
  /-- logical port; 5 bits -/
  port : Nat
  /-- MAXR, highest rate; 2 bits -/
  maxr : Nat
  /-- partner chip; 14 bits -/
  pchip : Nat
  /-- partner link; 5 bits -/
  plink : Nat
  deriving DecidableEq, Repr

/-- A received frame of a transaction bound for another chip (14 R318). -/
structure FwdFrame where
  /-- link it was received on -/
  link : Nat
  /-- channel it was received on; 3 bits -/
  chan : Nat
  /-- header of its transaction -/
  txn : Txn
  /-- SOT and EOT -/
  first : Bool
  /-- EOT: the last frame of its transaction -/
  last : Bool
  /-- payload bytes, at most 240 -/
  payload : List Byte
  /-- its buffer's credit is still to be returned; 14 R325 -/
  owed : Bool
  deriving DecidableEq, Repr

/-- Fabric (14). -/
structure Fabric where
  /-- this chip's number; 14 bits; 14 R326; reset none until the record is accepted (0xffff reported) -/
  chip : Nat
  /-- the configuration record has been accepted; 14 R327; 1 bit -/
  accepted : Bool
  /-- link entries 0 to 17; 14 Table 6; 18 entries -/
  ents : List LinkEnt
  /-- port masks of the route entries with V = 1: key chip; 18 bits; 14 R329; reset none (V = 0) -/
  routes : Tab (BitVec 18)
  /-- links 0 to 17, and 18 the Iberaine port -/
  links : Tab Link
  /-- received frames of transactions bound for another chip, in arrival order; 14 R318 -/
  fwd : List FwdFrame
  /-- header of the foreign transaction that is being received: key 8 * link + channel; 14 R318, R333; reset none -/
  fwdIn : Tab Txn
  /-- where the foreign transaction that has begun to leave goes, link and channel (none: its frames are discarded): key
  8 * link + channel it is received on; 14 R318, R333; reset none -/
  fwdOpen : Tab (Option (Nat × Nat))
  /-- transactions delivered on this chip and not yet taken by their command -/
  ingress : List Txn
  /-- transactions of this device's own sources put on a link or discarded, oldest first (log entry 15, DESIGN CHOICE) -/
  sent : List Txn
  /-- pair messages and expert messages sent, oldest first -/
  pairSent : List PairMsg
  /-- expert messages sent, oldest first; model's own -/
  expertSent : List ExpertMsg
  /-- link a stream uses, by key K / 2^22; 14 R331; reset none -/
  streamLink : Tab Nat
  /-- transactions whose stream waits for its old link, with their phase, oldest first; 14 R331; reset none -/
  waiting : List (Txn × Nat)
  /-- counters: discarded at ingress, no route, routing errors, discarded sideband messages, discarded with replay buffers -/
  discarded : Nat
  /-- transactions without a route; 14 R329; 64 bits -/
  noRoute : Nat
  /-- routing errors; 14 R330; 64 bits -/
  routeErr : Nat
  /-- sideband messages discarded; 14 R320; 64 bits -/
  sideDisc : Nat
  /-- transactions lost with replay buffers; 14 R322; 64 bits -/
  lost : Nat
  /-- last 0xe404 sent at this count; none64 when none -/
  lastNoRoute : Nat
  /-- remote operations served or being served, per stream, in arrival order: FENCE waits for those before it -/
  remoteOpen : List Txn
  /-- next TID and message id per stream -/
  nextTid : Nat
  /-- next message id of each stream; 14 R333; 16 bits each -/
  nextMsg : Tab Nat
  /-- sideband messages sent -/
  sideSent : List (List Byte)
  /-- port masters -/
  lightAt : Nat
  /-- the last negotiation failed on versions; 15 R359; 1 bit -/
  versionFail : Bool
  deriving DecidableEq, Repr

/-- A management port (14 R346 to R348). -/
structure Mgmt where
  /-- the port takes commands (phase C); 15 R356; 1 bit -/
  enabled : Bool
  /-- dynamic address; 14 R346; 7 bits, reset none -/
  dynAddr : Option Nat
  /-- endpoint id; 14 R347; 8 bits -/
  eid : Nat
  /-- count of the last valid message; 14 R348; 64 bits -/
  lastMsg : Nat
  /-- its manager is lost; 14 R348; 1 bit -/
  lost : Bool
  /-- count of the loss; 17 R425; 64 bits -/
  lostAt : Nat
  /-- messages discarded; 14 R347; 64 bits -/
  discarded : Nat
  deriving DecidableEq, Repr

/-! ### Control complex and start-up -/

/-- Start-up phases (15 Table 5). -/
inductive Phase where
  | a | b | c | d | e | f | g | h | j | k | l | m
  deriving DecidableEq, Repr

/-- Start-up, boot exchange and control complex (15). -/
structure Boot where
  /-- RESET_N level; 15 R355; reset low -/
  resetN : Bool
  /-- phases that have ended; reset none -/
  done : List Phase
  /-- safe state; 16 R379; reset false -/
  safe : Bool
  /-- ready; 15 R356; reset false -/
  ready : Bool
  /-- control recovery under way; 15 R351; reset false -/
  recovery : Bool
  /-- both cores stopped after a divergence -/
  stopped : Bool
  /-- live control cores: the pair, the spare unused; 15 R349; reset 3 -/
  cores : Nat
  /-- the spare core serves; 15 R349; 1 bit -/
  spareUsed : Bool
  /-- pieces of the boot objects received: offset and length (their bytes are in `Mems`); 15 R361; reset none -/
  imageGot : List (Nat × Nat)
  /-- pieces of FABCFG received; 15 R361; offsets and lengths -/
  fabGot : List (Nat × Nat)
  /-- pieces of RETIRE received; 15 R361; offsets and lengths -/
  retireGot : List (Nat × Nat)
  /-- length of RETIRE as announced; 15 R361; 32 bits -/
  retireLen : Nat
  /-- START has been received; 15 R361; 1 bit -/
  start : Bool
  /-- HELLO has been sent (R361); reset false -/
  hello : Bool
  /-- retirement list entries beyond a slot's page retirement units; 15 R365; reset 0 -/
  surplus : Nat
  /-- the image stands accepted; 15 R363; 1 bit -/
  imageOk : Bool
  /-- FABCFG stands accepted; 15 R365; 1 bit -/
  fabOk : Bool
  /-- RETIRE stands accepted; 15 R365; 1 bit -/
  retireOk : Bool
  /-- boot packets discarded; 15 R361; 64 bits -/
  bootDisc : Nat
  /-- SVN and DIGEST of the verified image; 15 R367; reset 0 -/
  svn : Nat
  /-- DIGEST of the verified image; 15 R367; 32 bytes -/
  sfDigest : List Byte
  /-- digest of FABCFG; 15 R367; 32 bytes -/
  fabDigest : List Byte
  /-- fused minimum SVN, raises used of 64, revoked signer keys; 15 R363, R364; fuses: not changed by reset -/
  svnMin : Nat
  /-- increments of the minimum used of 64; 15 R364; 7 bits (a fuse: not changed by reset) -/
  raises : Nat
  /-- revoked signer keys; 15 R363; 4 bits (a fuse: not changed by reset) -/
  revoked : BitVec 4
  /-- the service firmware runs; 15 R356; reset false -/
  sfRunning : Bool
  /-- key registers hold the device keys; 15 R366; reset false -/
  keys : Bool
  /-- count of START; reset 0 -/
  startAt : Nat
  deriving DecidableEq, Repr

/-- Multi-role lands and straps (18). -/
structure Lands where
  /-- 0 strap, 1 train, 2 run; 18 R429; reset strap -/
  phase : Nat
  /-- count of the strap sampling; 18 R429; 64 bits -/
  sampledAt : Nat
  /-- straps OT0 to OT15 as sampled; 18 R430, R431; reset 0 (log entry 3, DESIGN CHOICE) -/
  straps : BitVec 16
  /-- ALERT_N low until this count; 18 R436; reset 0 (high) -/
  alertUntil : Nat
  /-- an alert pulse is low; 18 R436; 1 bit -/
  alertLow : Bool
  /-- BRAKE_N asserted as filtered; 17 R422; reset false -/
  brake : Bool
  deriving DecidableEq, Repr

/-- Telemetry figures (15 R368). -/
structure Tele where
  /-- count of the last renewal; 64 bits -/
  renewed : Nat
  /-- temperature of the west die; 1/16 degree -/
  west : Int
  /-- temperature of the east die; 1/16 degree -/
  east : Int
  /-- per block: stage time in ps, wear code, temperature in 1/16 degree -/
  stagePs : Tab Nat
  /-- wear code per block; 16 bits each -/
  wear : Tab Nat
  /-- temperature per block; 1/16 degree -/
  temp : Tab Int
  /-- 0 live, 1 under BIST, 2 unusable -/
  blockSt : Tab Nat
  deriving DecidableEq, Repr

/-! ### Faults, spares, pair, power -/

/-- A fault record (16 Table 2). -/
structure FaultRec where
  /-- RECNO; 32 bits -/
  recno : Nat
  /-- KIND; 8 bits -/
  kind : Nat
  /-- PART; 8 bits -/
  part : Nat
  /-- BLOCK; 16 bits -/
  block : Nat
  /-- count of detection; 64 bits -/
  dcount : Nat
  /-- step; 64 bits -/
  step : Nat
  /-- UNIT; 16 bits -/
  unit : Nat
  /-- CFGID; 16 bits -/
  cfgid : Nat
  /-- DATA; 32 bytes -/
  data : List Byte
  deriving DecidableEq, Repr

/-- A column substitution in progress (16 Table 7). -/
structure Subst where
  /-- die; 1 bit -/
  die : Nat
  /-- block row; 3 bits -/
  row : Nat
  /-- segment that leaves; 7 bits -/
  seg : Nat
  /-- segment that replaces; 7 bits -/
  repl : Nat
  /-- 1 waits for the yields, 2 saved, 3 map written -/
  phase : Nat
  /-- affected partitions; 4 bits each -/
  parts : List Nat
  /-- state records of the moving tiles; 2 KiB each -/
  recs : List TileRec
  /-- forced by the TM (R392); 1 bit -/
  forced : Bool
  deriving DecidableEq, Repr

/-- A BIST slice in progress, with the VE and tile records taken from a live block (16 R381). -/
structure Slice where
  /-- unit under test; 16 Table 4 -/
  unit : BistUnit
  /-- partitions held for it; 4 bits each -/
  parts : List Nat
  /-- tile records of a live block; 2 KiB each -/
  tiles : List TileRec
  /-- VE records of a live block; records -/
  ves : List VeRec
  deriving DecidableEq, Repr

/-- Fault collector, BIST, spares, wear (16). -/
structure Safety where
  /-- next RECNO; 32 bits; 16 R375; reset 0 -/
  recno : Nat
  /-- last 4,096 records, newest first; 16 R375; reset none -/
  recs : List FaultRec
  /-- fault counts by kind; 15 Table 12 group 4; reset 0 -/
  counts : Tab Nat
  /-- column maps written: key 8 x die + block row: physical segments in logical order; 03 R34; reset none: the map with no
  segment disabled (R35) -/
  maps : Tab (List Nat)
  /-- unusable segments: 1,024 x die + 128 x row + segment; reset none -/
  badSegs : List Nat
  /-- unusable VEs, by block; 16 R378; 7 bits each -/
  badVes : List Nat
  /-- spare VE usable and unused, by die; 03 R36; reset both -/
  spareVe : BitVec 2
  /-- spare VE found bad, by die; 16 R394; 2 bits -/
  badSpareVe : BitVec 2
  /-- unusable block columns; 16 R393; reset none -/
  badCols : BitVec 16
  /-- BIST slices in progress; 16 R380; entries -/
  slices : List Slice
  /-- units queued for retest, oldest first; 16 R378, R385; reset none -/
  retest : List BistUnit
  /-- count of each unit's last pass; 16 R384; reset none -/
  passes : List (BistUnit × Nat)
  /-- sweep in which each unit was last tested, from 0 at READY; 16 R381; reset none -/
  swept : List (BistUnit × Nat)
  /-- wear: code and renewals below 40 and below 15 in a row; 16 R388; reset none -/
  wear : List (BistUnit × Nat × Nat × Nat)
  /-- substitution in progress; 16 R391; record -/
  subst : Option Subst
  /-- counts of records of kinds 1 to 17 that name a unit; 16 R378 -/
  named : List (BistUnit × List Nat)
  /-- units found overdue that have not passed since; 16 R384; reset none -/
  overdue : List BistUnit
  /-- count of READY, from which a unit's first pass counts; 16 R384; reset 0 -/
  bistSince : Nat
  /-- failed units whose partition is held until they are substituted; 16 R383; reset none -/
  heldFor : List (BistUnit × Nat)
  deriving DecidableEq, Repr

/-- The pair (16 R396 to R407). -/
structure Pair where
  /-- pair mode: set up or being set up; reset off -/
  on : Bool
  /-- the PAIR_SETUP in progress; command -/
  setting : Option Cmd
  /-- chip of the twin; 14 bits -/
  twin : Nat
  /-- partitions that this device has as primary; 16 bits -/
  prim : BitVec 16
  /-- partitions that this device mirrors; 16 bits -/
  mirr : BitVec 16
  /-- ACKLIM in counts; 32 bits -/
  ackCounts : Nat
  /-- count at which the set-up began; 64 bits -/
  setupStart : Nat
  /-- count at which SETUP was last sent; 64 bits -/
  setupLast : Nat
  /-- the twin's SETUP has been accepted; 16 R396; reset false -/
  twinSetup : Bool
  /-- a SETUP that arrived before this device's PAIR_SETUP: its source chip and message; 16 R396; reset none -/
  early : Option (Nat × PairMsg)
  /-- counts of the last PAIR transaction sent and received, of the last valid heartbeat frame -/
  lastSent : Nat
  /-- count of the last PAIR transaction received; 64 bits -/
  lastRecv : Nat
  /-- count of the last valid heartbeat frame; 16 R404; 64 bits -/
  lastBeat : Nat
  /-- SEQ of the next heartbeat frame; 18 R434; 16 bits -/
  beatSeq : Nat
  /-- SEQ of the last frame received; 16 R402; 16 bits -/
  rxSeq : Option Nat
  /-- count of the last heartbeat frame sent; 18 R434; 64 bits -/
  lastFrame : Nat
  /-- PVAL and MVAL of the twin's last valid frame -/
  twinP : BitVec 16
  /-- MVAL of the twin's last valid frame; 16 R402; 16 bits -/
  twinM : BitVec 16
  /-- the twin has been declared failed; 16 R404; 1 bit -/
  failed : Bool
  /-- 0xe604 KIND 2 sent for a path that is still silent -/
  pathLost : Bool
  /-- PAIR messages discarded; 16 R403; 64 bits -/
  discarded : Nat
  /-- heartbeat frames sent -/
  beats : List (BitVec 64)
  /-- replies of the twin taken -/
  twinReplies : List (List Byte)
  deriving DecidableEq, Repr

/-- Power manager (17). -/
structure Power where
  /-- rails good: bit per rail of 17 Table 1; reset VDD_AON only (log entry 10, DEDUCED) -/
  good : BitVec 13
  /-- rails lost in service -/
  lostRails : BitVec 13
  /-- caps of C, A, B in W, 0 none; 12 R294; reset 0 -/
  capC : Nat
  /-- cap of A in W, 0 none; 12 R294; 32 bits -/
  capA : Nat
  /-- cap of B in W, 0 none; 12 R294; 32 bits -/
  capB : Nat
  /-- 17 R422; reset 900 -/
  brakeLevel : Nat
  /-- orphan cap percentage; 17 R425; reset 60 -/
  orph : Nat
  /-- slots that hold the orphan cap: A, B -/
  orphA : Bool
  /-- slot B holds the orphan cap; 17 R425; 1 bit -/
  orphB : Bool
  /-- safety hold levels of A and B; 12 R295; reset 0 -/
  holdA : Nat
  /-- safety hold level of B; 12 R295; 2 bits -/
  holdB : Nat
  /-- thermal stage 0 to 3; 17 R423; reset 0 -/
  stage : Nat
  /-- thermal limit in mW, whether active, value on entry to stage 3, last step count -/
  thermLimit : Nat
  /-- the thermal limit is active; 17 R423; 1 bit -/
  thermOn : Bool
  /-- thermal limit on entry to stage 3; 17 R423; mW -/
  thermSaved : Nat
  /-- count of the last step of the thermal limit; 17 R423; 64 bits -/
  thermStep : Nat
  /-- the entry condition of stage 2 held at the last sample; 17 R423; 1 bit -/
  entryHolds : Bool
  /-- the leave condition of stage 2 held at the last sample; 17 R423; 1 bit, reset true -/
  leaveHolds : Bool
  /-- last ten package power samples in mW and PAVG in mW; 17 R411; reset 0 -/
  samples : List Nat
  /-- PAVG; 17 R411; mW -/
  pavg : Nat
  /-- count of the last sample; 17 R411; 64 bits -/
  sampledAt : Nat
  /-- per rail: mV, mA, energy in uJ (64 bits, saturating), energy at the last accounting interval; reset 0 -/
  mv : Tab Nat
  /-- current per rail; 17 R411; mA -/
  ma : Tab Nat
  /-- energy per rail, saturating; 17 R411; 64 bits, uJ -/
  energy : Tab Nat
  /-- energy per rail at the last accounting interval; 13 R315; 64 bits, uJ -/
  energyMark : Tab Nat
  /-- energy remainder below 1 uJ, in pJ, by rail -/
  energyRem : Tab Nat
  /-- gated fraction in 1/65,536 (65,536: injection gated to zero); 17 R414; reset 0 -/
  gate : Nat
  /-- L binds -/
  limited : Bool
  /-- L at its last change, in mW; 17 R413; reset 2,200,000 -/
  lastLimit : Nat
  /-- limits that PAVG has to meet, each from its count on, in mW; 17 R413; reset none -/
  limitDue : List (Nat × Nat)
  /-- the rise of core current that is under way: the count it began at, and the current of each die's core rail then in mA;
  17 R418; reset none -/
  ramp : Option (Nat × Nat × Nat)
  /-- 0 not shed, 2 shed, 3 shedding, 4 unshedding; 17 R420, R421; reset 0 -/
  shed : Nat
  /-- count at which shedding began; 17 R420; 64 bits -/
  shedAt : Nat
  /-- CAP_SETs that wait: command, count at which its response time passes (none64 when it waits for shedding), the
  effective cap it left -/
  capWait : List (Cmd × Nat × Nat)
  /-- requested core voltages in mV; 17 R416; reset 0 (750 at phase D) -/
  vcw : Nat
  /-- requested voltage of the east core rail; 17 R416; mV -/
  vce : Nat
  /-- count of the last voltage step, by die -/
  lastVolt : Tab Nat
  /-- voltage stepping stopped, by die; 17 R416; 2 bits -/
  avsStopped : BitVec 2
  /-- energy not apportioned; 13 Table 9 UNATTR; reset 0 -/
  unattr : Nat
  /-- count at which the accounting interval ends; 13 R315; 64 bits -/
  intervalEnd : Nat
  /-- rails whose two monitors differ, dies whose two sensor networks differ; 16 Table 3 -/
  monBad : BitVec 13
  /-- dies whose two sensor networks differ; 16 Table 3; 2 bits -/
  netBad : BitVec 2
  deriving DecidableEq, Repr

/-- The state of the block. -/
structure State where
  /-- commands waiting, first in first out; reset empty -/
  pending : List Instr
  /-- the model's own field: counter that free values are drawn with (log entry 14, DESIGN CHOICE); reset 0 DESIGN CHOICE -/
  draw : Nat
  /-- local time counter and its source; group Time -/
  time : Time
  /-- command sequencer; group Seqr -/
  cs : Seqr
  /-- outputs; group Out -/
  out : Out
  /-- start-up and control complex; group Boot -/
  boot : Boot
  /-- multi-role lands and straps; group Lands -/
  lands : Lands
  /-- telemetry figures; group Tele -/
  tele : Tele
  /-- partitions 0 to 15; 16 x group Part -/
  parts : Tab Part
  /-- tiles 0 to 8,191; 8,192 x group Tile -/
  tiles : Tab Tile
  /-- vector engines, by block; 128 x group Ve -/
  ves : Tab Ve
  /-- codebook RAM of block b, key 8,192 x b + 4,096 x slot + entry; 64 bits; 03 R37; reset 0 (log entry 3, DESIGN CHOICE) -/
  codebook : Tab W64
  /-- words in flight on the VE network; 07 R148; reset empty -/
  veNet : List NetWord
  /-- configuration words that injectors have put on the north ports of row 0: key block column; 05 R107; reset empty -/
  injectOut : Tab Chan
  /-- drawer table, key entry index; 16,777,216 entries of 64 bytes; 11 R264; reset zero -/
  drawers : Tab Drawer
  /-- region tables, key 8,192 x partition + index; 11 R272; reset zero -/
  regions : Tab Region
  /-- byte stores; group Mems -/
  mem : Mems
  /-- memory tiers; group Tiers -/
  tiers : Tiers
  /-- fabric links and the Iberaine port; group Fabric -/
  fabric : Fabric
  /-- management port 0; group Mgmt -/
  mgmtA : Mgmt
  /-- management port 1; group Mgmt -/
  mgmtB : Mgmt
  /-- faults, BIST, spares and wear; group Safety -/
  safety : Safety
  /-- mirrored pair; group Pair -/
  pair : Pair
  /-- power manager; group Power -/
  power : Power
  deriving DecidableEq, Repr

/-! ### Reset values -/

def Tile.reset : Tile :=
  { epoch := 0, ctxA := [], ctxP := [], rwA := 0, rwP := none, passed := BitVec.allOnes 56, inq := [], cfgq := [],
    held := [], latch := [], lout := [], q := [], waiters := [], ended := 0, stopped := 0, firstMark := none,
    heldSince := none, cfgBad := false, lastO := [], junk := none,
    gen0 := 0, gen1 := 0, scratch := [], regs := [], pass := none, slots := [], lastA := 7, lastM := 7, lastS := 7, unitS := none,
    checkFifo := [], coll := [] }

def SlotRun.reset : SlotRun :=
  { fork := none, second := none, ctr := none, runs := 0, mv := none, waitSince := none }

def VReg.zero : VReg := Vector.replicate 64 0

def Ve.reset : Ve :=
  { v := [], s := [], m := [], junk := none, pc := 0, epv := 0, gens := VReg.zero, buffer := true, running := false, slots := [],
    cache := [], cacheInit := false, buf := [], mail := [], arrived := [], marked := [], txOut := [], txFail := 0,
    ckFailed := false, lastRt := { layer := 0, k2 := false, e1 := [], e2 := [] }, lanes := [], softErrors := 0,
    waitSince := none, spare := false }

def PartEntry.zero : PartEntry :=
  { bcols := 0, gbase := 0, gcount := 0, dbase := 0, dlimit := 0, savefirst := 0, saveframes := 0, ranges := [],
    raw := List.replicate 160 0 }

def Budget.zero : Budget := { bal := 0, res := 0, used := 0, inW := 0, outW := 0, wset := false }

def Acct.zero : Acct :=
  { since := 0, now := 0, tbeats := 0, veissue := 0, tierb := [], fabSent := 0, fabRecv := 0, energy := 0,
    remBeats := 0, remTbytes := 0, servBeats := 0, servTbytes := 0, steps := 0, abandon := 0, isol := 0, stale := 0,
    late := 0, act := [] }

def CommitRec.zero : CommitRec :=
  { gen := 0, round := 0, cstep := 0, ccount := 0, pstep := 0, pcount := 0, nmem := 0, nend := 0, nobj := 0,
    pair := false }

def Stream.empty : Stream :=
  { prog := [], next := 0, early := [], active := [], releases := [], usedMarks := [], cond := 0, mask := 0, markAt := none,
    ignored := 0, discarded := 0, underruns := 0, epoch := 0, marked := [], relWrites := [], needConfig := false }

def Ingress.empty : Ingress :=
  { dispatches := [], closes := [], cancels := [], served := [], absent := [], lastEvent := none64 }

def Part.reset : Part :=
  { role := .unused, entry := PartEntry.zero, pre := .running, stuck := 0, holds := 0, yieldCmd := none,
    evictCmd := none, resumeCmd := none, resetCmd := none, yieldRec := none, image := none, seed := 0, models := [],
    active := none, switching := none, filling := false, gen := 0, nextStep := 0, nextRound := 0,
    crec := CommitRec.zero, budgets := [], acct := Acct.zero, reqs := [], step := none, pub := none, waitReplies := [],
    durations := [], committed := 0, ops := [], stream := Stream.empty, inject := none, epoch := 0, grants := [],
    adapters := [], opened := [], migrations := [], ingress := Ingress.empty, lastIsol := none64, lastTwinStep := 0,
    paired := false, mirrorValid := false, syncing := false, syncSentAt := 0, twoHomes := false, lapsing := false,
    mirrorFail := 0, acksDue := 0, claimed := false, takeover := 0,
    vstep := 0, doomed := [], toFree := [], chained := false, cancelDone := [] }

def Drawer.zero : Drawer :=
  { state := 0, held := false, tenant := 0, size := 0, sbase := 0, slen := 0, tlen := 0, check := 0, tbase := 0,
    tcap := 0, pSbase := 0, pSlen := 0, pTlen := 0, pCheck := 0, pStep := 0 }

def Region.zero : Region :=
  { state := 0, kind := 0, owner := 0, base := 0, cap := 0, len := 0, pLen := 0, pStep := 0 }

def HtEntry.zero : HtEntry :=
  { v := false, st := 0, mir := false, part := 0, htier := 0, hf := 0, dtier := 0, df := 0 }

def Slot.reset : Slot :=
  { state := 0, corrected := 0, uncorrected := 0, unitErrors := [], retired := [], copying := [], spent := 0, poison := [],
    exhausted := false }

def Link.reset : Link :=
  { st := .down, since := 0, rateIdx := 0, goods := [], width := 0, rate := 0, lanes := [], spare := 5,
    retiredLanes := [], partnerLanes := 0, partnerRate := 0, swap := none, txq := [], nextSeq := 0, replay := [],
    credits := [], lastTurn := 0, replays := 0, progressAt := 0, expSeq := 0, nakSent := false, credRet := [],
    partialTx := [], wire := [], lastSent := 0, corrected := 0, replayCount := 0, changes := 0,
    rotates := false, sideOk := false, downAt := 0 }

def Mems.reset : Mems := { t0 := [], t1 := [], t2 := [], image := [], fabcfg := [], retire := [], sram := [] }

def Tiers.reset : Tiers :=
  { n1 := 0, n2 := 0, cxl := [], cxlUnused := 0, cmin := 0, stackRate := [], capOver := [],
    up0 := false, up1 := false, up2 := false, slots := [], retired0 := [], retired1 := [], dark := false,
    out1 := false, out2 := false, ht := [], frames := [], moves := [], freeing := [], gate := [], syncGrain := none,
    transfers := [], nextId := 0, verified := [], failedObjs := [], scans := [], engines := [], checks := [], reads := [],
    replaces := [] }

def Fabric.reset : Fabric :=
  { chip := 0, accepted := false, ents := [], routes := [], links := [], fwd := [], fwdIn := [], fwdOpen := [], ingress := [], sent := [], pairSent := [],
    expertSent := [], streamLink := [], waiting := [], discarded := 0, noRoute := 0, routeErr := 0, sideDisc := 0, lost := 0,
    lastNoRoute := none64, remoteOpen := [], nextTid := 0, nextMsg := [], sideSent := [], lightAt := 0,
    versionFail := false }

def Mgmt.reset : Mgmt :=
  { enabled := false, dynAddr := none, eid := 0, lastMsg := 0, lost := false, lostAt := 0, discarded := 0 }

def Boot.reset : Boot :=
  { resetN := false, done := [], safe := false, ready := false, recovery := false, stopped := false, cores := 3,
    spareUsed := false, imageGot := [], fabGot := [], retireGot := [],
    retireLen := 0, start := false, hello := false, surplus := 0, imageOk := false, fabOk := false, retireOk := false, bootDisc := 0, svn := 0,
    sfDigest := List.replicate 32 0, fabDigest := List.replicate 32 0, svnMin := 0, raises := 0, revoked := 0,
    sfRunning := false, keys := false, startAt := 0 }

def Lands.reset : Lands :=
  { phase := 0, sampledAt := 0, straps := 0, alertUntil := 0, alertLow := false, brake := false }

def Tele.reset : Tele :=
  { renewed := 0, west := 0, east := 0, stagePs := [], wear := [], temp := [], blockSt := [] }

def Safety.reset : Safety :=
  { recno := 0, recs := [], counts := [], maps := [], badSegs := [], badVes := [], spareVe := 3, badSpareVe := 0,
    badCols := 0, slices := [], retest := [], passes := [], swept := [], wear := [], subst := none, named := [],
    overdue := [], bistSince := 0, heldFor := [] }

def Pair.reset : Pair :=
  { on := false, setting := none, twin := 0, prim := 0, mirr := 0, ackCounts := 0, setupStart := 0, setupLast := 0,
    twinSetup := false, early := none, lastSent := 0, lastRecv := 0, lastBeat := 0, beatSeq := 0, rxSeq := none, lastFrame := 0,
    twinP := 0, twinM := 0, failed := false, pathLost := false, discarded := 0, beats := [], twinReplies := [] }

def Power.reset : Power :=
  { good := 0x0008#13, lostRails := 0, capC := 0, capA := 0, capB := 0, brakeLevel := 900,
    orph := 60, orphA := false, orphB := false, holdA := 0, holdB := 0, stage := 0, thermLimit := 0, thermOn := false,
    thermSaved := 0, thermStep := 0, entryHolds := false, leaveHolds := true, samples := [], pavg := 0,
    sampledAt := 0, mv := [], ma := [], energy := [], energyMark := [], energyRem := [], gate := 0, limited := false,
    lastLimit := 2200000, limitDue := [], ramp := none, shed := 0, shedAt := 0, capWait := [], vcw := 0, vce := 0, lastVolt := [], avsStopped := 0, unattr := 0,
    intervalEnd := 0, monBad := 0, netBad := 0 }

/-- The device right after the always-on supply has become good, RESET_N low, nothing started (02 R25, 15 R355). -/
def State.reset : State :=
  { pending := [], draw := 0,
    time := { count := 0, lost := false, bridging := false, watch := 0 },
    cs := { expect := [], queues := [], running := [], inCount := 0, lastCount := 0, short := [], eventSeq := [] },
    out := { iberaine := [], heldC := [], disc := 0, mgmtA := [], mgmtB := [], twin := [], framedC := 0, framedT := 0 },
    boot := Boot.reset, lands := Lands.reset, tele := Tele.reset, parts := [], tiles := [], ves := [], codebook := [],
    veNet := [], injectOut := [], drawers := [], regions := [], mem := Mems.reset, tiers := Tiers.reset, fabric := Fabric.reset,
    mgmtA := Mgmt.reset, mgmtB := Mgmt.reset, safety := Safety.reset, pair := Pair.reset, power := Power.reset }

end Sys2Proof.Machine
end

