-- ==== Sys2Proof/WellFormed.lean ====
section
/-! DEFINITION. Well-formed commands: each operand names a thing the device has (a partition 0 to 15, a block 0 to 127,
a tile 0 to 8,191, ...). A command that is not well-formed changes nothing (log entry 2, DEDUCED). -/

namespace Sys2Proof

/-- A unit of the BIST sweep (16 Table 4) that exists: 128 blocks, 2 x 8 x 66 column segments, 2 spare VEs, 18 fabric
links of five lanes and the Iberaine port, 256 and 64 slots, 8 devices. -/
def unitOk : BistUnit → Bool
  | .block b => decide (b < 128)
  | .segment d r g => decide (d < 2 ∧ r < 8 ∧ g < 66)
  | .spareVe d => decide (d < 2)
  | .control => true
  | .lane l n => decide (l ≤ 18 ∧ n < 5)
  | .tier0 k => decide (k < 256)
  | .tier1 k => decide (k < 64)
  | .tier2 d => decide (d < 8)
  | .ve b => decide (b < 128)

/-- A waiting handshake the watchdog can report. -/
def siteOk : WatchSite → Bool
  | .tileSwitch t => decide (t < 8192)
  | .ve b => decide (b < 128)
  | .context t slot => decide (t < 8192 ∧ slot < 8)

/-- Numbers of one record of a pair message fit the widths of 16 Table 9. -/
def pairRecOk : PairRec → Bool
  | .setup _ _ ps => decide (ps.length = 16) && ps.all fun (a, b, c, d, n) =>
      decide (a < 2 ^ 32 ∧ b < 2 ^ 32 ∧ c < 2 ^ 32 ∧ d < 2 ^ 32 ∧ n < 256)
  | .grain g => decide (g < 2 ^ 32)
  | .data off bs => decide (off < 2 ^ 64 ∧ bs.length < 2 ^ 32)
  | .entry t i bs => decide (t < 256 ∧ i < 2 ^ 32 ∧ bs.length = 64)
  | .record bs => decide (bs.length = 64)
  | .charge t c => decide (t < 256 ∧ c < 2 ^ 64)

/-- The kind of message carries this kind of record (16 Table 9). -/
def pairRecOf (kind : Nat) : PairRec → Bool
  | .setup .. => decide (kind = 1)
  | .grain _ => decide (kind = 2 ∨ kind = 3)
  | .data .. => decide (kind = 4)
  | .entry .. => decide (kind = 5)
  | .record _ => decide (kind = 6)
  | .charge .. => decide (kind = 8)

/-- Fields of a pair message fit their widths (16 Table 8), and the records of a defined kind are that kind's, one alone in
SETUP and RECORD. -/
def pairOk (m : PairMsg) : Bool :=
  decide (m.pkind < 256 ∧ m.ver < 256 ∧ m.part < 16 ∧ m.step < 2 ^ 64 ∧ m.vstep < 2 ^ 64 ∧ m.status < 2 ^ 16 ∧
      m.recs.length < 2 ^ 32) &&
    m.recs.all pairRecOk &&
    (!decide (1 ≤ m.pkind ∧ m.pkind ≤ 12) ||
      (m.recs.all (pairRecOf m.pkind) && (!decide (m.pkind = 1 ∨ m.pkind = 6) || decide (m.recs.length = 1))))

/-- Words of a load by word address: addresses strictly rising from `lo`, below `top`. -/
def loadWords (top : Nat) (lo : Nat) : List (Nat × Nat) → Bool
  | [] => true
  | (a, w) :: r => decide (lo ≤ a ∧ a < top ∧ w < 2 ^ 32) && loadWords top (a + 1) r

/-- The operands name things that exist. -/
def Instr.wf : Instr → Bool
  | .commandPacketArrival port _ => decide (port ≤ 3)
  | .echo q => decide (q ≤ 16)
  | .identity q => decide (q ≤ 16)
  | .telemetry q => decide (q ≤ 16)
  | .partReset p => decide (p < 16)
  | .partYield p => decide (p < 16)
  | .partEvict p => decide (p < 16)
  | .partResume p => decide (p < 16)
  | .acctRead p => decide (p < 16)
  | .acctReadClear p => decide (p < 16)
  | .seed p => decide (p < 16)
  | .modelInstall p _ => decide (p < 16)
  | .modelSwitch p _ _ => decide (p < 16)
  | .modelRemove p => decide (p < 16)
  | .expertMap p => decide (p < 16)
  | .balance p => decide (p < 16)
  | .request p adapters => decide (p < 16) && adapters.all fun a => decide (a < 2 ^ 64)
  | .cancel p => decide (p < 16)
  | .budgetSet p => decide (p < 16)
  | .budgetAdd p => decide (p < 16)
  | .budgetSetWeights p => decide (p < 16)
  | .budgetRead p => decide (p < 16)
  | .drawerCreate p => decide (p < 16)
  | .drawerOpen p => decide (p < 16)
  | .drawerClose p => decide (p < 16)
  | .drawerCommit p => decide (p < 16)
  | .drawerMove p => decide (p < 16)
  | .drawerDelete p => decide (p < 16)
  | .drawerRead p => decide (p < 16)
  | .grainAlloc p => decide (p < 16)
  | .grainMove p => decide (p < 16)
  | .grainFree p => decide (p < 16)
  | .loadGrant p => decide (p < 16)
  | .loadData p => decide (p < 16)
  | .loadCheck p => decide (p < 16)
  | .mirrorCmd p _ => decide (p < 16)
  | .bootImagePiece _ => true
  | .bootFabcfgPiece _ => true
  | .bootRetirePiece _ => true
  | .bootStart _ => true
  | .setEndpointId port op eid => decide (1 ≤ port ∧ port ≤ 2 ∧ op < 256 ∧ eid < 256)
  | .getEndpointId port => decide (1 ≤ port ∧ port ≤ 2)
  | .getMctpVersionSupport port msgType => decide (1 ≤ port ∧ port ≤ 2 ∧ msgType < 256)
  | .getMessageTypeSupport port => decide (1 ≤ port ∧ port ≤ 2)
  | .mctpUnsupportedControl port code => decide (1 ≤ port ∧ port ≤ 2 ∧ code < 256)
  | .entdaa port addr => decide (1 ≤ port ∧ port ≤ 2 ∧ addr < 128)
  | .setdasa port static addr => decide (1 ≤ port ∧ port ≤ 2 ∧ static < 128 ∧ addr < 128)
  | .nop b => decide (b < 128)
  | .halt b => decide (b < 128)
  | .sbnz b => decide (b < 128)
  | .sli b => decide (b < 128)
  | .sadd b => decide (b < 128)
  | .smul b => decide (b < 128)
  | .sld b _ => decide (b < 128)
  | .sst b => decide (b < 128)
  | .vext b => decide (b < 128)
  | .vbcast b => decide (b < 128)
  | .viota b => decide (b < 128)
  | .vadd b => decide (b < 128)
  | .vsub b => decide (b < 128)
  | .vmul b => decide (b < 128)
  | .vfma b => decide (b < 128)
  | .vmax b => decide (b < 128)
  | .vmin b => decide (b < 128)
  | .vabs b => decide (b < 128)
  | .vneg b => decide (b < 128)
  | .vcmp b => decide (b < 128)
  | .vsel b => decide (b < 128)
  | .viadd b => decide (b < 128)
  | .vlog b => decide (b < 128)
  | .vshf b => decide (b < 128)
  | .vcvti b => decide (b < 128)
  | .mtail b => decide (b < 128)
  | .mop b => decide (b < 128)
  | .mset b => decide (b < 128)
  | .vfn b => decide (b < 128)
  | .epld b _ => decide (b < 128)
  | .eprun b _ => decide (b < 128)
  | .vrsum b => decide (b < 128)
  | .vrmax b => decide (b < 128)
  | .vrargmax b => decide (b < 128)
  | .vscan b => decide (b < 128)
  | .vperm b => decide (b < 128)
  | .vcvt b => decide (b < 128)
  | .vmxq b => decide (b < 128)
  | .vld b _ => decide (b < 128)
  | .vst b => decide (b < 128)
  | .vlds b _ => decide (b < 128)
  | .vsts b => decide (b < 128)
  | .vldx b _ => decide (b < 128)
  | .vstx b => decide (b < 128)
  | .pput b => decide (b < 128)
  | .pwr b => decide (b < 128)
  | .prd b _ => decide (b < 128)
  | .pmark b => decide (b < 128)
  | .coll b => decide (b < 128)
  | .ckpop b => decide (b < 128)
  | .vepoch b => decide (b < 128)
  | .nsend b => decide (b < 128)
  | .nrecv b => decide (b < 128)
  | .txf b _ _ _ => decide (b < 128)
  | .txwait b => decide (b < 128)
  | .cbwr b => decide (b < 128)
  | .rtsel b _ _ acts => decide (b < 128 ∧ acts < 65536)
  | .rtcnt b _ => decide (b < 128)
  | .vrand b => decide (b < 128)
  | .cktol b => decide (b < 128)
  | .ckcmp b => decide (b < 128)
  | .ckdone b => decide (b < 128)
  | .veServiceStage b _ _ => decide (b < 128)
  | .mailboxWordArrival b src => decide (b < 128 ∧ src < 128)
  | .veProgramStart b pc buffer words =>
    decide (b < 128 ∧ pc < 32768) && loadWords (if buffer then 4096 else 65536) 0 words
  | .routerTokenArrival t src _ => decide (t < 8192 ∧ src ≤ 10)
  | .routerOutputGrant t inp lbl _ => decide (t < 8192 ∧ inp < 7 ∧ lbl ≤ 8)
  | .configTokenWrite t inp => decide (t < 8192 ∧ inp < 7)
  | .injectorSend p j => decide (p < 16 ∧ j < 16)
  | .steeringFiring t slot _ => decide (t < 8192 ∧ slot < 8)
  | .counterRunStart t slot => decide (t < 8192 ∧ slot < 8)
  | .counterEmit t slot => decide (t < 8192 ∧ slot < 8)
  | .matrixPassStart t slot _ => decide (t < 8192 ∧ slot < 8)
  | .gnxtTokenConsume t _ => decide (t < 8192)
  | .beatIssue t _ _ => decide (t < 8192)
  | .accumulatorDrain t => decide (t < 8192)
  | .weightWordAccept t => decide (t < 8192)
  | .expanderDecode t _ => decide (t < 8192)
  | .moveWord t slot _ => decide (t < 8192 ∧ slot < 8)
  | .contextEpochEnd t slot => decide (t < 8192 ∧ slot < 8)
  | .tileEpochSwitch t => decide (t < 8192)
  | .operandPortDelivery b lane => decide (b < 128 ∧ lane < 8)
  | .handshakeWatchdogExpiry site => siteOk site
  | .streamFeed p _ => decide (p < 16)
  | .streamStage p _ => decide (p < 16)
  | .streamMark p => decide (p < 16)
  | .streamDrain p _ => decide (p < 16)
  | .streamConfig p _ => decide (p < 16)
  | .streamEnd p => decide (p < 16)
  | .markReleaseWrite p => decide (p < 16)
  | .streamStallExpiry p => decide (p < 16)
  | .transferGrant tier entry => decide (tier ≤ 2) && entry.all fun e => decide (e.1 < 16)
  | .transferCompletion _ _ => true
  | .transferLate _ => true
  | .firstFillComplete p => decide (p < 16)
  | .adapterStageComplete p _ => decide (p < 16)
  | .moveCopyStart g own => decide (g < 8388608) && own.all fun e => decide (e.1 ≤ 2 ∧ e.2 < 4194304)
  | .moveSwitch g status => decide (g < 8388608 ∧ status < 65536)
  | .moveRelease g => decide (g < 8388608)
  | .moveLimitReached g => decide (g < 8388608)
  | .htScrub _ => true
  | .pageRetirementDone tier _ => decide (tier ≤ 2)
  | .channelFailure tier _ => decide (tier ≤ 2)
  | .migrationStart p _ _ _ => decide (p < 16)
  | .migrationMapUpdate p => decide (p < 16)
  | .migrationRelease p => decide (p < 16)
  | .scanSegmentDone engine _ => decide (engine < 8)
  | .stepBegin p _ _ _ => decide (p < 16)
  | .publishFence p _ => decide (p < 16)
  | .stepCommit p _ _ => decide (p < 16)
  | .verdictWatchdogExpiry p => decide (p < 16)
  | .deadlineJudgement p => decide (p < 16)
  | .biasUpdate p _ => decide (p < 16)
  | .expertDispatchRecv _ => true
  | .expertCloseRecv _ => true
  | .expertReturnRecv _ => true
  | .expertCancelRecv _ => true
  | .expertLayerServe p _ _ => decide (p < 16)
  | .returnLimitExpiry p _ => decide (p < 16)
  | .homeCloseLimitExpiry p _ => decide (p < 16)
  | .linkTrainStatePass l _ => decide (l ≤ 18)
  | .linkTrainLimit l => decide (l ≤ 18)
  | .sidebandSend l => decide (l ≤ 18)
  | .sidebandRecv _ => true
  | .dataFrameRecv l _ => decide (l ≤ 18)
  | .idleFrameRecv l _ => decide (l ≤ 18)
  | .nakFrameRecv l _ => decide (l ≤ 18)
  | .laneSwapFrameRecv l _ => decide (l ≤ 18)
  | .linkUpFrameRecv l _ => decide (l ≤ 18)
  | .frameTransmit l ch => decide (l ≤ 18 ∧ ch < 6)
  | .idleFrameTimer l => decide (l ≤ 18)
  | .laneLockLoss l lane => decide (l ≤ 18 ∧ lane < 5)
  | .laneErrorInterval l lane _ _ => decide (l ≤ 18 ∧ lane < 5)
  | .laneSwapEffect l => decide (l ≤ 18)
  | .ackProgressTimeout l => decide (l ≤ 18)
  | .codewordAlignmentLoss l => decide (l ≤ 18)
  | .fastRecoveryTimeout l => decide (l ≤ 18)
  | .transactionForward l => decide (l ≤ 18)
  | .remoteRead _ _ => true
  | .remoteWrite _ _ => true
  | .remoteAtomic _ _ => true
  | .remoteFence _ => true
  | .readRsp _ => true
  | .writeCpl _ => true
  | .atomicRsp _ => true
  | .fenceCpl _ => true
  | .loadWriteIngress _ _ => true
  | .loadForward p _ => decide (p < 16)
  | .loadGrantExpiry p _ => decide (p < 16)
  | .iberaineStatePass _ => true
  | .rackManagerLost m => decide (1 ≤ m ∧ m ≤ 2)
  | .supplyGood rail _ => decide (rail ≤ 12)
  | .railLoss rail => decide (rail ≤ 12)
  | .resetNRise _ => true
  | .startupSelfTest _ _ _ => true
  | .startupDomains _ _ _ => true
  | .startupMemory rates _ _ caps => decide (rates.length = 8 ∧ caps.length = 64) && rates.all fun r => decide (r ∈ [0, 64, 80, 96])
  | .startupTier2 _ => true
  | .controlRecovery _ _ => true
  | .telemetryRenewal _ _ _ => true
  | .bistSliceStart u => unitOk u
  | .bistSliceEnd u _ _ => unitOk u
  | .bistSliceAbort u => unitOk u
  | .bistOverdue u => unitOk u
  | .wearGaugeRenewal _ => true
  | .substitutionSchedule die row seg => decide (die < 2 ∧ row < 8 ∧ seg < 66)
  | .forcedSubstitution die row seg => decide (die < 2 ∧ row < 8 ∧ seg < 66)
  | .veSubstitution b _ pc => decide (b < 128 ∧ pc < 32768)
  | .yieldBoundary p => decide (p < 16)
  | .evictQuiesceEnd p => decide (p < 16)
  | .evictSaveComplete p => decide (p < 16)
  | .resumeReloadComplete p => decide (p < 16)
  | .pairSetupRecv m => pairOk m
  | .pairAllocRecv m => pairOk m
  | .pairFreeRecv m => pairOk m
  | .pairDataRecv m => pairOk m
  | .pairEntryRecv m => pairOk m
  | .pairRecordRecv m => pairOk m
  | .pairAckRecv m => pairOk m
  | .pairConfirmRecv m => pairOk m
  | .pairHeartbeatRecv m => pairOk m
  | .pairInvalRecv m => pairOk m
  | .pairSyncBeginRecv m => pairOk m
  | .pairSyncEndRecv m => pairOk m
  | .pairAckTimeout p => decide (p < 16)
  | .heartbeatFrameRecv _ => true
  | .powerSample _ _ => true
  | .coreVoltageStep die _ _ => decide (die < 2)
  | .brakeAssert _ => true
  | .thermalSample _ _ _ => true
  | .thermalTrip _ _ => true
  | .orphanCapApply m => decide (1 ≤ m ∧ m ≤ 2)
  | .timerefEdge _ => true
  | .oscillatorAdvance _ => true
  | .timerefLoss _ => true
  | .timerefReturn _ _ => true
  | .twinReplyRecv _ => true
  | .partDefine => true
  | .layerReplace => true
  | .capSet => true
  | .brakeCfg => true
  | .orphanCfg => true
  | .emergencyRelease => true
  | .emergencyHold => true
  | .emergencyShed => true
  | .emergencyStop => true
  | .powerRead => true
  | .pairSetup => true
  | .pairEnd => true
  | .replaceCopyStart => true
  | .replaceCopyDone => true
  | .iberaineStateLimit => true
  | .iberaineLightRetry => true
  | .resetNFall => true
  | .trainPhaseStart => true
  | .startupIdentity => true
  | .startupManagement => true
  | .startupIberaine => true
  | .bootExchangeHello => true
  | .startupVerification => true
  | .startupFabric => true
  | .startupServiceFirmware => true
  | .startupReady => true
  | .lockstepDivergence => true
  | .substitutionSave => true
  | .substitutionMapWrite => true
  | .substitutionRestoreDone => true
  | .pairSetupMessageSend => true
  | .pairSetupTimeout => true
  | .pairHeartbeatSend => true
  | .heartbeatFrameSend => true
  | .twinFailure => true
  | .capResponseElapsed => true
  | .shedComplete => true
  | .unshedComplete => true
  | .brakeRelease => true
  | .thermalLimitStep => true
  | .accountingInterval => true
  | .pairPathLoss => true
  | .syncEndAckTimeout => true
  | .alertPulseEnd => true

end Sys2Proof
end

