-- ==== Sys2Proof/Machine/Ops.lean ====
section
/-! DEFINITION. The shared operations: tables, memory, fields and byte order, access to the parts of State, and what
the device sends (replies, events). Every meaning is written over these. -/

namespace Sys2Proof.Machine

/-! ### Tables -/

/-- Entry `k` of a table with default `d`. -/
def tget (d : α) : Tab α → Nat → α
  | [], _ => d
  | (i, v) :: r, k => if k < i then d else if k = i then v else tget d r k

/-- The table with entry `k` set. -/
def tset : Tab α → Nat → α → Tab α
  | [], k, v => [(k, v)]
  | (i, w) :: r, k, v =>
    if k < i then (k, v) :: (i, w) :: r else if k = i then (k, v) :: r else (i, w) :: tset r k v

/-- The table without entry `k`. -/
def tdel (t : Tab α) (k : Nat) : Tab α := t.filter (fun e => e.1 != k)

/-- Entry `k`, if listed. -/
def tfind (t : Tab α) (k : Nat) : Option α := tget none (t.map fun e => (e.1, some e.2)) k

/-- Whether an entry is listed. -/
def thas (t : Tab α) (k : Nat) : Bool := t.any (fun e => e.1 == k)

/-! ### Memory -/

/-- The byte at an address; an unlisted byte reads 0 (log entry 4, DESIGN CHOICE). -/
def mget (m : Memory) (a : Nat) : Byte := tget 0#8 m a

/-- The memory with one byte written; a byte equal to 0 is not listed. -/
def mput : Memory → Nat → Byte → Memory
  | [], a, v => if v = 0#8 then [] else [(a, v)]
  | (i, w) :: r, a, v =>
    if a < i then (if v = 0#8 then (i, w) :: r else (a, v) :: (i, w) :: r)
    else if a = i then (if v = 0#8 then r else (a, v) :: r)
    else (i, w) :: mput r a v

/-- Addresses above `lo` in strictly rising order, no byte 0. -/
def Memory.wfFrom : Nat → Memory → Bool
  | _, [] => true
  | lo, (a, v) :: r => decide (lo ≤ a) && decide (v ≠ 0#8) && Memory.wfFrom (a + 1) r

/-- The canonical form of a memory. -/
def Memory.wf (m : Memory) : Bool := Memory.wfFrom 0 m

/-- The `n` bytes from address `a`. -/
def mread (m : Memory) (a n : Nat) : List Byte := (List.range n).map (fun i => mget m (a + i))

/-- The memory with bytes written from address `a`. -/
def mwrite : Memory → Nat → List Byte → Memory
  | m, _, [] => m
  | m, a, b :: bs => mwrite (mput m a b) (a + 1) bs

/-- The memory with `n` bytes from `a` zero. -/
def mzero (m : Memory) (a n : Nat) : Memory := m.filter (fun c => !(decide (a ≤ c.1) && decide (c.1 < a + n)))

/-- `dst` with the `n` bytes from `a` of `src` copied to address `b`. -/
def mcopy (src : Memory) (a : Nat) (dst : Memory) (b n : Nat) : Memory :=
  (src.filter (fun c => decide (a ≤ c.1) && decide (c.1 < a + n))).foldl (fun m c => mput m (c.1 - a + b) c.2)
    (mzero dst b n)

/-! ### Fields and byte order -/

/-- Bits [lo + n - 1 : lo] of a word. -/
def bfld (w : BitVec k) (lo n : Nat) : Nat := (w.extractLsb' lo n).toNat

/-- Bits [lo + n - 1 : lo] of a number. -/
def nfld (w lo n : Nat) : Nat := w / 2 ^ lo % 2 ^ n

/-- Little-endian value of a byte list (00 R6). -/
def leNat : List Byte → Nat
  | [] => 0
  | b :: r => b.toNat + 256 * leNat r

/-- The `n` little-endian bytes of a number. -/
def leBytes : Nat → Nat → List Byte
  | 0, _ => []
  | n + 1, v => BitVec.ofNat 8 v :: leBytes n (v / 256)

/-- The field of `n` bytes at offset `o` of a structure. -/
def fld (bs : List Byte) (o n : Nat) : Nat := leNat ((bs.drop o).take n)

/-- Bytes `o` to `o + n - 1` of a structure. -/
def sub (bs : List Byte) (o n : Nat) : List Byte := (bs.drop o).take n

/-- `n` zero bytes. -/
def zeros (n : Nat) : List Byte := List.replicate n 0

/-- Bytes of ones. -/
def ones (n : Nat) : List Byte := List.replicate n 255

/-- A structure padded with zeros or cut to `n` bytes. -/
def pad (n : Nat) (bs : List Byte) : List Byte := (bs ++ zeros (n - bs.length)).take n

/-- Whether all bytes of a field are zero. -/
def isZero (bs : List Byte) (o n : Nat) : Bool := ((bs.drop o).take n).all (· == 0#8)

/-- The line of 64 bytes. -/
def bytesLine (bs : List Byte) : Line := BitVec.ofNat 512 (leNat (bs.take 64))

/-- Lane `i` of a line: bits [32i + 31 : 32i] (05 Table 1). -/
def lane (l : Line) (i : Nat) : W32 := l.extractLsb' (32 * i) 32

/-- The line whose lanes are the listed words. -/
def ofLanes : List W32 → Nat
  | [] => 0
  | w :: r => w.toNat + 2 ^ 32 * ofLanes r

/-- A line of sixteen lanes. -/
def lineOf (ws : List W32) : Line := BitVec.ofNat 512 (ofLanes (ws.take 16))

/-- Round `a` lies before round `b`, modulo 2^32 (R179). -/
def roundBefore (a b : Nat) : Bool := decide (a ≠ b ∧ (b + 2 ^ 32 - a) % 2 ^ 32 < 2 ^ 31)

/-- Signed value of an `n`-bit field. -/
def sgn (n v : Nat) : Int := if v < 2 ^ (n - 1) then v else (v : Int) - 2 ^ n

/-- Division rounded up. -/
def cdiv (a b : Nat) : Nat := (a + b - 1) / b

/-- A counter of `n` bits that saturates (13 R313). -/
def sat (n v : Nat) : Nat := min v (2 ^ n - 1)

/-- Lists of 64-bit saturating addition. -/
def sat64 (v : Nat) : Nat := sat 64 v

/-- Drop repetitions, keeping the first. -/
def dedup [DecidableEq α] : List α → List α
  | [] => []
  | x :: xs => x :: (dedup xs).filter (fun y => decide (y ≠ x))

/-! ### Parts of State -/

def count (s : State) : Nat := s.time.count

def part (s : State) (p : Nat) : Part := tget Part.reset s.parts p
def setPart (s : State) (p : Nat) (x : Part) : State := { s with parts := tset s.parts p x }
def modPart (s : State) (p : Nat) (f : Part → Part) : State := setPart s p (f (part s p))

def tile (s : State) (t : Nat) : Tile := tget Tile.reset s.tiles t
def setTile (s : State) (t : Nat) (x : Tile) : State := { s with tiles := tset s.tiles t x }
def modTile (s : State) (t : Nat) (f : Tile → Tile) : State := setTile s t (f (tile s t))

def ve (s : State) (b : Nat) : Ve := tget Ve.reset s.ves b
def setVe (s : State) (b : Nat) (x : Ve) : State := { s with ves := tset s.ves b x }
def modVe (s : State) (b : Nat) (f : Ve → Ve) : State := setVe s b (f (ve s b))

def link (s : State) (l : Nat) : Link := tget Link.reset s.fabric.links l
def setLink (s : State) (l : Nat) (x : Link) : State :=
  { s with fabric := { s.fabric with links := tset s.fabric.links l x } }
def modLink (s : State) (l : Nat) (f : Link → Link) : State := setLink s l (f (link s l))

def drawer (s : State) (i : Nat) : Drawer := tget Drawer.zero s.drawers i
def setDrawer (s : State) (i : Nat) (x : Drawer) : State := { s with drawers := tset s.drawers i x }

def region (s : State) (p i : Nat) : Region := tget Region.zero s.regions (8192 * p + i)
def setRegion (s : State) (p i : Nat) (x : Region) : State :=
  { s with regions := tset s.regions (8192 * p + i) x }

def ht (s : State) (g : Nat) : HtEntry := tget HtEntry.zero s.tiers.ht g
def setHt (s : State) (g : Nat) (e : HtEntry) : State := { s with tiers := { s.tiers with ht := tset s.tiers.ht g e } }

/-- Key of frame `f` of tier `t` in the frame map. -/
def frameKey (t f : Nat) : Nat := 4194304 * t + f

def frameSt (s : State) (t f : Nat) : FrameState := tget .free s.tiers.frames (frameKey t f)
def setFrame (s : State) (t f : Nat) (x : FrameState) : State :=
  { s with tiers := { s.tiers with frames := tset s.tiers.frames (frameKey t f) x } }

def modTiers (s : State) (f : Tiers → Tiers) : State := { s with tiers := f s.tiers }
def modFabric (s : State) (f : Fabric → Fabric) : State := { s with fabric := f s.fabric }
def modPower (s : State) (f : Power → Power) : State := { s with power := f s.power }
def modSafety (s : State) (f : Safety → Safety) : State := { s with safety := f s.safety }
def modPair (s : State) (f : Pair → Pair) : State := { s with pair := f s.pair }
def modBoot (s : State) (f : Boot → Boot) : State := { s with boot := f s.boot }
def modLands (s : State) (f : Lands → Lands) : State := { s with lands := f s.lands }
def modCs (s : State) (f : Seqr → Seqr) : State := { s with cs := f s.cs }

def slot (s : State) (t k : Nat) : Slot := tget Slot.reset s.tiers.slots (256 * t + k)
def setSlot (s : State) (t k : Nat) (x : Slot) : State :=
  modTiers s fun m => { m with slots := tset m.slots (256 * t + k) x }

/-- Bytes of one tier. -/
def tierMem (s : State) (t : Nat) : Memory :=
  if t = 0 then s.mem.t0 else if t = 1 then s.mem.t1 else s.mem.t2

def setTierMem (s : State) (t : Nat) (m : Memory) : State :=
  if t = 0 then { s with mem := { s.mem with t0 := m } }
  else if t = 1 then { s with mem := { s.mem with t1 := m } }
  else { s with mem := { s.mem with t2 := m } }

/-- The frame's 2 MiB. -/
abbrev frameBytes : Nat := 2097152

/-- Defined partitions: primary or mirror (13 R298). -/
def defined (s : State) (p : Nat) : Bool := decide (p < 16) && decide ((part s p).role ≠ .unused)

def isPrimary (s : State) (p : Nat) : Bool := decide (p < 16) && decide ((part s p).role = .primary)
def isMirror (s : State) (p : Nat) : Bool := decide (p < 16) && decide ((part s p).role = .mirror)

/-- Block column of a block; partition that holds a block column (13 Table 1). -/
def colOf (b : Nat) : Nat := b / 8

def holdsCol (x : Part) (c : Nat) : Bool := decide (x.role ≠ .unused) && x.entry.bcols.getLsbD c

/-- The partition that holds block column `c`, if any. -/
def partOfCol (s : State) (c : Nat) : Option Nat := (List.range 16).find? (fun p => holdsCol (part s p) c)

/-- The partition of a tile: tile t = 64 x + y lies in block column x / 8 (03 R33). -/
def partOfTile (s : State) (t : Nat) : Option Nat := partOfCol s (t / 64 / 8)

def partOfBlock (s : State) (b : Nat) : Option Nat := partOfCol s (colOf b)

/-- Block of a tile (03 R33). -/
def blockOf (t : Nat) : Nat := 8 * (t / 64 / 8) + t % 64 / 8

/-- Tile of a block by its index within the block (07 R144). -/
def tileIn (b i : Nat) : Nat := 64 * (8 * (b / 8) + i / 8) + (8 * (b % 8) + i % 8)

/-- Block columns of a partition in increasing order. -/
def colsOf (x : Part) : List Nat := (List.range 16).filter (fun c => x.entry.bcols.getLsbD c)

/-- Blocks and tiles of a partition. -/
def blocksOf (x : Part) : List Nat := (colsOf x).flatMap (fun c => (List.range 8).map (fun r => 8 * c + r))

/-- Whether tile `t` lies in the partition's block columns. -/
def hasTile (x : Part) (t : Nat) : Bool := x.entry.bcols.getLsbD (t / 64 / 8)

/-- The array of a partition is frozen, from phase 2 of an eviction until the reload has ended: every latch holds, and routers,
queues and VEs accept no handshake (13 R307, R310). -/
def frozen (x : Part) : Bool := decide (x.pre = .saving ∨ x.pre = .evicted ∨ x.pre = .reloading)

/-- Injectors, stream engines and VEs of the partition issue nothing more, from phase 1 of an eviction on (13 R307). -/
def halted (x : Part) : Bool := decide (x.pre = .quiescing) || frozen x

/-- Effective safety hold level (12 R295). -/
def holdLevel (s : State) : Nat := max s.power.holdA s.power.holdB

/-- Column map of a block row of a die (03 R34): physical segments in logical order; until one is written, the segments that
are no spares at shipment (R35). -/
def mapOf (s : State) (die row : Nat) : List Nat :=
  tget ((List.range 64).map fun i => i + 2 * die) s.safety.maps (8 * die + row)

/-- Happenings at the supplies and the reset land. -/
def ofSupply : Instr → Bool
  | .supplyGood _ _ | .railLoss _ | .resetNRise _ | .resetNFall => true
  | _ => false

/-- Happenings of the local time counter, which counts through RESET_N (02 R25). -/
def ofTime : Instr → Bool
  | .timerefEdge _ | .oscillatorAdvance _ | .timerefLoss _ | .timerefReturn _ _ => true
  | _ => false

/-- Block in whose array a happening of a router, a tile, a VE or an operand port takes place. -/
def arrayBlock : Instr → Option Nat
  | .routerTokenArrival t _ _ | .routerOutputGrant t _ _ _ | .configTokenWrite t _ | .steeringFiring t _ _
  | .counterRunStart t _ | .counterEmit t _ | .matrixPassStart t _ _ | .gnxtTokenConsume t _ | .beatIssue t _ _
  | .accumulatorDrain t | .weightWordAccept t | .expanderDecode t _ | .moveWord t _ _ | .contextEpochEnd t _
  | .tileEpochSwitch t => some (blockOf t)
  | .nop b | .halt b | .sbnz b | .sli b | .sadd b | .smul b | .sld b _ | .sst b | .vext b | .vbcast b | .viota b
  | .vadd b | .vsub b | .vmul b | .vfma b | .vmax b | .vmin b | .vabs b | .vneg b | .vcmp b | .vsel b | .viadd b
  | .vlog b | .vshf b | .vcvti b | .mtail b | .mop b | .mset b | .vfn b | .epld b _ | .eprun b _ | .vrsum b | .vrmax b
  | .vrargmax b | .vscan b | .vperm b | .vcvt b | .vmxq b | .vld b _ | .vst b | .vlds b _ | .vsts b | .vldx b _
  | .vstx b | .pput b | .pwr b | .prd b _ | .pmark b | .coll b | .ckpop b | .vepoch b | .nsend b | .nrecv b
  | .txf b _ _ _ | .txwait b | .cbwr b | .rtsel b _ _ _ | .rtcnt b _ | .vrand b | .cktol b | .ckcmp b | .ckdone b
  | .veServiceStage b _ _ | .mailboxWordArrival b _ | .veProgramStart b _ _ _ | .operandPortDelivery b _ => some b
  | _ => none

/-- The happening is one of an array that is frozen (13 R307 phase 2, R310). -/
def inFrozen (i : Instr) (s : State) : Bool :=
  (arrayBlock i).any fun b => (partOfBlock s b).any fun p => frozen (part s p)

/-- The device acts on the command: always on its supplies and reset; on time while the always-on supply is good; on the
rest while RESET_N is high too (log entry 35, DEDUCED); in a frozen array nothing happens. -/
def awake (i : Instr) (s : State) : Bool :=
  ofSupply i || (s.power.good.getLsbD 3 && (ofTime i || s.boot.resetN) && !inFrozen i s)

/-- Run an effect for a well-formed command that the device acts on; any other changes nothing (log entry 2, DEDUCED). -/
def onWf (i : Instr) (s : State) (f : State → State) : Host.Outcome State Fault Refusal :=
  .next (if i.wf && awake i s then f s else s)

/-! ### What the device sends -/

def iberaineUp (s : State) : Bool := decide ((link s 18).st = .up)

/-- Bytes of a packet on its port (12 Table 4, 15 Table 8). -/
def packetBytes : Packet → Nat
  | .reply r => 48 + r.body.length
  | .event e => 48 + e.body.length
  | .boot _ b => 16 + b.length
  | .mctp _ _ b => 3 + b.length

/-- Rail numbers of 17 Table 1. -/
abbrev railIO18 : Nat := 12

/-- The management ports have a supply (17 R408). -/
def mgmtPowered (s : State) : Bool := s.power.good.getLsbD 3 && s.power.good.getLsbD railIO18

/-- Hand a packet to a master's port: 0 C, 1 A, 2 B, 3 T. While the Iberaine port is down its packets are held, or
discarded and counted once 8 MiB are held (14 R345). -/
def send (s : State) (m : Nat) (k : Packet) : State :=
  if m = 0 then
    if iberaineUp s then { s with out := { s.out with iberaine := s.out.iberaine ++ [k] } }
    else if (s.out.heldC.map packetBytes).sum + packetBytes k ≤ 8388608 then
      { s with out := { s.out with heldC := s.out.heldC ++ [k] } }
    else { s with out := { s.out with disc := s.out.disc + 1 } }
  else if m = 1 then { s with out := { s.out with mgmtA := s.out.mgmtA ++ [k] } }
  else if m = 2 then { s with out := { s.out with mgmtB := s.out.mgmtB ++ [k] } }
  else { s with out := { s.out with twin := s.out.twin ++ [k] } }

/-- Make an event for one master: it takes the master's next number (12 R287) and is sent. -/
def eventTo (code : Nat) (body : List Byte) (s : State) (m : Nat) : State :=
  let n := tget 0 s.cs.eventSeq m
  let s := modCs s fun c => { c with eventSeq := tset c.eventSeq m ((n + 1) % 2 ^ 32) }
  send s m (.event { code := code, seq := n, timeQuality := s.time.lost, body := body })

/-- Send an event to masters (12 R297). -/
def event (s : State) (ms : List Nat) (code : Nat) (body : List Byte) : State := ms.foldl (eventTo code body) s

/-- Reply flags (12 Table 4): interim, NACC, time quality (02 R26). -/
def rflags (s : State) (interim nacc : Bool) : Nat :=
  (if interim then 1 else 0) + (if nacc then 2 else 0) + (if s.time.lost then 4 else 0)

/-- The reply to a command. -/
def mkReply (c : Cmd) (flags status ccount detail : Nat) (body : List Byte) : Reply :=
  { rflags := flags, status := status, opc := c.opc, part := c.part, src := c.port, seq := c.seq, tag := c.tag,
    acount := c.acount, ccount := ccount, order := c.order, detail := detail, body := body }

/-- An interim reply (12 R280). -/
def interim (s : State) (c : Cmd) (status detail : Nat) : State :=
  if c.flags % 2 = 1 then send s c.port (.reply (mkReply c (rflags s true false) status 0 detail [])) else s

/-- The command has completed: it leaves the running list (12 R280). -/
def unrun (s : State) (c : Cmd) : State :=
  modCs s fun x => { x with running := x.running.filter (fun d => decide (d ≠ c)) }

/-- Begun and not completed. -/
def run (s : State) (c : Cmd) : State := modCs s fun x => { x with running := x.running ++ [c] }

/-- Final reply with the given commit or completion count. -/
def finishAt (s : State) (c : Cmd) (status ccount detail : Nat) (body : List Byte) : State :=
  unrun (send s c.port (.reply (mkReply c (rflags s false false) status ccount detail body))) c

/-- Final reply at completion now (12 R287, Table 4). -/
def finish (s : State) (c : Cmd) (status detail : Nat) (body : List Byte) : State :=
  finishAt s c status (count s) detail body

/-- Final reply of a command that ends before it has any outcome of its own: a REQUEST carries an empty Table 5 body
and CCOUNT 0 (12 R287, R288). -/
def refuse (s : State) (c : Cmd) (status detail : Nat) : State :=
  if c.opc = 0x0301 then finishAt s c status 0 detail (zeros 32) else finish s c status detail []

/-- An isolation event: the refused access is counted, and reported at most once per partition in each window of 25,000
counts (13 R304); the windows are those of the accounting (log entry 45, DEDUCED). -/
def isolation (s : State) (p kind schip spart addr : Nat) : State :=
  let x := part s p
  let n := sat64 (x.acct.isol + 1)
  let s := setPart s p { x with acct := { x.acct with isol := n } }
  if x.lastIsol = none64 ∨ x.lastIsol / 25000 ≠ count s / 25000 then
    event (modPart s p fun x => { x with lastIsol := count s }) [0] 0xe301
      (leBytes 1 p ++ leBytes 1 kind ++ leBytes 2 schip ++ leBytes 1 spart ++ zeros 3 ++ leBytes 8 addr ++
        leBytes 8 n ++ zeros 8)
  else s

/-! ### Free choices -/

/-- A free number (log entry 14, DESIGN CHOICE). -/
def draw (s : State) : Nat × State := (Config.freeNat s.draw, { s with draw := s.draw + 1 })

/-- A free choice from a list (log entry 7, DESIGN CHOICE); none only from an empty list, and no draw for a list of
one. -/
def pick (s : State) (xs : List α) : Option α × State :=
  match xs with
  | [] => (none, s)
  | [x] => (some x, s)
  | _ => (xs[Config.freeNat s.draw % xs.length]?, { s with draw := s.draw + 1 })

/-! ### Visibility (11 R273) -/

/-- The step id that decides visibility: CSTEP for a step of the partition or its SF, PSTEP otherwise. -/
def visStep (x : Part) (own : Bool) : Nat := if own then x.crec.cstep else x.crec.pstep

/-- Pending fields are visible at `v`. -/
def pendVisible (pStep v : Nat) : Bool := decide (pStep ≠ 0 ∧ pStep ≤ v)

def visSbase (d : Drawer) (v : Nat) : Nat := if pendVisible d.pStep v then d.pSbase else d.sbase
def visSlen (d : Drawer) (v : Nat) : Nat := if pendVisible d.pStep v then d.pSlen else d.slen
def visTlen (d : Drawer) (v : Nat) : Nat := if pendVisible d.pStep v then d.pTlen else d.tlen
def visCheck (d : Drawer) (v : Nat) : W32 := if pendVisible d.pStep v then d.pCheck else d.check
def visLen (r : Region) (v : Nat) : Nat := if pendVisible r.pStep v then r.pLen else r.len

/-- Send a reply that has waited: its flags are those of the moment it leaves (02 R26). -/
def sendReady (s : State) (port : Nat) (r : Reply) : State :=
  send s port (.reply { r with rflags := rflags s false false })

end Sys2Proof.Machine
end

