-- ==== Sys2Proof/Machine/Context.lean ====
section
/-! DEFINITION. Context words, router words and problem descriptors (03 Tables 3 to 7, 05 Tables 4 and 6, 06 Table 2), and
the check of an arriving context word (03 R52). -/

namespace Sys2Proof.Machine

/-! ### Header (03 Table 4) -/

def cV (c : Line) : Bool := c.getLsbD 511
def cEpoch (c : Line) : Nat := bfld c 507 4
def cClass (c : Line) : Nat := bfld c 504 3
def cAfmt (c : Line) : Nat := bfld c 499 5
def cWfmt (c : Line) : Nat := bfld c 494 5
def cOfmt (c : Line) : Nat := bfld c 489 5
def cRnd (c : Line) : Nat := bfld c 487 2
def cCbs (c : Line) : Nat := bfld c 486 1
def cCfg (c : Line) : Nat := bfld c 464 16

/-! ### Matrix body (03 Table 6) -/

def mAsrc (c : Line) : Nat := bfld c 447 1
def mPsrc (c : Line) : Nat := bfld c 445 2
def mOdst (c : Line) : Nat := bfld c 443 2
def mWfwd (c : Line) : Bool := c.getLsbD 442
/-- A count whose field value 0 stands for the largest one. -/
def orMax (n top : Nat) : Nat := if n = 0 then top else n
def mNrg (c : Line) : Nat := orMax (bfld c 434 8) 256
def mNkt (c : Line) : Nat := orMax (bfld c 422 12) 4096
def mKdep (c : Line) : Nat := bfld c 413 9
def mAbase (c : Line) : Nat := bfld c 403 10
def mAstride (c : Line) : Nat := bfld c 393 10
def mPbase (c : Line) : Nat := bfld c 383 10
def mObase (c : Line) : Nat := bfld c 373 10
def mPlbase (c : Line) : Nat := bfld c 363 10
def mNprob (c : Line) : Nat := bfld c 353 10

/-! ### Move body (03 Table 7) -/

def vSrc (c : Line) : Nat := bfld c 446 2
def vDst (c : Line) : Nat := bfld c 444 2
def vSbase (c : Line) : Nat := bfld c 434 10
def vDbase (c : Line) : Nat := bfld c 424 10
def vCount (c : Line) : Nat := orMax (bfld c 412 12) 4096

/-! ### Steering and counter bodies (05 Tables 4 and 6) -/

def sOp (c : Line) : Nat := bfld c 446 2
def sCsrc (c : Line) : Bool := c.getLsbD 445
def sCact (c : Line) : Nat := bfld c 443 2
def sCval (c : Line) : Nat := bfld c 427 16
def sLchk (c : Line) : Bool := c.getLsbD 426

def kTrig (c : Line) : Bool := c.getLsbD 447
def kNsrc (c : Line) : Bool := c.getLsbD 446
def kNiter (c : Line) : Nat := orMax (bfld c 430 16) 65536
def kRuns (c : Line) : Nat := bfld c 414 16
def kActf (c : Line) : Nat := bfld c 412 2
def kActb (c : Line) : Nat := bfld c 410 2
def kActl (c : Line) : Nat := bfld c 408 2
def kFwin (c : Line) : Bool := c.getLsbD 407
def kVsrc (c : Line) : Bool := c.getLsbD 406
def kCval (c : Line) : Nat := bfld c 390 16
def kLbase (c : Line) : Nat := bfld c 374 16
def kEndo (c : Line) : Bool := c.getLsbD 373
def kActe (c : Line) : Nat := bfld c 371 2

/-! ### Formats (03 Tables 5 and 10) -/

def is4bit (f : Nat) : Bool := decide (f = 6 ∨ f = 7 ∨ f = 0x0a)
def is16bit (f : Nat) : Bool := decide (f = 0x0b ∨ f = 0x0c)
def isMx (f : Nat) : Bool := decide ((2 ≤ f ∧ f ≤ 5) ∨ f = 7 ∨ f = 8)
/-- G2, G3, VQ12. -/
def isPacked (f : Nat) : Bool := decide (0x10 ≤ f ∧ f ≤ 0x12)

/-- Activation and weight formats that a matrix context accepts together (03 Table 10). -/
def pairOk (a w : Nat) : Bool :=
  if a ≤ 1 then decide (w ≤ 1) || isPacked w
  else if a ≤ 8 then decide (w = a) || isPacked w
  else if a = 9 ∨ a = 0x0a then decide (w = a)
  else if a = 0x0b ∨ a = 0x0c then decide (w = a ∨ w ≤ 1) || isPacked w
  else false

/-- Weight operand format (03 Table 10): FP8 weights of an FP8 context pass as they arrive. -/
def operandFmt (a w : Nat) : Nat := if a ≤ 1 then (if w ≤ 1 then w else 0) else a

def afmtOk (f : Nat) : Bool := decide (f ≤ 0x0c)
def wfmtOk (f : Nat) : Bool := decide (f ≤ 0x0c ∨ (0x10 ≤ f ∧ f ≤ 0x12))
def ofmtOk (f : Nat) : Bool := decide (f ≤ 1 ∨ f = 0x0b ∨ f = 0x0c ∨ f = 0x1f)

/-- A context word without a reserved value (03 R52, 05 R97, R102). -/
def contextOk (c : Line) : Bool :=
  decide (cClass c ≤ 4) && afmtOk (cAfmt c) && wfmtOk (cWfmt c) && ofmtOk (cOfmt c) && decide (cRnd c ≤ 1) &&
    (if cClass c = 1 then
      pairOk (cAfmt c) (cWfmt c) && decide (mPsrc c ≤ 2 ∧ mOdst c ≤ 2 ∧ 1 ≤ mKdep c) &&
        decide (mKdep c ≤ if is16bit (cAfmt c) then 128 else 256)
    else if cClass c = 2 then decide (vSrc c ≤ 1 ∧ vDst c ≤ 2)
    else if cClass c = 4 then kTrig c || (!kNsrc c && decide (kRuns c ≠ 0))
    else true)

/-! ### Router word (03 Table 3) -/

/-- Entry of an input and label: outgoing label, output code. -/
def rEntry (r : Line) (inp lbl : Nat) : Nat × Nat :=
  let e := bfld r (7 * (8 * inp + lbl)) 7
  (e / 16, e % 16)

/-- Output code of an input and label; a word with V = 0 uses no entry. -/
def rOut (r : Line) (inp lbl : Nat) : Nat := if r.getLsbD 511 then (rEntry r inp lbl).2 else 15
def rLabel (r : Line) (inp lbl : Nat) : Nat := (rEntry r inp lbl).1

/-- The entry is used: code 0xf alone marks an unused one (Table 3); a reserved code routes nothing (R46). -/
def rUsed (r : Line) (inp lbl : Nat) : Bool := decide (rOut r inp lbl ≠ 15)

/-! ### Problem descriptor (06 Table 2) -/

def dskSkip (d : Nat) : Bool := decide (nfld d 63 1 = 1)
def dskGnxt (d : Nat) : Bool := decide (nfld d 62 1 = 1)
def dskRep (d : Nat) : Nat := orMax (nfld d 53 9) 512

/-! ### Scratchpad and registers -/

/-- Line `i` of the scratchpad; one that nothing has written since the last step holds a free value (03 R41). -/
def scratchAt (x : Tile) (i : Nat) : Line :=
  (tfind x.scratch (i % 1024)).getD (x.junk.elim 0 fun d => Config.freeLine d (i % 1024))

/-- Register `q`, likewise (03 R39). -/
def regAt (x : Tile) (q : Nat) : Line := (tfind x.regs q).getD (x.junk.elim 0 fun d => Config.freeLine d (1024 + q))

/-! ### Active words -/

/-- Active context word of a slot; one that holds none reads V = 0. -/
def ctxOf (x : Tile) (slot : Nat) : Line := tget 0 x.ctxA slot

/-- The slot's active word has V = 1. -/
def ctxOn (x : Tile) (slot : Nat) : Bool := cV (ctxOf x slot)

/-- An active context of the tile names codebook slot `k` (03 R38): its weights are VQ12. -/
def namesCodebook (x : Tile) (k : Nat) : Bool :=
  (List.range 8).any fun i =>
    ctxOn x i && decide (cClass (ctxOf x i) = 1 ∧ cWfmt (ctxOf x i) = 0x12 ∧ cCbs (ctxOf x i) = k)

end Sys2Proof.Machine
end

