-- ==== Sys2Proof/Machine/Float.lean ====
section
/-! DEFINITION. Number formats and arithmetic (04): encodings, exact sums and products, the roundings, the conversions of
Table 3 and the Microscaling scale of R80.
Readings of the spec: log entry 28. -/

namespace Sys2Proof.Machine

/-! ### Encodings (04 Table 1) -/

/-- Exponent bits, mantissa bits, bias and kind of special codes (0 IEEE 754, 1 E4M3, 2 none) of a format code of 03
Table 5. -/
def fmtOf (code : Nat) : Option (Nat × Nat × Nat × Nat) :=
  if code = 0 ∨ code = 2 then some (4, 3, 7, 1)
  else if code = 1 ∨ code = 3 then some (5, 2, 15, 0)
  else if code = 4 then some (2, 3, 1, 2)
  else if code = 5 then some (3, 2, 3, 2)
  else if code = 6 ∨ code = 7 then some (2, 1, 1, 2)
  else if code = 0x0b then some (8, 7, 127, 0)
  else if code = 0x0c then some (5, 10, 15, 0)
  else if code = 0x1f then some (8, 23, 127, 0)
  else none

/-- The number that a code of a format stands for (R67). -/
def decodeNum (f : Nat × Nat × Nat × Nat) (w : Nat) : Num :=
  let (ebits, mbits, bias, kind) := f
  let neg := decide (nfld w (ebits + mbits) 1 = 1)
  let e := nfld w mbits ebits
  let m := nfld w 0 mbits
  if kind = 0 ∧ e = 2 ^ ebits - 1 then (if m = 0 then .inf neg else .nan)
  else if kind = 1 ∧ e = 2 ^ ebits - 1 ∧ m = 2 ^ mbits - 1 then .nan
  else if e = 0 then .fin neg m (1 - bias - mbits)
  else .fin neg (2 ^ mbits + m) (e - bias - mbits)

/-- An integer as a number. -/
def numInt (x : Int) : Num := .fin (decide (x < 0)) x.natAbs 0

/-- The number of an operand code: formats of Table 1, the integers of R69 (MXINT8 in units of 2^-6). -/
def operandNum (code w : Nat) : Num :=
  if code = 8 then
    match numInt (sgn 8 (w % 256)) with
    | .fin s m e => .fin s m (e - 6)
    | x => x
  else if code = 9 then numInt (sgn 8 (w % 256))
  else if code = 0x0a then numInt (sgn 4 (w % 16))
  else (fmtOf code).elim .nan fun f => decodeNum f w

/-- FP32. -/
def f32 : Nat × Nat × Nat × Nat := (8, 23, 127, 0)
def num32 (w : W32) : Num := decodeNum f32 w.toNat

/-- An E8M0 scale (R68). -/
def scaleNum (e : Nat) : Num := if e = 0xff then .nan else .fin false 1 (e - 127)

/-! ### Exact arithmetic -/

def numNeg : Num → Num
  | .nan => .nan
  | .inf s => .inf (!s)
  | .fin s m e => .fin (!s) m e

def numAbs : Num → Num
  | .nan => .nan
  | .inf _ => .inf false
  | .fin _ m e => .fin false m e

/-- Signed mantissa at exponent `q`, not above `e`. -/
def signedAt (s : Bool) (m : Nat) (e q : Int) : Int := (if s then -1 else 1) * ((m : Int) * 2 ^ (e - q).toNat)

/-- The exact sum (R72, R76); a zero sum is +0 unless both are −0. -/
def numAdd : Num → Num → Num
  | .nan, _ => .nan
  | _, .nan => .nan
  | .inf a, .inf b => if a = b then .inf a else .nan
  | .inf a, _ => .inf a
  | _, .inf b => .inf b
  | .fin s m e, .fin t n f =>
    if m = 0 ∧ n = 0 then .fin (s && t) 0 0
    else if m = 0 then .fin t n f
    else if n = 0 then .fin s m e
    else
      let q := min e f
      let x := signedAt s m e q + signedAt t n f q
      .fin (decide (x < 0)) x.natAbs q

/-- The exact product. -/
def numMul : Num → Num → Num
  | .nan, _ => .nan
  | _, .nan => .nan
  | .inf a, .inf b => .inf (a != b)
  | .inf a, .fin t n _ => if n = 0 then .nan else .inf (a != t)
  | .fin s m _, .inf b => if m = 0 then .nan else .inf (s != b)
  | .fin s m e, .fin t n f => .fin (s != t) (m * n) (e + f)

/-- The sign of x − y; none when either is NaN. -/
def numCmp : Num → Num → Option Int
  | .nan, _ => none
  | _, .nan => none
  | .inf a, .inf b => some (if a = b then 0 else if a then -1 else 1)
  | .inf a, _ => some (if a then -1 else 1)
  | _, .inf b => some (if b then 1 else -1)
  | .fin s m e, .fin t n f =>
    let q := min e f
    some (signedAt s m e q - signedAt t n f q).sign

/-! ### Rounding (R72, R81, R82) -/

/-- Round m x 2^e to `mbits` mantissa bits with least normal exponent `emin`: the code of the magnitude without bound.
Mode 0 nearest even, 1 stochastic with draw `r`, 2 away from zero, 3 toward zero. -/
def roundMag (mbits : Nat) (emin : Int) (mode r m : Nat) (e : Int) : Nat :=
  if m = 0 then 0
  else
    let q := max ((Nat.log2 m : Int) + e - mbits) (emin - mbits)
    let n :=
      if q ≤ e then m * 2 ^ (e - q).toNat
      else
        let d := 2 ^ (q - e).toNat
        let lo := m / d
        let rem := m % d
        let up :=
          if mode = 0 then decide (d < 2 * rem) || (decide (2 * rem = d) && decide (lo % 2 = 1))
          else if mode = 1 then decide (r < 65536 * rem / d)
          else if mode = 2 then decide (rem ≠ 0)
          else false
        if up then lo + 1 else lo
    n + (q - (emin - mbits)).toNat * 2 ^ mbits

/-- A number in FP32, rounded by a mode; an overflow is an infinity, a NaN the canonical one (R72, R78). -/
def enc32 (mode : Nat) (x : Num) : W32 :=
  match x with
  | .nan => 0x7fc00000#32
  | .inf s => if s then 0xff800000#32 else 0x7f800000#32
  | .fin s m e =>
    let c := min (roundMag 23 (-126) mode 0 m e) 0x7f800000
    BitVec.ofNat 32 (c + if s then 2 ^ 31 else 0)

/-- Nearest even. -/
def rne (x : Num) : W32 := enc32 0 x

/-- Upward: toward plus infinity. -/
def roundUp (x : Num) : W32 :=
  match x with
  | .fin true m e => enc32 3 (.fin true m e)
  | x => enc32 2 x

def fadd (a b : W32) : W32 := rne (numAdd (num32 a) (num32 b))
def fsub (a b : W32) : W32 := rne (numAdd (num32 a) (numNeg (num32 b)))
def fmul (a b : W32) : W32 := rne (numMul (num32 a) (num32 b))
def ffma (a b c : W32) : W32 := rne (numAdd (numMul (num32 a) (num32 b)) (num32 c))

def isNan (a : W32) : Bool := decide (num32 a = .nan)

/-- The order of VMAX and VMIN; +0 above −0 (log entry 27, DEDUCED). -/
def above (a b : W32) : Bool :=
  match numCmp (num32 a) (num32 b) with
  | some c => if c = 0 then b.getLsbD 31 && !a.getLsbD 31 else decide (0 < c)
  | none => false

/-- Maximum and minimum: a NaN operand gives the other operand (07 Table 4). -/
def fmax (a b : W32) : W32 :=
  if isNan a && isNan b then rne .nan else if isNan a then b else if isNan b then a else if above b a then b else a
def fmin (a b : W32) : W32 :=
  if isNan a && isNan b then rne .nan else if isNan a then b else if isNan b then a else if above a b then b else a

def fabs (a : W32) : W32 := rne (numAbs (num32 a))
def fneg (a : W32) : W32 := rne (numNeg (num32 a))

/-- Integer nearest a number: mode 0 nearest even, 1 stochastic with draw `r`; magnitude only. -/
def intMag (mode r m : Nat) (e : Int) : Nat :=
  if 0 ≤ e then m * 2 ^ e.toNat
  else
    let d := 2 ^ (-e).toNat
    let lo := m / d
    let rem := m % d
    let up :=
      if mode = 0 then decide (d < 2 * rem) || (decide (2 * rem = d) && decide (lo % 2 = 1))
      else decide (r < 65536 * rem / d)
    if up then lo + 1 else lo

/-- An integer in [lo, hi] nearest a number, saturating; NaN gives `nan`. -/
def toInt (mode r : Nat) (lo hi nan : Int) (x : Num) : Int :=
  match x with
  | .nan => nan
  | .inf s => if s then lo else hi
  | .fin s m e =>
    let v : Int := intMag mode r m e
    max lo (min hi (if s then -v else v))

/-- Two's complement of an integer in `n` bits. -/
def intBits (n : Nat) (x : Int) : Nat := (x % (2 ^ n : Int)).toNat

/-! ### Conversions (R77, R80) -/

/-- Largest finite code of a format. -/
def maxCode (f : Nat × Nat × Nat × Nat) : Nat :=
  let (ebits, mbits, _, kind) := f
  if kind = 0 then (2 ^ ebits - 1) * 2 ^ mbits - 1
  else if kind = 1 then 2 ^ (ebits + mbits) - 2
  else 2 ^ (ebits + mbits) - 1

/-- A finite number in a format under a rounding; beyond the largest finite value it saturates, or in the 16-bit formats
becomes an infinity (Table 3). -/
def convFin (f : Nat × Nat × Nat × Nat) (saturate : Bool) (mode r : Nat) (s : Bool) (m : Nat) (e : Int) : Nat :=
  let (ebits, mbits, bias, _) := f
  let emin : Int := 1 - bias
  let top := maxCode f
  let sign := if s then 2 ^ (ebits + mbits) else 0
  let exceeds := decide (top ≤ roundMag mbits emin 3 0 m e) && decide (top < roundMag mbits emin 2 0 m e)
  if exceeds then
    if saturate then sign + top
    else if mode = 1 then sign + top + 1
    else sign + min (roundMag mbits emin 0 0 m e) (top + 1)
  else sign + roundMag mbits emin mode r m e

/-- A number converted to a plain format of Table 3: 0, 1, 6, 0x0b, 0x0c; 9 and 0x0a are the integers, which saturate (log
entry 28, DEDUCED), NaN giving the number `nanInt`. FP4's NaN flag is the caller's. -/
def convTo (code mode r : Nat) (nanInt : Int) (x : Num) : Nat :=
  if code = 9 then intBits 8 (toInt mode r (-128) 127 nanInt x)
  else if code = 0x0a then intBits 4 (toInt mode r (-8) 7 nanInt x)
  else
    match fmtOf code with
    | none => 0
    | some f =>
      let wide := decide (code = 0x0b ∨ code = 0x0c)
      match x with
      | .nan => if code = 0x0b then 0x7fc0 else if code = 0x0c then 0x7e00 else if code = 6 then 0 else 0x7f
      | .inf s =>
        if code = 0 then 0x7f
        else if code = 6 then 0
        else maxCode f + 1 + if s then 2 ^ (f.1 + f.2.1) else 0
      | .fin s m e => convFin f (!wide) mode r s m e

/-- emax of a Microscaling element format (R80). -/
def mxEmax (code : Nat) : Int :=
  if code = 2 then 8 else if code = 3 then 15 else if code = 4 then 2 else if code = 5 then 4 else if code = 8 then 0 else 2

/-- floor(log2) of a finite magnitude. -/
def numLog (x : Num) : Option Int :=
  match x with
  | .fin _ m e => if m = 0 then none else some ((Nat.log2 m : Int) + e)
  | _ => none

/-- The scale code of a block (R80): 0xff with a NaN or infinity, 0x7f for all zeros. -/
def mxScale (code : Nat) (xs : List Num) : Nat :=
  if xs.any fun x => match x with | .fin .. => false | _ => true then 0xff
  else
    match xs.filterMap numLog with
    | [] => 0x7f
    | l :: ls => (max (-127) (min 127 (ls.foldl max l - mxEmax code)) + 127).toNat

/-- An element of a block of scale 0xff, for which R80 defines no X: a free code of the format, inside the range that MXINT8
saturates to (log entry 6, DESIGN CHOICE). -/
def mxFree (code : Nat) (x : Num) : Nat :=
  let n := (Config.veFn (32 + code) (rne x)).toNat
  if code = 8 then intBits 8 (max (-127) (sgn 8 (n % 256)))
  else if code = 6 ∨ code = 7 then n % 16
  else if code = 4 ∨ code = 5 then n % 64
  else n % 256

/-- An element of a block with a scale code: converted from v / 2^X, saturating. -/
def mxElem (code scale mode r : Nat) (x : Num) : Nat :=
  if scale = 0xff then mxFree code x
  else match x with
  | .fin s m e =>
    let e := e - ((scale : Int) - 127)
    if code = 8 then intBits 8 (toInt mode r (-127) 127 0 (.fin s m (e + 6)))
    else (fmtOf code).elim 0 fun f => convFin f true mode r s m e
  | _ => 0

/-- Bits of a code (03 R57): 8, 4 or 16; FP6 one to a byte. -/
def codeBits (code : Nat) : Nat :=
  if code = 6 ∨ code = 7 ∨ code = 0x0a then 4 else if code = 0x0b ∨ code = 0x0c then 16 else if code = 0x1f then 32 else 8

/-- Codes packed lowest element first. -/
def packCodes (bits : Nat) : List Nat → Nat
  | [] => 0
  | c :: cs => c % 2 ^ bits + 2 ^ bits * packCodes bits cs

end Sys2Proof.Machine
end

