-- ==== Sys2Proof/Machine/Functions.lean ====
section
/-! DEFINITION. The functions of VFN and of the element programs (07 Table 6). A function is computed in fixed point of 512
fractional bits, and its result is a free choice among the FP32 values inside the bound of the table (log entry 6, DESIGN CHOICE). -/

namespace Sys2Proof.Machine

/-! ### Fixed point -/

/-- One, ln 2 and pi with 512 fractional bits. -/
abbrev fxOne : Int := 2 ^ 512
abbrev fxLn2 : Int :=
  0xb17217f7_d1cf79ab_c9e3b398_03f2f6af_40f34326_7298b62d_8a0d175b_8baafa2b_e7b87620_6debac98_559552fb_4afa1b10_ed2eae35_c1382144_27573b29_1169b825
abbrev fxPi : Int :=
  0x00000003_243f6a88_85a308d3_13198a2e_03707344_a4093822_299f31d0_082efa98_ec4e6c89_452821e6_38d01377_be5466cf_34e90c6c_c0ac29b7_c97c50dd_3f84d5b5_b5470917

def fxMul (a b : Int) : Int := a * b / fxOne

/-- x in fixed point, for x of magnitude below 2^200 or so. -/
def fxOf (s : Bool) (m : Nat) (e : Int) : Int :=
  let a : Int := if 0 ≤ e + 512 then m * 2 ^ (e + 512).toNat else m / 2 ^ (-(e + 512)).toNat
  if s then -a else a

/-- Sum of the Taylor terms of exp from term `n` on. -/
def expSum (r : Int) : Nat → Nat → Int → Int → Int
  | 0, _, _, acc => acc
  | k + 1, n, t, acc => let t := fxMul t r / n; expSum r k (n + 1) t (acc + t)

/-- exp x as a fixed-point mantissa and a power of two. -/
def fxExp (x : Int) : Int × Int :=
  let k := (2 * x + fxLn2) / (2 * fxLn2)
  (expSum (x - k * fxLn2) 110 1 fxOne fxOne, k)

/-- Sum of the terms z^n / n over odd n. -/
def atanhSum (zz : Int) : Nat → Nat → Int → Int → Int
  | 0, _, _, acc => acc
  | k + 1, n, t, acc => let t := fxMul t zz; atanhSum zz k (n + 2) t (acc + t / (n + 2))

/-- ln of m x 2^e, m positive. -/
def fxLn (m : Nat) (e : Int) : Int :=
  let l := Nat.log2 m
  let y : Int := (m : Int) * fxOne / 2 ^ l
  let z := (y - fxOne) * fxOne / (y + fxOne)
  2 * atanhSum (fxMul z z) 170 1 z z + (e + l) * fxLn2

/-- Alternating Taylor sums of cos (from term 0) and sin (from term 1). -/
def trigSum (rr : Int) : Nat → Nat → Int → Int → Int
  | 0, _, _, acc => acc
  | k + 1, n, t, acc => let t := -(fxMul t rr / ((n + 1) * (n + 2))); trigSum rr k (n + 2) t (acc + t)

def fxSin (r : Int) : Int := trigSum (fxMul r r) 60 1 r r
def fxCos (r : Int) : Int := trigSum (fxMul r r) 60 0 fxOne fxOne

/-- sin (x + q pi / 2), after reduction of x to the nearest multiple of pi / 2. -/
def fxSinAt (x : Int) (q : Int) : Int :=
  let k := (2 * x + fxPi / 2) / fxPi
  let r := x - k * fxPi / 2
  match (k + q) % 4 with
  | 0 => fxSin r
  | 1 => fxCos r
  | 2 => -fxSin r
  | _ => -fxCos r

/-- Sum of the terms t x 2 z z / (2 n + 1) of the series of erf. -/
def erfSum (zz2 : Int) : Nat → Nat → Int → Int → Int
  | 0, _, _, acc => acc
  | k + 1, n, t, acc => let t := fxMul t zz2 / (2 * n + 1); erfSum zz2 k (n + 1) t (acc + t)

/-- Integer square root by Newton's steps from above. -/
def isqrtFrom (n : Nat) : Nat → Nat → Nat
  | 0, x => x
  | k + 1, x => let y := (x + n / x) / 2; if y < x then isqrtFrom n k y else x

def isqrt (n : Nat) : Nat := if n = 0 then 0 else isqrtFrom n 700 (2 ^ (Nat.log2 n / 2 + 1))

/-- erf z for |z| at most 10. -/
def fxErf (z : Int) : Int :=
  let zz := fxMul z z
  let (a, k) := fxExp (-zz)
  let sum := erfSum (2 * zz) 700 1 z z
  let root : Int := isqrt (fxPi * fxOne).toNat
  2 * fxMul (a / 2 ^ (-k).toNat) sum * fxOne / root

/-! ### The choice inside a bound -/

/-- Place of an FP32 value in the order of values: its code, negated for a negative one. -/
def loKey (a : Int) (e : Int) : Int :=
  if 0 ≤ a then min (roundMag 23 (-126) 2 0 a.toNat e) 0x7f800000 else -(min (roundMag 23 (-126) 3 0 (-a).toNat e) 0x7f800000 : Nat)
def hiKey (a : Int) (e : Int) : Int :=
  if 0 ≤ a then min (roundMag 23 (-126) 3 0 a.toNat e) 0x7f800000 else -(min (roundMag 23 (-126) 2 0 (-a).toNat e) 0x7f800000 : Nat)

/-- An FP32 value within `t` units of a x 2^e, chosen by `free`; the nearest one where the bound holds none. -/
def within (free : Nat) (a : Int) (e : Int) (t : Nat) : W32 :=
  let lo := loKey (a - t) e
  let hi := hiKey (a + t) e
  let near := rne (.fin (decide (a < 0)) a.natAbs e)
  if hi < lo ∨ near &&& 0x7fffffff#32 = 0x7f800000#32 then near
  else
    let k := lo + free % (hi - lo + 1).toNat
    BitVec.ofNat 32 (k.natAbs + if k < 0 ∨ (k = 0 ∧ a < 0) then 2 ^ 31 else 0)

/-- A value within `halves` half ulps of a x 2^e; below 2^-126 the bound is 2^-148 (R153). The error of the fixed point is
taken off the bound. -/
def withinUlp (free : Nat) (halves : Nat) (a : Int) (e : Int) : W32 :=
  let l : Int := if a = 0 then -1000 else (Nat.log2 a.natAbs : Int) + e
  let tol := if l < -126 then (1, (-148 : Int)) else (halves, l - 24)
  let t := if 0 ≤ tol.2 - e then tol.1 * 2 ^ (tol.2 - e).toNat else 0
  within free a e (t - t / 2 ^ 60)

/-- A value within 2^b of a x 2^e. -/
def withinAbs (free : Nat) (b : Int) (a : Int) (e : Int) : W32 :=
  let t := 2 ^ (b - e).toNat
  within free a e (t - t / 2 ^ 60)

/-- A result of exactly zero, or beyond the reach of the fixed point: within 2^-148 of 0. -/
def nearZero (free : Nat) (neg : Bool) : W32 := within free (if neg then -1 else 1) (-600) (2 ^ 452 - 2 ^ 392)

/-! ### The functions -/

/-- 1 / (1 + exp(-x)) for |x| at most 200, as a mantissa and exponent. -/
def fxSigmoid (x : Int) : Int × Int :=
  let (a, k) := fxExp (-x)
  if k ≤ 0 then (fxOne * fxOne / (fxOne + a / 2 ^ (-k).toNat), -512)
  else (fxOne * fxOne / (a + fxOne / 2 ^ k.toNat), -512 - k)

/-- The value of function `i` at a finite nonzero x = ±m x 2^e, its magnitude below the limits set by the caller. -/
def fnFinite (i free : Nat) (s : Bool) (m : Nat) (e : Int) : W32 :=
  let l : Int := (Nat.log2 m : Int) + e
  let x := fxOf s m e
  let big := decide (8 ≤ l)
  if i = 0 then
    if s ∧ big then nearZero free false
    else if !s ∧ (big ∨ 8873 * fxOne ≤ 100 * x) then 0x7f800000#32
    else let (a, k) := fxExp x; withinUlp free 4 a (k - 512)
  else if i = 1 then
    if s ∧ big then nearZero free false
    else if !s ∧ 7 ≤ l then 0x7f800000#32
    else let (a, k) := fxExp (fxMul x fxLn2); withinUlp free 4 a (k - 512)
  else if i = 2 then (if s then rne .nan else withinUlp free 4 (fxLn m e) (-512))
  else if i = 3 then (if s then rne .nan else withinUlp free 4 (fxLn m e * fxOne / fxLn2) (-512))
  else if i = 4 then
    let a : Int := 2 ^ 600 / m
    withinUlp free 2 (if s then -a else a) (-600 - e)
  else if i = 5 then
    if s then rne .nan
    else
      let (m, e) := if e % 2 = 0 then (m, e) else (2 * m, e - 1)
      let a : Int := 2 ^ 900 / isqrt (m * 2 ^ 600)
      withinUlp free 4 a (-600 - e / 2)
  else if i = 6 then
    if s then rne .nan
    else
      let (m, e) := if e % 2 = 0 then (m, e) else (2 * m, e - 1)
      let n := m * 2 ^ 200
      let r := isqrt n
      rne (.fin false (2 * r + if r * r = n then 0 else 1) (e / 2 - 101))
  else if i = 7 ∨ i = 8 then
    if 24 < l ∨ (l = 24 ∧ 2 ^ 24 * fxOne < (if s then -x else x)) then within free 0 (-30) (2 ^ 30)
    else
      let b := if l < 20 ∨ (l = 20 ∧ (if s then -x else x) = 2 ^ 20 * fxOne) then -23 else -10
      withinAbs free b (fxSinAt x (if i = 7 then 0 else 1)) (-512)
  else if i = 9 then
    if l < -40 then withinUlp free 6 (if s then -(m * 2 ^ 100 : Nat) else (m * 2 ^ 100 : Nat)) (e - 100)
    else
      let y : Int :=
        if 7 ≤ l then fxOne - 1
        else
          let (a, k) := fxExp (-2 * (if s then -x else x))
          let q := a / 2 ^ (-k).toNat
          (fxOne - q) * fxOne / (fxOne + q)
      withinUlp free 6 (if s then -y else y) (-512)
  else if i = 10 then
    if s ∧ big then nearZero free false
    else if big then withinUlp free 6 (fxOne - 1) (-512)
    else let (a, k) := fxSigmoid x; withinUlp free 6 a k
  else if i = 11 then
    if s ∧ big then nearZero free true
    else if big then withinUlp free 8 (m * 2 ^ 100 : Nat) (e - 100)
    else
      let (a, k) := fxSigmoid x
      withinUlp free 8 ((if s then -(m : Int) else m) * a) (e + k)
  else if i = 12 then
    if s ∧ 5 ≤ l then nearZero free true
    else if 5 ≤ l then withinUlp free 10 (m * 2 ^ 100 : Nat) (e - 100)
    else
      let z := x * fxOne / (isqrt (2 * fxOne * fxOne).toNat : Int)
      withinUlp free 10 ((if s then -(m : Int) else m) * ((fxOne + (if 16 ≤ (if s then -x else x) / fxOne
        then (if s then -fxOne else fxOne) else fxErf z)) / 2)) (e - 512)
  else
    if l < -60 then
      let c : Int := 2 * fxOne * fxOne / isqrt (fxPi * fxOne).toNat
      withinUlp free 6 ((if s then -(m : Int) else m) * c) (e - 512)
    else
      let y := if 4 ≤ l then (if s then 1 - fxOne else fxOne - 1) else fxErf x
      withinUlp free 6 y (-512)

/-- Special values of Table 6, with those that follow from the function's limits. -/
def fnInf (i : Nat) (s : Bool) : W32 :=
  let one := 0x3f800000#32
  let inf := 0x7f800000#32
  let neg := 0x80000000#32
  if i = 0 ∨ i = 1 then (if s then 0 else inf)
  else if i = 2 ∨ i = 3 ∨ i = 6 then (if s then rne .nan else inf)
  else if i = 4 then (if s then neg else 0)
  else if i = 5 then (if s then rne .nan else 0)
  else if i = 7 ∨ i = 8 then rne .nan
  else if i = 9 ∨ i = 13 then (if s then one ||| neg else one)
  else if i = 10 then (if s then 0 else one)
  else (if s then neg else inf)

/-- Function values at zero of either sign. -/
def fnZero (i free : Nat) (s : Bool) : W32 :=
  let neg := 0x80000000#32
  let inf := 0x7f800000#32
  if i = 0 ∨ i = 1 then withinUlp free 4 fxOne (-512)
  else if i = 2 ∨ i = 3 then inf ||| neg
  else if i = 4 ∨ i = 5 then (if s then inf ||| neg else inf)
  else if i = 6 then (if s then neg else 0)
  else if i = 8 then withinAbs free (-23) fxOne (-512)
  else if i = 7 then withinAbs free (-23) 0 (-512)
  else if i = 10 then withinUlp free 6 fxOne (-513)
  else nearZero free s

/-- Function `i` (0 to 13) of Table 6; the free choice depends on the function and the operand. -/
def veFunc (i : Nat) (w : W32) : W32 :=
  let free := (Config.veFn i w).toNat
  match num32 w with
  | .nan => rne .nan
  | .inf s => fnInf i s
  | .fin s m e => if m = 0 then fnZero i free s else fnFinite i free s m e

end Sys2Proof.Machine
end

