-- ==== Sys2Proof/Machine/Generator.lean ====
section
/-! DEFINITION. The 32-bit generators (04 R83, R85; 07 R155). -/

namespace Sys2Proof.Machine

/-- One step of a generator (04 R83). -/
def genStep (s : W32) : W32 :=
  let s := s ^^^ (s <<< 13)
  let s := s ^^^ (s >>> 17)
  s ^^^ (s <<< 5)

/-- The 16-bit draw of a generator state (04 R83). -/
def genDraw (s : W32) : Nat := s.toNat / 65536

/-- The multiplier word of 04 R85 for number `t` and epoch `e`. -/
def genMix (t e : Nat) : W32 := BitVec.ofNat 32 ((16 * t + e) * 0x9e3779b9)

/-- A generator loaded from 32 bits of the seed (04 R85). -/
def genLoad (seed : W32) (t e : Nat) : W32 :=
  let s := seed ^^^ genMix t e
  if s = 0 then 1 else s

/-- The lane generators of block `b` loaded for VE epoch `e` (07 R155). -/
def laneGens (seed : W32) (b e : Nat) : VReg := Vector.ofFn fun l => genLoad seed (8192 + 64 * b + l.val) e

end Sys2Proof.Machine
end

