-- ==== Sys2Proof/Machine/Access.lean ====
section
/-! DEFINITION. Accesses to the memory tiers (09): populated ranges, channel spreading, poison, the statuses of 09
Table 12, reads and writes by tier offset, and the partition range checks of 13 Table 4. -/

namespace Sys2Proof.Machine

/-! ### Addresses (09 R188, R190) -/

def gChip (a : Nat) : Nat := nfld a 50 14
def gTierOf (a : Nat) : Nat := nfld a 48 2
def gOff (a : Nat) : Nat := nfld a 0 48

/-- Populated frames of a tier (09 Table 1). -/
def tierFrames (s : State) (t : Nat) : Nat :=
  if t = 0 then (if s.tiers.up0 then 266418 else 0) else if t = 1 then s.tiers.n1 else if t = 2 then s.tiers.n2 else 0

/-- Slots of a tier: N of 09 R195. -/
def tierSlots (s : State) (t : Nat) : Nat :=
  if t = 0 then 256 else if t = 1 then 64 else max 1 s.tiers.cxl.length

/-- Fold of the group number in fields of log2(N) bits (09 R195). -/
def foldGroup (n : Nat) : Nat → Nat → Nat
  | 0, _ => 0
  | k + 1, x => if x = 0 then 0 else (x % n) ^^^ foldGroup n k (x / n)

/-- Slot and local address of a tier offset (09 R195). -/
def slotOf (n o : Nat) : Nat × Nat :=
  if n = 1 then (0, o)
  else
    let g := o / 256 / n
    ((o / 256 % n) ^^^ foldGroup n 48 g, 256 * g + o % 256)

/-- Request limit of a tier in counts (09 R214). -/
def reqLimit (t : Nat) : Nat := if t = 0 then 250 else if t = 1 then 500 else 10000

/-- T_move in counts (09 Table 9). -/
def tMove (t t' : Nat) : Nat := reqLimit t + 6555 + reqLimit t'

/-- Stack, channel and pseudo-channel of a tier 0 slot, controller and channel of a tier 1 slot (09 R196). -/
def hbmPlace (k : Nat) : Nat × Nat × Nat := (k / 32, k % 32 / 2, k % 2)
def lpxPlace (k : Nat) : Nat × Nat := (k / 4, k % 4)

/-! ### Where a retired slot is kept (09 R198, R199) -/

/-- Retired slots of a tier in increasing order, and its live slots. -/
def deadSlots (s : State) (t : Nat) : List Nat := if t = 0 then s.tiers.retired0 else if t = 1 then s.tiers.retired1 else []
def liveSlots (s : State) (t : Nat) : List Nat := (List.range (tierSlots s t)).filter fun k => decide (k ∉ deadSlots s t)

/-- Used units of one slot, and units of its home table area. -/
def usedUnits (s : State) (t : Nat) : Nat := if t = 0 then 532836 else 8 * s.tiers.n1
def htUnits (t : Nat) : Nat := if t = 0 then 66 else 0

/-- The slot and byte address that keep local address `a` of slot `k`: its own, or an area of a live slot. -/
def keptAt (s : State) (t k a : Nat) : Nat × Nat :=
  match (deadSlots s t).findIdx? fun d => decide (d = k) with
  | none => (k, a)
  | some i =>
    let l := liveSlots s t
    let u := a / 4096
    let base := usedUnits s t + htUnits t + i * cdiv (usedUnits s t) l.length
    (l.getD (u % l.length) 0, 4096 * (base + u / l.length) + a % 4096)

/-- Slot and byte address within it where a tier offset is kept. -/
def placeAt (s : State) (t o : Nat) : Nat × Nat :=
  let (k, a) := slotOf (tierSlots s t) o
  keptAt s t k a

/-- Slot and unit of the home table area that keep the entry of a grain id (09 R201). -/
def htPlace (s : State) (g : Nat) : Nat × Nat :=
  let l := liveSlots s 0
  let i := g / 512
  (l.getD (i % l.length) 0, usedUnits s 0 + i / l.length)

/-- A slot of the tier is out of service. -/
def anyOut (s : State) (t : Nat) : Bool := s.tiers.slots.any fun e => decide (e.1 / 256 = t ∧ e.2.state = 2)

/-- The home table unit that keeps a grain's entry lies in a slot out of service. -/
def htOut (s : State) (g : Nat) : Bool := anyOut s 0 && decide ((slot s 0 (htPlace s g).1).state = 2)

/-! ### Mutable window (09 R190) -/

abbrev winBase : Nat := 0x800000000000

def inWindow (off : Nat) : Bool := decide (winBase ≤ off ∧ off < 0x900000000000)

/-- Grain id and offset within it of a mutable-window offset. -/
def winGrain (off : Nat) : Nat := nfld off 21 23
def winOff (off : Nat) : Nat := nfld off 0 21

/-- Mutable-window offset of a 4 KiB unit (11 R266). -/
def unitOff (u : Nat) : Nat := winBase + 4096 * u

/-- Grains of a run of lines that starts at a 4 KiB unit of the mutable window (11 R266). -/
def grainsOf (unit lines : Nat) : List Nat :=
  if lines = 0 then [] else
    (List.range ((unit * 64 + lines + 32767) / 32768 - unit / 512)).map fun i => unit / 512 + i

/-! ### Poison (09 R200) -/

/-- Whether the chunk at a tier offset is poisoned. -/
def poisoned (s : State) (t o : Nat) : Bool :=
  let (k, a) := placeAt s t o
  let x := slot s t k
  match tfind x.retired (a / 4096) with
  | some m => m.getLsbD (a / 256 % 16)
  | none => decide (a / 256 ∈ x.poison)

/-- Mark or clear poison at the chunk of a tier offset. A whole-chunk write clears it in a unit that is not retired as well
(log entry 60, DESIGN CHOICE). -/
def setPoison (s : State) (t o : Nat) (on : Bool) : State :=
  let (k, a) := placeAt s t o
  let x := slot s t k
  match tfind x.retired (a / 4096) with
  | some m =>
    let b : BitVec 16 := 1#16 <<< (a / 256 % 16)
    setSlot s t k { x with retired := tset x.retired (a / 4096) (if on then m ||| b else m &&& ~~~b) }
  | none =>
    if on then (if a / 256 ∈ x.poison then s else setSlot s t k { x with poison := a / 256 :: x.poison })
    else if a / 256 ∈ x.poison then setSlot s t k { x with poison := x.poison.filter fun c => decide (c ≠ a / 256) }
    else s

/-- Some slot of the tier keeps poison (asked first: without any, no chunk needs a look). -/
def anyPoison (s : State) (t : Nat) : Bool :=
  s.tiers.slots.any fun e => decide (e.1 / 256 = t) && (!e.2.retired.isEmpty || !e.2.poison.isEmpty)

/-- Offsets of the 256-byte chunks that a run of bytes touches. -/
def chunksOf (o len : Nat) : List Nat :=
  if len = 0 then [] else (List.range ((o + len - 1) / 256 - o / 256 + 1)).map fun i => 256 * (o / 256 + i)

/-- Chunks that a run of bytes covers whole. -/
def wholeChunks (o len : Nat) : List Nat := (chunksOf o len).filter fun c => decide (o ≤ c ∧ c + 256 ≤ o + len)

/-- Poisoned chunks of a run. -/
def badChunks (s : State) (t o len : Nat) : List Nat :=
  if anyPoison s t then (chunksOf o len).filter (poisoned s t) else []

/-- Clear the poison of the whole chunks of a run. -/
def clearPoison (s : State) (t o len : Nat) : State :=
  ((badChunks s t o len).filter fun c => decide (c ∈ wholeChunks o len)).foldl (fun s c => setPoison s t c false) s

/-! ### Page retirement (09 R198 to R200) -/

/-- Page retirement units of a slot, tier 1 having `n1` frames: its reserve less the home table area and the areas of retired
slots. -/
def pageUnits (s : State) (t n1 : Nat) : Nat :=
  if t = 0 then
    let r := s.tiers.retired0.length
    16480 - 66 - r * cdiv 532836 (256 - r)
  else
    let r := s.tiers.retired1.length
    (s.tiers.cmin - 32768 * n1) / 4096 - r * cdiv (n1 * 8) (64 - r)

def retireUnits (s : State) (t : Nat) : Nat := pageUnits s t s.tiers.n1

/-- Event 0xe502 (12 Table 12). -/
def tierEvent (s : State) (kind t status p k g addr : Nat) : State :=
  event s [0] 0xe502
    (leBytes 1 kind ++ leBytes 1 t ++ leBytes 2 status ++ leBytes 1 p ++ zeros 1 ++ leBytes 2 k ++ leBytes 4 g ++ zeros 4 ++
      leBytes 8 addr ++ leBytes 8 (count s))

/-- The controller begins to copy a failing unit of a slot of tier 0 or 1 to a page retirement unit, the listed chunks
poisoned; a unit that fails again in its new place takes another one (log entry 60, DEDUCED). With none left the chunks stay
poisoned where they are, and the first such unit of a slot is reported. -/
def retireUnit (s : State) (t k unit : Nat) (mask : BitVec 16) : State :=
  let x := slot s t k
  let keep := ((List.range 16).filter mask.getLsbD).map fun j => 16 * unit + j
  if x.copying.any fun e => decide (e.1 = unit) then
    setSlot s t k { x with copying := x.copying.map fun e => if e.1 = unit then (unit, e.2 ||| mask) else e }
  else if x.spent + x.copying.length < retireUnits s t then setSlot s t k { x with copying := x.copying ++ [(unit, mask)] }
  else
    let x' :=
      match tfind x.retired unit with
      | some m => { x with retired := tset x.retired unit (m ||| mask), exhausted := true }
      | none => { x with poison := dedup (x.poison ++ keep), exhausted := true }
    let s := setSlot s t k x'
    if x.exhausted then s else tierEvent s 3 t 0 0xff k 0 0

/-- An error at a byte of a slot: corrected (counted, the unit retired at its fourth) or not (R200). Tier 2's devices keep
their own poison: its errors are counted only (R217). -/
def errorAt (s : State) (t k a : Nat) (bad : Bool) : State :=
  let x := slot s t k
  if bad then
    let s := setSlot s t k { x with uncorrected := x.uncorrected + 1 }
    if t = 2 then s else retireUnit s t k (a / 4096) (1#16 <<< (a / 256 % 16))
  else
    let n := tget 0 x.unitErrors (a / 4096) + 1
    let s := setSlot s t k { x with corrected := x.corrected + 1, unitErrors := tset x.unitErrors (a / 4096) n }
    if n = 4 ∧ t ≠ 2 then retireUnit s t k (a / 4096) 0 else s

/-- A read met an error at a tier offset. -/
def unitError (s : State) (t o : Nat) (bad : Bool) : State :=
  let (k, a) := placeAt s t o
  errorAt s t k a bad

/-- A unit that the run touches is being copied: accesses to it wait (R200). -/
def unitCopying (s : State) (t o len : Nat) : Bool :=
  (s.tiers.slots.any fun e => decide (e.1 / 256 = t) && !e.2.copying.isEmpty) &&
    (chunksOf o len).any fun c =>
      let (k, a) := placeAt s t c
      (slot s t k).copying.any fun e => decide (e.1 = a / 4096)

/-! ### Statuses of an access (09 R188, R203, R217; 17 R420) -/

/-- Status code 0x4TCC (09 R215). -/
def memStatus (t cc : Nat) : Nat := 0x4000 + 256 * t + cc

/-- The tier as a whole refuses an access: absent, out of service, or dark while shed; 0 when it does not. -/
def tierStatus (s : State) (t : Nat) : Nat :=
  if t = 1 ∧ s.tiers.out1 then 0x4103
  else if t = 2 ∧ s.tiers.out2 then 0x4203
  else if t ≠ 0 ∧ s.tiers.dark ∧ 0 < tierFrames s t then memStatus t 3
  else if tierFrames s t = 0 then memStatus t 4
  else 0

/-- A chunk of the run lies in a slot out of service. -/
def slotOut (s : State) (t o len : Nat) : Bool :=
  anyOut s t && (chunksOf o len).any fun c => decide ((slot s t (placeAt s t c).1).state = 2)

/-- Status of a run of bytes by tier offset, whoever asks: populated range, service, and for a read poison. -/
def rawStatus (s : State) (t o len : Nat) (write : Bool) : Nat :=
  if frameBytes * tierFrames s t < o + len then memStatus t 4
  else if tierStatus s t ≠ 0 then tierStatus s t
  else if slotOut s t o len then memStatus t 3
  else if !write && !(badChunks s t o len).isEmpty then memStatus t 1
  else 0

/-- Frames that a run of bytes touches. -/
def framesOf (o len : Nat) : List Nat :=
  if len = 0 then [] else (List.range ((o + len - 1) / frameBytes - o / frameBytes + 1)).map fun i => o / frameBytes + i

/-- A frame the home table holds (09 R203). -/
def heldFrame (s : State) (t f : Nat) : Bool :=
  match frameSt s t f with
  | .home | .destination | .releasing => true
  | .free | .plain => false

/-- Status of an access by tier offset (09 R203 refuses frames that the home table holds). -/
def tierAccess (s : State) (t o len : Nat) (write : Bool) : Nat :=
  if frameBytes * tierFrames s t < o + len then memStatus t 4
  else if (framesOf o len).any (heldFrame s t) then memStatus t 5
  else rawStatus s t o len write

/-! ### Bytes -/

def readTier (s : State) (t o len : Nat) : List Byte := mread (tierMem s t) o len

/-- Two ranges share a number. -/
def meets (a n b m : Nat) : Bool := decide (a < b + m ∧ b < a + n)

/-- An object whose bytes are written is no longer a verified one (10 R221). -/
def unverifyRun (s : State) (t o len : Nat) : State :=
  if s.tiers.verified = [] then s
  else
    modTiers s fun m =>
      { m with verified := m.verified.filter fun e => !(decide (gTierOf e.1 = t) && meets (gOff e.1) e.2 o len) }

/-- Write bytes by tier offset; a whole chunk written is no longer poisoned (09 R200). -/
def writeTier (s : State) (t o : Nat) (bs : List Byte) : State :=
  let s := unverifyRun (clearPoison s t o bs.length) t o bs.length
  setTierMem s t (mwrite (tierMem s t) o bs)

/-- Zero a frame (09 Table 7). -/
def zeroFrame (s : State) (t f : Nat) : State :=
  let n := frameBytes * f
  let s := clearPoison s t n frameBytes
  setTierMem s t (mzero (tierMem s t) n frameBytes)

/-- Copy bytes from one place to another, poison with them (09 Table 8). -/
def copyBytes (s : State) (t o t' o' len : Nat) : State :=
  let bad := badChunks s t o len
  let s := clearPoison s t' o' len
  let s := setTierMem s t' (mcopy (tierMem s t) o (tierMem s t') o' len)
  bad.foldl (fun s c => setPoison s t' (o' + (c - o)) true) s

/-! ### Accounting of tier bytes (13 Table 9, R314) -/

/-- Key of a TIERB counter: 2 x tier, plus 1 when written. -/
def tierbKey (t : Nat) (write : Bool) : Nat := 2 * t + (if write then 1 else 0)

def addTab (m : Tab Nat) (k n : Nat) : Tab Nat := tset m k (sat64 (tget 0 m k + n))

/-- Activity keys of 13 Table 10: 0 west and 1 east core work, 2 to 4 tier bytes, 5 fabric bytes. -/
def addAct (x : Part) (k n : Nat) : Part := { x with acct := { x.acct with act := addTab x.acct.act k n } }

/-- Tier bytes of work outside steps, added at its completion. -/
def countTier (s : State) (p t : Nat) (write : Bool) (n : Nat) : State :=
  modPart s p fun x =>
    let x := addAct x (2 + t) n
    { x with acct := { x.acct with tierb := addTab x.acct.tierb (tierbKey t write) n } }

/-- Tier bytes of a step's work: with the step while it runs, else as work outside steps. -/
def countStepTier (s : State) (p t : Nat) (write : Bool) (n : Nat) : State :=
  match (part s p).step with
  | none => countTier s p t write n
  | some k =>
    modPart s p fun x => addAct { x with step := some { k with tierb := addTab k.tierb (tierbKey t write) n } } (2 + t) n

/-! ### Partition ranges (13 R302) -/

/-- The frames [f, f + n) of a tier lie in one range entry of the partition, RO = 0 unless `ro` is allowed. -/
def inRanges (x : Part) (t f n : Nat) (ro : Bool) : Bool :=
  x.entry.ranges.any fun r =>
    decide (r.2.tier = t ∧ r.2.first ≤ f ∧ f + n ≤ r.2.first + r.2.count) && (ro || !r.2.ro)

/-- The frames [f, f + n) of a tier lie in the partition's ranges, over as many entries as they take. -/
def framesInRanges (x : Part) (t f n : Nat) (ro : Bool) : Bool :=
  inRanges x t f n ro || (List.range n).all fun i => inRanges x t (f + i) 1 ro

/-- Every frame of a run of bytes lies in the partition's ranges. -/
def bytesInRanges (x : Part) (t o len : Nat) (ro : Bool) : Bool := (framesOf o len).all fun f => inRanges x t f 1 ro

/-- The grain id belongs to the partition's range (13 Table 1). -/
def ownsGrain (x : Part) (g : Nat) : Bool := decide (x.entry.gbase ≤ g ∧ g < x.entry.gbase + x.entry.gcount)

/-- Free frames of one tier in the partition's RO = 0 ranges, lowest range entry first. -/
def freeFrames (s : State) (p t : Nat) : List Nat :=
  dedup ((part s p).entry.ranges.flatMap fun r =>
    if r.2.tier = t ∧ r.2.ro = false then
      ((List.range r.2.count).map fun i => r.2.first + i).filter fun f => decide (frameSt s t f = .free)
    else [])

/-- Stream control page of partition `p` (15 Table 4). -/
def controlPage (p : Nat) : Nat := 0x10000000 + 0x1000 * p

end Sys2Proof.Machine
end

