-- ==== Sys2Proof/Machine/Crc.lean ====
section
/-! DEFINITION. The check-value algorithms of 15 Table 14 and the CRC-8 of 16 Table 10, over bytes in increasing address
order, as integers. -/

namespace Sys2Proof.Machine

/-- One bit of a reflected CRC with reversed polynomial `p`. -/
def crcBitR (p r : Nat) : Nat := if r % 2 = 1 then (r / 2) ^^^ p else r / 2

/-- `n` bits of a reflected CRC. -/
def crcBitsR (p : Nat) : Nat → Nat → Nat
  | 0, r => r
  | n + 1, r => crcBitsR p n (crcBitR p r)

/-- A reflected CRC register after the listed bytes. -/
def crcRegR (p : Nat) : Nat → List Byte → Nat
  | r, [] => r
  | r, b :: bs => crcRegR p (crcBitsR p 8 (r ^^^ b.toNat)) bs

/-- One bit of a CRC of width `w`, most significant bit first. -/
def crcBitF (w p r : Nat) : Nat := if r / 2 ^ (w - 1) % 2 = 1 then (2 * r % 2 ^ w) ^^^ p else 2 * r % 2 ^ w

def crcBitsF (w p : Nat) : Nat → Nat → Nat
  | 0, r => r
  | n + 1, r => crcBitsF w p n (crcBitF w p r)

/-- A CRC register of width `w` (at least 8), most significant bit first, after the listed bytes. -/
def crcRegF (w p : Nat) : Nat → List Byte → Nat
  | r, [] => r
  | r, b :: bs => crcRegF w p (crcBitsF w p 8 (r ^^^ (b.toNat * 2 ^ (w - 8)))) bs

/-- CRC-32, IEEE 802.3. -/
def crc32 (bs : List Byte) : Nat := crcRegR 0xedb88320 0xffffffff bs ^^^ 0xffffffff

/-- CRC-32C. -/
def crc32c (bs : List Byte) : Nat := crcRegR 0x82f63b78 0xffffffff bs ^^^ 0xffffffff

/-- CRC-64, ECMA-182. -/
def crc64 (bs : List Byte) : Nat := crcRegF 64 0x42f0e1eba9ea3693 0 bs

/-- CRC-8, polynomial 0x07, initial 0 (16 Table 10). -/
def crc8 (bs : List Byte) : Nat := crcRegF 8 0x07 0 bs

/-- The value of algorithm `alg` (15 Table 14). -/
def checkValue (alg : Nat) (bs : List Byte) : Nat :=
  if alg = 0 then crc32 bs else if alg = 1 then crc32c bs else crc64 bs

/-- Width of an algorithm's value in bytes. -/
def checkWidth (alg : Nat) : Nat := if alg = 2 then 8 else 4

end Sys2Proof.Machine
end

