-- ==== Sys2Proof/Machine/Weave.lean ====
section
/-! DEFINITION. Transactions of the fabric (14): their bytes, the choice of a link, sending on a link or to the device's
own ingress, and the messages that travel as transactions (08 Table 7, 16 Tables 8 and 9).
Readings of the spec: log entry 54. -/

namespace Sys2Proof.Machine

/-! ### Transactions (14 Tables 7 and 8) -/

/-- Class of a transaction type: 0 requests, 1 responses, 2 messages. -/
def txnClass (ttype : Nat) : Nat := if 0x81 ≤ ttype then 1 else if ttype ≤ 4 then 0 else 2

/-- The bytes of a transaction: its header, then its data. -/
def txnBytes (t : Txn) : List Byte :=
  leBytes 1 t.ttype ++ leBytes 1 t.strm ++ leBytes 2 t.dchip ++ leBytes 2 t.schip ++
    leBytes 1 (t.srcPart + 16 * t.dstPart) ++ leBytes 1 (if t.last then 1 else 0) ++ leBytes 8 t.addr.toNat ++
    leBytes 2 t.len ++ leBytes 2 t.tid ++ leBytes 2 t.status ++ leBytes 1 t.aop ++ leBytes 1 0 ++
    leBytes 8 t.operand.toNat ++ t.data

/-- The transaction that bytes carry. -/
def parseTxn (bs : List Byte) : Txn :=
  { ttype := fld bs 0 1, strm := nfld (fld bs 1 1) 0 4, dchip := nfld (fld bs 2 2) 0 14,
    schip := nfld (fld bs 4 2) 0 14, srcPart := nfld (fld bs 6 1) 0 4, dstPart := nfld (fld bs 6 1) 4 4,
    last := decide (nfld (fld bs 7 1) 0 1 = 1), addr := BitVec.ofNat 64 (fld bs 8 8), len := fld bs 16 2,
    tid := fld bs 18 2, status := fld bs 20 2, aop := fld bs 22 1, operand := BitVec.ofNat 64 (fld bs 24 8),
    data := bs.drop 32 }

/-- Bytes an atomic acts on (14 Table 9). -/
def atomSize (aop : Nat) : Nat := if aop % 2 = 0 then 4 else 8

/-- A READ or WRITE names 64 to 4,096 bytes, a multiple of 64, aligned, within one 4 KiB unit (14 Table 8). -/
def spanOk (a len : Nat) : Bool :=
  decide (64 ≤ len ∧ len ≤ 4096 ∧ len % 64 = 0 ∧ a % 64 = 0 ∧ a % 4096 + len ≤ 4096)

/-- The transaction carries no reserved value and a LEN that its type allows (14 R332, R337). -/
def txnOk (t : Txn) : Bool :=
  let a := t.addr.toNat
  let data := decide (t.data.length = t.len)
  if t.ttype = 1 then spanOk a t.len && decide (t.data = [])
  else if t.ttype = 2 ∨ t.ttype = 5 then spanOk a t.len && data
  else if t.ttype = 3 then
    decide (t.aop ≤ 5 ∧ a % atomSize t.aop = 0 ∧ t.len = if 4 ≤ t.aop then 8 else 0) && data
  else if t.ttype = 4 ∨ t.ttype = 0x82 ∨ t.ttype = 0x84 then decide (t.len = 0) && data
  else if t.ttype = 0x10 ∨ t.ttype = 0x11 ∨ t.ttype = 0x12 then decide (1 ≤ t.len ∧ t.len ≤ 4096) && data
  else if t.ttype = 0x81 then decide (t.len ≤ 4096 ∧ t.len % 64 = 0) && data
  else if t.ttype = 0x83 then decide (t.len = 8 ∨ t.len = 0) && data
  else false

/-- The response to a request: TID and STRM of the request, chips and partitions exchanged (14 R332). -/
def response (t : Txn) (status : Nat) (data : List Byte) : Txn :=
  { t with
    ttype := t.ttype + 0x80, dchip := t.schip, schip := t.dchip, srcPart := t.dstPart, dstPart := t.srcPart
    last := false, len := data.length, status := status, aop := 0, operand := 0, data := data }

/-! ### Links and routes (14 R327 to R331) -/

/-- A link is in its port: up, or trying fast recovery (14 R322). -/
def inPort (s : State) (l : Nat) : Bool :=
  match (link s l).st with
  | .up | .recovery => true
  | _ => false

/-- Live links of a logical port, lowest number first. -/
def portLinks (s : State) (p : Nat) : List Nat :=
  (List.range 18).filter fun l =>
    match s.fabric.ents[l]? with
    | none => false
    | some e => e.en && decide (e.port = p) && inPort s l

/-- Live ports of the route entry of a chip, lowest number first (14 R329). -/
def livePorts (s : State) (chip : Nat) : List Nat :=
  match tfind s.fabric.routes chip with
  | none => []
  | some m => (List.range 18).filter fun p => m.getLsbD p && !(portLinks s p).isEmpty

/-- Key K of a transaction's stream (14 R331). -/
def streamKey (t : Txn) : Nat :=
  2 ^ 50 * t.schip + 2 ^ 36 * t.dchip + 2 ^ 32 * t.srcPart + 2 ^ 28 * t.dstPart + 2 ^ 26 * txnClass t.ttype +
    2 ^ 22 * t.strm

/-- The link a stream takes at this hop (14 R331). -/
def linkFor (s : State) (t : Txn) : Option Nat :=
  let k := streamKey t
  let h := nfld k 48 16 ^^^ nfld k 32 16 ^^^ nfld k 16 16 ^^^ nfld k 0 16
  let ports := livePorts s t.dchip
  match ports[h % max 1 ports.length]? with
  | none => none
  | some p =>
    let ls := portLinks s p
    ls[h / max 1 ports.length % max 1 ls.length]?

/-- A link joins two groups. -/
def isGlb (s : State) (l : Nat) : Bool :=
  match s.fabric.ents[l]? with
  | none => false
  | some e => e.glb

/-! ### Accounting of fabric bytes -/

/-- The transaction is work outside its partition's steps: loads and their forwarding, requests served for others and the
responses to them (13 R314). -/
def outsideTxn (t : Txn) (sent : Bool) : Bool := decide (t.ttype = 5 ∨ txnClass t.ttype = if sent then 1 else 0)

/-- Fabric bytes of a partition, sent or received: with its running step, unless they are work outside steps (13 R314). -/
def countFabric (s : State) (p : Nat) (outside sent : Bool) (n : Nat) : State :=
  modPart s p fun x =>
    let x := addAct x 5 n
    match if outside then none else x.step with
    | some k =>
      { x with step := some (if sent then { k with fabSent := k.fabSent + n } else { k with fabRecv := k.fabRecv + n }) }
    | none =>
      if sent then { x with acct := { x.acct with fabSent := sat64 (x.acct.fabSent + n) } }
      else { x with acct := { x.acct with fabRecv := sat64 (x.acct.fabRecv + n) } }

/-! ### Sending -/

/-- Cut bytes in pieces of `n`, with fuel for the number of pieces. -/
def pieces (n : Nat) : Nat → List Byte → List (List Byte)
  | 0, _ => []
  | k + 1, bs => if bs.length ≤ n then [bs] else bs.take n :: pieces n k (bs.drop n)

/-- The frames of a transaction, each its VCF byte (channel, SOT, EOT) and its payload (14 R333). -/
def txnFrames (ch : Nat) (bs : List Byte) : List (List Byte) :=
  let ps := pieces 240 (bs.length / 240 + 1) bs
  ps.zipIdx.map fun (p, i) =>
    BitVec.ofNat 8 (ch + (if i = 0 then 8 else 0) + (if i + 1 = ps.length then 16 else 0)) :: p

/-- Put a transaction on a link's queue of its channel. -/
def onLink (s : State) (l phase : Nat) (t : Txn) : State :=
  let ch := 2 * txnClass t.ttype + phase
  let x := link s l
  let s := setLink s l { x with txq := tset x.txq ch (tget [] x.txq ch ++ txnFrames ch (txnBytes t)) }
  modFabric s fun f => { f with streamLink := tset f.streamLink (streamKey t / 2 ^ 22) l }

/-- The stream may send on link `l`: it used that link last, or its old link holds no frame of the stream's channel
queued or unacknowledged (14 R331; a frame's channel stands for its stream, log entry 18, DEDUCED). -/
def streamClear (s : State) (l phase : Nat) (t : Txn) : Bool :=
  match tfind s.fabric.streamLink (streamKey t / 2 ^ 22) with
  | none => true
  | some o =>
    decide (o = l) || ((tget [] (link s o).txq (2 * txnClass t.ttype + phase)).isEmpty && (link s o).replay.isEmpty)

/-- A forwarded transaction has begun and not ended on a channel of link `l`: its frames may not be interleaved (14 R333). -/
def channelTaken (s : State) (l ch : Nat) : Bool := s.fabric.fwdOpen.any fun e => decide (e.2 = some (l, ch))

/-- Event 0xe404, at most one per 25,000 counts (14 R329). -/
def noRoute (s : State) (t : Txn) : State :=
  let s := modFabric s fun f => { f with noRoute := f.noRoute + 1 }
  if s.fabric.lastNoRoute = none64 ∨ s.fabric.lastNoRoute + 25000 ≤ count s then
    event (modFabric s fun f => { f with lastNoRoute := count s }) [0] 0xe404
      (leBytes 2 t.dchip ++ leBytes 1 t.ttype ++ leBytes 1 t.strm ++ leBytes 1 (t.srcPart + 16 * t.dstPart) ++ zeros 3 ++
        leBytes 8 (count s))
  else s

/-- A fragment follows the ones of its stream that wait, or begins a message (14 R340). -/
def follows (s : State) (t : Txn) : Bool :=
  let id (u : Txn) : Nat := nfld u.addr.toNat 48 16
  let off (u : Txn) : Nat := nfld u.addr.toNat 0 32
  match (s.fabric.ingress.filter fun u => decide (streamKey u = streamKey t ∧ u.ttype = t.ttype)).getLast? with
  | none => decide (off t = 0)
  | some u => if u.last then decide (off t = 0) else decide (id t = id u ∧ off t = off u + u.len)

/-- Drop the fragments of a stream's unfinished message. -/
def dropPartial (ts : List Txn) (t : Txn) : List Txn :=
  let mine (u : Txn) : Bool := decide (streamKey u = streamKey t ∧ u.ttype = t.ttype)
  let n := (ts.filter mine).length - (((ts.filter mine).reverse.takeWhile fun u => !u.last).length)
  ((ts.filter mine).take n) ++ ts.filter fun u => !mine u

/-- Deliver to this device's own ingress. A fragment that does not follow ends its message: it is discarded and counted. -/
def ingress (s : State) (t : Txn) : State :=
  if 0x10 ≤ t.ttype ∧ t.ttype ≤ 0x12 ∧ !follows s t then
    modFabric s fun f => { f with ingress := dropPartial f.ingress t, discarded := f.discarded + 1 }
  else modFabric s fun f => { f with ingress := f.ingress ++ [t] }

/-- Data of the first whole message of one stream, if it has arrived. -/
def collect (k : Nat) : List Txn → Option (List Byte)
  | [] => none
  | t :: r =>
    if streamKey t ≠ k then collect k r
    else if t.last then some t.data
    else (collect k r).map fun bs => t.data ++ bs

/-- The transactions without those of the first whole message of one stream. -/
def dropMessage (k : Nat) : List Txn → List Txn
  | [] => []
  | t :: r => if streamKey t ≠ k then t :: dropMessage k r else if t.last then r else dropMessage k r

/-- Take a message of a stream number that has these bytes from the ingress (14 R340). -/
def takeMessage (s : State) (strm : Nat) (bs : List Byte) : State :=
  match s.fabric.ingress.find? fun t => decide (t.strm = strm ∧ 0x10 ≤ t.ttype ∧ collect (streamKey t) s.fabric.ingress = some bs) with
  | none => s
  | some t => modFabric s fun f => { f with ingress := dropMessage (streamKey t) f.ingress }

/-- Put a whole transaction on its link, or keep it while its stream or its channel waits. A frame in phase 1 that routing
sends onto a link between groups is discarded and counted (14 R330). -/
def route (s : State) (phase : Nat) (t : Txn) : Option State :=
  match linkFor s t with
  | none => none
  | some l =>
    if phase = 1 ∧ isGlb s l then
      some (modFabric s fun f => { f with routeErr := f.routeErr + (txnFrames 0 (txnBytes t)).length })
    else if streamClear s l phase t ∧ channelTaken s l (2 * txnClass t.ttype + phase) = false ∧ (s.fabric.waiting.any fun w => decide (streamKey w.1 = streamKey t)) = false then
      some (onLink s l phase t)
    else some (modFabric s fun f => { f with waiting := f.waiting ++ [(t, phase)] })

/-- A transaction of this device's own sources: its status when it ends at once, 0 when it is on its way. -/
def issueTxn (s : State) (t : Txn) : Nat × State :=
  let sent (s : State) := modFabric s fun f => { f with sent := f.sent ++ [t] }
  if s.fabric.accepted ∧ t.dchip = s.fabric.chip then (0, ingress (sent s) t)
  else
    match (if s.fabric.accepted then route s 0 t else none) with
    | some s => (0, countFabric (sent s) t.srcPart (outsideTxn t true) true (32 + t.data.length))
    | none =>
      if txnClass t.ttype = 0 then (memStatus (gTierOf t.addr.toNat) 3, s) else (0, noRoute (sent s) t)

/-- Send a message of any length as transactions of one id, 4,096 bytes each, LAST on the final one (14 R340). -/
def sendMessage (s : State) (ttype strm dchip srcPart dstPart : Nat) (bs : List Byte) : State :=
  let id := tget 0 s.fabric.nextMsg strm
  let s := modFabric s fun f => { f with nextMsg := tset f.nextMsg strm ((id + 1) % 65536) }
  let ps := pieces 4096 (bs.length / 4096 + 1) bs
  ps.zipIdx.foldl (fun s (p, i) =>
    (issueTxn s
      { ttype := ttype, strm := strm, dchip := dchip, schip := s.fabric.chip, srcPart := srcPart, dstPart := dstPart,
        last := decide (i + 1 = ps.length), addr := BitVec.ofNat 64 (2 ^ 48 * id + 4096 * i), len := p.length, tid := 0,
        status := 0, aop := 0, operand := 0, data := p }).2) s

/-! ### Expert messages (08 Table 7) -/

def expertBytes (m : ExpertMsg) : List Byte :=
  leBytes 1 m.mtype ++ leBytes 1 m.ver ++ leBytes 2 m.expert ++ leBytes 2 m.schip ++
    leBytes 1 (m.srcPart + 16 * m.dstPart) ++ leBytes 1 0 ++ leBytes 4 m.round ++ leBytes 2 m.gen ++ leBytes 2 m.layer ++
    leBytes 4 m.step ++ leBytes 2 m.nrow ++ leBytes 1 m.rfmt ++ leBytes 1 0 ++ leBytes 4 m.rbytes ++ leBytes 2 m.status ++
    zeros 2 ++ leBytes 8 m.beats ++ leBytes 8 m.tbytes ++ zeros 16 ++ m.rows

/-- Send an expert message on stream 15 (14 R341). -/
def sendExpert (s : State) (chip : Nat) (m : ExpertMsg) : State :=
  sendMessage (modFabric s fun f => { f with expertSent := f.expertSent ++ [m] }) 0x10 15 chip m.srcPart m.dstPart
    (expertBytes m)

/-! ### Pair messages (16 Tables 8 and 9) -/

def pairRecBytes : PairRec → List Byte
  | .setup prim mirr ps =>
    leBytes 2 prim.toNat ++ leBytes 2 mirr.toNat ++
      ps.flatMap fun (gb, gc, db, dl, cols) =>
        leBytes 4 gb ++ leBytes 4 gc ++ leBytes 4 db ++ leBytes 4 dl ++ leBytes 1 cols ++ zeros 7
  | .grain g => leBytes 4 g ++ zeros 4
  | .data off bs => leBytes 8 off ++ leBytes 4 bs.length ++ zeros 4 ++ pad (64 * cdiv bs.length 64) bs
  | .entry t i bs => leBytes 1 t ++ zeros 3 ++ leBytes 4 i ++ pad 64 bs
  | .record bs => pad 64 bs
  | .charge t c => leBytes 1 t ++ zeros 7 ++ leBytes 8 c

def pairBytes (m : PairMsg) : List Byte :=
  leBytes 1 m.pkind ++ leBytes 1 m.ver ++ leBytes 1 m.part ++ leBytes 1 0 ++ leBytes 4 m.recs.length ++
    leBytes 8 m.step ++ leBytes 8 m.vstep ++ leBytes 2 m.status ++ zeros 6 ++ m.recs.flatMap pairRecBytes

/-- Send a pair message to the twin on stream 13 (16 R398). -/
def sendPair (s : State) (kind p step vstep status : Nat) (recs : List PairRec) : State :=
  let m : PairMsg := { pkind := kind, ver := 1, part := p, step := step, vstep := vstep, status := status, recs := recs }
  let s := modPair s fun x => { x with lastSent := count s }
  sendMessage (modFabric s fun f => { f with pairSent := f.pairSent ++ [m] }) 0x12 13 s.pair.twin p p (pairBytes m)

/-- Send a pair message that the twin answers with an ACK. -/
def sendAcked (s : State) (kind p step : Nat) (recs : List PairRec) : State :=
  modPart (sendPair s kind p step 0 0 recs) p fun x => { x with acksDue := x.acksDue + 1 }

end Sys2Proof.Machine
end

