-- ==== Sys2Proof/Machine/Home.lean ====
section
/-! DEFINITION. The home table (09 R201 to R212): its entry in 64 bits, allocate, free, translation, and placing and
releasing runs of mutable-window units for the service firmware.
Readings of the spec: log entry 60. -/

namespace Sys2Proof.Machine

/-- Bits [63:8] of an entry (09 Table 6). -/
def htFields (e : HtEntry) : Nat :=
  (if e.v then 2 ^ 63 else 0) + 2 ^ 61 * e.st + (if e.mir then 2 ^ 60 else 0) + 2 ^ 56 * e.part + 2 ^ 54 * e.htier +
    2 ^ 32 * e.hf + 2 ^ 30 * e.dtier + 2 ^ 8 * e.df

/-- An entry with its check bits CHK, under a code that the manual does not give (log entry 8). -/
def htBits (e : HtEntry) : Nat := htFields e + (Config.htCheck (htFields e / 256)).toNat

/-- A read issued on a frame has not completed (09 Table 8, step 5). -/
def readOutstanding (s : State) (t f : Nat) : Bool :=
  s.tiers.transfers.any fun x =>
    !x.write && x.issued.isSome && decide (x.tier = t) &&
      (if x.window then decide (x.frame = f) else decide (f ∈ framesOf x.addr x.len))

/-- A write accepted for a grain has not completed (09 Table 8, step 2). -/
def writeOutstanding (s : State) (g : Nat) : Bool :=
  s.tiers.transfers.any fun x =>
    x.write && x.issued.isSome && x.window && decide (winGrain x.addr = g) &&
      !(s.tiers.gate.any fun h => decide (h.transfer = some x.id))

/-- The partition mirrors its allocates and frees to the twin (16 R399, R397). -/
def mirrored (s : State) (p : Nat) : Bool := isPrimary s p && ((part s p).paired || (part s p).syncing) && s.pair.on

/-- Allocate grain g at frame f (09 Table 7): status, state. -/
def htAlloc (s : State) (g p t f : Nat) (mir : Bool) : Nat × State :=
  if (ht s g).v then (0x4303, s)
  else if frameSt s t f ≠ .free then (0x4307, s)
  else
    let s := zeroFrame s t f
    let s := setHt s g
      { v := true, st := 0, mir := mir, part := p, htier := t, hf := f, dtier := 0, df := 0 }
    let s := setFrame s t f .home
    (0, if mirrored s p && !mir then sendPair s 2 p 0 0 0 [.grain g] else s)

/-- Free grain g (09 Table 7, R212): status, state. -/
def htFree (s : State) (g : Nat) : Nat × State :=
  let e := ht s g
  if !e.v then (0x4301, s)
  else if e.st = 1 ∨ e.st = 2 then (0x4303, s)
  else
    let s := setHt s g HtEntry.zero
    let s :=
      if e.st = 3 then s
      else if readOutstanding s e.htier e.hf then
        modTiers (setFrame s e.htier e.hf .releasing) fun m =>
          { m with freeing := m.freeing ++ [(g, e.htier, e.hf)] }
      else setFrame s e.htier e.hf .free
    (0, if mirrored s e.part && !e.mir then sendPair s 3 e.part 0 0 0 [.grain g] else s)

/-- What an access through the mutable window meets at the HT (09 R190, R210 to R212): a status, or 0. `mirroring` marks
the mirroring of publishes, allocates and frees, the only accesses that reach a mirror grain. The translation reads the entry
in tier 0 (R201; that it is never held on chip: log entry 60, DESIGN CHOICE). -/
def windowStatus (s : State) (off : Nat) (mirroring : Bool) : Nat :=
  if !inWindow off then 0x4304
  else
    let e := ht s (winGrain off)
    if htOut s (winGrain off) then memStatus 0 3
    else if !e.v then 0x4301
    else if e.st = 3 then 0x4302
    else if e.mir && !mirroring then 0x4305
    else 0

/-- Writes to the grain are held at the HT gate: it moves and has not switched (09 R208), or its content is being read
for the twin (16 R397). -/
def gateHolds (s : State) (g : Nat) : Bool := decide ((ht s g).st = 1) || decide (s.tiers.syncGrain = some g)

/-- Tier offset that an offset of a grain has in its home. -/
def homeOff (s : State) (g o : Nat) : Nat := frameBytes * (ht s g).hf + o

/-- Read through the mutable window within one grain, from its home: status and bytes (09 R207). -/
def readWindow (s : State) (off len : Nat) (mirroring : Bool) : Nat × List Byte :=
  let g := winGrain off
  let st := windowStatus s off mirroring
  if st ≠ 0 then (st, [])
  else
    let t := (ht s g).htier
    let o := homeOff s g (winOff off)
    let st := rawStatus s t o len false
    if st ≠ 0 then (st, []) else (0, readTier s t o len)

/-- Write through the mutable window within one grain to its home, past the gate: status and state. -/
def writeHome (s : State) (g o : Nat) (bs : List Byte) : Nat × State :=
  let e := ht s g
  if e.st = 3 then (0x4302, s)
  else
    let a := homeOff s g o
    let st := rawStatus s e.htier a bs.length true
    if st ≠ 0 then (st, s) else (0, writeTier s e.htier a bs)

/-- Read `len` bytes from a mutable-window offset over as many grains as it spans, with fuel for their number. -/
def readSpan (s : State) : Nat → Nat → Nat → Nat × List Byte
  | 0, _, _ => (0, [])
  | k + 1, off, len =>
    if len = 0 then (0, [])
    else
      let n := min len (frameBytes - winOff off)
      match readWindow s off n false with
      | (0, bs) =>
        match readSpan s k (off + n) (len - n) with
        | (0, r) => (0, bs ++ r)
        | e => e
      | e => e

/-! ### Placement by the service firmware (11 R256, R267; log entry 7, DESIGN CHOICE) -/

/-- Grains that a run of lines on new grains takes. -/
def grainsFor (lines : Nat) : Nat := cdiv (64 * lines) frameBytes

/-- First grains of the free runs of `n` grain ids in the partition's range. -/
def freeRuns (s : State) (p n : Nat) : List Nat :=
  let x := part s p
  ((List.range x.entry.gcount).map fun i => x.entry.gbase + i).filter fun g =>
    decide (g + n ≤ x.entry.gbase + x.entry.gcount) && (List.range n).all fun i => !(ht s (g + i)).v

/-- Allocate the listed grains in free tier 0 frames of the partition, the frames as the SF chooses them. -/
def allocRun (s : State) (p : Nat) : List Nat → Option State
  | [] => some s
  | g :: gs =>
    match pick s (freeFrames s p 0) with
    | (none, _) => none
    | (some f, s) =>
      match htAlloc s g p 0 f false with
      | (0, s) => allocRun s p gs
      | _ => none

/-- Place a run of lines on new grains in free tier 0 frames: its first unit, or none when there is no room. A run of no
lines takes no grain. -/
def placeRun (s : State) (p lines : Nat) : Option (Nat × State) :=
  if lines = 0 then some (0, s)
  else
    let n := grainsFor lines
    match pick s (freeRuns s p n) with
    | (none, _) => none
    | (some g, s) => (allocRun s p ((List.range n).map fun i => g + i)).map fun s => (512 * g, s)

/-- Runs of units that hold a drawer's summary: committed, pending, or both while the publish that replaces it has not
completed. -/
def summaryRuns (x : Part) (d : Drawer) : List (Nat × Nat) :=
  if d.pStep = 0 then [(d.sbase, d.slen)]
  else if d.pStep ≤ x.crec.pstep then [(d.pSbase, d.pSlen)]
  else [(d.sbase, d.slen), (d.pSbase, d.pSlen)]

/-- Runs of units that drawers and regions of the partition use: first unit and lines. A summary that a completed publish
has replaced is in use no more. -/
def runsInUse (s : State) (p : Nat) : List (Nat × Nat) :=
  let x := part s p
  let ds := s.drawers.flatMap fun (i, d) =>
    if x.entry.dbase ≤ i ∧ i < x.entry.dbase + x.entry.dlimit ∧ d.state ≠ 0 then
      (d.tbase, d.tcap) :: summaryRuns x d
    else []
  let rs := s.regions.flatMap fun (i, r) => if i / 8192 = p ∧ r.state ≠ 0 then [(r.base, r.cap)] else []
  let os := x.ops.flatMap fun o => if o.kind = 3 then [(o.newBase, o.newCap)] else []
  ds ++ rs ++ os

/-- Free the listed grains that nothing of the partition uses (11 R267); those that move are freed later. -/
def releaseGrains (s : State) (p : Nat) (gs : List Nat) : State :=
  let used := (runsInUse s p).flatMap fun r => grainsOf r.1 r.2
  gs.foldl (fun s g =>
    if g ∈ used ∨ !(ht s g).v ∨ (ht s g).part ≠ p then s
    else
      match htFree s g with
      | (0, s) => s
      | (_, s) => modPart s p fun x => { x with toFree := dedup (x.toFree ++ [g]) }) s

end Sys2Proof.Machine
end

