-- ==== Sys2Proof/Machine/Operands.lean ====
section
/-! DEFINITION. Operand forms: the command packet and its parameter blocks (12 Tables 2, 6, 7, 8), the opcode table as
the CS and the interpreters read it, the partition table entry (13 Tables 1 and 2) and the boot packet (15 Table 8). -/

namespace Sys2Proof.Machine

/-! ### The opcode table (12 Table 6) -/

/-- The header facts of an opcode: who may send it (bit 0 C, 1 A, 2 B, 3 T), where it goes (0 the device, 1 a partition,
2 either), and its lengths: from, to, in steps of. -/
def opcRow (opc : Nat) : Option (Nat × Nat × Nat × Nat × Nat) :=
  if opc = 0x0001 then some (15, 0, 0, 64, 1)
  else if opc = 0x0002 then some (7, 0, 32, 32, 1)
  else if opc = 0x0003 then some (7, 2, 8, 8, 1)
  else if opc = 0x0101 then some (1, 0, 160, 160, 1)
  else if opc = 0x0102 ∨ opc = 0x0103 ∨ opc = 0x0104 ∨ opc = 0x0105 then some (1, 1, 0, 0, 1)
  else if opc = 0x0106 then some (7, 1, 8, 8, 1)
  else if opc = 0x0107 then some (1, 1, 8, 8, 1)
  else if opc = 0x0201 then some (1, 1, 152, 152, 1)
  else if opc = 0x0202 ∨ opc = 0x0203 then some (1, 1, 8, 8, 1)
  else if opc = 0x0204 then some (1, 1, 24, 24, 1)
  else if opc = 0x0205 then some (1, 1, 16, 16, 1)
  else if opc = 0x0206 then some (1, 0, 16, 16, 1)
  else if opc = 0x0301 then some (1, 1, 0x2c, 0x40024, 4)
  else if opc = 0x0302 then some (1, 1, 8, 8, 1)
  else if opc = 0x0303 then some (1, 1, 16, 16, 1)
  else if opc = 0x0304 then some (7, 1, 8, 8, 1)
  else if opc = 0x0401 then some (1, 1, 16, 16, 1)
  else if opc = 0x0402 ∨ opc = 0x0403 ∨ opc = 0x0404 ∨ opc = 0x0405 ∨ opc = 0x0406 then some (1, 1, 8, 8, 1)
  else if opc = 0x0407 then some (1, 1, 16, 16, 1)
  else if opc = 0x0501 ∨ opc = 0x0502 ∨ opc = 0x0503 then some (1, 1, 16, 16, 1)
  else if opc = 0x0504 then some (1, 1, 64, 64, 1)
  else if opc = 0x0505 then some (1, 1, 80, 262160, 64)
  else if opc = 0x0506 then some (1, 1, 16, 264, 8)
  else if opc = 0x0601 ∨ opc = 0x0602 then some (7, 0, 8, 8, 1)
  else if opc = 0x0603 ∨ opc = 0x0604 then some (6, 0, 8, 8, 1)
  else if opc = 0x0605 then some (7, 0, 0, 0, 1)
  else if opc = 0x0701 then some (1, 0, 12, 12, 1)
  else if opc = 0x0702 then some (8, 1, 32, 262240, 1)
  else if opc = 0x0703 then some (1, 0, 0, 0, 1)
  else none

/-- Largest PLEN of a source (12 Table 1). -/
def maxPlen (src : Nat) : Nat := if src = 0 then 262208 else if src = 3 then 262240 else 256

/-- A priority command: opcode 0x0601 to 0x0604 from a rack manager (12 R283). -/
def isPriority (port opc : Nat) : Bool :=
  decide (0x0601 ≤ opc ∧ opc ≤ 0x0604) && decide (port = 1 ∨ port = 2)

/-- Queue of a PART value: 16 the device queue (12 R285). -/
def queueOf (part : Nat) : Nat := if part < 16 then part else 16

/-! ### The command header (12 Table 2) -/

/-- The header and parameter block of a packet of at least 32 bytes; acceptance count and ORDER still to be given. -/
def parseCmd (port : Nat) (pkt : List Byte) : Cmd :=
  { port := port, opc := fld pkt 2 2, part := fld pkt 4 1, flags := fld pkt 1 1, seq := fld pkt 8 4,
    budget := fld pkt 12 4, tag := BitVec.ofNat 64 (fld pkt 16 8), plen := fld pkt 24 4, params := pkt.drop 32,
    acount := 0, order := 0 }

/-- Reserved fields of the header are zero and RESYNC comes with ECHO alone (12 R282 check 3, R280). -/
def reservedOk (pkt : List Byte) : Bool :=
  isZero pkt 6 2 && isZero pkt 28 4 && decide (nfld (fld pkt 1 1) 3 5 = 0) &&
    (decide (nfld (fld pkt 1 1) 2 1 = 0) || decide (fld pkt 2 2 = 0x0001))

/-- Parameter bytes of the commands waiting in a queue (12 R285). -/
def queueBytes (cs : List Cmd) : Nat := (cs.map fun c => c.plen).sum

def fromManager (c : Cmd) : Bool := decide (c.port = 1 ∨ c.port = 2)

/-- Check 9 of 12 Table 3: 512 commands and 512 KiB in a queue, of which the device queue keeps 64 commands and 64 KiB for
rack managers (R285). -/
def hasRoom (q : List Cmd) (queue port plen : Nat) : Bool :=
  let others := q.filter fun c => !fromManager c
  decide (q.length < 512) && decide (queueBytes q + plen ≤ 524288) &&
    (decide (queue ≠ 16 ∨ port = 1 ∨ port = 2) ||
      (decide (others.length < 448) && decide (queueBytes others + plen ≤ 458752)))

/-- The header checks of 12 Table 3 in order: 0, or the status of the first that fails. -/
def headerCheck (s : State) (port : Nat) (pkt : List Byte) : Nat :=
  let opc := fld pkt 2 2
  let part := fld pkt 4 1
  let plen := fld pkt 24 4
  let resync := decide (nfld (fld pkt 1 1) 2 1 = 1)
  if fld pkt 0 1 ≠ 1 then 0x1101
  else if fld pkt 5 1 ≠ port then 0x1105
  else if !reservedOk pkt then 0x1107
  else
    match opcRow opc with
    | none => 0x1102
    | some (srcs, place, lo, hi, stp) =>
      if nfld srcs port 1 = 0 then 0x1201
      else if !((decide (part = 0xff) && decide (place ≠ 1)) || (defined s part && decide (place ≠ 0))) then 0x1104
      else if !(decide (lo ≤ plen ∧ plen ≤ hi ∧ (plen - lo) % stp = 0 ∧ plen ≤ maxPlen port) &&
          decide (pkt.length = 32 + plen)) then 0x1106
      else if !resync && decide (fld pkt 8 4 ≠ tget 0 s.cs.expect port) then 0x1103
      else if !hasRoom (tget [] s.cs.queues (queueOf part)) (queueOf part) port plen then 0x2001
      else 0

/-- Deadline count of a command with a budget (02 R28). -/
def deadline (c : Cmd) : Nat := c.acount + 25 * c.budget

/-- Whether the deadline has been reached at a count; never with a budget of zero (02 R28). -/
def isLate (c : Cmd) (n : Nat) : Bool := decide (c.budget ≠ 0) && decide (deadline c ≤ n)

/-- Total order of commands (12 R283). -/
def earlier (a b : Cmd) : Bool := decide (a.acount < b.acount ∨ (a.acount = b.acount ∧ a.order < b.order))

/-- Place a command in a queue kept in the total order. -/
def enqueue : List Cmd → Cmd → List Cmd
  | [], c => [c]
  | d :: r, c => if earlier c d then c :: d :: r else d :: enqueue r c

/-! ### Settings of configuration commands (12 Table 6, R293) -/

/-- Parameter field of a command. -/
def pf (c : Cmd) (o n : Nat) : Nat := fld c.params o n

/-- The settings a command writes, each a number: kind, partition, index. BALANCE for every layer names the layers of
the partition's models; 0x10000 stands for them all beside each layer's own. -/
def settings (c : Cmd) (layers : List Nat) : List (Nat × Nat × Nat) :=
  if c.opc = 0x0101 then [(1, pf c 1 1 % 16, 0)]
  else if c.opc = 0x0107 then [(2, c.part, 0)]
  else if c.opc = 0x0201 then [(3, c.part, pf c 0 2)]
  else if c.opc = 0x0202 then [(4, c.part, 0)]
  else if c.opc = 0x0204 then [(5, c.part, 1024 * pf c 0 2 + nfld (pf c 2 2) 0 10)]
  else if c.opc = 0x0205 then
    if pf c 0 2 = 0xffff then layers.map fun l => (6, c.part, l) else [(6, c.part, pf c 0 2)]
  else if c.opc = 0x0303 ∧ pf c 1 1 = 0 then [(7, c.part, pf c 0 1)]
  else if c.opc = 0x0303 ∧ pf c 1 1 = 2 then [(8, c.part, pf c 0 1)]
  else if c.opc = 0x0602 then [(9, 0, 0)]
  else if c.opc = 0x0603 then [(10, 0, 0)]
  else if c.opc = 0x0604 then [(11, 0, c.port)]
  else if c.opc = 0x0701 then [(12, 0, 0)]
  else []

/-- The inner command of a MIRROR_CMD: its header's fields, on the partition that the MIRROR_CMD names (13 R298). -/
def innerCmd (c : Cmd) : Cmd :=
  { parseCmd (fld c.params 5 1) c.params with part := c.part, acount := c.acount, order := c.order }

/-! ### The partition table entry (13 Tables 1 and 2) -/

/-- One range entry of 64 bits, when used. -/
def parseRange (w : Nat) : Option RangeEnt :=
  if nfld w 63 1 = 1 then
    some { ro := decide (nfld w 58 1 = 1), tier := nfld w 56 2, first := nfld w 0 32, count := nfld w 32 24 }
  else none

/-- Used range entries with their index. -/
def parseRanges (bs : List Byte) : List (Nat × RangeEnt) :=
  (List.range 16).filterMap fun i => (parseRange (fld bs (0x20 + 8 * i) 8)).map fun r => (i, r)

def parseEntry (bs : List Byte) : PartEntry :=
  { bcols := BitVec.ofNat 16 (fld bs 4 2), gbase := fld bs 8 4, gcount := fld bs 12 4, dbase := fld bs 16 4,
    dlimit := fld bs 20 4, savefirst := fld bs 24 4, saveframes := fld bs 28 4, ranges := parseRanges bs,
    raw := pad 160 bs }

/-! ### The boot packet header (15 Table 8) -/

def bootType (pkt : List Byte) : Nat := fld pkt 1 1
def bootOff (pkt : List Byte) : Nat := fld pkt 4 4
def bootLen (pkt : List Byte) : Nat := fld pkt 8 4

/-- A boot packet carries MAGIC and BLEN bytes, at most 262,144. -/
def isBoot (pkt : List Byte) : Bool :=
  decide (16 ≤ pkt.length) && decide (fld pkt 0 1 = 0xb1) && decide (bootLen pkt ≤ 262144) &&
    decide (pkt.length = 16 + bootLen pkt)

end Sys2Proof.Machine
end

