-- ==== Sys2Proof/Machine/Sequencer.lean ====
section
/-! DEFINITION. The command sequencer (12): arrival of a packet, and which command of a queue may begin.
Readings of the spec: log entry 57. -/

namespace Sys2Proof.Machine

/-! ### Arrival -/

/-- A valid message from rack manager `m` (1 A, 2 B) reached its port (14 R348). -/
def managerSeen (s : State) (m : Nat) : State :=
  if m = 1 then { s with mgmtA := { s.mgmtA with lastMsg := count s, lost := false } }
  else if m = 2 then { s with mgmtB := { s.mgmtB with lastMsg := count s, lost := false } }
  else s

/-- The port can bring a packet to the CS: management ports once they answer and have a supply (15 R356, 16 R379),
the Iberaine port and the pair links while up. -/
def portOpen (s : State) (port : Nat) : Bool :=
  if port = 0 then iberaineUp s && decide (Phase.e ∈ s.boot.done)
  else if port = 3 then decide (Phase.c ∈ s.boot.done) && !s.boot.safe
  else decide (Phase.c ∈ s.boot.done) && mgmtPowered s

/-- Headers accepted earlier in the present count (12 R283). -/
def earlierInCount (s : State) : Nat := if s.cs.lastCount = count s then s.cs.inCount else 0

/-- The accepted command, stamped with the acceptance count and ORDER (12 R283). -/
def stamp (s : State) (c : Cmd) : Cmd :=
  { c with
    acount := count s
    order := (if isPriority c.port c.opc then 0 else 65536) + earlierInCount s % 65536 }

/-- The header is accepted: E advances, the command takes its place in the total order (12 R281, R283, R285). -/
def accept (s : State) (c : Cmd) : State :=
  let c := stamp s c
  let q := queueOf c.part
  let s := modCs s fun x =>
    { x with
      expect := tset x.expect c.port ((c.seq + 1) % 2 ^ 32)
      queues := tset x.queues q (enqueue (tget [] x.queues q) c)
      inCount := earlierInCount s + 1
      lastCount := count s }
  interim s c 0x0101 0

/-- The reply to a rejected header (12 R282, Table 4). -/
def nack (s : State) (port : Nat) (pkt : List Byte) (status : Nat) : State :=
  let c := parseCmd port pkt
  let detail := if status = 0x1103 then tget 0 s.cs.expect port else 0
  send s port (.reply { mkReply c (rflags s false true) status 0 detail [] with src := fld pkt 5 1, acount := count s })

/-- The first transaction of a whole CMD message of the fabric that carries a packet. -/
def cmdMessage (s : State) (pkt : List Byte) : Option Txn :=
  s.fabric.ingress.find? fun t =>
    decide (t.ttype = 0x11 ∧ t.strm < 16 ∧ collect (streamKey t) s.fabric.ingress = some pkt)

/-- The fabric ingress passes the packet to the CS: pair mode is on, and the twin sent it on stream 14 (14 R342). -/
def fromTwin (s : State) (t : Txn) : Bool := s.pair.on && decide (t.schip = s.pair.twin ∧ t.strm = 14)

/-- A packet that has arrived is checked, and accepted or answered. -/
def packetIn (port : Nat) (pkt : List Byte) (s : State) : State :=
  if pkt.length < 32 then modCs s fun x => { x with short := tset x.short port (tget 0 x.short port + 1) }
  else
    let status := headerCheck s port pkt
    if status = 0 then accept s (parseCmd port pkt) else nack s port pkt status

/-- COMMAND_PACKET_ARRIVAL: a packet of port `port` (12 R282, R445; before READY a packet of first byte 0xb1 on the
Iberaine port is a boot packet, 15 R360: here one with a reserved header value is taken and counted, and one that
only the device sends, HELLO or STATUS, is taken without effect: log entry 46, DESIGN CHOICE). On the twin's port
it is a message that stands in the fabric ingress; any other CMD message is discarded as an isolation event of kind 1. -/
def commandArrival (port : Nat) (pkt : List Byte) (s : State) : State :=
  if !portOpen s port then s
  else if port = 0 ∧ s.boot.ready = false ∧ fld pkt 0 1 = 0xb1 ∧ pkt ≠ [] then
    if isBoot pkt ∧ bootType pkt ∈ [3, 4, 5, 7] then s
    else if isBoot pkt ∧ bootType pkt ∈ [1, 6] then takeMessage s 16 pkt
    else modBoot (takeMessage s 16 pkt) fun b => { b with bootDisc := b.bootDisc + 1 }
  else if port = 3 then
    match cmdMessage s pkt with
    | none => s
    | some t =>
      let u := modFabric s fun b => { b with ingress := dropMessage (streamKey t) b.ingress }
      if fromTwin s t then packetIn port pkt u else isolation u t.dstPart 1 s.fabric.chip t.srcPart 0
  else packetIn port pkt (if port = 0 then takeMessage s 16 pkt else managerSeen s port)

def execCommandPacketArrival (port : Nat) (pkt : List Byte) (s : State) : Host.Outcome State Fault Refusal :=
  onWf (.commandPacketArrival port pkt) s (commandArrival port pkt)

/-! ### Beginning a command -/

/-- Opcodes that begin before READY (15 R358). -/
def beginsEarly (opc : Nat) : Bool := decide (opc ∈ [1, 2, 3, 0x0601, 0x0602, 0x0603, 0x0604, 0x0605])

/-- A command of the same queue was placed earlier and has not completed: it runs, or before READY still waits (12 R280, ORDER;
15 R358). -/
def earlierRunning (s : State) (c : Cmd) : Bool :=
  (s.cs.running.any fun d => decide (queueOf d.part = queueOf c.part) && earlier d c) ||
    (tget [] s.cs.queues (queueOf c.part)).any fun d => earlier d c

/-- PAIR_SETUP and PAIR_END act on a partition's role. -/
def roleCmd (d : Cmd) (p : Nat) : Bool :=
  decide (d.opc = 0x0703) ||
    (decide (d.opc = 0x0701) && decide (nfld (pf d 2 2) p 1 = 1 ∨ nfld (pf d 4 2) p 1 = 1))

/-- The frames [f, f + n) of a tier hold the byte of a global address. -/
def holdsAddr (t f n a : Nat) : Bool :=
  decide (gTierOf a = t ∧ frameBytes * f ≤ gOff a ∧ gOff a < frameBytes * (f + n))

/-- A command of a partition acts on the bytes of a weight object: a LOAD_GRANT over its frames, LOAD_DATA and LOAD_CHECK under
such a grant, or a MODEL_INSTALL that names it as its package. -/
def loadsObject (s : State) (c : Cmd) (a : Nat) : Bool :=
  if c.opc = 0x0504 then holdsAddr (nfld (pf c 1 1) 0 2) (pf c 4 4) (pf c 8 4) a
  else if c.opc = 0x0505 ∨ c.opc = 0x0506 then
    (part s c.part).grants.any fun g => decide (g.gid = pf c 0 1) && holdsAddr g.tier g.first g.frames a
  else decide (c.opc = 0x0201 ∧ pf c 0x20 8 = a)

/-- LAYER_REPLACE `d` and a command of a partition act on one object: the new one or the one replaced. -/
def sameObject (s : State) (d c : Cmd) : Bool :=
  decide (d.opc = 0x0206) && (loadsObject s c (pf d 0 8) || loadsObject s c (pf d 8 8))

/-- An earlier command of the device queue acts on the same object and comes first (12 R284): one that waits and acts on the
partition's table or role, or a LAYER_REPLACE of the same weight object that has not completed (log entry 16, DEDUCED). -/
def deviceBefore (s : State) (c : Cmd) : Bool :=
  ((tget [] s.cs.queues 16).any fun d => earlier d c &&
    (decide (d.opc = 0x0101 ∧ pf d 1 1 % 16 = c.part) || roleCmd d c.part || sameObject s d c)) ||
    s.cs.running.any fun d => earlier d c && sameObject s d c

/-- An earlier command of a partition's queue acts on the object of a device command and comes first (12 R284): one that waits
and whose partition's role the device command changes, or a load of the weight object that has not completed. What still waits
for a PART_DEFINE ends with it (13 R301 step 5). -/
def partitionBefore (s : State) (d : Cmd) : Bool :=
  ((List.range 16).any fun p => (tget [] s.cs.queues p).any fun c =>
    earlier c d && (roleCmd d p || sameObject s d c)) ||
    s.cs.running.any fun c => earlier c d && sameObject s d c

/-- A priority command of the same or an earlier count waits (12 R284). -/
def priorityBefore (s : State) (c : Cmd) : Bool :=
  (tget [] s.cs.queues 16).any fun d => isPriority d.port d.opc && decide (d.acount ≤ c.acount)

/-- A command at the head of its queue may begin (12 R280, R284, R286). -/
def mayBegin (s : State) (c : Cmd) : Bool :=
  decide (c.acount < count s) && !(decide (nfld c.flags 1 1 = 1) && earlierRunning s c) &&
    (isPriority c.port c.opc || !priorityBefore s c) && (if queueOf c.part = 16 then !partitionBefore s c else !deviceBefore s c)

/-- The command of queue `q` that begins next, if one may begin now. While the control cores are stopped none does
(15 R351). Before READY the opcodes of 15 R358 begin past the ones that wait. -/
def front (q : Nat) (s : State) : Option Cmd :=
  let cs := tget [] s.cs.queues q
  if s.boot.stopped then none
  else if s.boot.ready ∨ s.boot.safe then
    match cs with
    | [] => none
    | c :: _ => if mayBegin s c then some c else none
  else if Phase.c ∈ s.boot.done then
    match cs.find? fun c => beginsEarly c.opc with
    | none => none
    | some c => if mayBegin s c then some c else none
  else none

/-- Take a command out of its queue (12 R285: it no longer counts against check 9). -/
def dequeue (s : State) (q : Nat) (c : Cmd) : State :=
  modCs s fun x => { x with queues := tset x.queues q ((tget [] x.queues q).filter fun d => decide (d ≠ c)) }

/-- Routed layers that the partition's models name, for BALANCE with every layer. -/
def layersOf (x : Part) : List Nat := dedup (x.models.flatMap fun m => m.2.layers.map fun l => l.layer)

/-- Settings that a command writes; those of the inner command for a MIRROR_CMD (13 R298). -/
def settingsOf (s : State) (c : Cmd) : List (Nat × Nat × Nat) :=
  settings (if c.opc = 0x0702 then innerCmd c else c) (layersOf (part s c.part))

/-- The latest waiting command of the same count that writes a setting (12 R293). Whether a later one that is itself rejected for
a reserved value still supersedes an earlier one the spec leaves open (00 R8): here it does (log entry 57, DESIGN CHOICE). -/
def winner (s : State) (c : Cmd) (k : Nat × Nat × Nat) : Option Cmd :=
  ((tget [] s.cs.queues (queueOf c.part)).filter fun d =>
    decide (d.acount = c.acount) && decide (k ∈ settingsOf s d)).getLast?

/-- ORDER of the command that supersedes `c`, when `c` loses every setting it names (12 R293). -/
def superseded (s : State) (c : Cmd) : Option Nat :=
  let ks := settingsOf s c
  match ks with
  | [] => none
  | k :: _ => if ks.all fun k => (winner s c k).isSome then (winner s c k).map fun d => d.order else none

/-- The partition is judged a mirror for a command (12 R296: by acceptance count after a takeover). -/
def judgedMirror (s : State) (c : Cmd) : Bool :=
  isMirror s c.part || (decide (c.part < 16) && decide (c.acount < (part s c.part).takeover))

/-- A drawer's summary or tail, or a grain, has its home in tier 1 or 2. -/
def grainLow (s : State) (g : Nat) : Bool := decide ((ht s g).v = true ∧ (ht s g).htier ≠ 0)

/-- Drawer entry of drawer id `d` of partition `p` (11 R264). -/
def drawerIdx (s : State) (p d : Nat) : Nat := (part s p).entry.dbase + d

/-- Grains of the summary that a reader with visibility `v` sees. -/
def visSummary (d : Drawer) (v : Nat) : List Nat := grainsOf (visSbase d v) (visSlen d v)

/-- The command needs tier 1 or tier 2 (12 Table 10, level 2; log entry 17, DEDUCED). -/
def needsLower (s : State) (c : Cmd) : Bool :=
  let d := drawer s (drawerIdx s c.part (pf c 0 4))
  let x := part s c.part
  if c.opc = 0x0501 ∨ c.opc = 0x0502 then
    decide (pf c 4 1 ≠ 0) || (decide (c.opc = 0x0502) && grainLow s (pf c 0 4))
  else if c.opc = 0x0403 ∨ c.opc = 0x0405 then decide (pf c 4 1 ≠ 0) || (visSummary d (visStep x true)).any (grainLow s)
  else if c.opc = 0x0402 then (visSummary d (visStep x true)).any (grainLow s)
  else if c.opc = 0x0407 then
    (if pf c 4 1 = 0 then visSummary d (visStep x false) else grainsOf d.tbase (visTlen d (visStep x false))).any (grainLow s)
  else if c.opc = 0x0505 ∨ c.opc = 0x0506 then
    ((x.grants.filter fun g => decide (g.gid = pf c 0 1)).getLast?).any fun g => decide (g.tier ≠ 0)
  else if c.opc = 0x0206 then decide (gTierOf (pf c 0 8) ≠ 0) || decide (gTierOf (pf c 8 8) ≠ 0)
  else if c.opc = 0x0201 then decide (gTierOf (pf c 0x20 8) ≠ 0)
  else false

/-- What ends a command when its interpreter begins it, before its own checks: safe state (16 R379), supersession
(12 R293; that of a MIRROR_CMD's inner command is judged with it), its deadline (R286), the partition's role (R296), a safety
hold (R295). -/
def gate (s : State) (c : Cmd) : Option (Nat × Nat) :=
  if s.boot.safe then
    if c.opc ∈ [1, 3, 0x0605] ∧ (c.port = 1 ∨ c.port = 2) then none else some (0x6003, 3)
  else
    match if c.opc = 0x0702 then none else superseded s c with
    | some o => some (0x3004, o)
    | none =>
      if c.opc ≠ 0x0301 ∧ isLate c (count s) then some (0x3002, 0)
      else if c.opc = 0x0702 ∧ !judgedMirror s c then some (0x1203, 0)
      else if c.opc ∉ [0x0106, 0x0304, 3, 0x0702] ∧ c.part < 16 ∧ judgedMirror s c then some (0x1203, 0)
      else if 1 ≤ holdLevel s ∧ c.opc ∈ [0x0301, 0x0202, 0x0504] then some (0x6003, holdLevel s)
      else if 2 ≤ holdLevel s ∧ needsLower s c then some (0x6003, holdLevel s)
      else none

/-- The interpreter begins a command: it leaves its queue and either ends at a gate or is interpreted. -/
def beginCmd (q : Nat) (c : Cmd) (f : Cmd → State → State) (s : State) : State :=
  let s := dequeue s q c
  match gate s c with
  | some (status, detail) => refuse s c status detail
  | none => f c (run s c)

/-- A queue row: it takes the command of queue `q` that begins next when that command is the row's. -/
def takeCmd (q : Nat) (mine : Cmd → Bool) (f : Cmd → State → State) (s : State) : State :=
  match front q s with
  | none => s
  | some c => if mine c then beginCmd q c f s else s

/-- The row takes one opcode. -/
def opcode (n : Nat) (c : Cmd) : Bool := decide (c.opc = n)

end Sys2Proof.Machine
end

