-- ==== Sys2Proof/Machine/Requests.lean ====
section
/-! DEFINITION. Requests, budgets, drawers and regions as data (11): visibility, budget arithmetic, the bytes of entries,
the end of a request (11 R261) and of the need of a failed transfer (09 R216).
Readings of the spec: log entry 58. -/

namespace Sys2Proof.Machine

/-! ### Pending fields (11 R274) -/

/-- The drawer with step `k`'s pending fields written: a fold first when other pending fields stand (11 R274). -/
def pendDrawer (d : Drawer) (k sbase slen tlen : Nat) (check : W32) : Drawer :=
  let d :=
    if d.pStep ≠ 0 ∧ d.pStep ≠ k then { d with sbase := d.pSbase, slen := d.pSlen, tlen := d.pTlen, check := d.pCheck }
    else d
  { d with pSbase := sbase, pSlen := slen, pTlen := tlen, pCheck := check, pStep := k }

/-- The region with step `k`'s pending length written. -/
def pendRegion (r : Region) (k len : Nat) : Region :=
  let r := if r.pStep ≠ 0 ∧ r.pStep ≠ k then { r with len := r.pLen } else r
  { r with pLen := len, pStep := k }

/-! ### Bytes of entries -/

/-- A drawer entry (11 Table 5). -/
def drawerBytes (d : Drawer) : List Byte :=
  leBytes 1 d.state ++ leBytes 1 (if d.held then 1 else 0) ++ leBytes 1 d.tenant ++ zeros 1 ++ leBytes 4 d.size ++
    leBytes 4 d.sbase ++ leBytes 4 d.slen ++ leBytes 4 d.tlen ++ leBytes 4 d.check.toNat ++ leBytes 4 d.tbase ++
    leBytes 4 d.tcap ++ leBytes 4 d.pSbase ++ leBytes 4 d.pSlen ++ leBytes 4 d.pTlen ++ leBytes 4 d.pCheck.toNat ++
    leBytes 8 d.pStep ++ zeros 8

def parseDrawer (bs : List Byte) : Drawer :=
  { state := fld bs 0 1, held := decide (fld bs 1 1 % 2 = 1), tenant := fld bs 2 1, size := fld bs 4 4,
    sbase := fld bs 8 4, slen := fld bs 12 4, tlen := fld bs 16 4, check := BitVec.ofNat 32 (fld bs 20 4),
    tbase := fld bs 24 4, tcap := fld bs 28 4, pSbase := fld bs 32 4, pSlen := fld bs 36 4, pTlen := fld bs 40 4,
    pCheck := BitVec.ofNat 32 (fld bs 44 4), pStep := fld bs 48 8 }

/-- A region entry (11 Table 7). -/
def regionBytes (r : Region) : List Byte :=
  leBytes 1 r.state ++ leBytes 1 r.kind ++ leBytes 2 r.owner ++ leBytes 4 r.base ++ leBytes 4 r.cap ++ leBytes 4 r.len ++
    leBytes 4 r.pLen ++ zeros 4 ++ leBytes 8 r.pStep

def parseRegion (bs : List Byte) : Region :=
  { state := fld bs 0 1, kind := fld bs 1 1, owner := fld bs 2 2, base := fld bs 4 4, cap := fld bs 8 4,
    len := fld bs 12 4, pLen := fld bs 16 4, pStep := fld bs 24 8 }

/-- Two's complement of a signed 64-bit value. -/
def int64 (x : Int) : Nat := (x % (2 ^ 64 : Int)).toNat

/-- A budget entry (11 Table 3). -/
def budgetBytes (b : Budget) : List Byte :=
  leBytes 8 (int64 b.bal) ++ leBytes 8 b.res ++ leBytes 8 b.used ++ leBytes 1 b.inW ++ leBytes 1 b.outW ++
    leBytes 1 (if b.wset then 1 else 0) ++ zeros 5

def parseBudget (bs : List Byte) : Budget :=
  { bal := sgn 64 (fld bs 0 8), res := fld bs 8 8, used := fld bs 16 8, inW := fld bs 24 1, outW := fld bs 25 1,
    wset := decide (fld bs 26 1 % 2 = 1) }

/-- The commit record (11 Table 8). -/
def crecBytes (p : Nat) (r : CommitRec) : List Byte :=
  let bs := leBytes 1 1 ++ leBytes 1 (p + if r.pair then 128 else 0) ++ leBytes 2 r.gen ++ leBytes 4 r.round ++
    leBytes 8 r.cstep ++ leBytes 8 r.ccount ++ leBytes 8 r.pstep ++ leBytes 8 r.pcount ++ leBytes 4 r.nmem ++
    leBytes 4 r.nend ++ leBytes 4 r.nobj ++ zeros 8
  bs ++ leBytes 4 (crc32c bs)

/-! ### Budgets (11 R258 to R260) -/

def budget (x : Part) (t : Nat) : Budget := tget Budget.zero x.budgets t

def setBudget (s : State) (p t : Nat) (b : Budget) : State :=
  modPart s p fun x => { x with budgets := tset x.budgets t b }

/-- BAL saturates (11 R260). -/
def satBal (v : Int) : Int := if v < -(2 ^ 63 : Int) then -(2 ^ 63) else if (2 ^ 63 : Int) ≤ v then 2 ^ 63 - 1 else v

/-- A charge: off BAL and RES, onto USED (11 R259). -/
def chargeBudget (b : Budget) (c : Nat) : Budget :=
  { b with bal := satBal (b.bal - c), res := b.res - c, used := sat64 (b.used + c) }

/-- Send the twin an entry of a paired partition: 0 drawer (HELD as 0), 2 budget (RES as 0) (16 R399). -/
def sendEntry (s : State) (p table index : Nat) (bs : List Byte) : State :=
  if mirrored s p then
    sendPair s 5 p ((part s p).step.map (fun k => k.id) |>.getD (part s p).crec.cstep) 0 0 [.entry table index bs]
  else s

/-! ### The end of a request (11 R261) -/

/-- Routed layers under which the request was admitted (12 R288). -/
def routedLayers (x : Part) : Nat :=
  match x.active with
  | none => 0
  | some m => match tfind x.models m with
    | none => 0
    | some m => m.layers.length

/-- A REQUEST's reply body (12 Table 5). -/
def reqBody (x : Part) (r : Req) : List Byte :=
  let nl := if r.skipb then routedLayers x else 0
  leBytes 4 r.toks.length ++ leBytes 4 r.npos ++ leBytes 8 r.first ++ leBytes 8 r.lastStep ++ leBytes 2 nl ++ zeros 6 ++
    r.toks.flatMap (leBytes 4) ++ r.skips

/-- Send a REQUEST's final reply, or keep it until the twin has confirmed the step `k` that ends the request and the last step
it reports (01 R16, 11 R277, 16 R400). -/
def reqReply (s : State) (p : Nat) (r : Req) (status detail k : Nat) : State :=
  let x := part s p
  let b := mkReply r.cmd (rflags s false false) status r.lastCount detail (reqBody x r)
  let s := unrun s r.cmd
  let k := max k r.lastStep
  if x.paired && decide (x.vstep < k) then
    modPart s p fun x => { x with waitReplies := x.waitReplies ++ [(k, r.cmd.port, b)] }
  else send s r.cmd.port (.reply b)

def findReq (x : Part) (i : Nat) : Option Req := x.reqs.find? fun r => decide (r.index = i)

def modReq (s : State) (p i : Nat) (f : Req → Req) : State :=
  modPart s p fun x => { x with reqs := x.reqs.map fun r => if r.index = i then f r else r }

/-- The adapter copies of tenants of which no admitted request that applies them remains are given up (10 R246). -/
def dropAdapters (x : Part) : Part :=
  { x with adapters := x.adapters.filter fun a => x.reqs.any fun r => r.adpt && decide (r.tenant = a.tenant) }

/-- Transfers of a partition's work that has ended: those not issued are dropped, those in flight are left to finish (10 R235);
the response to one on another chip finds no transfer (14 Table 11). -/
def discardTransfers (s : State) (mine : Purpose → Bool) : State :=
  modTiers s fun m =>
    { m with
      transfers := m.transfers.filterMap fun x =>
        if !mine x.purpose then some x
        else
          match x.purpose with
          | .outward .. => none
          | _ => if x.issued.isSome then some { x with purpose := .discard, need := .none } else none }

/-- Stages of adapters of which the partition keeps no copy are given up. -/
def strayStage (x : Part) (p : Nat) (w : Purpose) : Bool :=
  match w with
  | .adapterRead q t _ | .adapter q t => decide (q = p) && !(x.adapters.any fun a => decide (a.tenant = t))
  | _ => false

/-- A CANCEL that names a request (01 R13). -/
def cancels (r : Req) (c : Cmd) : Bool := decide (c.opc = 0x0302 ∧ pf c 0 1 = r.cmd.port ∧ pf c 4 4 = r.cmd.seq)

/-- CANCELs of a request, still queued, that were accepted earlier than a count: acceptance decides, not the moment at which
the SF begins the CANCEL (01 R13). -/
def queuedCancels (s : State) (p : Nat) (r : Req) (before : Nat) : List Cmd :=
  (tget [] s.cs.queues p).filter fun c => cancels r c && decide (c.acount < before)

/-- Transfers need a request that has ended no more. -/
def dropNeed (s : State) (p i : Nat) : State :=
  modTiers s fun m =>
    { m with transfers := m.transfers.map fun x => if x.part = p ∧ x.need = .request i then { x with need := .none } else x }

/-- Admitted request `i` of partition `p` ends, in step `k` where a step's publish ends it (11 R261): HELD is cleared, the KV
region freed, what is left of the reservation released, a CANCEL that waited for it ends, one still queued will (01 R13), and
its reply is made. -/
def reqEndIn (s : State) (p i status detail k : Nat) : State :=
  match findReq (part s p) i with
  | none => s
  | some r =>
    let s := modPart s p fun x => dropAdapters { x with reqs := x.reqs.filter fun q => decide (q.index ≠ i) }
    let s := dropNeed (discardTransfers s (strayStage (part s p) p)) p i
    let s := match r.drawer with
      | none => s
      | some d => setDrawer s d { drawer s d with held := false }
    let s := match r.region with
      | none => s
      | some k =>
        let e := region s p k
        releaseGrains (setRegion s p k Region.zero) p (grainsOf e.base e.cap)
    let b := budget (part s p) r.tenant
    let left := r.inW * r.i + r.outW * r.g - r.charged
    let s := setBudget s p r.tenant { b with res := b.res - left }
    let s := r.cancel.foldl (fun s c => finish s c 0 0 []) s
    let late := queuedCancels s p r (count s)
    let s := modPart s p fun x => { x with cancelDone := x.cancelDone ++ late.map fun c => (c, count s) }
    reqReply s p r status detail k

/-- Admitted request `i` ends between publishes. -/
def reqEnd (s : State) (p i status detail : Nat) : State := reqEndIn s p i status detail 0

/-- End every listed request with one status. -/
def endReqs (s : State) (p : Nat) (is : List Nat) (status detail : Nat) : State :=
  is.foldl (fun s i => reqEnd s p i status detail) s

/-! ### Ending a need (09 R213, R216) -/

/-- The member that holds a slot of the running step. -/
def memberOfSlot (k : Step) (slot : Nat) : Option Nat :=
  (k.members.find? fun m => decide (m.slot ≤ slot ∧ slot < m.slot + m.n)).map fun m => m.index

/-- Mark members of the running step as ended, the first status standing. -/
def markEnded (s : State) (p : Nat) (sel : Member → Bool) (status detail : Nat) : State :=
  modPart s p fun x =>
    match x.step with
    | none => x
    | some k =>
      let mark (m : Member) : Member :=
        if sel m = true ∧ m.ended = none then { m with ended := some (status, detail) } else m
      { x with step := some { k with members := k.members.map mark } }

/-- Slots routed to an expert of a layer in the running step. -/
def slotsRouted (k : Step) (layer expert : Nat) : List Nat :=
  ((k.dispatches.filter fun d => decide (d.layer = layer ∧ d.expert = expert)).flatMap fun d => d.slots) ++
    (k.picks.filter fun e => decide (e.1 / 4096 = layer) &&
      (decide (e.2.e1 = expert ∧ e.2.d1 = false) || decide (e.2.e2 = expert ∧ e.2.d2 = false))).map fun e => e.1 % 4096

def holdsSlot (m : Member) (slots : List Nat) : Bool := slots.any fun t => decide (m.slot ≤ t ∧ t < m.slot + m.n)

/-- Requests with a position routed to an expert whose transfer has failed in the step end, whenever the position was routed
(09 R213, R216). -/
def applyFailed (s : State) (p : Nat) : State :=
  match (part s p).step with
  | none => s
  | some k =>
    k.failed.foldl (fun s (l, e, st, d) => markEnded s p (fun m => holdsSlot m (slotsRouted k l e)) st d) s

/-- A model switch ends with a status before its first fill has completed (log entry 22, DEDUCED): its program is dropped and the
partition has no active model. -/
def switchFail (s : State) (p status detail : Nat) : State :=
  match (part s p).switching with
  | none => s
  | some w =>
    let s := modPart s p fun x =>
      { x with
        switching := none, active := none, filling := false
        stream := { x.stream with prog := [], next := 0, early := [], active := [], cond := 0, mask := 0, markAt := none } }
    finish s w.cmd status detail []

/-- A transfer of partition `p` failed or is late: exactly the requests in its need end (09 R216), or the close whose
compression needed it (11 R269). A request that is no member of the running step (an adapter stage at admission) ends at
once. -/
def endNeed (s : State) (p : Nat) (need : Need) (status detail : Nat) : State :=
  match need with
  | .none => s
  | .close d =>
    let upd (o : DrawerOp) : DrawerOp :=
      if o.kind = 3 ∧ o.phase = 3 ∧ o.drawer = d ∧ o.status = 0 then { o with status := status, detail := detail } else o
    modPart s p fun x => { x with ops := x.ops.map upd }
  | .later n l w => modPart s p fun x => { x with doomed := x.doomed ++ [(n, l, w, status, detail)] }
  | .step =>
    match (part s p).step with
    | none => switchFail s p status detail
    | some _ => markEnded s p (fun _ => true) status detail
  | .expert l e =>
    match (part s p).step with
    | none => s
    | some _ =>
      applyFailed (modPart s p fun x =>
        { x with step := x.step.map fun k => { k with failed := k.failed ++ [(l, e, status, detail)] } }) p
  | .request i =>
    match (part s p).step with
    | none => reqEnd s p i status detail
    | some k =>
      if k.members.any (fun m => decide (m.index = i)) then markEnded s p (fun m => decide (m.index = i)) status detail
      else reqEnd s p i status detail

end Sys2Proof.Machine
end

