-- ==== Sys2Proof/Machine/Transfers.lean ====
section
/-! DEFINITION. Transfers of the stream engines (09 R213 to R216, 10 R224 to R238): how they become pending, which one an
engine grants, and what comes of their completion.
Readings of the spec: log entries 61, 62. -/

namespace Sys2Proof.Machine

/-! ### Stream descriptors (10 Table 5) -/

/-- Field of `n` bytes at offset `o` of a descriptor. -/
def dfld (d : BitVec 256) (o n : Nat) : Nat := bfld d (8 * o) (8 * n)

def dKind (d : BitVec 256) : Nat := dfld d 0 1
def dDest (d : BitVec 256) : Nat := dfld d 6 2
def dSrc (d : BitVec 256) : Nat := dfld d 8 8
def dDst (d : BitVec 256) : Nat := dfld d 16 8
def dWpf (d : BitVec 256) : Nat := dfld d 16 2
def dFpg (d : BitVec 256) : Nat := dfld d 18 2
def dGroups (d : BitVec 256) : Nat := dfld d 20 2
def dStride (d : BitVec 256) : Nat := dfld d 22 2
def dLen (d : BitVec 256) : Nat := dfld d 24 4
def dCpw (d : BitVec 256) : Nat := dfld d 24 2
def dDue (d : BitVec 256) : Int := sgn 32 (dfld d 28 4)

/-- Queue that DEST names: block, tile, slot. -/
def destBlock (x : Nat) : Nat := nfld x 9 7
def destSlot (x : Nat) : Nat := nfld x 6 3
def destTile (x : Nat) : Nat := tileIn (destBlock x) (nfld x 0 6)

/-- Need that NEED, LAYER and WHO name in the running step (10 Table 4): an expert, or a request by its slot in the step. -/
def stepNeed (s : State) (p n layer who : Nat) : Need :=
  if n = 1 then .expert layer (nfld who 0 10)
  else if n = 2 then
    match (part s p).step.bind fun k => memberOfSlot k (nfld who 0 12) with
    | some i => .request i
    | none => .step
  else .step

/-! ### The list of descriptors -/

/-- Descriptors of the first program in the list: through its END. -/
def ownDescs (m : Stream) : Nat :=
  ((m.prog.findIdx? fun d => decide (dKind d = 6)).map fun i => i + 1).getD m.prog.length

/-- The END of the first program has been taken. -/
def endTaken (m : Stream) : Bool := (m.prog.take m.next).any fun d => decide (dKind d = 6)

/-- Step that the descriptor numbered `i` belongs to: the running step, one that is to come, or 0 for one that has ended. -/
def descStep (x : Part) (i : Nat) : Nat :=
  if i < ownDescs x.stream then
    match x.step with
    | some k => k.id
    | none => if endTaken x.stream then 0 else x.nextStep
  else if x.step.isSome || endTaken x.stream then x.nextStep
  else x.nextStep + 1

/-- The descriptor has been taken. -/
def descTaken (m : Stream) (i : Nat) : Bool := decide (i < m.next) || decide (i ∈ m.early)

/-- The descriptor belongs to a step that has not begun, and no switch runs it. -/
def ofNextStep (x : Part) (i : Nat) : Bool :=
  decide (descStep x i ≠ x.step.elim 0 fun k => k.id) && (x.step.isSome || x.switching.isNone)

/-- Need of a descriptor's transfers. -/
def dNeedOf (s : State) (p idx : Nat) (d : BitVec 256) : Need :=
  let n := nfld (dfld d 1 1) 0 2
  if ofNextStep (part s p) idx then .later n (dfld d 2 2) (dfld d 4 2) else stepNeed s p n (dfld d 2 2) (dfld d 4 2)

/-- Frames of a FEED and the address of frame `j` (10 R227). -/
def feedFrames (d : BitVec 256) : Nat := dGroups d * dFpg d
def feedAddr (d : BitVec 256) (j : Nat) : Nat :=
  dSrc d + 64 * dWpf d * (dStride d * (j / dFpg d) + j % dFpg d)

/-! ### Pending transfers -/

/-- Pieces of a run of bytes within 4 KiB-aligned units: offset and length (10 R224). -/
def unitPieces (o len : Nat) : List (Nat × Nat) :=
  if len = 0 then []
  else
    (List.range ((o + len - 1) / 4096 - o / 4096 + 1)).map fun i =>
      let u := o / 4096 + i
      let a := max o (4096 * u)
      (a, min (o + len) (4096 * (u + 1)) - a)

/-- A transfer not yet issued. -/
def mkTransfer (p tier : Nat) (write : Bool) (addr len : Nat) (window : Bool) (data : List Byte) (need : Need)
    (w : Purpose) : Transfer :=
  { id := 0, tier := tier, part := p, write := write, addr := addr, len := len, window := window, data := data,
    need := need, purpose := w, issued := none, reserved := false, frame := 0 }

/-- A transfer becomes pending. -/
def pend (s : State) (x : Transfer) : State :=
  modTiers s fun m => { m with transfers := m.transfers ++ [{ x with id := m.nextId }], nextId := m.nextId + 1 }

/-- Reads of a run by tier offset become pending, one for each 4 KiB unit. -/
def pendReads (s : State) (p tier o len : Nat) (need : Need) (w : Purpose) : State :=
  (unitPieces o len).foldl (fun s (a, n) => pend s (mkTransfer p tier false a n false [] need w)) s

/-- Writes of a run by tier offset become pending. -/
def pendWrites (s : State) (p tier o : Nat) (bs : List Byte) (need : Need) (w : Purpose) : State :=
  (unitPieces o bs.length).foldl
    (fun s (a, n) => pend s (mkTransfer p tier true a n false (sub bs (a - o) n) need w)) s

def findTransfer (s : State) (id : Nat) : Option Transfer := s.tiers.transfers.find? fun x => decide (x.id = id)

def dropTransfer (s : State) (id : Nat) : State :=
  modTiers s fun m => { m with transfers := m.transfers.filter fun x => decide (x.id ≠ id) }

def modTransfer (s : State) (id : Nat) (f : Transfer → Transfer) : State :=
  modTiers s fun m => { m with transfers := m.transfers.map fun x => if x.id = id then f x else x }

/-- Engine of a transfer: through the window, the tier of the grain's present home. -/
def curTier (s : State) (x : Transfer) : Nat := if x.window then (ht s (winGrain x.addr)).htier else x.tier

/-! ### Descriptors in progress -/

def findActive (s : State) (p idx : Nat) : Option Active :=
  (part s p).stream.active.find? fun a => decide (a.idx = idx)

def modStream (s : State) (p : Nat) (f : Stream → Stream) : State := modPart s p fun x => { x with stream := f x.stream }

def modActive (s : State) (p idx : Nat) (f : Active → Active) : State :=
  modStream s p fun m => { m with active := m.active.map fun a => if a.idx = idx then f a else a }

def dropActive (s : State) (p idx : Nat) : State :=
  modStream s p fun m => { m with active := m.active.filter fun a => decide (a.idx ≠ idx) }

/-- Whether a run of bytes and a range of bytes share a 4 KiB unit. -/
def unitMeet (a n b m : Nat) : Bool :=
  decide (0 < n ∧ 0 < m ∧ a / 4096 ≤ (b + m - 1) / 4096 ∧ b / 4096 ≤ (a + n - 1) / 4096)

/-- An earlier STAGE has still to write a unit of the run (10 R228). -/
def stageBefore (s : State) (p idx o n : Nat) : Bool :=
  (part s p).stream.active.any fun a =>
    decide (a.idx < idx ∧ dKind a.desc = 2) && unitMeet o n (gOff (dDst a.desc) + a.done) (dLen a.desc - a.done)

/-- A FEED reads a unit of the run. -/
def feedReads (o n : Nat) (d : BitVec 256) : Bool :=
  decide (dKind d = 1) && (List.range (feedFrames d)).any fun j => unitMeet o n (gOff (feedAddr d j)) (64 * dWpf d)

/-- An earlier FEED that reads a unit of the run has not completed (10 R228); one that has not been taken is one of the next
step's program, which a STAGE has passed (R232). -/
def feedBefore (s : State) (p idx o n : Nat) : Bool :=
  let m := (part s p).stream
  (m.active.any fun a => decide (a.idx < idx) && feedReads o n a.desc) ||
    ((m.prog.take idx).drop m.next).any (feedReads o n)

/-- Make the next frame of a FEED pending, when the words of the one before have gone to the port (10 R232). A FEED whose
frame waits for a STAGE is an underrun (R236). -/
def nextFrame (s : State) (p idx : Nat) : State :=
  match findActive s p idx with
  | none => s
  | some a =>
    let o := gOff (feedAddr a.desc a.issued)
    let n := 64 * dWpf a.desc
    let wait := stageBefore s p idx o n && !a.waited
    let s := modActive s p idx fun a =>
      { a with issued := a.issued + 1, left := (unitPieces o n).length, got := [], waited := a.waited || wait }
    let s := if wait then modStream s p fun m => { m with underruns := m.underruns + 1 } else s
    pendReads s p 0 o n (dNeedOf s p idx a.desc) (.feed p idx)

/-- Begin to copy the next piece of a STAGE: up to the end of its source's 4 KiB unit. -/
def nextPiece (s : State) (p idx : Nat) : State :=
  match findActive s p idx with
  | none => s
  | some a =>
    let o := gOff (dSrc a.desc) + a.done
    let n := min (4096 - o % 4096) (dLen a.desc - a.done)
    let s := modActive s p idx fun a => { a with issued := a.done + n, left := 1 }
    pendReads s p (gTierOf (dSrc a.desc)) o n (dNeedOf s p idx a.desc) (.stageRead p idx (gOff (dDst a.desc) + a.done))

/-! ### The grant (10 R224, R237, R238) -/

/-- A write held at the HT gate is in no engine. -/
def atGate (s : State) (id : Nat) : Bool := s.tiers.gate.any fun h => decide (h.transfer = some id)

/-- Live tiles of a partition: those of its usable blocks. -/
def liveTiles (s : State) (p : Nat) : Nat :=
  64 * ((blocksOf (part s p)).filter fun b => decide (tget 0 s.tele.blockSt b ≠ 2)).length

/-- P of Table 6. -/
def progress (s : State) (p : Nat) : Nat :=
  match (part s p).step with
  | none => 0
  | some k => k.tbeats / max 1 (liveTiles s p)

/-- Words of a FEED issued to the tier and not yet accepted by the port. -/
def wordsInFlight (s : State) (p idx : Nat) (a : Active) : Nat :=
  ((s.tiers.transfers.filter fun x => x.issued.isSome && decide (x.purpose = .feed p idx)).map fun x => x.len / 64).sum +
    (a.got.map fun e => e.2.length).sum + a.words.length

/-- Margin of a pending transfer (Table 6); none stands for the largest possible. Reads of configuration images and stages of
adapters, which Table 6 does not list, have margin 0 (log entry 61, DESIGN CHOICE). -/
def margin (s : State) (x : Transfer) : Option Int :=
  match x.purpose with
  | .feed p i =>
    match findActive s p i with
    | none => none
    | some a => some (wordsInFlight s p i a * dCpw a.desc : Nat)
  | .stageRead p i _ | .stageWrite p i _ =>
    match findActive s p i with
    | none => none
    | some a => some (dDue a.desc - progress s p)
  | .txf .. | .remote _ | .adapter .. | .adapterRead .. | .config _ | .drawer _ => some 0
  | .load .. | .outward .. | .discard => none

/-- The home table unit that keeps a grain's entry is being copied: translations of it wait (09 R200, R201). -/
def htCopying (s : State) (g : Nat) : Bool :=
  (s.tiers.slots.any fun e => decide (e.1 < 256) && !e.2.copying.isEmpty) &&
    (slot s 0 (htPlace s g).1).copying.any fun e => decide (e.1 = (htPlace s g).2)

/-- Work outside the partition's steps (13 R314). -/
def outsideSteps (w : Purpose) : Bool :=
  match w with
  | .load .. | .remote _ | .adapter .. | .adapterRead .. | .drawer _ => true
  | _ => false

/-- What a transfer waits for before it may be issued: the interlocks of R228, the first fill (R234), a page retirement
copy (09 R200). -/
def mayIssue (s : State) (x : Transfer) : Bool :=
  (match x.purpose with
    | .feed p i => !stageBefore s p i x.addr x.len && !(part s p).filling && (part s p).step.isSome
    | .stageWrite p i _ => !feedBefore s p i x.addr x.len
    | _ => true) &&
    (outsideSteps x.purpose || !halted (part s x.part)) && !(x.window && htCopying s (winGrain x.addr)) &&
    !unitCopying s (curTier s x)
      (if x.window then homeOff s (winGrain x.addr) (winOff x.addr) else x.addr) x.len

/-- Outstanding transfers of an engine. -/
def outstanding (s : State) (t : Nat) : List Transfer :=
  s.tiers.transfers.filter fun x => x.issued.isSome && decide (x.tier = t) && !atGate s x.id

def openGrants (s : State) (p : Nat) : Nat := ((part s p).grants.filter fun g => g.opened).length

/-- Grant whose reserved entry a transfer may use. -/
def grantOf (x : Transfer) : Option Nat :=
  match x.purpose with
  | .load _ g _ => some g
  | _ => none

/-- A reserved entry of the transfer's partition or load grant is free (R224). -/
def reservedFree (s : State) (t : Nat) (x : Transfer) : Bool :=
  let used := (outstanding s t).filter fun y => y.reserved && decide (y.part = x.part)
  !(part s x.part).models.isEmpty &&
    (match grantOf x with
      | some g => decide ((used.filter fun y => decide (grantOf y = some g)).length < 1) &&
          (part s x.part).grants.any fun r => r.opened && decide (r.id = g)
      | none => decide ((used.filter fun y => (grantOf y).isNone).length < 16 - openGrants s x.part))

/-- A shared entry is free. -/
def sharedFree (s : State) (t : Nat) : Bool :=
  let holders := ((List.range 16).filter fun p => !(part s p).models.isEmpty).length
  decide (((outstanding s t).filter fun y => !y.reserved).length + 16 * holders < 768)

/-- Pending transfers of an engine that could be issued. -/
def pendingOf (s : State) (t : Nat) : List Transfer :=
  s.tiers.transfers.filter fun x =>
    x.issued.isNone && decide (curTier s x = t) && mayIssue s x

/-- Order of Table 6 and R238. -/
def sooner (s : State) (x y : Transfer) : Bool :=
  match margin s x, margin s y with
  | some a, some b => decide (a < b ∨ (a = b ∧ x.part < y.part))
  | some _, none => true
  | none, some _ => false
  | none, none => decide (x.part < y.part)

/-- An entry of an engine (R224): a shared one, one of the 16 reserved for a partition, or the one of a load grant. -/
def entryTakes (s : State) (t : Nat) (entry : Option (Nat × Option Nat)) (x : Transfer) : Bool :=
  match entry with
  | none => sharedFree s t
  | some (p, g) => decide (x.part = p) && decide (grantOf x = g) && reservedFree s t x

/-- The transfer that an engine grants a free entry to: of those that the entry may go to, the one of smallest margin. -/
def chosen (s : State) (t : Nat) (entry : Option (Nat × Option Nat)) : Option Transfer :=
  ((pendingOf s t).filter (entryTakes s t entry)).foldl (fun b x => match b with
    | none => some x
    | some y => if sooner s x y then some x else some y) none

/-! ### Completion -/

/-- `n` free bytes: what stands where a read failed and the spec gives no content (log entry 14, DESIGN CHOICE). -/
def freeBytes (s : State) (n : Nat) : List Byte × State :=
  ((List.range n).map fun i => Config.freeByte (s.draw + i), { s with draw := s.draw + n })

/-- Bytes as words of 32 bits. -/
def wordsOf : Nat → List Byte → List W32
  | 0, _ => []
  | n + 1, bs => BitVec.ofNat 32 (leNat (bs.take 4)) :: wordsOf n (bs.drop 4)

/-- Bytes as channel payloads. -/
def linesOf : Nat → List Byte → List Line
  | 0, _ => []
  | n + 1, bs => bytesLine bs :: linesOf n (bs.drop 64)

/-- Word of a VE's operand space: the operand cache, or the buffers in buffer mode (07 R142, R163). -/
def veWord (x : Ve) (a : Nat) : W32 := if x.buffer then tget 0 x.buf a else tget 0 x.cache a

def setVeWord (x : Ve) (a : Nat) (w : W32) : Ve :=
  if x.buffer then { x with buf := tset x.buf (a % 4096) w } else { x with cache := tset x.cache (a % 65536) w }

def setVeWords : Ve → Nat → List W32 → Ve
  | x, _, [] => x
  | x, a, w :: ws => setVeWords (setVeWord x a w) (a + 1) ws

/-- Where a transfer acts: tier and tier offset. A read acts on the frame it was translated to (09 R207). -/
def placeOf (s : State) (x : Transfer) : Nat × Nat :=
  if x.window then
    if x.write then ((ht s (winGrain x.addr)).htier, homeOff s (winGrain x.addr) (winOff x.addr))
    else (x.tier, frameBytes * x.frame + winOff x.addr)
  else (x.tier, x.addr)

/-- Status that the device's own state gives a transfer at its completion: frames that have left the partition's ranges are out of
a load's reach (13 R301). -/
def ownStatus (s : State) (x : Transfer) : Nat :=
  let (t, o) := placeOf s x
  if x.window then
    if x.write && decide ((ht s (winGrain x.addr)).st = 3) then 0x4302 else rawStatus s t o x.len x.write
  else if (grantOf x).isSome && !bytesInRanges (part s x.part) t o x.len true then 0x1204
  else tierAccess s t o x.len x.write

/-- Global address of a transfer's target, for DETAIL (12 Table 9). -/
def globalOf (s : State) (x : Transfer) : Nat :=
  2 ^ 50 * s.fabric.chip + 2 ^ 48 * (if x.window then 3 else x.tier) + x.addr

/-- The TXF numbered `n` of block `b` is done when no transfer of it is left: a failing status is kept for TXWAIT
(07 R149). -/
def txDone (s : State) (b n status : Nat) : State :=
  let more := s.tiers.transfers.any fun x =>
    match x.purpose with
    | .txf b' _ n' | .outward b' _ n' _ => decide (b' = b ∧ n' = n)
    | _ => false
  modVe s b fun x =>
    { x with
      txFail := if x.txFail = 0 then status else x.txFail
      txOut := if more then x.txOut else x.txOut.filter fun m => decide (m ≠ n) }

/-- Result of an atomic on the old value (14 Table 9): the new value, in the width of its operand. -/
def atomicNew (t : Txn) (old : Nat) : Nat :=
  let w := 2 ^ (8 * atomSize t.aop)
  if t.aop = 0 ∨ t.aop = 1 then (old + t.operand.toNat) % w
  else if t.aop = 2 ∨ t.aop = 3 then t.operand.toNat % w
  else if old = t.operand.toNat % w then leNat t.data % w else old

/-- A remote transaction has been served: it is no longer open, and its response is sent (14 R336). -/
def answerTxn (s : State) (t : Txn) (status : Nat) (data : List Byte) : State :=
  let s := modFabric s fun f => { f with remoteOpen := f.remoteOpen.erase t }
  (issueTxn s (response t status data)).2

/-- Send the twin a write of the partition's running step to the mutable window (16 R399). -/
def mirrorWrite (s : State) (p off : Nat) (bs : List Byte) : State :=
  if mirrored s p then sendPair s 4 p ((part s p).step.elim 0 fun k => k.id) 0 0 [.data off bs] else s

/-- Finish a LOAD_DATA command when none of its writes is left. -/
def loadDone (s : State) (cmd : Option Cmd) : State :=
  match cmd with
  | none => s
  | some c =>
    if s.tiers.transfers.any fun x => match x.purpose with | .load _ _ d => decide (d = some c) | _ => false then s
    else finish s c 0 0 []

/-- A piece of a FEED's frame has come, or free bytes in its place: with the last piece the words go to the port. -/
def feedPiece (s : State) (p idx addr : Nat) (bs : List Byte) : State :=
  modActive s p idx fun a =>
    let got := tset a.got addr (linesOf (bs.length / 64) bs)
    if a.left ≤ 1 then { a with left := 0, got := [], words := a.words ++ got.flatMap fun e => e.2 }
    else { a with left := a.left - 1, got := got }

/-- The present piece of a STAGE is written, or has failed: the next one begins, or the descriptor is done. -/
def pieceDone (s : State) (p idx : Nat) : State :=
  match findActive s p idx with
  | none => s
  | some a =>
    if 1 < a.left then modActive s p idx fun a => { a with left := a.left - 1 }
    else if a.issued < dLen a.desc then nextPiece (modActive s p idx fun a => { a with done := a.issued, left := 0 }) p idx
    else dropActive s p idx

/-- Requests of a tenant that wait for its adapter end (R246). -/
def adapterFailed (s : State) (p tenant status detail : Nat) : State :=
  let waiting := (part s p).reqs.filter fun r => r.adpt && decide (r.tenant = tenant ∧ r.adapterReady = none64)
  endReqs s p (waiting.map fun r => r.index) status detail

/-- A piece of a DRAWER_READ has come: with the last one the command is answered; a failure answers it at once, and what is
still in flight is discarded. -/
def drawerPiece (s : State) (c : Cmd) (addr status detail : Nat) (bs : List Byte) : State :=
  let drop (s : State) : State :=
    modTiers s fun m =>
      { m with
        reads := m.reads.filter fun e => decide (e.1 ≠ c)
        transfers := m.transfers.filterMap fun y =>
          if y.purpose = .drawer c then (if y.issued.isSome then some { y with purpose := .discard } else none) else some y }
  match s.tiers.reads.find? fun e => decide (e.1 = c) with
  | none => s
  | some e =>
    if status ≠ 0 then finish (drop s) c status detail []
    else
      let got := tset e.2 addr bs
      if s.tiers.transfers.any fun y => decide (y.purpose = .drawer c) then
        modTiers s fun m => { m with reads := m.reads.map fun e => if e.1 = c then (c, got) else e }
      else finish (drop s) c 0 0 (got.flatMap fun e => e.2)

/-- A read of a configuration image has completed; a failed one leaves nothing to send. -/
def configPiece (s : State) (p status : Nat) : State :=
  modPart s p fun x =>
    { x with inject := if status = 0 then x.inject.map fun i => { i with left := i.left - 1 } else none }

/-- What a transfer that has completed brings about, by its purpose: `status` 0 with the bytes read, or a failure that
ends exactly its need (09 R216). The transfer has left the list. -/
def finishTransfer (s : State) (x : Transfer) (status : Nat) (data : List Byte) : State :=
  let s := if status = 0 then s else endNeed s x.part x.need status (globalOf s x % 2 ^ 32)
  match x.purpose with
  | .feed p i =>
    if status = 0 then feedPiece s p i x.addr data
    else
      let (bs, s) := freeBytes s x.len
      feedPiece s p i x.addr bs
  | .stageRead p i dst =>
    if status = 0 then
      let s := modActive s p i fun a => { a with left := (unitPieces dst x.len).length }
      pendWrites s p 0 dst data x.need (.stageWrite p i dst)
    else pieceDone s p i
  | .stageWrite p i _ => pieceDone s p i
  | .txf b word n =>
    let s := if x.write = false ∧ status = 0 then modVe s b fun v => setVeWords v word (wordsOf (x.len / 4) data) else s
    txDone s b n status
  | .load p gid cmd =>
    let upd (g : Grant) : Grant :=
      if g.id ≠ gid then g
      else if status = 0 then
        if g.fwd = [] then g else { g with toFwd := g.toFwd ++ [(x.addr - frameBytes * g.first, x.data)] }
      else { g with failed := g.failed + 1 }
    let s := modPart s p fun y => { y with grants := y.grants.map upd }
    if status = 0 then loadDone s cmd
    else
      match cmd with
      | none => s
      | some c =>
        let forget (y : Transfer) : Transfer :=
          if y.purpose = .load p gid (some c) then { y with purpose := .load p gid none } else y
        finish (modTiers s fun m => { m with transfers := m.transfers.map forget }) c status (globalOf s x % 2 ^ 32) []
  | .config p => configPiece s p status
  | .adapterRead p tenant dst =>
    if status = 0 then pendWrites s p 0 dst data x.need (.adapter p tenant)
    else adapterFailed s p tenant status (globalOf s x % 2 ^ 32)
  | .adapter p tenant => if status = 0 then s else adapterFailed s p tenant status (globalOf s x % 2 ^ 32)
  | .drawer c => drawerPiece s c x.addr status (globalOf s x % 2 ^ 32) data
  | .remote t =>
    if status ≠ 0 then answerTxn s t status (if t.ttype = 3 then zeros 8 else [])
    else answerTxn s t 0 (if t.ttype = 1 then data else if t.ttype = 3 then pad 8 data else [])
  | .outward b word n _ =>
    let s := if x.write = false ∧ status = 0 then modVe s b fun v => setVeWords v word (wordsOf (x.len / 4) data) else s
    txDone s b n status
  | .discard => s

/-- The write of a transfer to its place; an atomic reads, computes and writes indivisibly (14 R337) and gives the old
value's bytes. -/
def applyWrite (s : State) (x : Transfer) (t o : Nat) : List Byte × State :=
  match x.purpose with
  | .remote q =>
    if q.ttype = 3 then
      let old := readTier s t o (atomSize q.aop)
      (old, writeTier s t o (leBytes (atomSize q.aop) (atomicNew q (leNat old))))
    else ([], writeTier s t o x.data)
  | _ => ([], writeTier s t o x.data)

/-- A transfer completes with the status its tier gives; the device's own state may refuse it. A write that fails leaves
free bytes where it may have landed. -/
def completeTransfer (s : State) (x : Transfer) (status : Nat) : State :=
  let s := dropTransfer s x.id
  let (t, o) := placeOf s x
  let own := if x.purpose = .discard ∧ x.write = false then 0 else ownStatus s x
  let atomicBad := x.write && (match x.purpose with | .remote q => decide (q.ttype = 3) | _ => false) &&
    !(badChunks s t o x.len).isEmpty
  let st := if own ≠ 0 then own else if atomicBad then memStatus t 1 else status
  if st ≠ 0 then
    if x.write = true ∧ own = 0 ∧ atomicBad = false then
      let (bs, s) := freeBytes s x.len
      finishTransfer (writeTier s t o bs) x st []
    else finishTransfer s x st []
  else
    let s := if outsideSteps x.purpose then countTier s x.part t x.write x.len else countStepTier s x.part t x.write x.len
    if x.write then
      let (old, s) := applyWrite s x t o
      let s := match x.purpose with
        | .txf .. => if x.window then mirrorWrite s x.part x.addr x.data else s
        | _ => s
      finishTransfer s x 0 old
    else finishTransfer s x 0 (readTier s t o x.len)

/-! ### The HT gate (09 R208) -/

/-- Writes held for a grain are applied, in the order in which the gate accepted them, to the grain's home; on a lost
grain they are refused (09 Table 10). -/
def releaseGate (s : State) (g : Nat) : State :=
  let held := s.tiers.gate.filter fun h => decide (h.grain = g)
  let s := modTiers s fun m => { m with gate := m.gate.filter fun h => decide (h.grain ≠ g) }
  held.foldl (fun s h =>
    match h.transfer with
    | none => (writeHome s g h.off h.bytes).2
    | some id =>
      match findTransfer s id with
      | none => s
      | some x => completeTransfer s x 0) s

/-- The granted transfer is issued: through the window it is translated now (09 R207), and a write to a grain whose writes
are held waits at the gate. -/
def issueTransfer (s : State) (t : Nat) (x : Transfer) (reserved : Bool) : State :=
  let f := (ht s (winGrain x.addr)).hf
  let s := modTransfer s x.id fun y => { y with issued := some (count s), reserved := reserved, tier := t, frame := f }
  if x.window then
    let st := windowStatus s x.addr false
    if st ≠ 0 then finishTransfer (dropTransfer s x.id) x st []
    else if x.write && gateHolds s (winGrain x.addr) then
      modTiers s fun m =>
        { m with gate := m.gate ++ [{ grain := winGrain x.addr, transfer := some x.id, off := 0, bytes := [] }] }
    else s
  else s

end Sys2Proof.Machine
end

