-- ==== Sys2Proof/Machine/Moves.lean ====
section
/-! DEFINITION. Moves of grains (09 R204 to R209) and the drawer operations that wait for them (11 R267 to R269).
Readings of the spec: log entry 60. -/

namespace Sys2Proof.Machine

/-! ### Accepting a move (09 Table 7) -/

def isOwn : MoveFor → Bool
  | .own => true
  | _ => false

/-- Move grain g to frame f of tier t: status, state. -/
def htMove (s : State) (g t f : Nat) (w : MoveFor) : Nat × State :=
  let e := ht s g
  if !e.v then (0x4301, s)
  else if e.st ≠ 0 then (0x4303, s)
  else if e.mir && !isOwn w then (0x4305, s)
  else if frameSt s t f ≠ .free then (0x4307, s)
  else
    let s := setHt s g { e with st := 1, dtier := t, df := f }
    let s := setFrame s t f .destination
    (0, modTiers s fun m =>
      { m with
        moves := m.moves ++
          [{ grain := g, srcTier := e.htier, srcFrame := e.hf, dstTier := t, dstFrame := f,
             limit := count s + tMove e.htier t, copying := false, switched := false, part := e.part,
             purpose := w }] })

def findMove (s : State) (g : Nat) : Option Move := s.tiers.moves.find? fun m => decide (m.grain = g)

def modMove (s : State) (g : Nat) (f : Move → Move) : State :=
  modTiers s fun m => { m with moves := m.moves.map fun x => if x.grain = g then f x else x }

def dropMove (s : State) (g : Nat) : State :=
  modTiers s fun m => { m with moves := m.moves.filter fun x => decide (x.grain ≠ g) }

/-- DETAIL of a memory status that concerns a grain: low 32 bits of its global address. -/
def grainDetail (g : Nat) : Nat := (winBase + frameBytes * g) % 2 ^ 32

/-! ### Drawer operations that wait for moves -/

def setOp (s : State) (p : Nat) (op : DrawerOp) : State :=
  modPart s p fun x => { x with ops := x.ops.map fun o => if o.drawer = op.drawer ∧ o.cmd = op.cmd then op else o }

def dropOp (s : State) (p : Nat) (op : DrawerOp) : State :=
  modPart s p fun x => { x with ops := x.ops.filter fun o => decide (o.drawer ≠ op.drawer ∨ o.cmd ≠ op.cmd) }

def setDrawerState (s : State) (d st : Nat) : State := setDrawer s d { drawer s d with state := st }

/-- Admitted requests that name a drawer. -/
def reqsOf (s : State) (p d : Nat) : List Nat :=
  ((part s p).reqs.filter fun r => decide (r.drawer = some d)).map fun r => r.index

/-- TBPP of the active model. -/
def activeModel (x : Part) : Option Model := x.active.bind fun m => tfind x.models m

def tbppOf (x : Part) : Nat := (activeModel x).elim 0 fun m => m.tbpp

/-- An open ends with a status: STATE goes back to closed, or to damaged after a check mismatch, and every admitted
request that names the drawer ends likewise (11 R268). -/
def openFail (s : State) (p : Nat) (op : DrawerOp) (status detail : Nat) : State :=
  let s := setDrawerState s op.drawer (if status = 0x5501 then 6 else 1)
  let s := finish (dropOp s p op) op.cmd status detail []
  endReqs s p (reqsOf s p op.drawer) status detail

/-- Last part of an open: the tail is placed, with a capacity the SF chooses within the bounds of 11 R268 (log entry 7, DESIGN CHOICE),
and the drawer is open. -/
def openTail (s : State) (p : Nat) (op : DrawerOp) : State :=
  let d := drawer s op.drawer
  let hi := 64 * d.size - visSlen d (part s p).crec.cstep
  let lo :=
    match (part s p).reqs.find? fun r => decide (r.drawer = some op.drawer) with
    | none => hi
    | some r => (r.i + r.g) * tbppOf (part s p)
  let (n, s) := draw s
  let want := lo + n % (hi - lo + 1)
  let place := match placeRun s p want with
    | some (u, s) => some (u, want, s)
    | none => (placeRun s p lo).map fun (u, s) => (u, lo, s)
  match place with
  | none => openFail s p op 0x2101 0
  | some (u, cap, s) =>
    let s := setDrawer s op.drawer { drawer s op.drawer with state := 3, tbase := u, tcap := cap }
    let s := modPart (dropOp s p op) p fun x =>
      { x with
        opened := tset x.opened op.drawer (count s)
        reqs := x.reqs.map fun r => if r.drawer = some op.drawer then { r with openReady := count s } else r }
    finish s op.cmd 0 0 []

/-- Start the moves of the listed grains that are outside a tier and settled, each to a free frame of the partition that
the SF chooses: 0, or the status that stops it. -/
def startMoves (s : State) (p d tier : Nat) : List Nat → Nat × State
  | [] => (0, s)
  | g :: gs =>
    if (ht s g).htier = tier ∨ (ht s g).st ≠ 0 then startMoves s p d tier gs
    else
      match pick s (freeFrames s p tier) with
      | (none, s) => (0x2101, s)
      | (some f, s) =>
        match htMove s g tier f (.drawer p d) with
        | (0, s) => startMoves s p d tier gs
        | (st, s) => (st, s)

/-- The grain moves on behalf of a drawer operation. -/
def movesFor (s : State) (p d g : Nat) : Bool :=
  match findMove s g with
  | none => false
  | some m => !m.switched && decide (m.purpose = .drawer p d)

/-- A moving operation has no grain left to move. -/
def opMoved (s : State) (p : Nat) (op : DrawerOp) : State :=
  if op.kind = 2 then openTail s p op
  else
    let s := setDrawerState s op.drawer 1
    finishAt (dropOp s p op) op.cmd op.status (if op.lastSwitch = none64 then count s else op.lastSwitch) 0 []

/-- A moving operation meets a status: an open and a move end with it; a close keeps it for its reply and ends with the
moves still running (11 R269). -/
def opFail (s : State) (p : Nat) (op : DrawerOp) (status g : Nat) : State :=
  let detail := if status = 0x2101 then 0 else grainDetail g
  if op.kind = 2 then openFail s p op status detail
  else if op.kind = 5 then finish (dropOp (setDrawerState s op.drawer 1) p op) op.cmd status detail []
  else
    let left := op.grains.filter fun h => decide (h ≠ g) && movesFor s p op.drawer h
    let op := { op with status := if op.status = 0 then status else op.status, grains := left }
    if left = [] then opMoved s p op else setOp s p op

/-- Start what can be started of an operation's moves and end the operation when none is left. -/
def opAdvance (s : State) (p : Nat) (op : DrawerOp) : State :=
  let (st, s) := startMoves s p op.drawer op.tier op.grains
  let left := op.grains.filter fun g => decide ((ht s g).v = true ∧ (ht s g).htier ≠ op.tier)
  let op := { op with grains := left, phase := 1 }
  let s := setOp s p op
  if st ≠ 0 then opFail s p op st (left.headD 0)
  else if left = [] then opMoved s p op else s

/-- Operations that wait for a grain go on: its move has switched or aborted. -/
def opsOn (s : State) (g : Nat) : State :=
  let waiting := s.parts.flatMap fun (p, x) =>
    (x.ops.filter fun o => decide (o.phase = 1) && decide (g ∈ o.grains)).map fun o => (p, o)
  waiting.foldl (fun s (p, o) => if o ∈ (part s p).ops then opAdvance s p o else s) s

/-- Free the grains that waited for operations on them to end. -/
def freeWaiting (s : State) (p : Nat) : State :=
  let gs := (part s p).toFree
  if gs = [] then s else releaseGrains (modPart s p fun x => { x with toFree := [] }) p gs

/-! ### Abort, switch and release (09 Table 8, R206) -/

/-- The move ends without a switch: what it served hears of it. -/
def moveEnded (s : State) (m : Move) (status : Nat) : State :=
  let s := match m.purpose with
    | .command c => finish s c status (grainDetail m.grain) []
    | .own => s
    | .drawer p d =>
      match (part s p).ops.find? fun o => decide (o.drawer = d ∧ o.phase = 1 ∧ m.grain ∈ o.grains) with
      | none => s
      | some op => opFail s p op status m.grain
  freeWaiting (opsOn s m.grain) m.part

/-- A move aborts before its switch (09 R206). -/
def moveAbort (s : State) (g status : Nat) : State :=
  match findMove s g with
  | none => s
  | some m =>
    if m.switched then s
    else
      let s := setHt (dropMove s g) g { ht s g with st := 0, dtier := 0, df := 0 }
      let s := releaseGate (setFrame s m.dstTier m.dstFrame .free) g
      moveEnded (tierEvent s 1 m.dstTier status m.part 0 g 0) m status

/-- A moving grain's entry is lost: the move stops, its frame keeps its state, held writes are refused (09 Table 10). -/
def moveLost (s : State) (g : Nat) : State :=
  match findMove s g with
  | none => releaseGate s g
  | some m =>
    let s := releaseGate (dropMove s g) g
    if m.switched then s else moveEnded s m 0x4302

/-- Abort every move of a partition's grains. -/
def abortMoves (s : State) (p status : Nat) : State :=
  (s.tiers.moves.filter fun m => decide (m.part = p)).foldl (fun s m => moveAbort s m.grain status) s

/-- Status that a copy between the frames of a move meets: a tier or a slot out of service. -/
def copyStatus (s : State) (m : Move) : Nat :=
  let a := rawStatus s m.srcTier (frameBytes * m.srcFrame) frameBytes true
  if a ≠ 0 then a else rawStatus s m.dstTier (frameBytes * m.dstFrame) frameBytes true

/-- A page retirement copy runs in one of the frames of a move: the copy waits (09 Table 10). -/
def copyWaits (s : State) (m : Move) : Bool :=
  unitCopying s m.srcTier (frameBytes * m.srcFrame) frameBytes ||
    unitCopying s m.dstTier (frameBytes * m.dstFrame) frameBytes

/-- Step 2 begins, in one of the 32 move engines; what a copy access meets aborts the move (09 R206, Table 10). -/
def moveCopy (s : State) (m : Move) : State :=
  let st := copyStatus s m
  if st ≠ 0 then moveAbort s m.grain st else modMove s m.grain fun x => { x with copying := true }

/-- The copy, which holds the grain's content as of step 1: its writes wait at the gate (09 R207). -/
def copyGrain (s : State) (m : Move) : State :=
  copyBytes s m.srcTier (frameBytes * m.srcFrame) m.dstTier (frameBytes * m.dstFrame) frameBytes

/-- A drawer operation of any purpose that waits for the grain in its target tier has seen a home switch (02 Table 4). -/
def noteSwitch (s : State) (g tier : Nat) : State :=
  let upd (o : DrawerOp) : DrawerOp :=
    if o.phase = 1 ∧ g ∈ o.grains ∧ o.tier = tier then { o with lastSwitch := count s } else o
  { s with parts := s.parts.map fun e => (e.1, { e.2 with ops := e.2.ops.map upd }) }

/-- Step 3: the last chunk is written, and one update switches the home; held writes are released to the new frame. -/
def moveSwitch (s : State) (m : Move) : State :=
  let s := copyGrain s m
  let e := ht s m.grain
  let s := setHt s m.grain { e with htier := m.dstTier, hf := m.dstFrame, dtier := m.srcTier, df := m.srcFrame, st := 2 }
  let s := setFrame (setFrame s m.dstTier m.dstFrame .home) m.srcTier m.srcFrame .releasing
  let s := modMove s m.grain fun x => { x with switched := true }
  let s := countTier (countTier s m.part m.srcTier false frameBytes) m.part m.dstTier true frameBytes
  let s := releaseGate s m.grain
  let s := match m.purpose with
    | .command c => finish s c 0 0 []
    | .own | .drawer .. => s
  opsOn (noteSwitch s m.grain m.dstTier) m.grain

/-- Step 5: no read translated before the switch is outstanding; the old frame becomes free. -/
def moveRelease (s : State) (m : Move) : State :=
  let s := setHt (dropMove s m.grain) m.grain { ht s m.grain with st := 0, dtier := 0, df := 0 }
  freeWaiting (opsOn (setFrame s m.srcTier m.srcFrame .free) m.grain) m.part

end Sys2Proof.Machine
end

