-- ==== Sys2Proof/Machine/Faults.lean ====
section
/-! DEFINITION. Fault records (16 R375 to R379), the reset of a partition's array (05 R108), the end of a step without
publishing (11 R276, 10 R235, 08 R184, R185), and safe state (16 R379).
Readings of the spec: log entry 69. -/

namespace Sys2Proof.Machine

/-! ### Fault records -/

/-- Id of the partition's running step, 0 when none. -/
def stepId (s : State) (p : Nat) : Nat := (part s p).step.elim 0 fun k => k.id

/-- Physical column segment of logical column `x` in block row `r` (03 R34). -/
def physSeg (s : State) (x r : Nat) : Nat :=
  let m := mapOf s (x / 64) r
  m[x % 64]?.getD (x % 64)

/-- The unit that a fault in a tile names: its column segment. -/
def tileUnit (s : State) (t : Nat) : BistUnit :=
  .segment (t / 64 / 64) (t % 64 / 8) (physSeg s (t / 64) (t % 64 / 8))

/-- A unit becomes unusable (16 R378, R383). -/
def markBad (s : State) (u : BistUnit) : State :=
  match u with
  | .segment d r g => modSafety s fun f => { f with badSegs := dedup (f.badSegs ++ [1024 * d + 128 * r + g]) }
  | .ve b => modSafety s fun f => { f with badVes := dedup (f.badVes ++ [b]) }
  | .spareVe d => modSafety s fun f => { f with badSpareVe := f.badSpareVe ||| (1#2 <<< d) }
  | _ => s

/-- The unit named by a record of kinds 1 to 17 is queued for a retest, and becomes unusable when three records within
24 hours name it (16 R378). -/
def retestUnit (s : State) (u : BistUnit) : State :=
  let old := (s.safety.named.find? fun e => decide (e.1 = u)).elim [] fun e => e.2
  let recent := (old.filter fun c => decide (count s < c + 2160000000)) ++ [count s]
  let s := modSafety s fun f =>
    { f with
      retest := if u ∈ f.retest then f.retest else f.retest ++ [u]
      named := (f.named.filter fun e => decide (e.1 ≠ u)) ++ [(u, recent)] }
  if 3 ≤ recent.length then markBad s u else s

def faultBytes (r : FaultRec) : List Byte :=
  leBytes 4 r.recno ++ leBytes 1 r.kind ++ leBytes 1 r.part ++ leBytes 2 r.block ++ leBytes 8 r.dcount ++
    leBytes 8 r.step ++ leBytes 2 r.unit ++ leBytes 2 r.cfgid ++ zeros 4 ++ pad 32 r.data

/-- Pulse the alert land for 10 microseconds (16 R375, 18 R436). -/
def alert (s : State) : State := modLands s fun l => { l with alertLow := true, alertUntil := count s + 250 }

/-- The collector makes a record (16 R375): its number, and the state. -/
def recordFault (s : State) (kind p block step unit cfgid : Nat) (data : List Byte) (u : Option BistUnit) : Nat × State :=
  let r : FaultRec :=
    { recno := s.safety.recno, kind := kind, part := p, block := block, dcount := count s, step := step, unit := unit,
      cfgid := cfgid, data := data }
  let s := modSafety s fun f =>
    { f with
      recno := (f.recno + 1) % 2 ^ 32, recs := (r :: f.recs).take 4096
      counts := tset f.counts kind (tget 0 f.counts kind + 1) }
  let s := event (alert s) [0] 0xe601 (faultBytes r)
  (r.recno, match u with
    | some u => if 1 ≤ kind ∧ kind ≤ 17 then retestUnit s u else s
    | none => s)

/-! ### The partition's array -/

/-- A tile after the reset of its partition's array (05 R108): epoch 0, every context and router word at V = 0, and
nothing held or in progress (16 R377); the scratchpad, the registers and the generators stay here. -/
def resetTile (x : Tile) : Tile :=
  { Tile.reset with
    scratch := x.scratch, regs := x.regs, junk := x.junk, gen0 := x.gen0, gen1 := x.gen1, lastA := x.lastA, lastM := x.lastM,
    lastS := x.lastS }

/-- The scratchpads and tile registers of a partition hold nothing from one step to the next (03 R39, R41; 13 R305): what
nothing writes from here on reads free values. -/
def forgetTiles (s : State) (p : Nat) : State :=
  let x := part s p
  { s with
    tiles := s.tiles.zipIdx.map fun (e, i) =>
      if hasTile x e.1 then (e.1, { e.2 with scratch := [], regs := [], junk := some (s.draw + i) }) else e
    draw := s.draw + s.tiles.length }

/-- The vector, scalar and mask registers of a VE no longer hold anything (07 R137). -/
def forgetRegs (d : Nat) (x : Ve) : Ve := { x with v := [], s := [], m := [], junk := some d }

/-- A VE after the reset: its program has ended, EPV is 0 and the lane generators are loaded (07 R137, R155). -/
def resetVe (seed : W64) (b : Nat) (x : Ve) : Ve :=
  { x with
    running := false, epv := 0, gens := laneGens (seed.extractLsb' 0 32) b 0, mail := [], arrived := [], marked := [],
    txOut := [], txFail := 0, lanes := [], ckFailed := false, waitSince := none }

def ofStream (p : Nat) (w : Purpose) : Bool :=
  match w with
  | .feed q _ | .config q | .stageRead q _ _ | .stageWrite q _ _ => decide (q = p)
  | _ => false

def ofVes (bs : List Nat) (w : Purpose) : Bool :=
  match w with
  | .txf b _ _ | .outward b _ _ _ => decide (b ∈ bs)
  | _ => false

/-- The last drain (10 R235): the engines issue nothing more for the program, appended descriptors included; read data
and words not delivered are discarded. -/
def lastDrain (s : State) (p : Nat) : State :=
  modPart (discardTransfers s (ofStream p)) p fun x =>
    { x with
      doomed := []
      inject := x.inject.bind fun i => if i.left = 0 then some i else none
      stream := { x.stream with
        prog := [], next := 0, early := [], active := [], releases := [], usedMarks := [], cond := 0, mask := 0
        markAt := none, relWrites := [] } }

/-- Reset a partition's array (05 R108). -/
def arrayReset (s : State) (p : Nat) : State :=
  let x := part s p
  let bs := blocksOf x
  let s := { s with
    tiles := s.tiles.map fun e => if hasTile x e.1 then (e.1, resetTile e.2) else e
    ves := bs.foldl (fun vs b => tset vs b (forgetRegs (s.draw + b) (resetVe x.seed b (tget Ve.reset vs b)))) s.ves
    draw := s.draw + 128
    veNet := s.veNet.filter fun w => !(decide (w.src ∈ bs) || decide (w.dst ∈ bs))
    injectOut := s.injectOut.filter fun e => !x.entry.bcols.getLsbD e.1 }
  let s := forgetTiles (lastDrain (discardTransfers s (ofVes bs)) p) p
  modPart s p fun x =>
    { x with
      epoch := 0, inject := none
      stream := { x.stream with epoch := 0, marked := [] } }

/-! ### The end of a step without publishing -/

/-- Add a step's work to the counters (13 R314). -/
def addWork (a : Acct) (k : Step) : Acct :=
  { a with
    tbeats := sat64 (a.tbeats + k.tbeats), veissue := sat64 (a.veissue + k.veissue)
    tierb := k.tierb.foldl (fun m e => addTab m e.1 e.2) a.tierb
    fabSent := sat64 (a.fabSent + k.fabSent), fabRecv := sat64 (a.fabRecv + k.fabRecv) }

/-- The demand of a routing step goes into its layer's window; while ENABLE is 0 only a window in progress takes it, and a
window begins at the first routing step that begins after ENABLE was set (08 R175, R176). -/
def gatherLayer (k : Step) (layer : Nat) (b : Balance) : Balance :=
  let add (l : Tab Nat) : Tab Nat :=
    k.demand.foldl (fun l e => if e.1 / 1024 = layer then tset l (e.1 % 1024) (tget 0 l (e.1 % 1024) + e.2) else l) l
  if layer ∉ k.routed then b
  else if b.active then { b with gathered := b.gathered + 1, load := add b.load }
  else if b.enable = true ∧ b.since < k.begin then { b with active := true, gathered := 1, load := add [] }
  else b

def gather (k : Step) (x : Part) : Part :=
  match x.active, activeModel x with
  | some id, some m =>
    { x with models := tset x.models id { m with bal := m.bal.map fun e => (e.1, gatherLayer k e.1 e.2) } }
  | _, _ => x

/-- Cancel messages to every member of the group, for a step that has sent dispatches (08 R185). -/
def expertCancel (s : State) (p : Nat) (k : Step) : State :=
  match activeModel (part s p) with
  | none => s
  | some m =>
    if k.dispatches = [] then s
    else
      m.group.foldl (fun s (chip, q) =>
        sendExpert s chip
          { mtype := 3, ver := 1, expert := 0, schip := s.fabric.chip, srcPart := p, dstPart := q, round := k.round,
            gen := k.gen, layer := 0, step := k.id % 2 ^ 32, nrow := 0, rfmt := 0, rbytes := 0, status := 0, beats := 0,
            tbytes := 0, rows := [] }) s

/-- A close or commit whose step did not publish (11 R269): a close's drawer is open as it was, the space of its new
summary is given back, and the reply carries the step's status; after an eviction it waits for the next step. -/
def riderBack (s : State) (p : Nat) (op : DrawerOp) (status detail : Nat) (waits : Bool) : State :=
  let s := if op.kind = 3 ∧ ¬ waits then setDrawerState s op.drawer 3 else s
  let gs := grainsOf op.newBase op.newCap
  let s := if waits then setOp s p { op with phase := 2, newBase := 0, newCap := 0, status := 0, detail := 0 } else dropOp s p op
  let s := if op.kind = 3 then releaseGrains s p gs else s
  if waits then s else finish s op.cmd status detail []

/-- The operations that ride the running step. -/
def ridersOf (s : State) (p : Nat) : List DrawerOp := (part s p).ops.filter fun o => decide (o.phase = 3)

/-- The partition's step ends without publishing (11 R276 order 2): GEN advances, its work is counted, its program meets
the last drain, cancels go out, and its members end with a status; after a forced eviction they stay admitted (13 R309),
but those that a CANCEL awaits end. -/
def stepAbandon (s : State) (p status detail : Nat) (evict : Bool) : State :=
  match (part s p).step with
  | none => s
  | some k =>
    let s := expertCancel s p k
    let s := modPart s p fun x =>
      let g := (x.gen + 1) % 65536
      { gather k x with
        step := none, gen := g, crec := { x.crec with gen := g }, chained := false
        acct := { addWork x.acct k with abandon := sat64 (x.acct.abandon + 1) } }
    let s := forgetTiles (lastDrain s p) p
    let s := k.members.foldl (fun s m =>
      match findReq (part s p) m.index with
      | none => s
      | some r =>
        if m.skipped || !(queuedCancels s p r k.since).isEmpty then reqEnd s p m.index 0x3003 0
        else if !evict then reqEnd s p m.index status detail
        else if r.cancel ≠ [] then reqEnd s p m.index 0x3003 0
        else s) s
    (ridersOf s p).foldl (fun s o => riderBack s p o status detail evict) s

/-- A fault with the reaction "Step" (16 R377): the running step ends without publishing and the array is reset. -/
def stepFault (s : State) (p status detail : Nat) : State :=
  match (part s p).step with
  | none => s
  | some _ => modStream (arrayReset (stepAbandon s p status detail false) p) p fun m => { m with needConfig := true }

/-- Status and DETAIL of a fault kind for the step's members (16 Table 3). -/
def faultStatus (kind recno block : Nat) : Nat × Nat :=
  if kind = 8 ∨ kind = 14 then (0x5104, recno) else if kind = 10 then (0x5102, block) else (0x5101, recno)

/-- A fault in a tile, or at its router. -/
def tileFault (s : State) (t kind cfgid : Nat) (data : List Byte) : State :=
  match partOfTile s t with
  | none => (recordFault s kind 0xff (blockOf t) 0 t cfgid data (some (tileUnit s t))).2
  | some p =>
    let (n, s) := recordFault s kind p (blockOf t) (stepId s p) t cfgid data (some (tileUnit s t))
    let (st, d) := faultStatus kind n (blockOf t)
    stepFault s p st d

/-- A fault in the VE of a block. -/
def veFault (s : State) (b kind : Nat) (data : List Byte) : State :=
  match partOfBlock s b with
  | none => (recordFault s kind 0xff b 0 0 0 data (some (.ve b))).2
  | some p =>
    let (n, s) := recordFault s kind p b (stepId s p) 0 0 data (some (.ve b))
    let (st, d) := faultStatus kind n b
    stepFault s p st d

/-- A fault that no partition can be assigned names the running step of every defined partition (16 R377). -/
def everyStepFault (s : State) (kind unit : Nat) (data : List Byte) (u : Option BistUnit) : State :=
  let (n, s) := recordFault s kind 0xfe 0xffff 0 unit 0 data u
  let (st, d) := faultStatus kind n 0
  ((List.range 16).filter (defined s)).foldl (fun s p => stepFault s p st d) s

/-! ### Safe state (16 R379) -/

/-- A link goes down and its port is left: its queues and replay buffer are discarded and counted. -/
def dropLink (s : State) (l : Nat) : State :=
  let x := link s l
  let lost := x.replay.length + (x.txq.map fun e => e.2.length).sum
  modFabric (setLink s l { x with st := .down, since := count s, txq := [], replay := [] })
    fun f => { f with lost := f.lost + lost }

/-- Enter safe state: running steps end, the key registers are cleared, links and the Iberaine port go down, tier 1 and
tier 2 go dark, fault-out is asserted (it is a function of `safe`). -/
def safeState (s : State) (status detail : Nat) : State :=
  let s := (List.range 16).foldl (fun s p => stepAbandon s p status detail false) s
  let s := modBoot s fun b => { b with safe := true, ready := false, sfRunning := false, keys := false }
  let s := (List.range 19).foldl dropLink s
  modTiers s fun t => { t with dark := true }

end Sys2Proof.Machine
end

