-- ==== Sys2Proof/Machine/Vector.lean ====
section
/-! DEFINITION. The vector engine as its instructions see it (07 R134 to R143, R162 to R164): registers, the instruction
word, the operand space, the issue of one instruction and its faults.
Readings of the spec: log entries 9, 55. -/

namespace Sys2Proof.Machine

/-! ### Registers (07 R137) -/

def lane64 (v : VReg) (i : Nat) : W32 := if h : i < 64 then v[i] else 0

def vecOf (f : Nat → W32) : VReg := Vector.ofFn fun i => f i.val

/-- Vector register `i`; one that nothing has written since the program's start holds free values. -/
def vr (x : Ve) (i : Nat) : VReg :=
  (tfind x.v i).getD (x.junk.elim VReg.zero fun d => vecOf fun l => lane (Config.freeLine d (4 * i + l / 16)) (l % 16))

/-- Scalar register `i`, likewise. -/
def sr (x : Ve) (i : Nat) : W32 :=
  if i = 0 then 0 else (tfind x.s i).getD (x.junk.elim 0 fun d => lane (Config.freeLine d 128) i)

/-- Mask register `i`, likewise. -/
def mr (x : Ve) (i : Nat) : BitVec 64 :=
  if i = 0 then BitVec.allOnes 64
  else (tfind x.m i).getD (x.junk.elim 0 fun d => (Config.freeLine d 129).extractLsb' (64 * i) 64)

def setVr (x : Ve) (i : Nat) (v : VReg) : Ve := { x with v := tset x.v i v }
def setSr (x : Ve) (i : Nat) (w : W32) : Ve := if i = 0 then x else { x with s := tset x.s i w }
def setMr (x : Ve) (i : Nat) (w : BitVec 64) : Ve := if i = 0 then x else { x with m := tset x.m i w }

/-- Quarter `q` of a vector: the payload of one channel word. -/
def quarter (v : VReg) (q : Nat) : Line := lineOf ((List.range 16).map fun i => lane64 v (16 * q + i))

/-- The vector with quarters replaced from quarter 0 on. -/
def withQuarters (v : VReg) (ls : List Line) : VReg :=
  vecOf fun i => (ls[i / 16]?).elim (lane64 v i) fun l => lane l (i % 16)

/-! ### The instruction word (07 Table 3) -/

def iOpc (w : W64) : Nat := bfld w 56 8
def iD (w : W64) : Nat := bfld w 51 5
def iA (w : W64) : Nat := bfld w 46 5
def iB (w : W64) : Nat := bfld w 41 5
def iC (w : W64) : Nat := bfld w 36 5
def iM (w : W64) : Nat := bfld w 33 3
def iZ (w : W64) : Bool := w.getLsbD 32
def iImm (w : W64) : Nat := bfld w 0 32
def iImmW (w : W64) : W32 := w.extractLsb' 0 32

/-- Indices that name scalars, or masks, are in range (R139). -/
def scalars (xs : List Nat) : Bool := xs.all (· ≤ 15)
def masks (xs : List Nat) : Bool := xs.all (· ≤ 7)

/-- Opcodes of Table 4. -/
def knownOpc (n : Nat) : Bool :=
  decide (n ≤ 0x0a ∨ (0x10 ≤ n ∧ n ≤ 0x1d) ∨ (0x20 ≤ n ∧ n ≤ 0x22) ∨ (0x28 ≤ n ∧ n ≤ 0x2a) ∨ (0x30 ≤ n ∧ n ≤ 0x34) ∨
    n = 0x38 ∨ n = 0x39 ∨ (0x40 ≤ n ∧ n ≤ 0x45) ∨ (0x48 ≤ n ∧ n ≤ 0x4e) ∨ (0x50 ≤ n ∧ n ≤ 0x54) ∨
    (0x58 ≤ n ∧ n ≤ 0x5a) ∨ (0x60 ≤ n ∧ n ≤ 0x62))

/-- Opcodes that Table 4 does not mark B. -/
def normalOnly (n : Nat) : Bool :=
  decide (n ∈ [0x28, 0x29, 0x2a, 0x32, 0x33, 0x34, 0x39, 0x44, 0x45, 0x4c, 0x4d, 0x54, 0x58, 0x59, 0x5a])

/-! ### Operand space (07 R142, R143, R163) -/

/-- Every address lies in the space of the present mode. -/
def inSpace (x : Ve) (as : List Nat) : Bool := !x.buffer || as.all (· ≤ 4095)

/-- The instruction at pc. -/
def fetchVe (x : Ve) : W64 :=
  (veWord x (2 * x.pc.toNat + 1)).append (veWord x (2 * x.pc.toNat))

/-! ### Masks (07 R138) -/

def activeLane (x : Ve) (w : W64) (i : Nat) : Bool := (mr x (iM w)).getLsbD i

def activeLanes (x : Ve) (w : W64) : List Nat := (List.range 64).filter (activeLane x w)

/-- The new vD: `f` in active lanes; the others keep their value, or become +0 when Z = 1. -/
def masked (x : Ve) (w : W64) (f : Nat → W32) : VReg :=
  vecOf fun i => if activeLane x w i then f i else if iZ w then 0 else lane64 (vr x (iD w)) i

/-! ### Faults -/

/-- Transfers of a VE are no longer waited for: what was not issued is dropped, what is in flight is left. -/
def dropTxf (s : State) (b : Nat) : State := modVe (discardTransfers s (ofVes [b])) b fun x => { x with txOut := [] }

/-- Buffer mode is entered: the VE stops and its collector content is discarded (R162). -/
def enterBuffer (s : State) (b : Nat) : State :=
  let s := { s with tiles := s.tiles.map fun e => if blockOf e.1 = b then (e.1, { e.2 with coll := [] }) else e }
  modVe (dropTxf s b) b fun x => { x with buffer := true, running := false, waitSince := none }

/-- VE program fault (R140): the VE stops at the instruction; pc and the instruction word are recorded. -/
def veProgramFault (s : State) (b : Nat) (w : W64) : State :=
  let pc := (ve s b).pc
  veFault (modVe s b fun x => { x with running := false, waitSince := none }) b 12 (leBytes 2 pc.toNat ++ leBytes 8 w.toNat)

/-- Uncorrectable storage error met by a VE (R142, R163): it stops in buffer mode and the fault is recorded, with the
failing address, which is the unit's own (16 Table 2). -/
def veStorageFault (s : State) (b : Nat) : State :=
  let (bs, s) := freeBytes s 8
  veFault (enterBuffer s b) b 11 bs

/-! ### Issue (07 R134, R135) -/

/-- An issued instruction is counted (13 Table 9, Table 10). -/
def countIssue (s : State) (b : Nat) : State :=
  match partOfBlock s b with
  | none => s
  | some p =>
    modPart s p fun x =>
      let x := addAct x (b / 64) 1
      match x.step with
      | some k => { x with step := some { k with veissue := k.veissue + 1 } }
      | none => { x with acct := { x.acct with veissue := sat64 (x.acct.veissue + 1) } }

/-- The instruction has issued: pc moves on. -/
def issued (s : State) (b : Nat) : State :=
  modVe (countIssue s b) b fun x => { x with pc := x.pc + 1, waitSince := none }

/-- The row of opcode `opc` for the VE of block `b`: when a program runs and the instruction at pc has that opcode (an
opcode absent from Table 4 goes to the row of NOP), the instruction issues with effect `f`. `f` answers an error, the state
in which a program fault is recorded; none, the instruction waits; or the state after its effect. `ecc` is what the
instruction's reads of words under ECC or parity meet, where `reads` says that it reads any. -/
def veRead (b opc : Nat) (ecc : Ecc) (reads : W64 → State → Bool) (f : W64 → State → Except State (Option State))
    (s : State) : State :=
  let x := ve s b
  let w := fetchVe x
  if !x.running || !(decide (iOpc w = opc) || (decide (opc = 0) && !knownOpc (iOpc w))) then s
  else if iOpc w ≠ opc ∨ (x.buffer ∧ (normalOnly opc ∨ 2047 < x.pc.toNat)) then veProgramFault s b w
  else
    match f w s with
    | .error s => veProgramFault s b w
    | .ok none => modVe s b fun x => { x with waitSince := some (x.waitSince.getD s.time.watch) }
    | .ok (some t) =>
      if (ecc = .bad ∨ (ecc = .corrected ∧ x.buffer)) ∧ reads w s then veStorageFault s b
      else if ecc = .corrected ∧ reads w s then
        modVe (issued t b) b fun x => { x with softErrors := x.softErrors + 1 }
      else issued t b

/-- As `veRead`, for an instruction that reads no such word. -/
def veIssue (b opc : Nat) (f : W64 → State → Except State (Option State)) (s : State) : State :=
  veRead b opc .ok (fun _ _ => false) f s

/-- An effect on the VE alone: none is a reserved value. -/
def regOp (b : Nat) (f : W64 → Ve → Option Ve) (w : W64) (s : State) : Except State (Option State) :=
  match f w (ve s b) with
  | none => .error s
  | some x => .ok (some (setVe s b x))

/-- A result in vD. -/
def vecOp (b : Nat) (f : W64 → Ve → VReg) : W64 → State → Except State (Option State) :=
  regOp b fun w x => some (setVr x (iD w) (f w x))

/-! ### Service stage, mailboxes, program start -/

/-- Words arrived from the VE network go to their mailboxes. -/
def fillMail (x : Ve) : Ve :=
  { x with mail := x.arrived.foldl (fun m a => tset m a.1 (tget [] m a.1 ++ [a.2])) x.mail, arrived := [] }

/-- VE_SERVICE_STAGE (R134): `soft` corrected errors of the fetch and the scrub, or an uncorrectable one. -/
def execVeServiceStage (b soft : Nat) (bad : Bool) (s : State) : Host.Outcome State Fault Refusal :=
  onWf (.veServiceStage b soft bad) s fun s =>
    let s := modVe s b fun x => { fillMail x with softErrors := x.softErrors + soft }
    if bad then veStorageFault s b else s

/-- MAILBOX_WORD_ARRIVAL (R148): the oldest word from `src` reaches the VE of block `b`, and waits on its link while its
mailbox is full. -/
def mailboxArrival (b src : Nat) (s : State) : State :=
  let mine (n : NetWord) : Bool := decide (n.src = src ∧ n.dst = b)
  match s.veNet.find? mine with
  | none => s
  | some n =>
    let x := ve s b
    if 8 ≤ (tget [] x.mail n.box).length + (x.arrived.filter fun a => decide (a.1 = n.box)).length then s
    else modVe { s with veNet := s.veNet.erase n } b fun x => { x with arrived := x.arrived ++ [(n.box, n.word)] }

def execMailboxWordArrival (b src : Nat) (s : State) : Host.Outcome State Fault Refusal :=
  onWf (.mailboxWordArrival b src) s (mailboxArrival b src)

/-- Words of the service firmware's load, by word address, in the operand cache or in the buffers (R163, R164). -/
def loadVe (x : Ve) (ws : List (Nat × Nat)) : Ve :=
  ws.foldl (fun x e => setVeWord x e.1 (BitVec.ofNat 32 e.2)) x

/-- A write of every word with valid ECC initialises the operand cache (R164). -/
def loadsAll (ws : List (Nat × Nat)) : Bool := decide (ws.length = 65536)

/-- A start in buffer mode, of start-up or recovery code (R163): the maintenance access of the control complex writes the
buffers, and the program starts at `pc`. -/
def bufferStart (b pc : Nat) (ws : List (Nat × Nat)) (s : State) : State :=
  let x := ve s b
  if x.running ∨ x.buffer = false then s
  else
    modVe { s with draw := s.draw + 1 } b fun x =>
      { loadVe (forgetRegs s.draw x) ws with running := true, pc := BitVec.ofNat 15 pc, waitSince := none }

/-- VE_PROGRAM_START (R164): the service firmware's load, then the start in normal service of a halted VE whose operand
cache is initialised; a VE that was in buffer mode leaves it with an empty collector. The vector, scalar and mask registers hold
nothing of an earlier program (R137). -/
def programStart (b pc : Nat) (ws : List (Nat × Nat)) (s : State) : State :=
  let x := ve s b
  if x.running ∨ (x.cacheInit = false ∧ loadsAll ws = false) then s
  else
    let s := if x.buffer then
        { s with tiles := s.tiles.map fun e => if blockOf e.1 = b then (e.1, { e.2 with coll := [] }) else e }
      else s
    modVe { s with draw := s.draw + 1 } b fun x =>
      { loadVe { forgetRegs s.draw x with buffer := false } ws with
        cacheInit := true, running := true, pc := BitVec.ofNat 15 pc, waitSince := none }

/-- VE_PROGRAM_START; `buffer` starts code in buffer mode. -/
def execVeProgramStart (b pc : Nat) (buffer : Bool) (words : List (Nat × Nat)) (s : State) :
    Host.Outcome State Fault Refusal :=
  onWf (.veProgramStart b pc buffer words) s (if buffer then bufferStart b pc words else programStart b pc words)

end Sys2Proof.Machine
end

