-- ==== Sys2Proof/Machine/Lanes.lean ====
section
/-! DEFINITION. The VE's scalar, mask, lane-wise and reduction instructions (07 Table 4, R138, R141, R153, R155).
Readings of the spec: log entry 55. -/

namespace Sys2Proof.Machine

/-! ### Control and scalars -/

/-- NOP. -/
def execNop (b : Nat) (s : State) : Host.Outcome State Fault Refusal :=
  onWf (.nop b) s (veIssue b 0x00 (regOp b fun _ x => some x))

/-- HALT: the VE waits for the control processor to start a program. -/
def execHalt (b : Nat) (s : State) : Host.Outcome State Fault Refusal :=
  onWf (.halt b) s (veIssue b 0x01 (regOp b fun _ x => some { x with running := false }))

/-- SBNZ: pc ← pc + IMM when sA ≠ 0; the issue itself adds one. -/
def branchNz (w : W64) (x : Ve) : Option Ve :=
  if !scalars [iA w] then none
  else if sr x (iA w) = 0 then some x
  else some { x with pc := x.pc + BitVec.ofNat 15 (iImm w) - 1 }

def execSbnz (b : Nat) (s : State) : Host.Outcome State Fault Refusal :=
  onWf (.sbnz b) s (veIssue b 0x02 (regOp b branchNz))

/-- A scalar result in sD, its operands named. -/
def scalarOp (b : Nat) (names : W64 → List Nat) (f : W64 → Ve → W32) : W64 → State → Except State (Option State) :=
  regOp b fun w x => if scalars (iD w :: names w) then some (setSr x (iD w) (f w x)) else none

def execSli (b : Nat) (s : State) : Host.Outcome State Fault Refusal :=
  onWf (.sli b) s (veIssue b 0x03 (scalarOp b (fun _ => []) fun w _ => iImmW w))

def execSadd (b : Nat) (s : State) : Host.Outcome State Fault Refusal :=
  onWf (.sadd b) s (veIssue b 0x04 (scalarOp b (fun w => [iA w, iB w]) fun w x => sr x (iA w) + sr x (iB w) + iImmW w))

def execSmul (b : Nat) (s : State) : Host.Outcome State Fault Refusal :=
  onWf (.smul b) s (veIssue b 0x05 (scalarOp b (fun w => [iA w, iB w]) fun w x => sr x (iA w) * sr x (iB w)))

def execVext (b : Nat) (s : State) : Host.Outcome State Fault Refusal :=
  onWf (.vext b) s (veIssue b 0x08 (scalarOp b (fun _ => []) fun w x => lane64 (vr x (iA w)) (nfld (iImm w) 0 6)))

/-! ### Lane-wise -/

/-- A lane-wise result of vA, vB and vC. -/
def laneOp (b : Nat) (f : W32 → W32 → W32 → W32) : W64 → State → Except State (Option State) :=
  vecOp b fun w x => masked x w fun i => f (lane64 (vr x (iA w)) i) (lane64 (vr x (iB w)) i) (lane64 (vr x (iC w)) i)

def execVbcast (b : Nat) (s : State) : Host.Outcome State Fault Refusal :=
  onWf (.vbcast b) s (veIssue b 0x09 (regOp b fun w x =>
    if scalars [iA w] then some (setVr x (iD w) (masked x w fun _ => sr x (iA w))) else none))

def execViota (b : Nat) (s : State) : Host.Outcome State Fault Refusal :=
  onWf (.viota b) s (veIssue b 0x0a (vecOp b fun w x => masked x w fun i => BitVec.ofNat 32 i))

def execVadd (b : Nat) (s : State) : Host.Outcome State Fault Refusal :=
  onWf (.vadd b) s (veIssue b 0x10 (laneOp b fun a c _ => fadd a c))

def execVsub (b : Nat) (s : State) : Host.Outcome State Fault Refusal :=
  onWf (.vsub b) s (veIssue b 0x11 (laneOp b fun a c _ => fsub a c))

def execVmul (b : Nat) (s : State) : Host.Outcome State Fault Refusal :=
  onWf (.vmul b) s (veIssue b 0x12 (laneOp b fun a c _ => fmul a c))

def execVfma (b : Nat) (s : State) : Host.Outcome State Fault Refusal :=
  onWf (.vfma b) s (veIssue b 0x13 (laneOp b ffma))

def execVmax (b : Nat) (s : State) : Host.Outcome State Fault Refusal :=
  onWf (.vmax b) s (veIssue b 0x14 (laneOp b fun a c _ => fmax a c))

def execVmin (b : Nat) (s : State) : Host.Outcome State Fault Refusal :=
  onWf (.vmin b) s (veIssue b 0x15 (laneOp b fun a c _ => fmin a c))

def execVabs (b : Nat) (s : State) : Host.Outcome State Fault Refusal :=
  onWf (.vabs b) s (veIssue b 0x16 (laneOp b fun a _ _ => fabs a))

def execVneg (b : Nat) (s : State) : Host.Outcome State Fault Refusal :=
  onWf (.vneg b) s (veIssue b 0x17 (laneOp b fun a _ _ => fneg a))

/-- The relations of VCMP: 0 eq, 1 lt, 2 le, 3 ne, 4 unordered. -/
def relHolds (rel : Nat) (a c : W32) : Bool :=
  match numCmp (num32 a) (num32 c) with
  | none => decide (rel = 3 ∨ rel = 4)
  | some k =>
    if rel = 0 then decide (k = 0) else if rel = 1 then decide (k < 0) else if rel = 2 then decide (k ≤ 0)
    else if rel = 3 then decide (k ≠ 0) else false

/-- A mask from its bits. -/
def maskOf (f : Nat → Bool) : BitVec 64 :=
  (List.range 64).foldl (fun m i => if f i then m ||| (1#64 <<< i) else m) 0

def compare (w : W64) (x : Ve) : Option Ve :=
  let rel := nfld (iImm w) 0 3
  let old := mr x (iD w)
  if !masks [iD w] || decide (4 < rel) then none
  else
    some (setMr x (iD w) (maskOf fun i =>
      if activeLane x w i then relHolds rel (lane64 (vr x (iA w)) i) (lane64 (vr x (iB w)) i)
      else if iZ w then false else old.getLsbD i))

def execVcmp (b : Nat) (s : State) : Host.Outcome State Fault Refusal :=
  onWf (.vcmp b) s (veIssue b 0x18 (regOp b compare))

def execVsel (b : Nat) (s : State) : Host.Outcome State Fault Refusal :=
  onWf (.vsel b) s (veIssue b 0x19 (vecOp b fun w x => masked x w fun i =>
    if (mr x (nfld (iImm w) 0 3)).getLsbD i then lane64 (vr x (iA w)) i else lane64 (vr x (iB w)) i))

def execViadd (b : Nat) (s : State) : Host.Outcome State Fault Refusal :=
  onWf (.viadd b) s (veIssue b 0x1a (laneOp b fun a c _ => a + c))

/-- The operations of VLOG and MOP: 0 and, 1 or, 2 xor, 3 and-not. -/
def logOp (op : Nat) (a c : BitVec n) : BitVec n :=
  if op = 0 then a &&& c else if op = 1 then a ||| c else if op = 2 then a ^^^ c else a &&& ~~~c

def execVlog (b : Nat) (s : State) : Host.Outcome State Fault Refusal :=
  onWf (.vlog b) s (veIssue b 0x1b (vecOp b fun w x => masked x w fun i =>
    logOp (nfld (iImm w) 0 2) (lane64 (vr x (iA w)) i) (lane64 (vr x (iB w)) i)))

/-- Logical shift by a signed distance: left when positive. -/
def shiftBy (d : Int) (a : W32) : W32 := if 0 ≤ d then a <<< d.toNat else a >>> (-d).toNat

def execVshf (b : Nat) (s : State) : Host.Outcome State Fault Refusal :=
  onWf (.vshf b) s (veIssue b 0x1c (vecOp b fun w x => masked x w fun i =>
    shiftBy (sgn 6 (nfld (iImm w) 0 6)) (lane64 (vr x (iA w)) i)))

/-- FP32 to int32, or back: nearest even, saturating, NaN to 0. -/
def convInt (back : Bool) (a : W32) : W32 :=
  if back then rne (numInt a.toInt) else BitVec.ofInt 32 (toInt 0 0 (-2147483648) 2147483647 0 (num32 a))

def execVcvti (b : Nat) (s : State) : Host.Outcome State Fault Refusal :=
  onWf (.vcvti b) s (veIssue b 0x1d (vecOp b fun w x => masked x w fun i =>
    convInt (decide (nfld (iImm w) 0 1 = 1)) (lane64 (vr x (iA w)) i)))

/-! ### Masks -/

def execMtail (b : Nat) (s : State) : Host.Outcome State Fault Refusal :=
  onWf (.mtail b) s (veIssue b 0x20 (regOp b fun w x =>
    if masks [iD w] && scalars [iA w] then
      some (setMr x (iD w) (maskOf fun i => decide (i < (sr x (iA w) + iImmW w).toNat)))
    else none))

def execMop (b : Nat) (s : State) : Host.Outcome State Fault Refusal :=
  onWf (.mop b) s (veIssue b 0x21 (regOp b fun w x =>
    if masks [iD w, iA w, iB w] then
      some (setMr x (iD w) (logOp (nfld (iImm w) 0 2) (mr x (iA w)) (mr x (iB w))))
    else none))

def execMset (b : Nat) (s : State) : Host.Outcome State Fault Refusal :=
  onWf (.mset b) s (veIssue b 0x22 (regOp b fun w x =>
    if masks [iD w] && scalars [iA w, iB w] then
      some (setMr x (iD w) ((sr x (iB w)).append (sr x (iA w))))
    else none))

/-! ### Functions and reductions -/

def execVfn (b : Nat) (s : State) : Host.Outcome State Fault Refusal :=
  onWf (.vfn b) s (veIssue b 0x28 (regOp b fun w x =>
    let i := nfld (iImm w) 0 4
    if 13 < i then none else some (setVr x (iD w) (masked x w fun l => veFunc i (lane64 (vr x (iA w)) l)))))

/-- One level of the pairwise sum: a lane without a value contributes nothing. -/
def pairSum : List (Option W32) → List (Option W32)
  | a :: c :: r =>
    (match a, c with
      | some a, some c => some (fadd a c)
      | some a, none => some a
      | none, c => c) :: pairSum r
  | r => r

/-- Sum of the active lanes as a pairwise tree of six levels. -/
def treeSum (x : Ve) (w : W64) : W32 :=
  let ls := (List.range 64).map fun i => if activeLane x w i then some (lane64 (vr x (iA w)) i) else none
  match pairSum (pairSum (pairSum (pairSum (pairSum (pairSum ls))))) with
  | some a :: _ => rne (num32 a)
  | _ => 0

def execVrsum (b : Nat) (s : State) : Host.Outcome State Fault Refusal :=
  onWf (.vrsum b) s (veIssue b 0x30 (vecOp b fun w x => masked x w fun _ => treeSum x w))

/-- Active lanes that are not NaN. -/
def numLanes (x : Ve) (w : W64) : List Nat :=
  (activeLanes x w).filter fun i => !isNan (lane64 (vr x (iA w)) i)

/-- Maximum of the active lanes that are not NaN; NaN when none. -/
def laneMax (x : Ve) (w : W64) : W32 :=
  match (numLanes x w).map fun i => lane64 (vr x (iA w)) i with
  | [] => rne .nan
  | a :: r => r.foldl fmax a

def execVrmax (b : Nat) (s : State) : Host.Outcome State Fault Refusal :=
  onWf (.vrmax b) s (veIssue b 0x31 (vecOp b fun w x => masked x w fun _ => laneMax x w))

/-- Lowest index of an active lane that equals the maximum. -/
def laneArgMax (x : Ve) (w : W64) : W32 :=
  let top := laneMax x w
  match (numLanes x w).find? fun i => relHolds 0 (lane64 (vr x (iA w)) i) top with
  | none => 0xffffffff#32
  | some i => BitVec.ofNat 32 i

def execVrargmax (b : Nat) (s : State) : Host.Outcome State Fault Refusal :=
  onWf (.vrargmax b) s (veIssue b 0x32 (vecOp b fun w x => masked x w fun _ => laneArgMax x w))

/-- Inclusive prefix sums in lane order, by lane; an inactive lane contributes nothing. -/
def prefixSums (x : Ve) (w : W64) : List (Nat × W32) :=
  ((activeLanes x w).foldl (fun (acc : List (Nat × W32)) i =>
    let a := lane64 (vr x (iA w)) i
    match acc with
    | [] => [(i, rne (num32 a))]
    | (_, t) :: _ => (i, fadd t a) :: acc) [])

def execVscan (b : Nat) (s : State) : Host.Outcome State Fault Refusal :=
  onWf (.vscan b) s (veIssue b 0x33 (vecOp b fun w x =>
    let ps := prefixSums x w
    masked x w fun i => (ps.lookup i).getD 0))

def execVperm (b : Nat) (s : State) : Host.Outcome State Fault Refusal :=
  onWf (.vperm b) s (veIssue b 0x34 (vecOp b fun w x => masked x w fun i =>
    lane64 (vr x (iA w)) ((lane64 (vr x (iB w)) i).toNat % 64)))

/-! ### Generators, conversions (R141, R155) -/

/-- The generators with those of active lanes stepped. -/
def stepGens (x : Ve) (w : W64) : VReg :=
  vecOf fun i => if activeLane x w i then genStep (lane64 x.gens i) else lane64 x.gens i

/-- VRAND: s[31:8] x 2^-24 of the stepped state. -/
def rand (w : W64) (x : Ve) : Ve :=
  let g := stepGens x w
  setVr { x with gens := g } (iD w) (masked x w fun i => rne (.fin false ((lane64 g i).toNat / 256) (-24)))

def execVrand (b : Nat) (s : State) : Host.Outcome State Fault Refusal :=
  onWf (.vrand b) s (veIssue b 0x5a (regOp b fun w x => some (rand w x)))

/-- VEPOCH (R155, R145): EPV advances, the lane generators are loaded from the partition's seed, the port forgets its
marked queues. -/
def nextEpv (seed : W64) (b : Nat) (x : Ve) : Ve :=
  let e := x.epv + 1
  { x with epv := e, gens := laneGens (seed.extractLsb' 0 32) b e.toNat, marked := [] }

def execVepoch (b : Nat) (s : State) : Host.Outcome State Fault Refusal :=
  onWf (.vepoch b) s (veIssue b 0x4e fun _ s =>
    .ok (some (modVe s b (nextEpv ((partOfBlock s b).elim 0 fun p => (part s p).seed) b))))

/-- Packed code `j` of a vector, `n` bits each. -/
def codeAt (v : VReg) (n j : Nat) : Nat := nfld (lane64 v (n * j / 32)).toNat (n * j % 32) n

/-- The vector whose lanes hold packed codes from lane 0 on. -/
def packed (n : Nat) (cs : List Nat) : Nat → W32 :=
  fun i => BitVec.ofNat 32 (packCodes n ((cs.drop (32 / n * i)).take (32 / n)))

/-- The code that an element keeps or takes: converted when its lane is active, else kept, or +0 when Z = 1. -/
def elemCode (x : Ve) (w : W64) (n j : Nat) (new : Nat) : Nat :=
  if activeLane x w j then new else if iZ w then 0 else codeAt (vr x (iD w)) n j

/-- VCVT: IMM[4:0] format, IMM[5] direction, IMM[6] rounding. The packed formats 0x10 to 0x12, which have no conversion rule
and which R141 does not list, are taken as reserved values like those it lists (log entry 55, DESIGN CHOICE). -/
def convert (w : W64) (x : Ve) : Option Ve :=
  let code := nfld (iImm w) 0 5
  let back := nfld (iImm w) 5 1
  let mode := nfld (iImm w) 6 1
  let n := codeBits code
  if code ∉ [0x00, 0x01, 0x09, 0x0a, 0x0b, 0x0c] then none
  else
    let g := if mode = 1 then stepGens x w else x.gens
    let v := vr x (iA w)
    let r : VReg :=
      if back = 1 then masked x w fun i => rne (operandNum code (codeAt v n i))
      else
        let nan (i : Nat) : Int := sgn 8 ((Config.veFn 16 (lane64 v i)).toNat % 256)
        vecOf (packed n ((List.range 64).map fun i =>
          elemCode x w n i (convTo code mode (genDraw (lane64 g i)) (nan i) (num32 (lane64 v i)))))
    some (setVr { x with gens := g } (iD w) r)

def execVcvt (b : Nat) (s : State) : Host.Outcome State Fault Refusal :=
  onWf (.vcvt b) s (veIssue b 0x38 (regOp b convert))

/-- VMXQ: lanes 0 to 31 and 32 to 63 as two Microscaling blocks; scales in bytes 0 and 1 of lane 16. -/
def quantise (w : W64) (x : Ve) : Option Ve :=
  let code := nfld (iImm w) 0 5
  let mode := nfld (iImm w) 6 1
  let n := codeBits code
  if code < 2 ∨ 8 < code then none
  else
    let g := if mode = 1 then stepGens x w else x.gens
    let v := vr x (iA w)
    let scale (blk : Nat) : Nat :=
      mxScale code (((List.range 32).filter fun i => activeLane x w (32 * blk + i)).map fun i =>
        num32 (lane64 v (32 * blk + i)))
    let sc := [scale 0, scale 1]
    let codes := packed n ((List.range 64).map fun i =>
      elemCode x w n i (mxElem code (sc.getD (i / 32) 0) mode (genDraw (lane64 g i)) (num32 (lane64 v i))))
    some (setVr { x with gens := g } (iD w) (vecOf fun i =>
      if i = 16 then BitVec.ofNat 32 (sc.getD 0 0 + 256 * sc.getD 1 0) else if i < 16 then codes i else 0))

def execVmxq (b : Nat) (s : State) : Host.Outcome State Fault Refusal :=
  onWf (.vmxq b) s (veIssue b 0x39 (regOp b quantise))

end Sys2Proof.Machine
end

