-- ==== Sys2Proof/Machine/Operand.lean ====
section
/-! DEFINITION. The VE's accesses to its operand cache or buffers (07 R142), and the per-element programs (R151, R152). -/

namespace Sys2Proof.Machine

/-- sA + IMM as a word address. -/
def baseAddr (x : Ve) (w : W64) : Nat := (sr x (iA w) + iImmW w).toNat % 65536

/-! ### Scalar loads and stores -/

def loadScalar (w : W64) (x : Ve) : Option Ve :=
  if scalars [iD w, iA w] && inSpace x [baseAddr x w] then some (setSr x (iD w) (veWord x (baseAddr x w))) else none

def execSld (b : Nat) (ecc : Ecc) (s : State) : Host.Outcome State Fault Refusal :=
  onWf (.sld b ecc) s (veRead b 0x06 ecc (fun _ _ => true) (regOp b loadScalar))

def storeScalar (w : W64) (x : Ve) : Option Ve :=
  if scalars [iD w, iA w] && inSpace x [baseAddr x w] then some (setVeWord x (baseAddr x w) (sr x (iD w))) else none

def execSst (b : Nat) (s : State) : Host.Outcome State Fault Refusal :=
  onWf (.sst b) s (veIssue b 0x07 (regOp b storeScalar))

/-! ### Vector loads and stores -/

/-- Address of lane `i`: contiguous, by stride sB, or gathered by lane i of vB. -/
def addrNext (x : Ve) (w : W64) (i : Nat) : Nat := (baseAddr x w + i) % 65536
def addrStride (x : Ve) (w : W64) (i : Nat) : Nat := (baseAddr x w + i * (sr x (iB w)).toNat) % 65536
def addrIndex (x : Ve) (w : W64) (i : Nat) : Nat :=
  ((sr x (iA w)).toNat + (lane64 (vr x (iB w)) i).toNat % 65536) % 65536

/-- Load the active lanes from their addresses. -/
def loadVec (names : W64 → List Nat) (at_ : Ve → W64 → Nat → Nat) (w : W64) (x : Ve) : Option Ve :=
  if scalars (iA w :: names w) && inSpace x ((activeLanes x w).map (at_ x w)) then
    some (setVr x (iD w) (masked x w fun i => veWord x (at_ x w i)))
  else none

/-- Store the active lanes, in lane order: of two lanes that name one word the higher lane's value stays. -/
def storeVec (names : W64 → List Nat) (at_ : Ve → W64 → Nat → Nat) (w : W64) (x : Ve) : Option Ve :=
  if scalars (iA w :: names w) && inSpace x ((activeLanes x w).map (at_ x w)) then
    some ((activeLanes x w).foldl (fun y i => setVeWord y (at_ x w i) (lane64 (vr x (iD w)) i)) x)
  else none

/-- Some lane is active: the load reads. -/
def someLane (b : Nat) (w : W64) (s : State) : Bool := !(activeLanes (ve s b) w).isEmpty

def execVld (b : Nat) (ecc : Ecc) (s : State) : Host.Outcome State Fault Refusal :=
  onWf (.vld b ecc) s (veRead b 0x40 ecc (someLane b) (regOp b (loadVec (fun _ => []) addrNext)))

def execVst (b : Nat) (s : State) : Host.Outcome State Fault Refusal :=
  onWf (.vst b) s (veIssue b 0x41 (regOp b (storeVec (fun _ => []) addrNext)))

def execVlds (b : Nat) (ecc : Ecc) (s : State) : Host.Outcome State Fault Refusal :=
  onWf (.vlds b ecc) s (veRead b 0x42 ecc (someLane b) (regOp b (loadVec (fun w => [iB w]) addrStride)))

def execVsts (b : Nat) (s : State) : Host.Outcome State Fault Refusal :=
  onWf (.vsts b) s (veIssue b 0x43 (regOp b (storeVec (fun w => [iB w]) addrStride)))

def execVldx (b : Nat) (ecc : Ecc) (s : State) : Host.Outcome State Fault Refusal :=
  onWf (.vldx b ecc) s (veRead b 0x44 ecc (someLane b) (regOp b (loadVec (fun _ => []) addrIndex)))

def execVstx (b : Nat) (s : State) : Host.Outcome State Fault Refusal :=
  onWf (.vstx b) s (veIssue b 0x45 (regOp b (storeVec (fun _ => []) addrIndex)))

/-! ### Per-element programs -/

/-- `n` words from an address of the operand cache, modulo 65,536. -/
def cacheWords (x : Ve) (a n : Nat) : List W32 := (List.range n).map fun i => tget 0 x.cache ((a + i) % 65536)

def eOp (e : W32) : Nat := bfld e 26 6
def eD (e : W32) : Nat := bfld e 22 4

/-- An element instruction without a reserved value (Table 5). -/
def elemOk (e : W32) : Bool := decide (eD e ≤ 7) && (decide (eOp e ≤ 9) || decide (0x10 ≤ eOp e ∧ eOp e ≤ 0x1d))

/-- Length and inputs of a program's header (R151). -/
def slotLen (ws : List W32) : Nat := bfld (ws.headD 0) 0 6
def slotInputs (ws : List W32) : Nat := bfld (ws.headD 0) 6 2

/-- EPLD: the slot takes the program; a reserved value leaves it as it was. -/
def loadSlot (w : W64) (x : Ve) : Option Ve :=
  if !scalars [iA w] then none
  else
    let a := (sr x (iA w)).toNat
    let n := slotLen (cacheWords x a 1)
    let ws := cacheWords x a (5 + n)
    if n = 0 ∨ 48 < n ∨ slotInputs ws = 0 ∨ !((ws.drop 5).all elemOk) then none
    else some { x with slots := tset x.slots (nfld (iImm w) 0 2) ws }

def execEpld (b : Nat) (ecc : Ecc) (s : State) : Host.Outcome State Fault Refusal :=
  onWf (.epld b ecc) s (veRead b 0x29 ecc (fun _ _ => true) (regOp b loadSlot))

/-- An operand of an element instruction: temporaries, inputs, the lane index, constants. An input that the header does
not name is a free value (log entry 29, DESIGN CHOICE). -/
def elemArg (ws : List W32) (ins ts : List W32) (l n : Nat) : W32 :=
  if n ≤ 7 then ts.getD n 0
  else if n ≤ 10 then (ins[n - 8]?).getD (Config.veFn 18 (BitVec.ofNat 32 (64 * n + l)))
  else if n = 11 then rne (numInt l)
  else ws.getD (n - 11) 0

/-- One element instruction (Table 5). -/
def elemFn (op : Nat) (a c d : W32) : W32 :=
  if op = 0 then fadd a c
  else if op = 1 then fsub a c
  else if op = 2 then fmul a c
  else if op = 3 then ffma a c d
  else if op = 4 then fmax a c
  else if op = 5 then fmin a c
  else if op = 6 then fabs a
  else if op = 7 then fneg a
  else if op = 8 then (match numCmp (num32 a) (.fin false 0 0) with
    | some k => if 0 < k then c else d
    | none => d)
  else if op = 9 then (if relHolds 1 a c then 0x3f800000#32 else 0)
  else veFunc (op - 0x10) a

/-- The element instructions on one lane, temporaries from +0: t0 at the end. -/
def runElem (ws ins : List W32) (l : Nat) : W32 :=
  let step (ts : List W32) (e : W32) : List W32 :=
    let arg (lo : Nat) : W32 := elemArg ws ins ts l (bfld e lo 4)
    ts.set (eD e) (elemFn (eOp e) (arg 18) (arg 14) (arg 10))
  ((ws.drop 5).foldl step (List.replicate 8 0)).headD 0

/-- One vector of EPRUN: lanes `ls` read their inputs at `as` and write t0 at `d`. A slot that no EPLD has filled gives a
free value (log entry 29, DESIGN CHOICE). -/
def runVector (ws : List W32) (as : List Nat) (d : Nat) (ls : List Nat) (x : Ve) : Ve :=
  let out := ls.map fun l =>
    (l, if ws = [] then Config.veFn 17 (BitVec.ofNat 32 (d + l))
        else runElem ws (as.map fun a => tget 0 x.cache ((a + l) % 65536)) l)
  out.foldl (fun y e => setVeWord y ((d + e.1) % 65536) e.2) x

/-- EPRUN (R152): the mask governs the last vector only. -/
def runProgram (w : W64) (x : Ve) : Option Ve :=
  if !scalars [iD w, iA w, iB w, iC w] then none
  else
    let ws := tget [] x.slots (nfld (iImm w) 0 2)
    let n := nfld (iImm w) 2 16
    let bases := ([sr x (iA w), sr x (iB w), sr x (iC w)].take (slotInputs ws)).map (·.toNat)
    some ((List.range n).foldl (fun y j =>
      runVector ws (bases.map fun a => a + 64 * j) ((sr x (iD w)).toNat + 64 * j)
        (if j + 1 = n then activeLanes x w else List.range 64) y) x)

/-- EPRUN reads words: it runs at least one vector with an active lane. -/
def runReads (b : Nat) (w : W64) (s : State) : Bool :=
  decide (1 < nfld (iImm w) 2 16) || (decide (nfld (iImm w) 2 16 = 1) && someLane b w s)

def execEprun (b : Nat) (ecc : Ecc) (s : State) : Host.Outcome State Fault Refusal :=
  onWf (.eprun b ecc) s (veRead b 0x2a ecc (runReads b) (regOp b runProgram))

end Sys2Proof.Machine
end

