-- ==== Sys2Proof/Machine/Checks.lean ====
section
/-! DEFINITION. The VE's check instructions (07 R158 to R161): tolerance, comparison, verdict.
Readings of the spec: log entry 55. -/

namespace Sys2Proof.Machine

/-! ### CKTOL (R159) -/

def two (e : Int) : Num := .fin false 1 e

/-- u and η of 04 Table 1; for MXINT8 the bound of 04 R87 stands in η. -/
def roundoff (f : Nat) : Num × Num :=
  if f = 0 ∨ f = 2 then (two (-4), two (-10))
  else if f = 1 ∨ f = 3 then (two (-3), two (-17))
  else if f = 4 then (two (-4), two (-4))
  else if f = 5 then (two (-3), two (-5))
  else if f = 6 ∨ f = 7 then (two (-2), two (-2))
  else if f = 8 then (.fin false 0 0, two (-7))
  else if f = 0x0b then (two (-8), two (-134))
  else if f = 0x0c then (two (-11), two (-25))
  else (two (-24), two (-150))

/-- Significand bits, least exponent and greatest exponent of a format's values (04 Table 1, R69). -/
def reachOf (f : Nat) : Int × Int × Int :=
  if f = 0 ∨ f = 2 ∨ f = 0x12 then (4, -9, 8)
  else if f = 1 ∨ f = 3 then (3, -16, 15)
  else if f = 4 then (4, -3, 2)
  else if f = 5 then (3, -4, 4)
  else if f = 6 ∨ f = 7 then (2, -1, 2)
  else if f = 8 then (7, -6, 1)
  else if f = 9 then (7, 0, 7)
  else if f = 0x0a then (3, 0, 3)
  else if f = 0x0b then (8, -133, 127)
  else if f = 0x0c then (11, -24, 15)
  else (24, -149, 127)

/-- Every value of format `f` is a value of format `g`. -/
def exactIn (f g : Nat) : Bool :=
  decide (f = g ∨ ((reachOf f).1 ≤ (reachOf g).1 ∧ (reachOf g).2.1 ≤ (reachOf f).2.1 ∧ (reachOf f).2.2 ≤ (reachOf g).2.2))

def upAdd (a c : W32) : W32 := roundUp (numAdd (num32 a) (num32 c))
def upMul (a c : W32) : W32 := roundUp (numMul (num32 a) (num32 c))
def upMulN (a : Num) (c : W32) : W32 := roundUp (numMul a (num32 c))

/-- A quotient of FP32 values, rounded upward. -/
def upDiv (a c : W32) : W32 :=
  match num32 a, num32 c with
  | .fin s m e, .fin t n f =>
    if n = 0 then (if m = 0 then rne .nan else enc32 0 (.inf (s != t)))
    else
      let q := m * 2 ^ 60 / n
      let r := if m * 2 ^ 60 % n = 0 then 0 else 1
      roundUp (.fin (s != t) (2 * q + r) (e - f - 61))
  | _, _ => rne .nan

/-- 3 γ(n) (04 R86), every operation rounded upward. -/
def gamma3 (n : Nat) : W32 :=
  let t := roundUp (match numInt ((n : Int) - 1) with
    | .fin s m e => .fin s m (e - 24)
    | x => x)
  upMulN (.fin false 3 0) (upDiv t (upAdd 0x3f800000#32 (fneg t)))

/-- d and e of R159 for a weight and an operand format, doubled for stochastic rounding. -/
def decodeTerms (wf of : Nat) (twice : Bool) : W32 × W32 :=
  let (u, h) := roundoff of
  let k : Num := if twice then .fin false 2 0 else .fin false 1 0
  let zero : Num := .fin false 0 0
  let (d, e) : Num × Num :=
    if wf = 0x1f then (zero, zero)
    else if wf = 0x10 ∨ wf = 0x11 then (numAdd u (numAdd (two (-24)) (numMul u (two (-24)))), h)
    else if exactIn wf of then (zero, zero)
    else (u, h)
  (roundUp (numMul k d), roundUp (numMul k e))

/-- The tolerance of one lane: G, Y, B. -/
def tolerance (n out : Nat) (de : W32 × W32) (g y bb : W32) : W32 :=
  let (uo, ho) := roundoff out
  let t := upMul (upAdd (gamma3 n) de.1) g
  let t := upAdd t (upMulN uo y)
  let t := upAdd t (upMul de.2 bb)
  upAdd t (upMul (roundUp (numInt n)) (roundUp (numAdd ho (two (-148)))))

def checkTol (w : W64) (x : Ve) : Option Ve :=
  let out := nfld (iImm w) 0 5
  let wf := nfld (iImm w) 5 5
  let of := nfld (iImm w) 10 5
  if !ofmtOk out || !(decide (wf = 0x1f) || (wfmtOk wf && afmtOk of && !(isPacked wf && decide (of = 9 ∨ of = 0x0a)))) ||
      !scalars [iA w] then none
  else some x

/-- CKTOL: G is vA, Y is vB, B is vC, n is sA. -/
def tolVec (w : W64) (x : Ve) : VReg :=
  let im := iImm w
  let de := decodeTerms (nfld im 5 5) (nfld im 10 5) (decide (nfld im 15 1 = 1))
  masked x w fun i =>
    tolerance (sr x (iA w)).toNat (nfld im 0 5) de (lane64 (vr x (iA w)) i) (lane64 (vr x (iB w)) i)
      (lane64 (vr x (iC w)) i)

def execCktol (b : Nat) (s : State) : Host.Outcome State Fault Refusal :=
  onWf (.cktol b) s (veIssue b 0x60 (regOp b fun w x => (checkTol w x).map fun x => setVr x (iD w) (tolVec w x)))

/-! ### CKCMP (R160) -/

/-- A lane passes: within the tolerance exactly, both NaN, the same infinity, or a tolerance that is NaN or infinite. -/
def lanePasses (a c t : W32) : Bool :=
  let x := num32 a
  let y := num32 c
  match num32 t with
  | .nan => true
  | .inf false => true
  | tol =>
    match x, y with
    | .nan, .nan => true
    | .inf p, .inf q => decide (p = q)
    | _, _ =>
      match numCmp (numAbs (numAdd x (numNeg y))) tol with
      | some k => decide (k ≤ 0)
      | none => false

/-- Lanes that fail. -/
def failing (w : W64) (x : Ve) : List Nat :=
  (activeLanes x w).filter fun i =>
    !lanePasses (lane64 (vr x (iA w)) i) (lane64 (vr x (iB w)) i) (lane64 (vr x (iC w)) i)

/-- The record's data: check identifier, failing lanes, and the observed and reference values of the lowest of them. -/
def checkData (w : W64) (x : Ve) (bad : List Nat) : List Byte :=
  let i := bad.headD 0
  leBytes 2 (nfld (iImm w) 0 16) ++ leBytes 8 (maskOf fun i => decide (i ∈ bad)).toNat ++
    leBytes 4 (lane64 (vr x (iA w)) i).toNat ++ leBytes 4 (lane64 (vr x (iB w)) i).toNat

/-- CKCMP: a failing lane marks the VE's verdict and the step, and raises the result check fault. With no step running the
VE continues its program, as R160 has it; a running step ends at the fault's detection with every VE program of the partition
(16 R377, Table 3 kind 10): where R160 and R377 differ the model takes R377 (log entry 55, DESIGN CHOICE). -/
def checkCompare (b : Nat) (w : W64) (s : State) : Except State (Option State) :=
  let x := ve s b
  match failing w x with
  | [] => .ok (some s)
  | bad =>
    let s := setVe s b { x with ckFailed := true }
    let s := match partOfBlock s b with
      | none => s
      | some p => modPart s p fun y => { y with step := y.step.map fun k => { k with failedVe := k.failedVe ++ [b] } }
    .ok (some (veFault s b 10 (checkData w x bad)))

def execCkcmp (b : Nat) (s : State) : Host.Outcome State Fault Refusal :=
  onWf (.ckcmp b) s (veIssue b 0x61 (checkCompare b))

/-! ### CKDONE (R161) -/

/-- CKDONE: the verdict on the running step whose id the immediate names; the next verdict starts afresh. -/
def checkDone (b : Nat) (w : W64) (s : State) : Except State (Option State) :=
  let passed := !(ve s b).ckFailed
  let s := modVe s b fun x => { x with ckFailed := false }
  match partOfBlock s b with
  | none => .ok (some s)
  | some p =>
    let report (k : Step) : Step :=
      if k.id % 65536 = nfld (iImm w) 0 16 then
        { k with verdicts := tset k.verdicts b (passed && tget true k.verdicts b) }
      else k
    .ok (some (modPart s p fun y => { y with step := y.step.map report }))

def execCkdone (b : Nat) (s : State) : Host.Outcome State Fault Refusal :=
  onWf (.ckdone b) s (veIssue b 0x62 (checkDone b))

end Sys2Proof.Machine
end

