-- ==== Sys2Proof/Machine/Clock.lean ====
section
/-! DEFINITION. Time: the local time counter and its sources (02 R25, R26), the accounting intervals (13 R315) and the alert
pulse (18 R436). Gaps between edges are operands, in ns.
Readings of the spec: log entry 70. -/

namespace Sys2Proof.Machine

/-- One advance of the counter, of 2^64 values. The watchdogs' clock stands still while injection is gated to zero (17
R417). -/
def advance (s : State) : State :=
  { s with time := { s.time with
      count := (s.time.count + 1) % 2 ^ 64
      watch := if s.power.gate = 65536 then s.time.watch else s.time.watch + 1 } }

/-- Event 0xe011 to C, A and B: KIND 1 loss, 2 return (12 Table 12); none is made while RESET_N holds the device. -/
def timerefEvent (s : State) (kind : Nat) : State :=
  if s.boot.resetN then event s [0, 1, 2] 0xe011 (leBytes 1 kind ++ zeros 7 ++ leBytes 8 (count s)) else s

/-- TIMEREF_EDGE: an edge `gap` ns after the last advance. After a declared loss it advances nothing; taking the counter
back from the oscillator less than 20 ns after an advance, it leaves the advance to the next edge. -/
def timerefEdge (gap : Nat) (s : State) : State :=
  if s.time.lost then s
  else
    let back (s : State) : State := { s with time := { s.time with bridging := false } }
    if s.time.bridging ∧ gap < 20 then back s else advance (back s)

def execTimerefEdge (sinceAdvance : Nat) (s : State) : Host.Outcome State Fault Refusal :=
  onWf (.timerefEdge sinceAdvance) s (timerefEdge sinceAdvance)

/-- OSCILLATOR_ADVANCE: 60 ns after the edge that last advanced the counter, and then once every count period. -/
def oscillatorAdvance (gap : Nat) (s : State) : State :=
  if s.time.lost ∨ s.time.bridging then advance s
  else if 60 ≤ gap then advance { s with time := { s.time with bridging := true } }
  else s

def execOscillatorAdvance (sinceEdge : Nat) (s : State) : Host.Outcome State Fault Refusal :=
  onWf (.oscillatorAdvance sinceEdge) s (oscillatorAdvance sinceEdge)

/-- TIMEREF_LOSS: no edge for 1 us. -/
def timerefLoss (gap : Nat) (s : State) : State :=
  if s.time.lost = false ∧ 1000 ≤ gap then timerefEvent { s with time := { s.time with lost := true, bridging := true } } 1
  else s

def execTimerefLoss (sinceEdge : Nat) (s : State) : Host.Outcome State Fault Refusal :=
  onWf (.timerefLoss sinceEdge) s (timerefLoss sinceEdge)

/-- TIMEREF_RETURN: the edge at which the counter returns to TIMEREF, present for `present` ns. -/
def timerefReturn (present gap : Nat) (s : State) : State :=
  if s.time.lost = true ∧ 100000 ≤ present then
    let s := { s with time := { s.time with lost := false, bridging := false } }
    timerefEvent (if gap < 20 then s else advance s) 2
  else s

def execTimerefReturn (present sinceAdvance : Nat) (s : State) : Host.Outcome State Fault Refusal :=
  onWf (.timerefReturn present sinceAdvance) s (timerefReturn present sinceAdvance)

/-! ### Accounting intervals -/

/-- Activity of a partition on a rail (13 Table 10). -/
def railActivity (a : Acct) (r : Nat) : Nat :=
  let act := tget 0 a.act
  if r = 0 then act 0 else if r = 1 then act 1 else if r = 2 then act 0 + act 1
  else if r = 4 ∨ r = 5 ∨ r = 6 then act 2 else if r = 7 then act 3 else if r = 8 then act 4
  else if r = 9 then act 5 else 0

/-- Apportion one rail's energy of the interval. -/
def apportion (s : State) (r : Nat) : State :=
  let er := tget 0 s.power.energy r - tget 0 s.power.energyMark r
  let total := ((List.range 16).map fun p => railActivity (part s p).acct r).sum
  let share (p : Nat) : Nat := if total = 0 then 0 else er * railActivity (part s p).acct r / total
  let given := ((List.range 16).map share).sum
  let s := (List.range 16).foldl (fun s p =>
    if share p = 0 then s
    else modPart s p fun x => { x with acct := { x.acct with energy := sat64 (x.acct.energy + share p) } }) s
  modPower s fun w =>
    { w with unattr := sat64 (w.unattr + (er - given)), energyMark := tset w.energyMark r (tget 0 w.energy r) }

/-- ACCOUNTING_INTERVAL: the interval of 25,000 counts that follows the last one accounted has ended. -/
def accountingInterval (s : State) : State :=
  let e := s.power.intervalEnd + 25000
  if count s < e then s
  else
    let s := (List.range 13).foldl apportion s
    let s := { s with parts := s.parts.map fun x => (x.1, { x.2 with acct := { x.2.acct with now := e, act := [] } }) }
    modPower s fun w => { w with intervalEnd := e }

def execAccountingInterval (s : State) : Host.Outcome State Fault Refusal :=
  onWf .accountingInterval s accountingInterval

/-! ### The alert land -/

/-- ALERT_PULSE_END: 10 us after the last fault record. -/
def alertEnd (s : State) : State :=
  if s.lands.alertLow ∧ s.lands.alertUntil ≤ count s then modLands s fun l => { l with alertLow := false } else s

def execAlertPulseEnd (s : State) : Host.Outcome State Fault Refusal := onWf .alertPulseEnd s alertEnd

end Sys2Proof.Machine
end

