-- ==== Sys2Proof/Machine/Publish.lean ====
section
/-! DEFINITION. The commit and the publish of a step (11 R274 to R277), the charges and ends that come with them (R259,
R261 to R263), and the step report (R272).
Readings of the spec: log entry 63. -/

namespace Sys2Proof.Machine

/-! ### Writes to the mutable window by the device itself -/

/-- Write bytes within one grain at a window offset; a write to a grain whose writes are held waits at the gate. -/
def putWindow (s : State) (p off : Nat) (bs : List Byte) : State :=
  let g := winGrain off
  let s := mirrorWrite s p off bs
  if gateHolds s g then
    modTiers s fun m => { m with gate := m.gate ++ [{ grain := g, transfer := none, off := winOff off, bytes := bs }] }
  else countStepTier (writeHome s g (winOff off) bs).2 p (ht s g).htier true bs.length

/-! ### The step report and skip record (11 R272, 08 R173, 12 R288) -/

/-- Routed layers of a model in increasing order. -/
def routedOf (m : Model) : List Nat :=
  (m.layers.map fun l => l.layer).foldl (fun xs l =>
    xs.filter (fun x => decide (x < l)) ++ [l] ++ xs.filter (fun x => decide (l < x))) []

/-- D1 and D2 of a slot in a layer of the step, as the bits 1 and 2. -/
def skipBits (k : Step) (layer slot : Nat) : Nat :=
  let d := tget (false, false) k.skip (4096 * layer + slot)
  (if d.1 then 1 else 0) + (if d.2 then 2 else 0)

/-- Bytes that hold two-bit entries, four to a byte, lowest first. -/
def packPairs (xs : List Nat) : List Byte :=
  leBytes (cdiv xs.length 4) (xs.foldr (fun x n => x + 4 * n) 0)

/-- Skip entry of one position (12 R288). -/
def skipEntry (k : Step) (layers : List Nat) (slot : Nat) : List Byte :=
  packPairs (layers.map fun l => skipBits k l slot)

/-- Pad to a multiple of 64 bytes. -/
def padLine (bs : List Byte) : List Byte := pad (64 * cdiv bs.length 64) bs

/-- The report of a committed step and the sampled tokens of its members (11 R272). -/
def stepReport (k : Step) (layers : List Nat) (ccount : Nat) (toks : List Nat) : List Byte :=
  leBytes 8 k.id ++ leBytes 8 ccount ++ leBytes 2 k.npos ++ leBytes 2 layers.length ++ zeros 44 ++
    (layers.flatMap fun l => padLine (packPairs ((List.range k.npos).map fun t => skipBits k l t))) ++
    padLine (toks.flatMap (leBytes 4))

/-- Write lines into a ring of `cap` lines at unit `base`, from line `pos`. -/
def ringWrite (s : State) (p base cap : Nat) : Nat → Nat → List Byte → State
  | 0, _, _ => s
  | n + 1, pos, bs =>
    ringWrite (putWindow s p (unitOff base + 64 * (pos % cap)) (bs.take 64)) p base cap n (pos + 1) (bs.drop 64)

/-- Key of the output buffer's entry among the entry writes that fail at a commit. -/
abbrev outputKey : Nat := 2 ^ 25

/-- Write the report into the output buffer, when the partition has one; its write position is published with the step. An entry
write that fails marks the region damaged (R271, R276 order 4). -/
def writeReport (s : State) (p : Nat) (k : Step) (m : Model) (toks : List Nat) (fail : Option Nat) : Nat × State :=
  let r := region s p m.obuf
  if r.state = 1 ∧ r.kind = 1 ∧ 0 < r.cap then
    let bs := stepReport k (routedOf m) (count s) toks
    let pos := visLen r (part s p).crec.cstep
    let n := bs.length / 64
    let s := ringWrite s p r.base r.cap n pos bs
    if fail.isSome then (0, setRegion s p m.obuf { r with state := 6 })
    else
      let r := pendRegion r k.id ((pos + n) % r.cap)
      let s := setRegion s p m.obuf r
      (1, sendEntry s p 1 m.obuf (regionBytes r))
  else (0, s)

/-! ### The commit (11 Table 9, orders 3 to 5) -/

/-- Input positions that a member processed in the step. -/
def inputsOf (m : Member) : Nat := if m.decode then 0 else m.n

/-- The step samples a token for the member: it is in decode, or its last input position is in the step (11 R255). -/
def samples (r : Req) (m : Member) : Bool := m.decode || (decide (0 < m.n) && decide (r.done + m.n = r.i))


/-- Address of a drawer entry and of a region entry, low 32 bits: the DETAIL of an entry write that fails (11 R264, R272; 12
Table 9). -/
def drawerTable : Nat := frameBytes * (266418 - 514)
def drawerDetail (i : Nat) : Nat := (drawerTable + 64 * i) % 2 ^ 32
def regionDetail (p i : Nat) : Nat := (drawerTable + 0x40000000 + 0x40000 * p + 32 * i) % 2 ^ 32

/-- The pending fields of a member's drawer or KV region are written (R274); a write that fails marks the object damaged.
Gives the number of entries written, and the failing status with its DETAIL. -/
def commitObject (s : State) (p : Nat) (k : Step) (r : Req) (n : Nat) (fail : Option Nat) :
    Nat × Option (Nat × Nat) × State :=
  let v := (part s p).crec.cstep
  let more := n * tbppOf (part s p)
  if n = 0 then (0, none, s)
  else
    match r.drawer, r.region with
    | some d, _ =>
      match fail with
      | some st => (0, some (st, drawerDetail d), setDrawerState s d 6)
      | none =>
        let e := drawer s d
        let e := pendDrawer e k.id (visSbase e v) (visSlen e v) (visTlen e v + more) (visCheck e v)
        (1, none, sendEntry (setDrawer s d e) p 0 d (drawerBytes { e with held := false }))
    | none, some i =>
      match fail with
      | some st => (0, some (st, regionDetail p i), setRegion s p i { region s p i with state := 6 })
      | none =>
        let e := region s p i
        let e := pendRegion e k.id (visLen e v + more)
        (1, none, sendEntry (setRegion s p i e) p 1 i (regionBytes e))
    | none, none => (0, none, s)

/-- The end a request meets at a commit whose fields it advanced (11 R261, in its order); `cancelled`: a CANCEL accepted before the
commit names it (01 R13). -/
def endAtCommit (r : Req) (now : Nat) (tok : Option Nat) (cancelled : Bool) : Option (Nat × Nat) :=
  if isLate r.cmd now then some (0x3001, 0)
  else if (tok.elim false fun t => decide (t ∈ r.stops)) || (tok.isSome && decide (r.g ≤ r.toks.length)) then some (0, 0)
  else if cancelled then some (0x3003, 0)
  else none

/-- What the commit has gathered so far: entries written, members not advanced, ends, charges. -/
abbrev Tally := Nat × Nat × List (Cmd × Nat × Nat) × List (Cmd × Nat × Nat)

/-- The member is skipped: a CANCEL accepted before the count that fixed the step's membership names it, whether the SF has begun
that CANCEL or not (01 R13). -/
def skipsMember (s : State) (p : Nat) (k : Step) (r : Req) (m : Member) : Bool :=
  m.skipped || !(queuedCancels s p r k.since).isEmpty

/-- Members of the step for which a token is sampled and kept. -/
def sampling (s : State) (p : Nat) (k : Step) : List Nat :=
  (k.members.filter fun m => m.ended.isNone &&
    ((findReq (part s p) m.index).elim false fun r => samples r m && !skipsMember s p k r m)).map fun m => m.index

/-- Commit one member. -/
def commitMember (p : Nat) (k : Step) (layers : List Nat) (toks fails : List (Nat × Nat)) (acc : Tally × State)
    (m : Member) : Tally × State :=
  let ((nobj, nend, ends, charges), s) := acc
  match findReq (part s p) m.index with
  | none => ((nobj, nend + 1, ends, charges), s)
  | some r =>
    let input := (r.cmd, r.tenant, r.inW * inputsOf m)
    if skipsMember s p k r m then ((nobj, nend + 1, ends ++ [(r.cmd, 0x3003, 0)], charges), s)
    else
      match m.ended with
      | some (st, d) => ((nobj, nend + 1, ends ++ [(r.cmd, st, d)], charges ++ [input]), s)
      | none =>
        match commitObject s p k r m.n (fails.lookup m.index) with
        | (_, some (st, d), s) => ((nobj, nend + 1, ends ++ [(r.cmd, st, d)], charges ++ [input]), s)
        | (n, none, s) =>
          let tok := if samples r m then toks.lookup m.index else none
          let cancelled := decide (r.cancel ≠ []) || !(queuedCancels s p r (count s)).isEmpty
          let r := { r with
            done := r.done + inputsOf m, npos := r.npos + m.n
            toks := r.toks ++ tok.toList, joined := true
            first := if r.first = 0 then k.id else r.first
            lastStep := k.id, lastCount := count s
            skips := if r.skipb then
                r.skips ++ (List.range m.n).flatMap fun i => skipEntry k layers (m.slot + i)
              else r.skips }
          let s := modReq s p m.index fun _ => r
          let e := (endAtCommit r (count s) tok cancelled).map fun e => (r.cmd, e)
          let cost := r.inW * inputsOf m + (if tok.isSome then r.outW else 0)
          ((nobj + n, nend, ends ++ e.toList, charges ++ [(r.cmd, r.tenant, cost)]), s)

/-- Send the twin the host's lines between the old and the new TLEN of a drawer commit (16 R399). -/
def mirrorTail (s : State) (p d oldLen newLen : Nat) : State :=
  if mirrored s p then
    (List.range (newLen - oldLen)).foldl (fun s i =>
      let off := unitOff (drawer s d).tbase + 64 * (oldLen + i)
      match readWindow s off 64 false with
      | (0, bs) => mirrorWrite s p off bs
      | _ => s) s
  else s

/-- Requests that hold a drawer as it becomes damaged end with 0x5501 (R271), but for those that this commit ends already. -/
def damagedEnds (s : State) (p d : Nat) (ends : List (Cmd × Nat × Nat)) : List (Cmd × Nat × Nat) :=
  (((part s p).reqs.filter fun r => decide (r.drawer = some d) && ends.all fun e => decide (e.1 ≠ r.cmd)).map fun r =>
    (r.cmd, 0x5501, 0))

/-- Commit one close or commit that rides in the step. -/
def commitRider (p : Nat) (k : Step) (fails : List (Nat × Nat)) (acc : (Nat × Nat × List (Cmd × Nat × Nat)) × State)
    (op : DrawerOp) : (Nat × Nat × List (Cmd × Nat × Nat)) × State :=
  let ((nobj, nend, ends), s) := acc
  let d := op.drawer
  let e := drawer s d
  let v := (part s p).crec.cstep
  if op.status ≠ 0 then ((nobj, nend + 1, ends), riderBack s p op op.status op.detail false)
  else
    match fails.lookup (65536 + d) with
    | some st =>
      ((nobj, nend + 1, ends ++ damagedEnds s p d ends), setDrawerState (riderBack s p op st (drawerDetail d) false) d 6)
    | none =>
      let s := if op.kind = 4 then mirrorTail s p d (visTlen e v) op.newLen else s
      let e :=
        if op.kind = 3 then pendDrawer e k.id op.newBase op.newLen 0 op.newCheck
        else pendDrawer e k.id (visSbase e v) (visSlen e v) op.newLen (visCheck e v)
      let s := sendEntry (setDrawer s d e) p 0 d (drawerBytes { e with held := false })
      ((nobj + 1, nend, ends), setOp s p { op with phase := 4 })

/-! ### The publish (11 Table 9, orders 7 and 8) -/

/-- A close whose publish has completed: the old summary and the tail are released, and the new summary moves to its tier
(11 R269 step 5). -/
def closeOn (s : State) (p : Nat) (op : DrawerOp) : State :=
  let d := drawer s op.drawer
  let old := grainsOf d.sbase d.slen ++ grainsOf d.tbase d.tcap ++ grainsOf op.newBase op.newCap
  let s := setDrawer s op.drawer { d with tbase := 0, tcap := 0 }
  let op := { op with
    phase := 1, grains := grainsOf d.pSbase d.pSlen, lastSwitch := count s, newBase := 0, newCap := 0 }
  opAdvance (releaseGrains (setOp s p op) p old) p op

/-- A drawer operation that rode in step `k` has succeeded: its reply leaves, in pair mode once the twin has confirmed the
step (16 R400). -/
def finishPub (s : State) (p k : Nat) (c : Cmd) : State :=
  let x := part s p
  if x.paired && decide (x.vstep < k) then
    let r := mkReply c (rflags s false false) 0 (count s) 0 []
    modPart (unrun s c) p fun x => { x with waitReplies := x.waitReplies ++ [(k, c.port, r)] }
  else finish s c 0 0 []

/-- An operation that rode in step `k`, whose publish has completed. -/
def riderOn (s : State) (p k : Nat) (op : DrawerOp) : State :=
  if op.kind = 3 then closeOn s p op else finishPub (dropOp s p op) p k op.cmd

/-- A request by its REQUEST. -/
def reqOf (x : Part) (c : Cmd) : Option Req := x.reqs.find? fun r => decide (r.cmd = c)

/-- Charge a tenant for a member of a published step (11 R259): off its reservation too while the request is admitted; what is
left of that of one which has ended meanwhile has been released. -/
def chargeReq (s : State) (p : Nat) (e : Cmd × Nat × Nat) : State :=
  let b := budget (part s p) e.2.1
  match reqOf (part s p) e.1 with
  | none => setBudget s p e.2.1 { chargeBudget b e.2.2 with res := b.res }
  | some r => modReq (setBudget s p e.2.1 (chargeBudget b e.2.2)) p r.index fun r => { r with charged := r.charged + e.2.2 }

/-- A request ends with the publish of step `k`. -/
def endWith (s : State) (p k : Nat) (e : Cmd × Nat × Nat) : State :=
  match reqOf (part s p) e.1 with
  | none => s
  | some r => reqEndIn s p r.index e.2.1 e.2.2 k

/-- The publish of a committed step completes (order 8; the update of PSTEP is made by the caller in pair mode and with
the commit outside it). -/
def publishComplete (s : State) (p : Nat) (w : PubWait) : State :=
  let s := modPart s p fun x =>
    { x with
      pub := none
      acct := { addWork x.acct w.step with steps := sat64 (x.acct.steps + 1) } }
  let s := w.charges.foldl (fun s e => chargeReq s p e) s
  let s := w.ends.foldl (fun s e => endWith s p w.step.id e) s
  ((part s p).ops.filter fun o => decide (o.phase = 4)).foldl (fun s o => riderOn s p w.step.id o) s

/-- Order 7 by an acknowledgement, a lapse or a takeover: one update of PSTEP, then order 8. -/
def publishNow (s : State) (p : Nat) : State :=
  match (part s p).pub with
  | none => s
  | some w =>
    publishComplete
      (modPart s p fun x => { x with crec := { x.crec with pstep := w.step.id, pcount := count s } }) p w

/-- Tenant charges of a step, summed by tenant (16 R400). -/
def tenantCharges (charges : List (Cmd × Nat × Nat)) : List PairRec :=
  let m : Tab Nat := charges.foldl (fun m e => tset m e.2.1 (tget 0 m e.2.1 + e.2.2)) []
  m.map fun e => .charge e.1 e.2

/-- Admitted requests that have joined no step, and late ones among them (11 R262). -/
def judgeWaiting (s : State) (p : Nat) : State :=
  let late := (part s p).reqs.filter fun r => !r.joined && isLate r.cmd (count s)
  endReqs s p (late.map fun r => r.index) 0x3002 0

/-- Nothing has held the partition's steps back: the next step follows this commit (01 R12). -/
def unheld (s : State) (x : Part) : Bool :=
  decide (x.pre = .running ∧ x.holds = 0 ∧ x.stuck = 0 ∧ holdLevel s = 0)

/-- Tokens of the step's report: those of the members it samples, in member order. -/
def reportToks (k : Step) (sampled : List Nat) (toks : List (Nat × Nat)) : List Nat :=
  k.members.filterMap fun m => if m.index ∈ sampled then toks.lookup m.index else none

/-- Commit the running step (orders 3 to 6): tokens by admission index, entry writes that fail by index (or 65,536 plus
the drawer's table index, or the key of the output buffer). What the tiles kept is gone with the step (03 R41). -/
def commitStep (s : State) (p : Nat) (toks fails : List (Nat × Nat)) : State :=
  match (part s p).step, activeModel (part s p) with
  | some k, some m =>
    let before := (part s p).reqs
    let kept := sampling s p k
    let ((nobj, nend, ends, charges), s) := k.members.foldl (commitMember p k (routedOf m) toks fails) ((0, 0, [], []), s)
    let riders := ridersOf s p
    let ((nobj, nend, ends), s) := riders.foldl (commitRider p k fails) ((nobj, nend, ends), s)
    let (n, s) := writeReport s p k m (reportToks k kept toks) (fails.lookup outputKey)
    let chained := unheld s (part s p)
    let s := forgetTiles s p
    let paired := (part s p).paired
    let upd (x : Part) : Part :=
      let r := { x.crec with
        round := k.round, cstep := k.id, ccount := count s, nmem := k.members.length + riders.length, nend := nend
        nobj := nobj + n, pair := paired }
      { gather k x with
        step := none, chained := chained
        crec := if paired then r else { r with pstep := k.id, pcount := count s }
        durations := (x.durations ++ [count s - k.begin]).drop (x.durations.length - 15)
        committed := x.committed + 1 }
    let k := ((part s p).step).getD k
    let s := modPart s p upd
    let w : PubWait :=
      { step := k, ccount := count s, sentAt := count s, ends := ends, charges := charges, before := before }
    let s := if mirrored s p then sendAcked s 6 p k.id [.record (crecBytes p (part s p).crec)] else s
    let s :=
      if paired then modPart s p fun x => { x with pub := some w }
      else
        -- during a sync the publish is complete here, and its CONFIRM follows the record (16 R397, R400; log entry 41, DEDUCED)
        publishComplete (if mirrored s p then sendAcked s 8 p k.id (tenantCharges charges) else s) p w
    judgeWaiting s p
  | _, _ => s

end Sys2Proof.Machine
end

