-- ==== Sys2Proof/Machine/Scans.lean ====
section
/-! DEFINITION. The scan engine (15 R369 to R372): jobs, their segments, and what the end of a job brings about.
Readings of the spec: log entry 69. -/

namespace Sys2Proof.Machine

/-! ### Weight objects (10 Table 1) -/

/-- The header carries a reserved value (R221). -/
def headerBad (h : List Byte) : Bool :=
  let otype := fld h 1 1
  let nmat := fld h 2 1
  decide (fld h 0 1 ≠ 1 ∨ 1 < otype ∨ fld h 8 4 % 64 ≠ 0 ∨ fld h 8 4 = 0) ||
    (if otype = 0 then decide (nmat = 0 ∨ 8 < nmat) else decide (nmat ≠ 0))

/-- The object's length and CHECK. -/
def objLen (h : List Byte) : Nat := fld h 8 4
def objCheck (h : List Byte) : Nat := fld h 4 4

/-- Global address of a tier offset on this chip. -/
def globalAt (s : State) (t o : Nat) : Nat := 2 ^ 50 * s.fabric.chip + 2 ^ 48 * t + o

/-- Bytes of a segment. -/
abbrev segBytes : Nat := 1048576

def segCount (j : ScanJob) : Nat := cdiv j.len segBytes

/-- A waiting job of one class with a segment still to begin, in submission order. -/
def waitingJob (s : State) (fg : Bool) : Option ScanJob :=
  s.tiers.scans.find? fun j => decide (j.fg = fg) && decide (j.started < segCount j)

def modJob (s : State) (id : Nat) (f : ScanJob → ScanJob) : State :=
  modTiers s fun m => { m with scans := m.scans.map fun j => if j.id = id then f j else j }

/-- Engine `e`, if idle, takes the next segment, of a foreground job first. -/
def takeSegment (s : State) (e : Nat) : State :=
  if thas s.tiers.engines e then s
  else
    match (waitingJob s true).or (waitingJob s false) with
    | none => s
    | some j =>
      modTiers (modJob s j.id fun j => { j with started := j.started + 1 }) fun m =>
        { m with engines := tset m.engines e (j.id, j.started) }

def fillEngines (s : State) : State := (List.range 8).foldl takeSegment s

/-- Submit a job. -/
def addScan (s : State) (addr : W64) (len expect : Nat) (cmp zw fg : Bool) (zoff : Nat) (w : ScanFor) : State :=
  fillEngines (modTiers s fun m =>
    { m with
      nextId := m.nextId + 1
      scans := m.scans ++
        [{ id := m.nextId, addr := addr, len := len, expect := BitVec.ofNat 64 expect, alg := 1, cmp := cmp, zw := zw,
           fg := fg, zoff := zoff, serves := w, started := 0, finished := 0 }] })

/-- The job is over: it leaves the engines and the list. -/
def dropJob (s : State) (id : Nat) : State :=
  fillEngines (modTiers s fun m =>
    { m with scans := m.scans.filter fun j => decide (j.id ≠ id), engines := m.engines.filter fun e => decide (e.2.1 ≠ id) })

/-- Read a run of bytes by global address on this chip: a tier offset, or the mutable window. -/
def readGlobal (s : State) (a len : Nat) : Nat × List Byte :=
  let t := gTierOf a
  if t = 3 then readSpan s (len / frameBytes + 2) (gOff a) len
  else
    let st := tierAccess s t (gOff a) len false
    if st ≠ 0 then (st, []) else (0, readTier s t (gOff a) len)

/-- Header of the object at a global address. -/
def headerAt (s : State) (a : Nat) : Nat × List Byte := readGlobal s a 64

/-- Bytes of a job, its zero window read as zero. -/
def jobBytes (s : State) (j : ScanJob) : List Byte :=
  let bs := (readGlobal s j.addr.toNat j.len).2
  if j.zw then bs.take j.zoff ++ zeros (checkWidth j.alg) ++ bs.drop (j.zoff + checkWidth j.alg) else bs

/-- Event 0xe501 (12 Table 12). -/
def mismatchEvent (s : State) (j : ScanJob) (value : Nat) : State :=
  event s [0] 0xe501
    (leBytes 8 j.addr.toNat ++ leBytes 8 j.len ++ leBytes 8 value ++ leBytes 8 j.expect.toNat ++ leBytes 1 j.alg ++ zeros 7)

/-! ### The operations that jobs serve -/

/-- A weight object of `len` bytes has been verified on this device (10 R221). -/
def verify (s : State) (a len : Nat) : State :=
  modTiers s fun m => { m with verified := (a, len) :: m.verified.filter fun e => decide (e.1 ≠ a) }

def unverify (s : State) (a : Nat) : State :=
  modTiers s fun m => { m with verified := m.verified.filter fun e => decide (e.1 ≠ a) }

/-- The object at a global address counts as verified. -/
def isVerified (s : State) (a : Nat) : Bool := s.tiers.verified.any fun e => decide (e.1 = a)

/-- The status of one object of a load check is known; with the last one the command ends (12 Table 6). -/
def checkKnown (s : State) (p id obj status : Nat) : State :=
  let mine (c : LoadCheck) : Bool := decide (c.part = p ∧ c.id = id)
  match s.tiers.checks.find? mine with
  | none => s
  | some c =>
    let objs := c.objs.zipIdx.map fun (o, i) => if i = obj then (o.1, status) else o
    if objs.all fun o => decide (o.2 ≠ 0xffff) then
      finish (modTiers s fun m => { m with checks := m.checks.filter fun c => !mine c }) c.cmd 0 0
        (objs.flatMap fun o => leBytes 2 o.2)
    else
      modTiers s fun m => { m with checks := m.checks.map fun c => if mine c then { c with objs := objs } else c }

def modReplace (s : State) (r : Replace) (f : Replace → Replace) : State :=
  modTiers s fun m => { m with replaces := m.replaces.map fun x => if x.cmd = r.cmd then f x else x }

/-- A descriptor's source lies in the object of `len` bytes at `a`. -/
def readsObj (a len : Nat) (d : BitVec 256) : Bool :=
  decide ((dKind d = 1 ∨ dKind d = 2) ∧ nfld a 0 50 ≤ nfld (dSrc d) 0 50 ∧ nfld (dSrc d) 0 50 < nfld a 0 50 + len)

/-- Partition `p` reads the object by a program of its own. -/
def progReads (s : State) (p a len : Nat) : Bool := (part s p).stream.prog.any (readsObj a len)

/-- First step of a partition to read the new weights of a replaced object: the first that is not past the barrier; 0 when it
does not read it. -/
def firstRead (s : State) (r : Replace) (p : Nat) : Nat :=
  if !thas r.past p && !progReads s p r.dst.toNat r.len then 0
  else
    let x := part s p
    let k := x.step.elim x.nextStep fun k => k.id
    if k ∉ tget [] r.past p then k else if k + 1 ∉ tget [] r.past p then k + 1 else k + 2

/-- The replacement ends (10 Table 9 step 4 or 4'): the reply gives each partition's first step with the new weights; DETAIL
goes with a memory status alone (12 Table 9). -/
def replaceDone (s : State) (r : Replace) (status detail : Nat) : State :=
  let steps := (List.range 16).flatMap fun p => leBytes 8 (firstRead s r p)
  let s := modTiers s fun m =>
    { m with
      replaces := m.replaces.filter fun x => decide (x.cmd ≠ r.cmd)
      failedObjs := if status = 0 then m.failedObjs.filter (· ≠ r.dst.toNat) else r.dst.toNat :: m.failedObjs }
  if status = 0 then finish (verify s r.dst.toNat r.len) r.cmd 0 0 steps
  else finish (unverify s r.dst.toNat) r.cmd status detail (zeros 128)

/-- A migration is over: its engine goes idle (08 Table 9). -/
def migrationEnd (s : State) (p dst : Nat) : State :=
  modPart s p fun x => { x with migrations := x.migrations.filter fun m => decide (m.dst.toNat ≠ dst) }

def modMigration (s : State) (p dst : Nat) (f : Migration → Migration) : State :=
  modPart s p fun x => { x with migrations := x.migrations.map fun m => if m.dst.toNat = dst then f m else m }

/-- The target of a migration is freed: the frames that were free when it began, but for those that something else has come to
use. -/
def freeTarget (s : State) (p dst : Nat) : State :=
  match (part s p).migrations.find? fun m => decide (m.dst.toNat = dst) with
  | none => s
  | some g =>
    let shared (f : Nat) : Bool :=
      (part s p).migrations.any fun m =>
        decide (m.dst.toNat ≠ dst ∧ gTierOf m.dst.toNat = gTierOf dst ∧ f ∈ framesOf (gOff m.dst.toNat) m.len)
    (g.fresh.filter fun f => !shared f).foldl (fun s f => setFrame s (gTierOf dst) f .free) s

/-- A job has ended: 0 with its value, a mismatch (no status, `bad`), or a tier status (15 R372). -/
def scanServed (s : State) (j : ScanJob) (status value : Nat) (bad : Bool) : State :=
  match j.serves with
  | .load p gid obj =>
    if status ≠ 0 then checkKnown (unverify s j.addr.toNat) p gid obj status
    else if bad then checkKnown (unverify s j.addr.toNat) p gid obj 0x1401
    else checkKnown (verify s j.addr.toNat j.len) p gid obj 0
  | .migration p dst =>
    let src := ((part s p).migrations.find? fun m => decide (m.dst.toNat = dst)).elim dst fun m => m.src.toNat
    let s := countTier (countTier s p (gTierOf src) false j.len) p (gTierOf dst) true j.len
    if status = 0 ∧ bad = false then
      modMigration (verify s j.addr.toNat j.len) p dst fun m => { m with phase := 2 }
    else
      let s := migrationEnd (freeTarget s p dst) p dst
      tierEvent s 2 (gTierOf j.addr.toNat) 0 p 0 0 j.addr.toNat
  | .replace dst =>
    match s.tiers.replaces.find? fun r => decide (r.dst.toNat = dst) with
    | none => s
    | some r =>
      if status ≠ 0 then replaceDone s r status (dst % 2 ^ 32)
      else if bad = false then replaceDone s r 0 0
      else if r.retried then replaceDone s r 0x5401 0
      else modReplace s r fun r => { r with phase := 1, retried := true }
  | .open_ p d =>
    match (part s p).ops.find? fun o => decide (o.drawer = d ∧ o.kind = 2) with
    | none => s
    | some op =>
      if status ≠ 0 then openFail s p op status (j.addr.toNat % 2 ^ 32)
      else if bad then openFail s p op 0x5501 0
      else opAdvance s p op
  | .close p d =>
    match (part s p).ops.find? fun o => decide (o.drawer = d ∧ o.kind = 3) with
    | none => s
    | some op =>
      setOp s p (if status = 0 then { op with newCheck := BitVec.ofNat 32 value, phase := 3 } else { op with status := status })

/-- A segment engine has finished its segment, with the status of its reads. -/
def segmentDone (s : State) (e : Nat) (status : Nat) : State :=
  match tfind s.tiers.engines e with
  | none => s
  | some (id, seg) =>
    let s := modTiers s fun m => { m with engines := tdel m.engines e }
    match s.tiers.scans.find? fun j => decide (j.id = id) with
    | none => fillEngines s
    | some j =>
      let own := (readGlobal s (j.addr.toNat + segBytes * seg) (min segBytes (j.len - segBytes * seg))).1
      let st := if own ≠ 0 then own else status
      if st ≠ 0 then scanServed (dropJob s id) j st 0 false
      else if j.finished + 1 < segCount j then fillEngines (modJob s id fun j => { j with finished := j.finished + 1 })
      else
        let value := checkValue j.alg (jobBytes s j)
        let bad := j.cmp && decide (value ≠ j.expect.toNat)
        let s := dropJob s id
        let s := if bad then mismatchEvent s j value else s
        scanServed s j 0 value bad

/-- The summary of a drawer as a job: its place in the mutable window and its bytes. -/
def summaryAddr (s : State) (unit : Nat) : W64 :=
  BitVec.ofNat 64 (2 ^ 50 * s.fabric.chip + 3 * 2 ^ 48 + unitOff unit)

end Sys2Proof.Machine
end

