-- ==== Sys2Proof/Machine/Steps.lean ====
section
/-! DEFINITION. The steps of a partition (01 R12, R13; 11 R253 to R255, R262, R276): begin, fence, commit, verdict watchdog,
deadline judgement, and the balancing update between steps (08 R176).
Readings of the spec: log entries 13, 31, 63. -/

namespace Sys2Proof.Machine

/-- The watchdog period of 2 ms, in counts of the watch clock (03 R38, 17 R417). -/
abbrev watchdog : Nat := 50000

/-! ### Beginning a step -/

/-- The SF may begin a step of the partition: primary, running, no yield or hold of its steps, no switch in progress, no
safety hold, no step running, no balancing window whose update is due (08 R176). -/
def stepFree (s : State) (p : Nat) : Bool :=
  let x := part s p
  isPrimary s p && s.boot.ready && !s.boot.safe && !s.boot.stopped && decide (x.pre = .running) &&
    decide (x.stuck = 0 ∧ x.holds = 0 ∧ holdLevel s = 0) && x.step.isNone && (activeModel x).isSome &&
    x.switching.isNone && !((activeModel x).elim false fun m => m.bal.any fun e => e.2.active && decide (e.2.period ≤ e.2.gathered))

/-- A request whose acceptance and readiness are stamped earlier than `t`, and that no publish still ends (01 R12): with the start
count, `fresh`, its admission as well. -/
def ready (x : Part) (t : Nat) (fresh : Bool) (r : Req) : Bool :=
  decide (r.cmd.acount < t ∧ (fresh = true → r.admitCount < t) ∧ r.openReady < t ∧ r.adapterReady < t) &&
    (x.pub.elim true fun w => !(w.ends.any fun e => decide (e.1 = r.cmd)))

/-- Operations that wait for a step. -/
def waitingRiders (x : Part) : List DrawerOp := x.ops.filter fun o => decide (o.phase = 2)

/-- A close message of the partition's next round from another member is held (08 R179). -/
def closeWaits (x : Part) : Bool :=
  x.ingress.closes.any fun c => decide (c.2.1 = x.nextRound) && ((activeModel x).elim false fun m => decide (c.1 ≠ m.gmem))

/-- The count that decides membership, and whether it is the start count (01 R12). How a step that follows commit k-1 is told
from one begun with no step running the spec leaves open: the commit count decides when a request was ready at that commit,
the start count otherwise, with only a rider or a close waiting too (log entry 63, DESIGN CHOICE). -/
def memberCount (s : State) (x : Part) : Nat × Bool :=
  if x.chained && (x.reqs.any (ready x x.crec.ccount false)) then (x.crec.ccount, false) else (count s, true)

/-- Positions and slots of the members (11 R254). -/
def assign (ch : Nat) : Nat → Nat → List Req → List Member
  | _, _, [] => []
  | free, slot, r :: rs =>
    let decode := decide (r.done = r.i)
    let n := if decode then 1 else min ch (min (r.i - r.done) free)
    { index := r.index, slot := slot, n := n, decode := decode, ended := none, skipped := false } ::
      assign ch (if decode then free else free - n) (slot + n) rs

/-- Place the new summary of a close before its step (11 R269 step 2), with the largest length its bound allows (log entry
19); without room the close ends with 0x2101 and the drawer is open. -/
def placeSummary (s : State) (p : Nat) (op : DrawerOp) : State :=
  if op.kind ≠ 3 then setOp s p { op with phase := 3 }
  else
    let cap := 64 * (drawer s op.drawer).size
    match placeRun s p cap with
    | none => finish (dropOp (setDrawerState s op.drawer 3) p op) op.cmd 0x2101 0 []
    | some (u, s) => setOp s p { op with phase := 3, newBase := u, newCap := cap, newLen := 0, status := 0, detail := 0 }

/-- Descriptors of an ended program are dropped; STAGEs appended after its END keep what they have begun (10 R232). -/
def cutProgram (s : State) (p : Nat) : State :=
  let m := (part s p).stream
  match (m.prog.take m.next).findIdx? fun d => decide (dKind d = 6) with
  | none => s
  | some e =>
    let n := e + 1
    let down (x : Transfer) : Transfer :=
      match x.purpose with
      | .stageRead q i d => if q = p then { x with purpose := .stageRead q (i - n) d } else x
      | .stageWrite q i d => if q = p then { x with purpose := .stageWrite q (i - n) d } else x
      | _ => x
    let s := modTiers s fun t => { t with transfers := t.transfers.map down }
    modStream s p fun m =>
      { m with
        prog := m.prog.drop n, next := m.next - n, early := (m.early.filter fun i => decide (n ≤ i)).map fun i => i - n
        active := m.active.map fun a => { a with idx := a.idx - n } }

/-- The step whose descriptors had been appended has begun: the needs of their transfers are judged, and those that have failed
end theirs (09 R216). -/
def judgeLater (s : State) (p : Nat) : State :=
  let doomed := (part s p).doomed
  let known (x : Transfer) : Transfer :=
    match x.need with
    | .later n l w => if x.part = p then { x with need := stepNeed s p n l w } else x
    | _ => x
  let s := modTiers s fun t => { t with transfers := t.transfers.map known }
  let s := modPart s p fun x => { x with doomed := [] }
  doomed.foldl (fun s (n, l, w, st, d) => endNeed s p (stepNeed s p n l w) st d) s

/-- Write a program where the SF keeps it, and append it to the engines' list (10 R226). -/
def loadProgram (s : State) (p addr : Nat) (prog : List (BitVec 256)) : State :=
  let s := writeTier s 0 addr (prog.flatMap fun d => leBytes 32 d.toNat)
  modStream s p fun m => { m with prog := m.prog ++ prog }

/-- The place of a program lies in the partition's tier 0 range. -/
def programFits (s : State) (p addr : Nat) (prog : List (BitVec 256)) : Bool :=
  decide (tierAccess s 0 addr (32 * prog.length) true = 0) &&
    bytesInRanges (part s p) 0 addr (32 * prog.length) false

/-- An expert message of the partition's running step, without rows (08 Table 7). -/
def expertHead (s : State) (p : Nat) (k : Step) (mtype layer q : Nat) : ExpertMsg :=
  { mtype := mtype, ver := 1, expert := 0, schip := s.fabric.chip, srcPart := p, dstPart := q, round := k.round, gen := k.gen
    layer := layer, step := k.id % 2 ^ 32, nrow := 0, rfmt := 0, rbytes := 0, status := 0, beats := 0, tbytes := 0
    rows := [] }

/-- Close messages of a layer to every member, each with the number of dispatches sent to it; the layer opens (08 R179,
R182). -/
def sendCloses (s : State) (p : Nat) (k : Step) (m : Model) (layer : Nat) (sent : Nat → Nat) : State :=
  let s := m.group.zipIdx.foldl (fun s ((chip, q), i) =>
    sendExpert s chip { expertHead s p k 4 layer q with nrow := sent i }) s
  modPart s p fun x =>
    { x with step := x.step.map fun k =>
        { k with filters := k.filters ++ [{ layer := layer, opened := true, limit := count s + m.rlim }] } }

/-- A step without positions runs its round all the same: it closes every routed layer as it begins (08 R179; log entry
31). -/
def emptyRound (s : State) (p : Nat) (m : Model) : State :=
  match (part s p).step with
  | none => s
  | some k => if k.npos ≠ 0 then s else m.layers.foldl (fun s l => sendCloses s p k m l.layer fun _ => 0) s

/-- A further program that the SF may append fits in its place. -/
def moreFits (s : State) (p : Nat) (more : Option (Nat × List (BitVec 256))) : Bool :=
  more.all fun e => programFits s p e.1 e.2

def loadMore (s : State) (p : Nat) (more : Option (Nat × List (BitVec 256))) : State :=
  match more with
  | none => s
  | some (addr, prog) => loadProgram s p addr prog

/-- STEP_BEGIN (01 R12, 11 R253, R254): something waits, the members are fixed and take their slots, riders' places are
made, and the program begins. With `more` the SF appends the next step's program to it (10 R232); a step whose program was
appended begins with what `prog` adds to it. -/
def beginStep (p addr : Nat) (prog : List (BitVec 256)) (more : Option (Nat × List (BitVec 256))) (s : State) : State :=
  let x := part s p
  match activeModel x with
  | none => s
  | some m =>
    let (t, fresh) := memberCount s x
    let rs := x.reqs.filter (ready x t fresh)
    let riders := waitingRiders x
    if !stepFree s p || (rs.isEmpty && riders.isEmpty && !closeWaits x) || !programFits s p addr prog || !moreFits s p more
    then s
    else
      let cut := cutProgram s p
      if (part cut p).stream.needConfig && decide ((((part cut p).stream.prog ++ prog)[0]?).elim true fun d => dKind d ≠ 5)
      then s
      else
        let s := cut
        let decoding := (rs.filter fun r => decide (r.done = r.i)).length
        let ms := assign m.ch (m.pmax - decoding) 0 rs
        let k : Step :=
          { id := x.nextStep, round := x.nextRound, gen := x.gen, begin := count s, since := t, members := ms
            npos := (ms.map fun m => m.n).sum, riders := riders.map fun o => o.drawer, ended := false, fenced := false
            fenceAt := 0, verdicts := [], failedVe := [], skip := [], picks := [], routed := [], demand := [], dispatches := [], failed := []
            filters := [], tbeats := 0, veissue := 0, tierb := [], fabSent := 0, fabRecv := 0, toks := []
            sel := m.bal.map fun e => (e.1, e.2.sel) }
        let join (r : Req) : Req := if ms.any (fun m => decide (m.index = r.index)) then { r with joined := true } else r
        let s := modPart s p fun x =>
          { x with
            step := some k, nextStep := x.nextStep + 1, nextRound := (x.nextRound + 1) % 2 ^ 32
            reqs := x.reqs.map join
            ingress := { x.ingress with
              served := x.ingress.served.filter fun e => !roundBefore e.1 x.nextRound
              cancels := x.ingress.cancels.filter fun c => !roundBefore c.2.1 x.nextRound } }
        let s := riders.foldl (fun s o => placeSummary s p o) s
        let s := modStream s p fun m => { m with needConfig := false }
        emptyRound (loadMore (loadProgram (judgeLater s p) p addr prog) p more) p m

def execStepBegin (p addr : Nat) (prog : List (BitVec 256)) (more : Option (Nat × List (BitVec 256))) (s : State) :
    Host.Outcome State Fault Refusal :=
  onWf (.stepBegin p addr prog more) s (beginStep p addr prog more)

/-! ### The fence (11 Table 9 order 1) -/

/-- Blocks of the partition whose VE is live. -/
def liveVes (s : State) (p : Nat) : List Nat :=
  (blocksOf (part s p)).filter fun b => decide (tget 0 s.tele.blockSt b = 0)

/-- A write of the partition's step has not completed. -/
def stepWrites (s : State) (p : Nat) : Bool :=
  s.tiers.transfers.any fun x => x.write && decide (x.part = p) && !outsideSteps x.purpose

/-- The length of a close's new summary is known: its check begins, or it is too long, unless a transfer of its compression has
failed (11 R269). -/
def summaryKnown (s : State) (p : Nat) (op : DrawerOp) (len : Nat) : State :=
  let d := drawer s op.drawer
  if op.status ≠ 0 then s
  else if 64 * d.size < len then setOp s p { op with newLen := len, status := 0x2106 }
  else
    let s := setOp s p { op with newLen := len, newCheck := BitVec.ofNat 32 (crc32c []) }
    if len = 0 then s
    else addScan s (summaryAddr s op.newBase) (64 * len) 0 false false true 0 (.close p op.drawer)

/-- Blocks whose verdict on the running step is failed. -/
def failedVerdicts (k : Step) : List Nat := k.failedVe ++ (k.verdicts.filter fun v => !v.2).map fun v => v.1

/-- PUBLISH_FENCE: the program has reached END and every write of the step has completed. `sums` gives the lines that the
compression graph wrote for each close that rides in the step. -/
def fence (p : Nat) (sums : List (Nat × Nat)) (s : State) : State :=
  match (part s p).step with
  | none => s
  | some k =>
    let closes := (ridersOf s p).filter fun o => decide (o.kind = 3)
    if !k.ended || k.fenced || stepWrites s p || closes.any (fun o => (sums.lookup o.drawer).isNone) then s
    else
      match failedVerdicts k with
      | b :: _ => stepAbandon s p 0x5102 b false
      | [] =>
        let s := modPart s p fun x => { x with step := some { k with fenced := true, fenceAt := s.time.watch } }
        closes.foldl (fun s o => summaryKnown s p o ((sums.lookup o.drawer).getD 0)) s

def execPublishFence (p : Nat) (sums : List (Nat × Nat)) (s : State) : Host.Outcome State Fault Refusal :=
  onWf (.publishFence p sums) s (fence p sums)

/-! ### The commit -/

/-- Live VEs of the partition that have given no verdict on the step. -/
def missingVerdicts (s : State) (p : Nat) (k : Step) : List Nat := (liveVes s p).filter fun b => !thas k.verdicts b

/-- A check of a riding close's new summary still runs. -/
def closeChecked (s : State) (p : Nat) : Bool :=
  !(s.tiers.scans.any fun j => match j.serves with | .close q _ => decide (q = p) | _ => false)

/-- STEP_COMMIT: all verdicts have passed and the publish of the last committed step has completed. `toks` names a token
for each member that samples one, `fails` the entry writes that fail. A verdict found failed ends the step here. -/
def commit (p : Nat) (toks fails : List (Nat × Nat)) (s : State) : State :=
  match (part s p).step with
  | none => s
  | some k =>
    if !k.fenced then s
    else
      match failedVerdicts k with
      | b :: _ => stepAbandon s p 0x5102 b false
      | [] =>
        if !(missingVerdicts s p k).isEmpty || (part s p).pub.isSome || (part s p).twoHomes || !closeChecked s p then s
        else if toks.map (fun e => e.1) = sampling s p k then commitStep s p toks fails
        else s

def execStepCommit (p : Nat) (toks fails : List (Nat × Nat)) (s : State) : Host.Outcome State Fault Refusal :=
  onWf (.stepCommit p toks fails) s (commit p toks fails)

/-- VERDICT_WATCHDOG_EXPIRY: 2 ms after the fence a verdict is missing; it is a stalled handshake of its VE (11 Table 9
order 2). -/
def verdictExpiry (p : Nat) (s : State) : State :=
  match (part s p).step with
  | none => s
  | some k =>
    match missingVerdicts s p k with
    | [] => s
    | b :: _ => if k.fenced ∧ k.fenceAt + watchdog ≤ s.time.watch then veFault s b 8 [] else s

def execVerdictWatchdogExpiry (p : Nat) (s : State) : Host.Outcome State Fault Refusal :=
  onWf (.verdictWatchdogExpiry p) s (verdictExpiry p)

/-- DEADLINE_JUDGEMENT (11 R262), while the partition runs no step. -/
def execDeadlineJudgement (p : Nat) (s : State) : Host.Outcome State Fault Refusal :=
  onWf (.deadlineJudgement p) s fun s => if (part s p).step.isNone then judgeWaiting s p else s

/-! ### The balancing loop (08 R174 to R176) -/

/-- FP16 as a multiple of 2^-24; finite values only. -/
def f16Int (w : BitVec 16) : Int :=
  let e := bfld w 10 5
  let m : Nat := if e = 0 then bfld w 0 10 else (1024 + bfld w 0 10) * 2 ^ (e - 1)
  if w.getLsbD 15 then -(m : Int) else m

/-- Round an exact multiple of 2^-24 to FP16, nearest even; the sum of two finite biases below 65,536 in magnitude. -/
def f16Of (v : Int) : BitVec 16 :=
  let a := v.natAbs
  let e := if a < 2048 then 0 else Nat.log2 a - 10
  let q := a / 2 ^ e
  let r := a % 2 ^ e
  let q := if 2 * r > 2 ^ e ∨ (2 * r = 2 ^ e ∧ e ≠ 0 ∧ q % 2 = 1) then q + 1 else q
  let n := if a < 1024 then a
    else
      let x := Nat.log2 (q * 2 ^ e)
      if 40 ≤ x then 0x7c00 else (x - 9) * 1024 + (q * 2 ^ e / 2 ^ (x - 10) - 1024)
  BitVec.ofNat 16 (if v < 0 then 0x8000 + n else n)

/-- The updated bias of an expert (R176). -/
def newBias (b : Balance) (total experts load : Nat) (w : BitVec 16) : BitVec 16 :=
  let x := f16Int w
  let y :=
    if experts * load > total then f16Int (f16Of (x - f16Int b.delta))
    else if experts * load < total then f16Int (f16Of (x + f16Int b.delta))
    else x
  let lim := f16Int b.bmax
  if y = x ∧ experts * load = total ∧ -lim ≤ x ∧ x ≤ lim then w
  else f16Of (if y < -lim then -lim else if lim < y then lim else y)

/-- A window that has gathered PERIOD routing steps: the unselected table is written, the selector changes, the window is
cleared, and parameters written meanwhile take effect. -/
def balanceUpdate (b : Balance) (experts : Nat) : Balance :=
  let loads := (List.range experts).map (tget 0 b.load)
  let total := loads.sum
  let cur := if b.sel then b.biasB else b.biasA
  let new := (cur.zip loads).map fun (w, l) => newBias b total experts l w
  let b := if b.sel then { b with biasA := new, sel := false } else { b with biasB := new, sel := true }
  let b := { b with gathered := 0, load := [], active := false }
  match b.next with
  | none => b
  | some (en, per, de, bm) => { b with enable := en, period := per, delta := de, bmax := bm, next := none }

/-- BIAS_UPDATE (08 R176): between steps, for a layer whose window is full. -/
def biasUpdate (p layer : Nat) (s : State) : State :=
  let x := part s p
  match x.active, activeModel x with
  | some id, some m =>
    match tfind m.bal layer with
    | none => s
    | some b =>
      if x.step.isNone && b.active && decide (b.period ≤ b.gathered) then
        let e := ((m.layers.find? fun l => decide (l.layer = layer)).elim 0 fun l => l.experts)
        modPart s p fun x => { x with models := tset x.models id { m with bal := tset m.bal layer (balanceUpdate b e) } }
      else s
  | _, _ => s

def execBiasUpdate (p layer : Nat) (s : State) : Host.Outcome State Fault Refusal :=
  onWf (.biasUpdate p layer) s (biasUpdate p layer)

end Sys2Proof.Machine
end

