-- ==== Sys2Proof/Machine/Serving.lean ====
section
/-! DEFINITION. Requests, cancels and budgets (01 R13; 11 R251, R256 to R260; 12 R290).
Readings of the spec: log entry 58. -/

namespace Sys2Proof.Machine

/-- The outcome of a command that ends when it is interpreted: status, DETAIL, body, state. -/
abbrev Answer := Nat × Nat × List Byte × State

/-- The final reply with an outcome. -/
def answer (c : Cmd) (a : Answer) : State := finish a.2.2.2 c a.1 a.2.1 a.2.2.1

/-- A reserved value at an offset of the parameter block (00 R8, 12 Table 9). -/
def reserved (s : State) (o : Nat) : Answer := (0x1202, o, [], s)

/-- The lowest offset of the listed fields that is broken. 13 R300 gives the lowest for PART_DEFINE; which one DETAIL carries for
other opcodes the spec leaves open (00 R8), and here it is the lowest (log entry 57, DESIGN CHOICE). -/
def lowest : List (Bool × Nat) → Option Nat
  | [] => none
  | (bad, o) :: r =>
    match bad, lowest r with
    | true, some x => some (min o x)
    | true, none => some o
    | false, x => x

/-! ### REQUEST -/

/-- An FP32 word that is negative, infinite or NaN; the temperature may be no such value (12 Table 7). -/
def badTemp (w : Nat) : Bool := decide (w / 2 ^ 31 = 1 ∧ w % 2 ^ 31 ≠ 0) || decide (nfld w 23 8 = 255)

/-- An FP32 word outside (0, 1]. -/
def badFraction (w : Nat) : Bool := decide (w = 0 ∨ 0x3f800000 < w)

/-- Reserved values of a REQUEST's parameter block: the lowest offset, with the vocabulary when a model is active. -/
def requestReserved (c : Cmd) (vocab : Option Nat) : Option Nat :=
  let nstop := pf c 2 1
  let i := pf c 8 2
  let high (o : Nat) : Bool := vocab.elim false fun v => decide (v ≤ pf c o 4)
  lowest
    ([(decide (4 < nstop), 2), (decide (i = 0 ∨ c.plen ≠ 0x28 + 4 * i), 8), (decide (pf c 10 2 = 0), 10),
      (badTemp (pf c 12 4), 12), (badFraction (pf c 16 4), 16)] ++
      (List.range (min nstop 4)).map (fun j => (high (0x18 + 4 * j), 0x18 + 4 * j)) ++
      (List.range ((c.plen - 0x28) / 4)).map fun j => (high (0x28 + 4 * j), 0x28 + 4 * j))

/-- T_est in counts (11 R257). -/
def tEst (x : Part) (m : Model) : Nat :=
  max (if x.committed < 16 then 25 * m.stepest else 0) (x.durations.foldl max 0)

/-- Grains that a tail or region of `lines` needs beyond those of its present run. -/
def moreGrains (base cap lines : Nat) : List Nat :=
  if lines ≤ cap then []
  else if cap = 0 then []
  else (grainsOf base lines).filter fun g => decide (g ∉ grainsOf base cap)

/-- Free tier 0 frames that an admission needs (11 Table 2 check 4). -/
def framesNeeded (s : State) (p : Nat) (d : Option Nat) (lines : Nat) : Nat :=
  match d with
  | none => grainsFor lines
  | some i =>
    let e := drawer s i
    let v := (part s p).crec.cstep
    let want := visTlen e v + lines
    if e.state = 3 then (if e.tcap = 0 then grainsFor want else (moreGrains e.tbase e.tcap want).length)
    else ((grainsOf (visSbase e v) (visSlen e v)).filter fun g => decide ((ht s g).htier ≠ 0)).length + grainsFor want

/-- Check 2 of Table 2: the drawer named. -/
def drawerCheck (s : State) (p tenant id : Nat) : Nat :=
  let e := drawer s (drawerIdx s p id)
  if (part s p).entry.dlimit ≤ id then 0x1601
  else if e.state = 0 then 0x1603
  else if e.tenant ≠ tenant then 0x1605
  else if e.state ≠ 1 ∧ e.state ≠ 2 ∧ e.state ≠ 3 then 0x1602
  else if e.held then 0x2105
  else 0

/-- Shedding or shed (17 R420). -/
def shedding (s : State) : Bool := decide (s.power.shed = 2 ∨ s.power.shed = 3)

/-- The admission checks 1 to 5 (11 Table 2); check 6 is judged after the weights are taken (R258). `room`: the service firmware
finds the places of the tail or the KV region and of the tenant's adapters. -/
def admitChecks (s : State) (p : Nat) (m : Model) (c : Cmd) (d : Option Nat) (id : Nat) (room : Bool) : Nat :=
  let x := part s p
  let i := pf c 8 2
  let g := pf c 10 2
  let lines := (i + g) * m.tbpp
  let e := d.elim Drawer.zero (drawer s)
  let v := x.crec.cstep
  let dc := if d.isSome then drawerCheck s p (pf c 0 1) id else 0
  if m.maxreq ≤ x.reqs.length then 0x2104
  else if dc ≠ 0 then dc
  else if d.isSome && decide (64 * e.size < visSlen e v + visTlen e v + lines) then 0x2106
  else if shedding s || !room || decide ((freeFrames s p 0).length < framesNeeded s p d lines) then 0x2101
  else if c.budget ≠ 0 ∧ deadline c ≤ count s + (cdiv i m.ch + g - 1 + 1) * tEst x m then 0x2102
  else 0

/-- Allocate the grains that follow an open drawer's tail, or place its tail, for `want` lines (11 R268). -/
def growTail (s : State) (p i want : Nat) : Option State :=
  let e := drawer s i
  if want ≤ e.tcap then some s
  else if e.tcap = 0 then
    (placeRun s p want).map fun (u, s) => setDrawer s i { drawer s i with tbase := u, tcap := want }
  else
    let gs := moreGrains e.tbase e.tcap want
    let x := part s p
    if gs.all fun g => ownsGrain x g && !(ht s g).v then
      (allocRun s p gs).map fun s => setDrawer s i { drawer s i with tcap := want }
    else none

/-- The tail or the KV region of an admitted request is placed: its region index, if it has one. -/
def placeFor (s : State) (p index : Nat) (d : Option Nat) (lines : Nat) : Option (Option Nat × State) :=
  match d with
  | some i =>
    let e := drawer s i
    if e.state = 3 then
      (growTail s p i (visTlen e (part s p).crec.cstep + lines)).map fun s => (none, s)
    else some (none, s)
  | none =>
    let used := (part s p).models.map fun m => m.2.obuf
    match (List.range 8192).find? fun k => decide ((region s p k).state = 0 ∧ k ∉ used) with
    | none => none
    | some k =>
      (placeRun s p lines).map fun (u, s) =>
        (some k, setRegion s p k
          { state := 1, kind := 0, owner := index, base := u, cap := lines, len := 0, pLen := 0, pStep := 0 })

/-- Lowest admission index that no admitted request holds (11 R256). -/
def freeIndex (x : Part) : Nat :=
  ((List.range (x.reqs.length + 1)).find? fun i => x.reqs.all fun r => decide (r.index ≠ i)).getD 0

/-- The tenant has adapters: its entry of the adapter table is not 0 (12 Table 8). -/
def hasAdapter (s : State) (m : Model) (tenant : Nat) : Bool :=
  let r := readGlobal s (m.tadp.toNat + 8 * tenant) 8
  decide (r.1 = 0 ∧ leNat r.2 ≠ 0)

/-- Objects that must be staged for a request: those of its tenant's list, as the SF reads it in the package's format, that lie in
tier 1 or 2 in the partition's ranges (10 R245, R246; log entry 20, DEDUCED): address and bytes. -/
def adapterObjects (s : State) (p : Nat) (list : List Nat) : List (Nat × Nat) :=
  list.filterMap fun a =>
    let n := objLen (headerAt s a).2
    if gChip a = s.fabric.chip ∧ (gTierOf a = 1 ∨ gTierOf a = 2) ∧ (headerAt s a).1 = 0 ∧ headerBad (headerAt s a).2 = false ∧
        bytesInRanges (part s p) (gTierOf a) (gOff a) n true = true then some (a, n)
    else none

/-- Objects that a REQUEST sets in motion: none where it applies no adapters or the partition keeps a copy of them. -/
def objectsFor (s : State) (m : Model) (c : Cmd) (list : List Nat) : List (Nat × Nat) :=
  let copied := (part s c.part).adapters.any fun a => decide (a.tenant = pf c 0 1)
  if nfld (pf c 1 1) 1 1 = 1 ∧ hasAdapter s m (pf c 0 1) = true ∧ copied = false then adapterObjects s c.part list else []

/-- Bytes of the adapter area that are taken: copies, and writes in flight of stages given up. -/
def areaTaken (s : State) (p : Nat) : List (Nat × Nat) :=
  ((part s p).adapters.map fun a => (a.base, a.size)) ++
    (s.tiers.transfers.filter fun x => x.write && !x.window && decide (x.part = p ∧ x.tier = 0 ∧ x.purpose = .discard)).map
      fun x => (x.addr, x.len)

/-- Tier 0 offset where `n` bytes of adapters fit into the adapter area: the lowest that is free (10 R231; log entry 20, DESIGN
CHOICE). -/
def adapterRoom (s : State) (p : Nat) (m : Model) (n : Nat) : Option Nat :=
  let first := frameBytes * (m.wfirst + m.wlayer)
  let last := first + frameBytes * m.wadapt
  let taken := areaTaken s p
  (first :: taken.map fun e => e.1 + e.2).find? fun o =>
    decide (first ≤ o ∧ o + n ≤ last) && taken.all fun e => !meets o n e.1 e.2

/-- Reads of one object become pending, each with the tier 0 offset that its bytes go to. -/
def stageObject (p tenant index : Nat) (acc : Nat × State) (e : Nat × Nat) : Nat × State :=
  let o := gOff e.1
  (acc.1 + e.2, (unitPieces o e.2).foldl (fun s (a, n) =>
    pend s (mkTransfer p (gTierOf e.1) false a n false [] (.request index) (.adapterRead p tenant (acc.1 + (a - o))))) acc.2)

/-- Begin the stage of a tenant's adapters into the window, with the need of the request that begins it (10 R246). -/
def beginAdapter (s : State) (p tenant index base : Nat) (objs : List (Nat × Nat)) : State :=
  let n := (objs.map fun e => e.2).sum
  let s := modPart s p fun x =>
    { x with adapters := x.adapters ++ [{ tenant := tenant, staged := false, base := base, size := n, stamp := 0 }] }
  (objs.foldl (stageObject p tenant index) (base, s)).2

/-- Place a request in the CS total order. -/
def insertReq : List Req → Req → List Req
  | [], r => [r]
  | q :: qs, r => if earlier r.cmd q.cmd then r :: q :: qs else q :: insertReq qs r

/-- Stop tokens of a request: its own, or the model's default ones (12 Table 7). -/
def stopsOf (m : Model) (c : Cmd) : List Nat :=
  if pf c 2 1 = 0 then m.dstop.filter (· ≠ 0xffffffff) else (List.range (pf c 2 1)).map fun j => pf c (0x18 + 4 * j) 4

/-- Count from which the adapters of a request are ready: 0 when it needs none or they stand in the window, none64 while their
stage has not completed (01 R12). -/
def adapterAt (x : Part) (c : Cmd) (objs : List (Nat × Nat)) : Nat :=
  if nfld (pf c 1 1) 1 1 = 0 then 0
  else
    match x.adapters.find? fun a => decide (a.tenant = pf c 0 1) with
    | some a => if a.staged then 0 else none64
    | none => if objs = [] then 0 else none64

/-- Count from which a request is ready but for its adapters: the completion of its drawer's open; without a drawer, and with no
stage to wait for, its admission count (01 R12). -/
def openAt (s : State) (x : Part) (d : Option Nat) (staging : Bool) : Nat :=
  match d with
  | some k => if (drawer s k).state = 3 then tget 0 x.opened k else none64
  | none => if staging then 0 else count s

/-- Admission passes (11 R256): the budget is reserved, HELD set, the index taken, the stage of adapters begun at the place
`base`, the interim reply sent. -/
def enroll (s : State) (p : Nat) (m : Model) (c : Cmd) (d reg : Option Nat) (index base : Nat) (objs : List (Nat × Nat)) :
    State :=
  let tenant := pf c 0 1
  let i := pf c 8 2
  let g := pf c 10 2
  let b := budget (part s p) tenant
  let s := setBudget s p tenant { b with res := b.res + b.inW * i + b.outW * g }
  let s := match d with
    | none => s
    | some k => setDrawer s k { drawer s k with held := true }
  let ready := adapterAt (part s p) c objs
  let r : Req :=
    { cmd := c, tenant := tenant, skipb := decide (pf c 1 1 % 2 = 1), adpt := decide (nfld (pf c 1 1) 1 1 = 1), stops := stopsOf m c
      drawer := d, region := reg, i := i, g := g
      input := (List.range i).map fun j => pf c (0x28 + 4 * j) 4
      index := index, admitCount := count s, openReady := openAt s (part s p) d (decide (ready = none64)), adapterReady := ready, inW := b.inW, outW := b.outW
      charged := 0, done := 0, toks := [], npos := 0, first := 0, lastStep := 0, lastCount := 0, joined := false
      skips := [], cancel := [] }
  let s := modPart s p fun x => { x with reqs := insertReq x.reqs r }
  let s := if objs = [] then s else beginAdapter s p tenant index base objs
  interim s c 0x0102 (count s % 2 ^ 32)

/-- The entry's weights are taken from the model when they have never been set (11 R258). -/
def takeWeights (s : State) (p tenant : Nat) (m : Model) : State :=
  let b := budget (part s p) tenant
  if b.wset then s else setBudget s p tenant { b with inW := m.inW, outW := m.outW, wset := true }

/-- REQUEST (11 R251, R256, R257; 12 R290), with the list of its tenant's adapters. -/
def requestCmd (adapters : List Nat) (c : Cmd) (s : State) : State :=
  let p := c.part
  match requestReserved c none with
  | some o => refuse s c 0x1202 o
  | none =>
    match activeModel (part s p) with
    | none => refuse s c 0x1501 0
    | some m =>
      match requestReserved c (some m.vocab) with
      | some o => refuse s c 0x1202 o
      | none =>
        let id := pf c 4 4
        let d := if id = 0xffffffff then none else some (drawerIdx s p id)
        let index := freeIndex (part s p)
        let lines := (pf c 8 2 + pf c 10 2) * m.tbpp
        let objs := objectsFor s m c adapters
        let area := adapterRoom s p m (objs.map fun e => e.2).sum
        let st := admitChecks s p m c d id ((placeFor s p index d lines).isSome && (decide (objs = []) || area.isSome))
        if st ≠ 0 then refuse s c st 0
        else
          let s := takeWeights s p (pf c 0 1) m
          let b := budget (part s p) (pf c 0 1)
          if b.bal - b.res < (b.inW * pf c 8 2 + b.outW * pf c 10 2 : Nat) then refuse s c 0x2103 0
          else
            match placeFor s p index d lines with
            | none => refuse s c 0x2101 0
            | some (reg, s) => enroll s p m c d reg index (area.getD 0) objs

/-- A MODEL_SWITCH waits for the requests before it: REQUESTs behind it wait (12 Table 6). -/
def switchWaits (s : State) (p : Nat) : Bool := (part s p).switching.isSome

def execRequest (p : Nat) (adapters : List Nat) (s : State) : Host.Outcome State Fault Refusal :=
  onWf (.request p adapters) s fun s => if switchWaits s p then s else takeCmd p (opcode 0x0301) (requestCmd adapters) s

/-! ### CANCEL (01 R13) -/

def addCancel (s : State) (p i : Nat) (c : Cmd) : State := modReq s p i fun r => { r with cancel := r.cancel ++ [c] }

/-- The member is skipped at the step's commit (first case of R13). -/
def skipMember (s : State) (p i : Nat) : State :=
  modPart s p fun x =>
    { x with step := x.step.map fun k =>
        { k with members := k.members.map fun m => if m.index = i then { m with skipped := true } else m } }

/-- CANCEL. One that is taken up while its request is no member of a running step ends the request at once, also where it was
accepted at or after the commit of the step before and the request was due to join the next one, which the spec leaves open
(log entry 58, DESIGN CHOICE). -/
def cancelCmd (c : Cmd) (s : State) : State :=
  let p := c.part
  let x := part s p
  match x.cancelDone.find? fun e => decide (e.1 = c) with
  | some (_, at_) => finishAt (modPart s p fun x => { x with cancelDone := x.cancelDone.filter fun e => decide (e.1 ≠ c) })
      c 0 at_ 0 []
  | none =>
    match x.reqs.find? fun r => decide (r.cmd.port = pf c 0 1 ∧ r.cmd.seq = pf c 4 4) with
    | none => finish s c 0x1301 0 []
    | some r =>
      let s := addCancel s p r.index c
      let member := x.step.bind fun k => (k.members.find? fun m => decide (m.index = r.index)).map fun _ => k
      match member with
      | some k => if c.acount < k.since then skipMember s p r.index else s
      | none =>
        if x.pub.elim false fun w => w.ends.any fun e => decide (e.1 = r.cmd) then s else reqEnd s p r.index 0x3003 0

def execCancel (p : Nat) (s : State) : Host.Outcome State Fault Refusal :=
  onWf (.cancel p) s (takeCmd p (opcode 0x0302) cancelCmd)

/-! ### Budgets (11 R258, R260) -/

/-- Send the twin a budget entry that a command has changed (16 R399). -/
def sendBudget (s : State) (p t : Nat) : State :=
  sendEntry s p 2 t (budgetBytes { budget (part s p) t with res := 0 })

/-- A BUDGET command: OP 0 sets BAL, 1 adds to it, 2 sets the weights. -/
def budgetOp (c : Cmd) (s : State) : Answer :=
  let p := c.part
  let t := pf c 0 1
  let b := budget (part s p) t
  let amount := sgn 64 (pf c 8 8)
  let op := pf c 1 1
  if 2 < op then reserved s 1
  else
    let b :=
      if op = 0 then { b with bal := amount }
      else if op = 1 then { b with bal := satBal (b.bal + amount) }
      else { b with inW := pf c 2 1, outW := pf c 3 1, wset := true }
    let s := sendBudget (setBudget s p t b) p t
    (0, 0, budgetBytes b, s)

def budgetCmd (c : Cmd) (s : State) : State := answer c (budgetOp c s)

/-- A BUDGET command of one OP; a reserved OP is refused by whichever row takes it. -/
def budgetOpc (op : Nat) (c : Cmd) : Bool := opcode 0x0303 c && decide (pf c 1 1 = op ∨ 2 < pf c 1 1)

def execBudgetSet (p : Nat) (s : State) : Host.Outcome State Fault Refusal :=
  onWf (.budgetSet p) s (takeCmd p (budgetOpc 0) budgetCmd)

def execBudgetAdd (p : Nat) (s : State) : Host.Outcome State Fault Refusal :=
  onWf (.budgetAdd p) s (takeCmd p (budgetOpc 1) budgetCmd)

def execBudgetSetWeights (p : Nat) (s : State) : Host.Outcome State Fault Refusal :=
  onWf (.budgetSetWeights p) s (takeCmd p (budgetOpc 2) budgetCmd)

def budgetReadCmd (c : Cmd) (s : State) : State :=
  finish s c 0 0 (budgetBytes (budget (part s c.part) (pf c 0 1)))

def execBudgetRead (p : Nat) (s : State) : Host.Outcome State Fault Refusal :=
  onWf (.budgetRead p) s (takeCmd p (opcode 0x0304) budgetReadCmd)

/-! ### Adapter stages (10 R246) -/

/-- The stage's last write has completed: its count is stamped, and the tenant's requests that waited are ready. -/
def adapterStaged (p tenant : Nat) (s : State) : State :=
  let x := part s p
  let flying := s.tiers.transfers.any fun t =>
    match t.purpose with
    | .adapterRead q u _ | .adapter q u => decide (q = p ∧ u = tenant)
    | _ => false
  if x.adapters.any (fun a => decide (a.tenant = tenant ∧ a.staged = false)) && !flying then
    modPart s p fun x =>
      { x with
        adapters := x.adapters.map fun a => if a.tenant = tenant then { a with staged := true, stamp := count s } else a
        reqs := x.reqs.map fun r => if r.tenant = tenant ∧ r.adapterReady = none64 then { r with adapterReady := count s } else r }
  else s

def execAdapterStageComplete (p tenant : Nat) (s : State) : Host.Outcome State Fault Refusal :=
  onWf (.adapterStageComplete p tenant) s (adapterStaged p tenant)

end Sys2Proof.Machine
end

