-- ==== Sys2Proof/Machine/Drawers.lean ====
section
/-! DEFINITION. The drawer and grain commands (09 R204, R205; 11 R264 to R273; 12 Table 6).
Readings of the spec: log entry 60. -/

namespace Sys2Proof.Machine

/-! ### Drawers (11 Table 6) -/

/-- The drawer that a command names is outside the namespace, free, or in a state not accepted: the status, or 0. -/
def drawerRefused (s : State) (p id : Nat) (states : List Nat) : Nat :=
  let st := (drawer s (drawerIdx s p id)).state
  if (part s p).entry.dlimit ≤ id then 0x1601
  else if st ∈ states then 0
  else if st = 0 then 0x1603
  else 0x1602

/-- Create: the entry reads closed and empty. -/
def createOp (c : Cmd) (s : State) : Answer :=
  let size := pf c 4 4
  let st := drawerRefused s c.part (pf c 0 4) [0]
  if size = 0 ∨ 16384 < size then reserved s 4
  else if st ≠ 0 then (st, 0, [], s)
  else (0, 0, [], setDrawer s (drawerIdx s c.part (pf c 0 4)) { Drawer.zero with state := 1, size := size, tenant := pf c 8 1 })

def execDrawerCreate (p : Nat) (s : State) : Host.Outcome State Fault Refusal :=
  onWf (.drawerCreate p) s (takeCmd p (opcode 0x0401) fun c s => answer c (createOp c s))

/-- Grains of a drawer's summary and tail; not those of a summary that a completed publish has replaced, which its close
released (R269). -/
def grainsOfDrawer (x : Part) (d : Drawer) : List Nat :=
  ((d.tbase, d.tcap) :: summaryRuns x d).flatMap fun r => grainsOf r.1 r.2

/-- Delete: the entry is zeroed and its space released. The grains of a mirror partition are freed by the mirroring of
frees alone (09 R211). -/
def deleteOp (c : Cmd) (s : State) : Answer :=
  let i := drawerIdx s c.part (pf c 0 4)
  let st := drawerRefused s c.part (pf c 0 4) [1, 6]
  let gs := grainsOfDrawer (part s c.part) (drawer s i)
  if st ≠ 0 then (st, 0, [], s)
  else
    let s := setDrawer s i Drawer.zero
    (0, 0, [], if isMirror s c.part then s else releaseGrains s c.part gs)

def execDrawerDelete (p : Nat) (s : State) : Host.Outcome State Fault Refusal :=
  onWf (.drawerDelete p) s (takeCmd p (opcode 0x0406) fun c s => answer c (deleteOp c s))

/-- A drawer operation in its first phase. -/
def newOp (c : Cmd) (kind drawer tier phase newLen : Nat) (grains : List Nat) : DrawerOp :=
  { kind := kind, drawer := drawer, cmd := c, grains := grains, tier := tier, lastSwitch := none64, phase := phase
    newLen := newLen, newBase := 0, newCap := 0, newCheck := 0, status := 0, detail := 0 }

def addOp (s : State) (p : Nat) (op : DrawerOp) : State := modPart s p fun x => { x with ops := x.ops ++ [op] }

/-- Grains of the summary that the partition's own readers see. -/
def summaryGrains (s : State) (p i : Nat) : List Nat := visSummary (drawer s i) (part s p).crec.cstep

/-- The partition has a range in the tier where it may place what is its own (13 R302). -/
def hasTier (x : Part) (t : Nat) : Bool := x.entry.ranges.any fun r => decide (r.2.tier = t) && !r.2.ro

/-- Open (R268): steps 1 and 2; the rest follows the check, or at once for an empty summary. -/
def openCmd (c : Cmd) (s : State) : State :=
  let p := c.part
  let i := drawerIdx s p (pf c 0 4)
  let st := drawerRefused s p (pf c 0 4) [1]
  if st ≠ 0 then refuse s c st 0
  else
    let d := drawer s i
    let v := (part s p).crec.cstep
    let op := newOp c 2 i 0 0 0 (summaryGrains s p i)
    let s := addOp (setDrawerState s i 2) p op
    if visSlen d v = 0 then opAdvance s p op
    else addScan s (summaryAddr s (visSbase d v)) (64 * visSlen d v) (visCheck d v).toNat true false true 0 (.open_ p i)

def execDrawerOpen (p : Nat) (s : State) : Host.Outcome State Fault Refusal :=
  onWf (.drawerOpen p) s (takeCmd p (opcode 0x0402) openCmd)

/-- Close (R269): STATE becomes closing, and the close waits for the partition's next step. -/
def closeCmd (c : Cmd) (s : State) : State :=
  let p := c.part
  let i := drawerIdx s p (pf c 0 4)
  let st := drawerRefused s p (pf c 0 4) [3]
  if 2 < pf c 4 1 then refuse s c 0x1202 4
  else if !hasTier (part s p) (pf c 4 1) then refuse s c 0x1204 0
  else if st ≠ 0 then refuse s c st 0
  else if (drawer s i).held then refuse s c 0x2105 0
  else addOp (setDrawerState s i 4) p (newOp c 3 i (pf c 4 1) 2 0 [])

def execDrawerClose (p : Nat) (s : State) : Host.Outcome State Fault Refusal :=
  onWf (.drawerClose p) s (takeCmd p (opcode 0x0403) closeCmd)

/-- Commit (R270), judged against the tail that the host sees (R273): it waits for the partition's next step. -/
def drawerCommitCmd (c : Cmd) (s : State) : State :=
  let p := c.part
  let i := drawerIdx s p (pf c 0 4)
  let st := drawerRefused s p (pf c 0 4) [3]
  let d := drawer s i
  if st ≠ 0 then refuse s c st 0
  else if d.held then refuse s c 0x2105 0
  else if pf c 4 4 < visTlen d (visStep (part s p) false) ∨ d.tcap < pf c 4 4 then refuse s c 0x1604 0
  else addOp s p (newOp c 4 i 0 2 (pf c 4 4) [])

def execDrawerCommit (p : Nat) (s : State) : Host.Outcome State Fault Refusal :=
  onWf (.drawerCommit p) s (takeCmd p (opcode 0x0404) drawerCommitCmd)

/-- Move: STATE becomes moving, and each summary grain outside the tier is moved there. -/
def drawerMoveCmd (c : Cmd) (s : State) : State :=
  let p := c.part
  let i := drawerIdx s p (pf c 0 4)
  let st := drawerRefused s p (pf c 0 4) [1]
  if 2 < pf c 4 1 then refuse s c 0x1202 4
  else if !hasTier (part s p) (pf c 4 1) then refuse s c 0x1204 0
  else if st ≠ 0 then refuse s c st 0
  else
    let op := newOp c 5 i (pf c 4 1) 1 0 (summaryGrains s p i)
    opAdvance (addOp (setDrawerState s i 5) p op) p op

def execDrawerMove (p : Nat) (s : State) : Host.Outcome State Fault Refusal :=
  onWf (.drawerMove p) s (takeCmd p (opcode 0x0405) drawerMoveCmd)

/-- Reads through the mutable window become pending for a DRAWER_READ: one for each 4 KiB unit (10 R224). -/
def pendRead (s : State) (p : Nat) (c : Cmd) (off len : Nat) : State :=
  (unitPieces off len).foldl (fun s (a, n) => pend s (mkTransfer p 0 false a n true [] .none (.drawer c)))
    (modTiers s fun m => { m with reads := m.reads ++ [(c, [])] })

/-- Read: lines of the summary or the tail that the host sees (R273). The data is returned when its transfers have completed. -/
def drawerReadCmd (c : Cmd) (s : State) : State :=
  let p := c.part
  let d := drawer s (drawerIdx s p (pf c 0 4))
  let st := drawerRefused s p (pf c 0 4) [1, 2, 3, 6]
  let v := visStep (part s p) false
  let off := pf c 8 4
  let len := pf c 12 4
  let (unit, top) := if pf c 4 1 = 0 then (visSbase d v, visSlen d v) else (d.tbase, visTlen d v)
  if 1 < pf c 4 1 then refuse s c 0x1202 4
  else if len = 0 ∨ 4096 < len then refuse s c 0x1202 12
  else if st ≠ 0 then refuse s c st 0
  else if d.state = 6 then refuse s c 0x5501 0
  else if top < off + len then refuse s c 0x1604 0
  else pendRead s p c (unitOff unit + 64 * off) (64 * len)

def execDrawerRead (p : Nat) (s : State) : Host.Outcome State Fault Refusal :=
  onWf (.drawerRead p) s (takeCmd p (opcode 0x0407) drawerReadCmd)

/-! ### Grains (09 Table 7) -/

/-- The trusted monitor's check of a grain and a frame, and reserved values: what refuses the command, if anything. -/
def grainRefused (c : Cmd) (s : State) (framed : Bool) : Option (Nat × Nat) :=
  let x := part s c.part
  if framed ∧ 2 < pf c 4 1 then some (0x1202, 4)
  else if !framed ∧ pf c 4 1 ≠ 0 then some (0x1202, 4)
  else if !framed ∧ pf c 8 4 ≠ 0 then some (0x1202, 8)
  else if !ownsGrain x (pf c 0 4) then some (0x1204, 0)
  else if framed ∧ !inRanges x (pf c 4 1) (pf c 8 4) 1 false then some (0x1204, 0)
  else none

/-- What an HT operation answers: DETAIL is the grain's address where it is refused. -/
def htAnswer (g : Nat) (r : Nat × State) : Answer := (r.1, if r.1 = 0 then 0 else grainDetail g, [], r.2)

def allocOp (c : Cmd) (s : State) : Answer :=
  match grainRefused c s true with
  | some (st, d) => (st, d, [], s)
  | none => htAnswer (pf c 0 4) (htAlloc s (pf c 0 4) c.part (pf c 4 1) (pf c 8 4) (isMirror s c.part))

def execGrainAlloc (p : Nat) (s : State) : Host.Outcome State Fault Refusal :=
  onWf (.grainAlloc p) s (takeCmd p (opcode 0x0501) fun c s => answer c (allocOp c s))

/-- GRAIN_MOVE: it completes with the home switch, or with the abort (09 Table 8, R206). -/
def grainMoveCmd (c : Cmd) (s : State) : State :=
  match grainRefused c s true with
  | some (st, d) => refuse s c st d
  | none =>
    match htMove s (pf c 0 4) (pf c 4 1) (pf c 8 4) (.command c) with
    | (0, s) => s
    | (st, s) => refuse s c st (grainDetail (pf c 0 4))

def execGrainMove (p : Nat) (s : State) : Host.Outcome State Fault Refusal :=
  onWf (.grainMove p) s (takeCmd p (opcode 0x0502) grainMoveCmd)

def freeOp (c : Cmd) (s : State) : Answer :=
  match grainRefused c s false with
  | some (st, d) => (st, d, [], s)
  | none => htAnswer (pf c 0 4) (htFree s (pf c 0 4))

def execGrainFree (p : Nat) (s : State) : Host.Outcome State Fault Refusal :=
  onWf (.grainFree p) s (takeCmd p (opcode 0x0503) fun c s => answer c (freeOp c s))

end Sys2Proof.Machine
end

