-- ==== Sys2Proof/Machine/Loads.lean ====
section
/-! DEFINITION. Weight objects and loads (10 R218 to R221, R239 to R242), layer replacement (R249) and the migration of
experts (08 R187).
Readings of the spec: log entry 61. -/

namespace Sys2Proof.Machine

/-! ### LOAD_GRANT (10 R239) -/

/-- Frames of the partition's window, first and number: the active model's, and that of the target of a switch in progress. -/
def windowsOf (x : Part) : List (Nat × Nat) :=
  ((x.active.toList ++ x.switching.toList.map fun w => w.mcid).filterMap (tfind x.models)).map fun m =>
    (m.wfirst, m.wlayer + m.wadapt)

/-- The grant is open: it has not closed and its life has not passed. -/
def grantOpen (s : State) (g : Grant) : Bool := g.opened && decide (count s < g.expires)

/-- Mark the frames [f, f + n) of a tier. -/
def markFrames (s : State) (t f : Nat) (x : FrameState) : Nat → State
  | 0 => s
  | n + 1 => markFrames (setFrame s t f x) t (f + 1) x n

def grantReserved (c : Cmd) : Option Nat :=
  lowest
    [(decide (15 < pf c 0 1), 0), (decide (nfld (pf c 1 1) 0 2 = 3), 1), (decide (4 < pf c 2 1), 2),
     (decide (4 < pf c 3 1), 3), (decide (pf c 8 4 = 0), 8), (decide (pf c 12 4 = 0 ∨ 86400000 < pf c 12 4), 12)]

/-- Writes of a grant that have not completed. -/
def grantWrites (s : State) (p id : Nat) : Bool :=
  s.tiers.transfers.any fun x => match x.purpose with | .load q g _ => decide (q = p ∧ g = id) | _ => false

/-- A closed grant still has writes in flight, writes to forward, or a check that waits. -/
def grantBusy (s : State) (p : Nat) (g : Grant) : Bool :=
  !g.toFwd.isEmpty || grantWrites s p g.id || s.tiers.checks.any fun c => c.waits && decide (c.part = p ∧ c.grant = g.id)

/-- Open a load grant. Its range holds plain frames from then on (log entry 21, DEDUCED). A grant that had the same GID is
closed, and kept while work of it is left. -/
def loadGrantCmd (c : Cmd) (s : State) : State :=
  let p := c.part
  let x := part s p
  let gid := pf c 0 1
  let t := nfld (pf c 1 1) 0 2
  let first := pf c 4 4
  let n := pf c 8 4
  match grantReserved c with
  | some o => refuse s c 0x1202 o
  | none =>
    if !framesInRanges x t first n true then refuse s c 0x1204 0
    else if ((List.range n).any fun i => heldFrame s t (first + i)) then refuse s c (memStatus t 5) (frameBytes * first % 2 ^ 32)
    else if (t = 0 ∧ (windowsOf x).any fun w => meets first n w.1 w.2) ∨
        (x.grants.any fun g => grantOpen s g && decide (g.gid ≠ gid ∧ g.tier = t) && meets first n g.first g.frames) then
      refuse s c 0x1402 0
    else
      let g : Grant :=
        { id := s.tiers.nextId, gid := gid, tier := t, first := first, frames := n
          src := (List.range (pf c 2 1)).map fun i => nfld (pf c (16 + 2 * i) 2) 0 14
          fwd := (List.range (pf c 3 1)).map fun i => BitVec.ofNat 64 (pf c (24 + 8 * i) 8)
          expires := count s + 25000 * pf c 12 4, failed := 0, toFwd := [], opened := true }
      let old := (x.grants.filter fun h => decide (h.gid ≠ gid) || grantBusy s p h).map fun h =>
        if h.gid = gid then { h with opened := false } else h
      let s := modTiers (modPart s p fun x => { x with grants := old ++ [g] }) fun m => { m with nextId := m.nextId + 1 }
      finish (markFrames s t first .plain n) c 0 0 []

def execLoadGrant (p : Nat) (s : State) : Host.Outcome State Fault Refusal :=
  onWf (.loadGrant p) s (takeCmd p (opcode 0x0504) loadGrantCmd)

/-- The grant that a GID names: the last one opened under it. -/
def findGrant (s : State) (p gid : Nat) : Option Grant :=
  ((part s p).grants.filter fun g => decide (g.gid = gid)).getLast?

def modGrant (s : State) (p id : Nat) (f : Grant → Grant) : State :=
  modPart s p fun x => { x with grants := x.grants.map fun g => if g.id = id then f g else g }

/-- LOAD_DATA: the bytes are written into the open grant's range; a write that no open grant admits is discarded and
reported (R240). -/
def loadDataCmd (c : Cmd) (s : State) : State :=
  let p := c.part
  let off := pf c 8 8
  let n := c.plen - 16
  if 15 < pf c 0 1 then refuse s c 0x1202 0
  else if off % 64 ≠ 0 then refuse s c 0x1202 8
  else
    match findGrant s p (pf c 0 1) with
    | some g =>
      if grantOpen s g ∧ off + n ≤ frameBytes * g.frames then
        pendWrites s p g.tier (frameBytes * g.first + off) (c.params.drop 16) .none (.load p g.id (some c))
      else refuse (isolation s p 6 s.fabric.chip 0xff (globalAt s g.tier (frameBytes * g.first + off))) c 0x1204 0
    | none => refuse (isolation s p 6 s.fabric.chip 0xff 0) c 0x1204 0

def execLoadData (p : Nat) (s : State) : Host.Outcome State Fault Refusal :=
  onWf (.loadData p) s (takeCmd p (opcode 0x0505) loadDataCmd)

/-- Begin the check of one object of a load check: its header is read, and its CRC-32C computed (R242). -/
def checkObject (p : Nat) (g : Grant) (id : Nat) (s : State) (o : Nat × Nat) : State :=
  let a := globalAt s g.tier (frameBytes * g.first + o.1)
  match headerAt s a with
  | (0, h) =>
    if headerBad h then checkKnown s p id o.2 0x1401
    else if frameBytes * g.frames < o.1 + objLen h then checkKnown s p id o.2 0x1204
    else addScan s (BitVec.ofNat 64 a) (objLen h) (objCheck h) true true false 4 (.load p id o.2)
  | (st, _) => checkKnown s p id o.2 st

def checkReserved (c : Cmd) : Option Nat :=
  let n := pf c 1 1
  lowest
    ([(decide (15 < pf c 0 1), 0), (decide (n = 0 ∨ 32 < n ∨ c.plen ≠ 8 + 8 * n), 1)] ++
      (List.range (min n 32)).map fun i => (decide (pf c (8 + 8 * i) 8 % 64 ≠ 0), 8 + 8 * i))

/-- Checks that waited for the last write of their grant begin: each object is checked; a grant that has counted a failed write
fails them all (R240). -/
def startChecks (s : State) : State :=
  let ready := s.tiers.checks.filter fun c => c.waits && !grantWrites s c.part c.grant
  ready.foldl (fun s c =>
    let mine (d : LoadCheck) : Bool := decide (d.part = c.part ∧ d.id = c.id)
    let s := modTiers s fun m =>
      { m with checks := m.checks.map fun d => if mine d then { d with waits := false } else d }
    match (part s c.part).grants.find? fun g => decide (g.id = c.grant) with
    | none => s
    | some g =>
      if g.failed ≠ 0 then (List.range c.objs.length).foldl (fun s i => checkKnown s c.part c.id i 0x1401) s
      else (c.objs.map fun o => o.1.toNat).zipIdx.foldl (checkObject c.part g c.id) s) s

/-- LOAD_CHECK: the grant closes, and its objects are checked once its writes in flight have completed. -/
def loadCheckCmd (c : Cmd) (s : State) : State :=
  let p := c.part
  match checkReserved c with
  | some o => refuse s c 0x1202 o
  | none =>
    match findGrant s p (pf c 0 1) with
    | none => refuse s c 0x1204 0
    | some g =>
      let offs := (List.range (pf c 1 1)).map fun i => pf c (8 + 8 * i) 8
      if offs.any fun o => decide (frameBytes * g.frames < o + 64) then refuse s c 0x1204 0
      else
        let id := s.tiers.nextId
        let s := modGrant s p g.id fun g => { g with opened := false }
        startChecks (modTiers s fun m =>
          { m with
            nextId := id + 1
            checks := m.checks ++
              [{ cmd := c, part := p, id := id, objs := offs.map fun o => (BitVec.ofNat 64 o, 0xffff), grant := g.id
                 waits := true }] })

def execLoadCheck (p : Nat) (s : State) : Host.Outcome State Fault Refusal :=
  onWf (.loadCheck p) s (takeCmd p (opcode 0x0506) loadCheckCmd)

/-! ### Load writes from the fabric (10 R240, R241) -/

/-- The transaction is the first of its stream that waits at the ingress. -/
def firstOfStream (s : State) (t : Txn) : Bool :=
  decide ((s.fabric.ingress.find? fun u => decide (streamKey u = streamKey t)) = some t)

/-- Take a transaction from the ingress; one with a reserved value is discarded and counted (14 R332). -/
def takeTxn (t : Txn) (ttype : Nat) (f : State → State) (s : State) : State :=
  if t.ttype = ttype ∧ firstOfStream s t then
    let s := modFabric s fun x => { x with ingress := x.ingress.erase t }
    if txnOk t then f s else modFabric s fun x => { x with discarded := x.discarded + 1 }
  else s

/-- The open grant that admits a load write. -/
def admitting (s : State) (t : Txn) : Option Grant :=
  let a := t.addr.toNat
  (part s t.dstPart).grants.find? fun g =>
    grantOpen s g && decide (t.schip ∈ g.src ∧ gTierOf a = g.tier ∧ frameBytes * g.first ≤ gOff a ∧
      gOff a + t.len ≤ frameBytes * (g.first + g.frames))

/-- The two copies of the range checker disagree on a transaction at the ingress: it is refused and recorded (16 R374). -/
def refuseChecked (s : State) (t : Txn) : State :=
  (recordFault s 17 t.dstPart 0xffff 0 0 0 (leBytes 8 t.addr.toNat) none).2

def loadWrite (agree : Bool) (t : Txn) (s : State) : State :=
  if !agree then refuseChecked s t
  else
  match admitting s t with
  | none => isolation s t.dstPart 6 t.schip t.srcPart t.addr.toNat
  | some g =>
    pendWrites s t.dstPart g.tier (gOff t.addr.toNat) t.data .none (.load t.dstPart g.id none)

/-- LOAD_WRITE_INGRESS (R240). -/
def execLoadWriteIngress (t : Txn) (agree : Bool) (s : State) : Host.Outcome State Fault Refusal :=
  onWf (.loadWriteIngress t agree) s (takeTxn t 5 (loadWrite agree t))

/-- Send bytes to a forward target as load writes within its 4 KiB units. -/
def forwardTo (p : Nat) (bs : List Byte) (s : State) (a : Nat) : State :=
  (unitPieces a bs.length).foldl (fun s (b, n) =>
    (issueTxn s
      { ttype := 5, strm := 12, dchip := gChip a, schip := s.fabric.chip, srcPart := p, dstPart := p, last := false
        addr := BitVec.ofNat 64 b, len := n, tid := 0, status := 0, aop := 0, operand := 0, data := sub bs (b - a) n }).2) s

/-- LOAD_FORWARD: the oldest write that has completed locally goes to each forward target; of grants that had one GID, the
oldest one's writes first. -/
def loadForward (p gid : Nat) (s : State) : State :=
  match (part s p).grants.find? fun g => decide (g.gid = gid) && !g.toFwd.isEmpty with
  | none => s
  | some g =>
    match g.toFwd with
    | [] => s
    | (off, bs) :: r =>
      let s := modGrant s p g.id fun g => { g with toFwd := r }
      (g.fwd.map fun a => a.toNat + off).foldl (forwardTo p bs) s

def execLoadForward (p gid : Nat) (s : State) : Host.Outcome State Fault Refusal :=
  onWf (.loadForward p gid) s (loadForward p gid)

/-- LOAD_GRANT_EXPIRY: LIFE has passed. -/
def execLoadGrantExpiry (p gid : Nat) (s : State) : Host.Outcome State Fault Refusal :=
  onWf (.loadGrantExpiry p gid) s fun s =>
    modPart s p fun x =>
      { x with grants := x.grants.map fun g =>
          if g.gid = gid ∧ g.expires ≤ count s then { g with opened := false } else g }

/-! ### LAYER_REPLACE (10 R249) -/

/-- Fields of an object's header, CHECK and the reserved bytes left out (R7). -/
def shape (h : List Byte) : List Nat := [fld h 0 1, fld h 1 1, fld h 2 1, fld h 8 4]

/-- Fields of a matrix entry, its reserved bytes left out. -/
def entryShape (e : List Byte) : List Nat :=
  [fld e 0 1, fld e 4 4, fld e 8 4, fld e 12 4, fld e 16 4, fld e 20 4, fld e 24 4]

/-- Fields of a directory of `n` matrices. -/
def dirShape (bs : List Byte) (n : Nat) : List (List Nat) := (List.range n).map fun i => entryShape (sub bs (64 + 32 * i) 32)

/-- The object at `a` is the source or target of a migration. -/
def underMigration (s : State) (a : Nat) : Bool :=
  s.parts.any fun e => e.2.migrations.any fun m => decide (m.src.toNat = a ∨ m.dst.toNat = a)

/-- Descriptors of the list, with their numbers, that read the object. -/
def readers (m : Stream) (a len : Nat) : List Nat :=
  (m.prog.zipIdx.filter fun d => readsObj a len d.1).map fun d => d.2

/-- Step 1 of Table 9: the steps that have taken a descriptor reading T, appended STAGEs included, are past the barrier (that a
taken descriptor counts before its first transfer is issued: log entry 61, DEDUCED). -/
def barrier (s : State) (a len : Nat) : Tab (List Nat) :=
  ((List.range 16).filter fun p => progReads s p a len).map fun p =>
    let x := part s p
    (p, dedup (((readers x.stream a len).filter (descTaken x.stream)).map (descStep x)))

def layerReplaceCmd (c : Cmd) (s : State) : State :=
  let src := pf c 0 8
  let dst := pf c 8 8
  if !isVerified s src then refuse s c 0x1405 0
  else
    match headerAt s src, headerAt s dst with
    | (0, h), (0, g) =>
      let n := 64 + 32 * fld h 2 1
      let dirs := (readGlobal s src n, readGlobal s dst n)
      if headerBad h ∨ fld h 1 1 ≠ 0 ∨ objLen h < n ∨ shape h ≠ shape g ∨ dirs.1.1 ≠ 0 ∨ dirs.2.1 ≠ 0 ∨
          dirShape dirs.1.2 (fld h 2 1) ≠ dirShape dirs.2.2 (fld h 2 1) then refuse s c 0x1403 0
      else if underMigration s dst ∨ s.tiers.replaces.any fun r => decide (r.dst.toNat = dst) then refuse s c 0x1404 0
      else
        let r : Replace :=
          { cmd := c, src := BitVec.ofNat 64 src, dst := BitVec.ofNat 64 dst, len := objLen h, phase := 1, retried := false
            past := barrier s dst (objLen h) }
        modTiers s fun m => { m with replaces := m.replaces ++ [r] }
    | (0, _), (st, _) => refuse s c st (dst % 2 ^ 32)
    | (st, _), _ => refuse s c st (src % 2 ^ 32)

def execLayerReplace (s : State) : Host.Outcome State Fault Refusal :=
  onWf .layerReplace s (takeCmd 16 (opcode 0x0206) layerReplaceCmd)

/-- A transfer reads the object: its stream descriptor does, or it reads the bytes by tier offset. -/
def transferReads (a len : Nat) (x : Transfer) : Bool :=
  !x.write && !x.window && decide (x.tier = gTierOf a) && meets (gOff a) len x.addr x.len

/-- Step 2's condition: every step past the barrier has completed its last descriptor reading T, and no transfer reading
T is left. -/
def barrierClear (s : State) (r : Replace) : Bool :=
  !(s.tiers.transfers.any (transferReads r.dst.toNat r.len)) &&
    r.past.all fun e =>
      let x := part s e.1
      !(x.stream.active.any fun a => readsObj r.dst.toNat r.len a.desc) &&
        (readers x.stream r.dst.toNat r.len).all fun i => descTaken x.stream i || decide (descStep x i ∉ e.2)

/-- Move engines at work (09 R205): copying moves and replacements; a migration's copy is made at once as it begins. -/
def enginesBusy (s : State) : Nat :=
  (s.tiers.moves.filter fun m => m.copying && !m.switched).length +
    (s.tiers.replaces.filter fun r => decide (r.phase = 2)).length

def execReplaceCopyStart (s : State) : Host.Outcome State Fault Refusal :=
  onWf .replaceCopyStart s fun s =>
    match s.tiers.replaces.find? fun r => decide (r.phase = 1) && barrierClear s r with
    | none => s
    | some r => if enginesBusy s < 32 then modReplace s r fun r => { r with phase := 2 } else s

/-- The partition that a device's own work on a tier range counts for: the lowest whose ranges hold its first frame, 0 when none
does (log entry 61, DESIGN CHOICE). -/
def rangeOwner (s : State) (t o : Nat) : Nat :=
  ((List.range 16).find? fun p => inRanges (part s p) t (o / frameBytes) 1 true).getD 0

/-- The copy is complete: T is scanned and compared with its CHECK (step 3). Its bytes are counted then (13 R314). -/
def replaceCopied (s : State) : State :=
  match s.tiers.replaces.find? fun r => decide (r.phase = 2) with
  | none => s
  | some r =>
    let a := r.src.toNat
    let b := r.dst.toNat
    let s := modReplace s r fun r => { r with phase := 3 }
    let st := tierAccess s (gTierOf a) (gOff a) r.len true
    let st' := tierAccess s (gTierOf b) (gOff b) r.len true
    if st ≠ 0 then replaceDone s r st (a % 2 ^ 32)
    else if st' ≠ 0 then replaceDone s r st' (b % 2 ^ 32)
    else
      let s := unverify (copyBytes s (gTierOf a) (gOff a) (gTierOf b) (gOff b) r.len) b
      let p := rangeOwner s (gTierOf b) (gOff b)
      let s := countTier (countTier s p (gTierOf a) false r.len) p (gTierOf b) true r.len
      match headerAt s b with
      | (0, h) => addScan s r.dst r.len (objCheck h) true true false 4 (.replace b)
      | (st, _) => replaceDone s r st (b % 2 ^ 32)

def execReplaceCopyDone (s : State) : Host.Outcome State Fault Refusal := onWf .replaceCopyDone s replaceCopied

/-! ### Migration of an expert (08 R187) -/

/-- Experts of a layer, and the layer's first index in the layer-major expert map (12 Table 8, XMAP). -/
def expertsOf (m : Model) (layer : Nat) : Nat := ((m.layers.find? fun l => decide (l.layer = layer)).elim 0 fun l => l.experts)

def mapIndex (m : Model) (layer expert : Nat) : Nat :=
  ((m.layers.filter fun l => decide (l.layer < layer)).map fun l => l.experts).sum + expert

/-- Tier 0 offset of an expert map entry. -/
def mapOffset (m : Model) (layer expert : Nat) : Nat := gOff m.xmap.toNat + 16 * mapIndex m layer expert

/-- An expert map entry (08 Table 6). -/
def parseX (bs : List Byte) : XEntry :=
  { addr := BitVec.ofNat 64 (fld bs 0 8), len := fld bs 8 4, hmem := nfld (fld bs 12 1) 0 4
    v := decide (fld bs 13 1 % 2 = 1) }

/-- The expert map entry that stands in tier 0; one that does not read counts as not valid. -/
def mapEntry (s : State) (m : Model) (layer expert : Nat) : XEntry :=
  let r := readGlobal s (globalAt s 0 (mapOffset m layer expert)) 16
  if r.1 = 0 then parseX r.2 else { addr := 0, len := 0, hmem := 0, v := false }

/-- Where a migration may put its copy: frames of the partition's ranges that are free, or plain and in no window and no grant of
it, with no other object's bytes in the place (which places the SF may choose beyond the spec's tier ranges: log entry 61,
DEDUCED). -/
def targetFree (s : State) (p t o len : Nat) : Bool :=
  let x := part s p
  let plainOk (f : Nat) : Bool :=
    decide (frameSt s t f = .plain) &&
      !(decide (t = 0) && x.models.any fun m => decide (m.2.wfirst ≤ f ∧ f < m.2.wfirst + m.2.wlayer + m.2.wadapt)) &&
      !(x.grants.any fun g => grantOpen s g && decide (g.tier = t ∧ g.first ≤ f ∧ f < g.first + g.frames))
  (framesOf o len).all (fun f => inRanges x t f 1 false && (decide (frameSt s t f = .free) || plainOk f)) &&
    !(s.tiers.verified.any fun e => decide (gTierOf e.1 = t) && meets (gOff e.1) e.2 o len) &&
    !(s.parts.any fun e => e.2.migrations.any fun m => decide (gTierOf m.dst.toNat = t) && meets (gOff m.dst.toNat) m.len o len)

/-- Order 1: the copy to a target in the partition's ranges, aligned as an object is (10 R218), then the scan of the target. -/
def migrationStart (p layer expert target : Nat) (s : State) : State :=
  let x := part s p
  match x.active, activeModel x with
  | some id, some m =>
    let e := mapEntry s m layer expert
    let a := e.addr.toNat
    let t := gTierOf target
    let fs := framesOf (gOff target) e.len
    if expert < expertsOf m layer ∧ isPrimary s p ∧ e.v = true ∧ e.hmem = m.gmem ∧ e.len ≠ 0 ∧
        gChip a = s.fabric.chip ∧ gChip target = s.fabric.chip ∧ gTierOf a < 3 ∧ t < 3 ∧ target % 64 = 0 ∧
        isVerified s a ∧ (s.tiers.replaces.any fun r => decide (r.dst.toNat = a)) = false ∧
        (x.migrations.any fun g => decide (g.src.toNat = a)) = false ∧ enginesBusy s < 32 ∧
        targetFree s p t (gOff target) e.len ∧
        tierAccess s (gTierOf a) (gOff a) e.len true = 0 ∧ tierAccess s t (gOff target) e.len true = 0 then
      let fresh := fs.filter fun f => decide (frameSt s t f = .free)
      let s := markFrames s t (gOff target / frameBytes) .plain fs.length
      let s := copyBytes s (gTierOf a) (gOff a) t (gOff target) e.len
      let g : Migration :=
        { layer := layer, expert := expert, model := id, src := e.addr, dst := BitVec.ofNat 64 target, len := e.len
          phase := 1, fresh := fresh }
      let s := modPart s p fun x => { x with migrations := x.migrations ++ [g] }
      addScan s (BitVec.ofNat 64 target) e.len (objCheck (headerAt s target).2) true true false 4 (.migration p target)
    else s
  | _, _ => s

def execMigrationStart (p layer expert target : Nat) (s : State) : Host.Outcome State Fault Refusal :=
  onWf (.migrationStart p layer expert target) s (migrationStart p layer expert target)

/-- Order 3: between steps, ADDR of the map entry is written in one 8-byte update, for the oldest migration of the partition whose
check has passed. The entry is writable as any other place of tier 0 is (10 R244, 09 R203); where it is not, the migration waits. -/
def migrationMap (p : Nat) (s : State) : State :=
  let x := part s p
  match x.migrations.find? fun g => decide (g.phase = 2) with
  | none => s
  | some g =>
    match tfind x.models g.model with
    | none => s
    | some m =>
      let o := mapOffset m g.layer g.expert
      if x.step = none ∧ bytesInRanges x 0 o 8 false = true ∧ tierAccess s 0 o 8 true = 0 then
        let s := writeTier s 0 o (leBytes 8 g.dst.toNat)
        modMigration s p g.dst.toNat fun g => { g with phase := 3 }
      else s

def execMigrationMapUpdate (p : Nat) (s : State) : Host.Outcome State Fault Refusal :=
  onWf (.migrationMapUpdate p) s (migrationMap p)

/-- The frame holds bytes of a verified object other than the one at `a`, or of a migration's target. -/
def otherObject (s : State) (a t f : Nat) : Bool :=
  (s.tiers.verified.any fun o => decide (o.1 ≠ a ∧ gTierOf o.1 = t) && decide (f ∈ framesOf (gOff o.1) o.2)) ||
    s.parts.any fun e => e.2.migrations.any fun m =>
      decide (gTierOf m.dst.toNat = t) && decide (f ∈ framesOf (gOff m.dst.toNat) m.len)

/-- Order 4: no transfer issued from the old copy is left; the frames that held it alone are freed. -/
def migrationRelease (p : Nat) (s : State) : State :=
  let gone (g : Migration) : Bool :=
    decide (g.phase = 3) && !(s.tiers.transfers.any (transferReads g.src.toNat g.len))
  match (part s p).migrations.find? gone with
  | none => s
  | some g =>
    let a := g.src.toNat
    let fs := (framesOf (gOff a) g.len).filter fun f =>
      decide (frameSt s (gTierOf a) f = .plain) && !otherObject s a (gTierOf a) f
    fs.foldl (fun s f => setFrame s (gTierOf a) f .free) (unverify (migrationEnd s p g.dst.toNat) a)

def execMigrationRelease (p : Nat) (s : State) : Host.Outcome State Fault Refusal :=
  onWf (.migrationRelease p) s (migrationRelease p)

/-! ### The scan engine and moves: their rows -/

/-- SCAN_SEGMENT_DONE: an engine has read its segment, with the status its reads met (15 R371). -/
def execScanSegmentDone (engine status : Nat) (s : State) : Host.Outcome State Fault Refusal :=
  onWf (.scanSegmentDone engine status) s fun s =>
    if status = 0 ∨ (status / 1024 = 16 ∧ status % 256 ∈ [1, 2, 3]) then segmentDone s engine status else s

/-- The service firmware's own placement of a mirror grain (09 R211): it moves the grain to a frame of the mirror's ranges, where
the home table accepts that. -/
def ownMove (s : State) (g : Nat) (own : Option (Nat × Nat)) : State :=
  match own with
  | none => s
  | some (t, f) =>
    if (ht s g).mir && inRanges (part s (ht s g).part) t f 1 false then (htMove s g t f .own).2 else s

/-- MOVE_COPY_START: every write to the grain accepted before the move has completed, and a move engine is free. With `own` the
move is the service firmware's own, of a mirror grain, and is accepted here. -/
def execMoveCopyStart (g : Nat) (own : Option (Nat × Nat)) (s : State) : Host.Outcome State Fault Refusal :=
  onWf (.moveCopyStart g own) s fun s =>
    let s := ownMove s g own
    match findMove s g with
    | none => s
    | some m =>
      if m.copying || writeOutstanding s g || copyWaits s m || decide (32 ≤ enginesBusy s) then s else moveCopy s m

/-- What the copy's accesses met: what the device's own state gives, or the status a tier gave, uncorrectable or late (0x4T01,
0x4T02), for the source or the destination tier. -/
def copyEnd (s : State) (m : Move) (status : Nat) : Nat :=
  let own := copyStatus s m
  if own ≠ 0 then own
  else if status ∈ [memStatus m.srcTier 1, memStatus m.srcTier 2, memStatus m.dstTier 1, memStatus m.dstTier 2] then status
  else 0

/-- MOVE_SWITCH: the last chunk is written, with the count below the limit count; a copy access that failed or was late aborts the
move instead (09 R206). -/
def execMoveSwitch (g status : Nat) (s : State) : Host.Outcome State Fault Refusal :=
  onWf (.moveSwitch g status) s fun s =>
    match findMove s g with
    | none => s
    | some m =>
      if !m.copying || m.switched || copyWaits s m || decide (m.limit ≤ count s) then s
      else if copyEnd s m status ≠ 0 then moveAbort s g (copyEnd s m status)
      else moveSwitch s m

/-- The frames of a freed grain whose reads in flight have completed become free (09 Table 7). -/
def freedDone (s : State) (g : Nat) : State :=
  let done := s.tiers.freeing.filter fun e => decide (e.1 = g) && !readOutstanding s e.2.1 e.2.2
  let s := done.foldl (fun s e => setFrame s e.2.1 e.2.2 .free) s
  modTiers s fun m => { m with freeing := m.freeing.filter fun e => decide (e ∉ done) }

/-- MOVE_RELEASE: every read translated before the switch, or before the grain was freed, has completed. -/
def execMoveRelease (g : Nat) (s : State) : Host.Outcome State Fault Refusal :=
  onWf (.moveRelease g) s fun s =>
    match findMove s g with
    | none => freedDone s g
    | some m =>
      let s := freedDone s g
      if m.switched && !readOutstanding s m.srcTier m.srcFrame then moveRelease s m else s

/-- MOVE_LIMIT_REACHED: the limit count is reached before the switch (09 R206). -/
def execMoveLimitReached (g : Nat) (s : State) : Host.Outcome State Fault Refusal :=
  onWf (.moveLimitReached g) s fun s =>
    match findMove s g with
    | none => s
    | some m => if m.limit ≤ count s ∧ m.switched = false then moveAbort s g 0x4308 else s

end Sys2Proof.Machine
end

