-- ==== Sys2Proof/Machine/Streams.lean ====
section
/-! DEFINITION. The stream engines (10 R226 to R238): the rows of a stream program's descriptors, the grant and the end of
transfers, and what the memory tiers do of themselves (09 R200, R212, R217; 16 R382).
Readings of the spec: log entry 62. -/

namespace Sys2Proof.Machine

/-! ### Taking a descriptor -/

/-- The model whose window the program stages into: a switch's target, or the active model. -/
def streamModel (x : Part) : Option Model :=
  match x.switching with
  | some w => tfind x.models w.mcid
  | none => activeModel x

/-- The run lies in the partition's window (R231). -/
def inStreamWindow (x : Part) (a len : Nat) : Bool :=
  (streamModel x).elim false fun m =>
    decide (gTierOf a = 0 ∧ frameBytes * m.wfirst ≤ gOff a ∧
      gOff a + len ≤ frameBytes * (m.wfirst + m.wlayer + m.wadapt))

/-- A program fault of the engines (R230, R233): the record names the partition, the step and the descriptor; the step
ends, or the switch whose program it is. -/
def streamFault (s : State) (p idx kind status : Nat) : State :=
  let (n, s) := recordFault s kind p 0xffff (stepId s p) 0 0 (leBytes 4 idx) none
  let detail := if kind = 13 then idx else n
  match (part s p).step with
  | none => switchFail (lastDrain s p) p status detail
  | some _ => stepFault s p status detail

/-- The fault together with the isolation event of an address outside the partition (13 Table 4). -/
def streamOutside (s : State) (p idx addr : Nat) : State :=
  streamFault (isolation s p 2 s.fabric.chip 0xff addr) p idx 13 0x5103

/-- The two copies of the range checker disagree on an address of a descriptor: the access is refused, and the step ends, or the
switch whose program it is (16 R374; log entry 50). -/
def checkerFault (s : State) (p addr : Nat) : State :=
  let (n, s) := recordFault s 17 p 0xffff (stepId s p) 0 0 (leBytes 8 addr) none
  match (part s p).step with
  | none => switchFail (lastDrain s p) p 0x5101 n
  | some _ => stepFault s p 0x5101 n

/-- The step that the descriptor belongs to is past the barrier of a replacement. -/
def pastBarrier (s : State) (p idx : Nat) (r : Replace) : Bool := decide (descStep (part s p) idx ∈ tget [] r.past p)

/-- A replacement holds the descriptor at its barrier (R249). -/
def heldAtBarrier (s : State) (p idx : Nat) (d : BitVec 256) : Bool :=
  s.tiers.replaces.any fun r => readsObj r.dst.toNat r.len d && !pastBarrier s p idx r

/-- The descriptor reads an object in the failed state (R249 4'). -/
def readsFailed (s : State) (d : BitVec 256) : Bool :=
  s.tiers.failedObjs.any fun a => readsObj a (objLen (headerAt s a).2) d

/-- The oldest descriptor whose transfers have not all completed; else the next one. -/
def oldest (m : Stream) : Nat := (m.active.map fun a => a.idx).foldl min m.next

/-- The engines may take the descriptor that comes next: a step runs whose program has not ended, or a switch runs its
program; past END only a STAGE; within the lookahead of 256 (R232). -/
def mayTake (s : State) (p : Nat) (d : BitVec 256) : Bool :=
  let x := part s p
  let m := x.stream
  (match x.step with
    | some k => !k.ended || decide (dKind d = 2)
    | none => x.switching.isSome || (decide (dKind d = 2) && endTaken m)) &&
    !halted x && decide (m.next ≤ oldest m + 256) && !heldAtBarrier s p m.next d

/-- Step over descriptors that were taken early, with fuel for their number. -/
def skipEarly : Nat → Stream → Stream
  | 0, m => m
  | n + 1, m =>
    if m.next ∈ m.early then skipEarly n { m with next := m.next + 1, early := m.early.filter fun i => decide (i ≠ m.next) }
    else m

/-- Move past the next descriptor, a conditional one using up its bit. -/
def passDesc (s : State) (p : Nat) : State :=
  modStream s p fun m =>
    skipEarly m.early.length { m with next := m.next + 1, cond := m.cond - 1, mask := m.mask >>> 1 }

/-- Move past a descriptor: the next one, or a STAGE of the next step's program that passes those before it. -/
def passAt (s : State) (p idx : Nat) : State :=
  if idx = (part s p).stream.next then passDesc s p else modStream s p fun m => { m with early := m.early ++ [idx] }

/-- The row of one kind takes the next descriptor when it has that kind (a reserved KIND goes to the FEED row): a
conditional descriptor of another kind than FEED, STAGE or DRAIN is a fault, one whose bit is 0 is skipped (R230, R233). -/
def takeDesc (p kind : Nat) (f : Nat → BitVec 256 → State → State) (s : State) : State :=
  let m := (part s p).stream
  match m.prog[m.next]? with
  | none => s
  | some d =>
    let reservedKind := decide (dKind d = 0 ∨ 6 < dKind d)
    if !(decide (dKind d = kind) || (reservedKind && decide (kind = 1))) || !mayTake s p d then s
    else if reservedKind ∨ (m.cond ≠ 0 ∧ dKind d ∈ [3, 5, 6]) then streamFault s p m.next 13 0x5103
    else if m.cond ≠ 0 ∧ m.mask.getLsbD 0 = false then passDesc s p
    else f m.next d s

/-- A descriptor becomes one in progress. -/
def activate (s : State) (p idx : Nat) (d : BitVec 256) : State :=
  let a (e : BitVec 4) : Active :=
    { idx := idx, desc := d, issued := 0, left := 0, got := [], words := [], done := 0, epoch := e, waited := false }
  modStream (passAt s p idx) p fun m => { m with active := m.active ++ [a m.epoch] }

/-- The need of a descriptor that reads a failed object ends. -/
def failObject (s : State) (p idx : Nat) (d : BitVec 256) : State :=
  if readsFailed s d then endNeed s p (dNeedOf s p idx d) 0x5401 0 else s

/-- The queue that DEST names lies in the partition's blocks. -/
def destOk (x : Part) (d : BitVec 256) : Bool := x.entry.bcols.getLsbD (colOf (destBlock (dDest d)))

/-! ### The rows -/

/-- FEED (R227). -/
def feedDesc (p : Nat) (agree : Bool) (idx : Nat) (d : BitVec 256) (s : State) : State :=
  let x := part s p
  let n := 64 * dWpf d
  if nfld (dfld d 1 1) 0 2 = 3 ∨ dWpf d = 0 ∨ 4095 < dWpf d ∨ dCpw d = 0 then streamFault s p idx 13 0x5103
  else if !agree then checkerFault s p (dSrc d)
  else if gChip (dSrc d) ≠ s.fabric.chip ∨ gTierOf (dSrc d) ≠ 0 ∨
      !((List.range (feedFrames d)).all fun j => bytesInRanges x 0 (gOff (feedAddr d j)) n true) then
    streamOutside s p idx (dSrc d)
  else if !destOk x d then streamOutside s p idx (dDest d)
  else if feedFrames d = 0 then passDesc s p
  else nextFrame (activate (failObject s p idx d) p idx d) p idx

def execStreamFeed (p : Nat) (agree : Bool) (s : State) : Host.Outcome State Fault Refusal :=
  onWf (.streamFeed p agree) s (takeDesc p 1 (feedDesc p agree))

/-- What a STAGE's fields break, if anything: an address outside the partition's ranges (13 Table 4), or the engines' own rules
(R228, R230). -/
inductive StageFault where
  | source
  | target
  | program
  deriving DecidableEq, Repr

def stageFault (s : State) (p : Nat) (d : BitVec 256) : Option StageFault :=
  let x := part s p
  let t := gTierOf (dSrc d)
  if nfld (dfld d 1 1) 0 2 = 3 ∨ (t ≠ 1 ∧ t ≠ 2) ∨ dLen d % 64 ≠ 0 then some .program
  else if gChip (dSrc d) ≠ s.fabric.chip ∨ !bytesInRanges x t (gOff (dSrc d)) (dLen d) true then some .source
  else if gTierOf (dDst d) ≠ 0 ∨ !bytesInRanges x 0 (gOff (dDst d)) (dLen d) false then some .target
  else if !inStreamWindow x (dDst d) (dLen d) then some .program
  else none

/-- STAGE (R228). -/
def stageDesc (p : Nat) (agree : Bool) (idx : Nat) (d : BitVec 256) (s : State) : State :=
  let r := stageFault s p d
  if r = some .program then streamFault s p idx 13 0x5103
  else if !agree then checkerFault s p (dSrc d)
  else if r = some .source then streamOutside s p idx (dSrc d)
  else if r = some .target then streamOutside s p idx (dDst d)
  else if dLen d = 0 then passAt s p idx
  else nextPiece (activate (failObject s p idx d) p idx d) p idx

/-- A STAGE of the next step's program that may be taken while descriptors before it wait: the first program is exhausted but for
its END, no MARK lies between, and it breaks no rule (one that does waits for its own step; R232). -/
def earlyStage (s : State) (p : Nat) : Option (Nat × BitVec 256) :=
  let m := (part s p).stream
  let start := if endTaken m then some m.next else if (m.prog[m.next]?).any fun d => decide (dKind d = 6) then some (m.next + 1) else none
  start.bind fun i =>
    let ahead := (m.prog.zipIdx.drop i).takeWhile fun e => decide (dKind e.1 ∈ [1, 2, 4, 5])
    match ahead.find? fun e => decide (dKind e.1 = 2 ∧ e.2 ∉ m.early) with
    | none => none
    | some (d, j) =>
      if !halted (part s p) && decide (m.cond = 0 ∧ j ≤ oldest m + 256) && !heldAtBarrier s p j d && (stageFault s p d).isNone then some (j, d)
      else none

/-- STREAM_STAGE: the next descriptor, or a STAGE of the next step's program. -/
def takeStage (p : Nat) (agree : Bool) (s : State) : State :=
  let m := (part s p).stream
  if (m.prog[m.next]?).any fun d => decide (dKind d = 2) then takeDesc p 2 (stageDesc p agree) s
  else
    match earlyStage s p with
    | none => s
    | some (i, d) => stageDesc p agree i d s

def execStreamStage (p : Nat) (agree : Bool) (s : State) : Host.Outcome State Fault Refusal :=
  onWf (.streamStage p agree) s (takeStage p agree)

/-- MARK (R233): with the release held, its mask decides the conditional descriptors; without it the engine waits. -/
def markDesc (p idx : Nat) (d : BitVec 256) (s : State) : State :=
  let id := dfld d 4 2
  let ncond := nfld (dfld d 16 1) 0 7
  let m := (part s p).stream
  if 64 < ncond then streamFault s p idx 13 0x5103
  else
    match m.releases.find? fun r => decide (r.1 = id) with
    | none => modStream s p fun m => { m with markAt := some (m.markAt.getD s.time.watch) }
    | some r =>
      modStream (passDesc s p) p fun m =>
        { m with
          releases := m.releases.filter fun r => decide (r.1 ≠ id)
          usedMarks := id :: m.usedMarks, cond := ncond, mask := r.2, markAt := none }

def execStreamMark (p : Nat) (s : State) : Host.Outcome State Fault Refusal :=
  onWf (.streamMark p) s (takeDesc p 3 (markDesc p))

/-- Number of a queue in a port's record of marked queues (07 R145), and with its block. -/
def queueKey (tile slot role : Nat) : Nat := 512 * tile + 4 * slot + role
def markKey (block tile slot role : Nat) : Nat := 65536 * block + queueKey tile slot role

/-- The port's record holds the queue in the present epoch, from a stream engine or from the block's VE. -/
def markedQueue (s : State) (p block tile slot role : Nat) (e : BitVec 4) : Bool :=
  let m := (part s p).stream
  (decide (m.epoch = e) && decide (markKey block tile slot role ∈ m.marked)) ||
    (decide ((ve s block).epv = e) && decide (queueKey tile slot role ∈ (ve s block).marked))

/-- DRAIN (R229): the marker follows the feeds before it through the port. -/
def drainDesc (p : Nat) (agree : Bool) (idx : Nat) (d : BitVec 256) (s : State) : State :=
  let x := part s p
  let role := nfld (dfld d 16 1) 0 2
  let w := dDest d
  if !agree then checkerFault s p w
  else if !destOk x d then streamOutside s p idx w
  else if markedQueue s p (destBlock w) (nfld w 0 6) (destSlot w) role x.stream.epoch then streamFault s p idx 13 0x5103
  else
    modStream (activate s p idx d) p fun m =>
      { m with marked := markKey (destBlock w) (nfld w 0 6) (destSlot w) role :: m.marked }

def execStreamDrain (p : Nat) (agree : Bool) (s : State) : Host.Outcome State Fault Refusal :=
  onWf (.streamDrain p agree) s (takeDesc p 4 (drainDesc p agree))

/-- Records of one block column index of an image (10 Table 3). -/
def imageRecords (s : State) (a off n : Nat) : List (Nat × Nat × Line) :=
  let bs := readTier s (gTierOf a) (gOff a + off) (80 * n)
  (List.range n).map fun i =>
    (fld bs (80 * i) 2, fld bs (80 * i + 2) 1 % 8, bytesLine (sub bs (80 * i + 16) 64))

/-- The epoch that the CONFIG configures: the stream epoch advances, and with a switch the first fill begins (R229, R234). -/
def advanceEpoch (s : State) (p : Nat) : State :=
  modStream (modPart s p fun x => { x with epoch := x.epoch + 1, filling := x.filling || x.switching.isSome }) p fun m =>
    { m with epoch := m.epoch + 1, marked := [] }

/-- The injectors start on an image (R222, R223): its reads become pending (R225), and its records go out when they have
completed. -/
def startInjectors (s : State) (p idx : Nat) (a : Nat) : State :=
  let x := part s p
  match headerAt s a with
  | (0, h) =>
    let dir := readTier s (gTierOf a) (gOff a + 0x40) 128
    let ent (j : Nat) : Nat × Nat := (fld dir (8 * j) 4, fld dir (8 * j + 4) 4)
    let used := (List.range 16).filter fun j => (ent j).2 ≠ 0
    if headerBad h ∨ fld h 1 1 ≠ 1 ∨ used.any (fun j => decide ((colsOf x).length ≤ j ∨ objLen h < (ent j).1 + 80 * (ent j).2)) then
      streamFault s p idx 13 0x5103
    else if !bytesInRanges x (gTierOf a) (gOff a) (objLen h) true then streamOutside s p idx a
    else
      let i : Inject :=
        { image := BitVec.ofNat 64 a, epoch := x.epoch + 1
          recs := used.map fun j => (j, imageRecords s a (ent j).1 (ent j).2)
          left := (unitPieces (gOff a) (objLen h)).length }
      let s := modPart (advanceEpoch (passDesc s p) p) p fun x => { x with inject := some i }
      pendReads s p (gTierOf a) (gOff a) (objLen h) .step (.config p)
  | (st, _) =>
    let s := endNeed s p .step st (a % 2 ^ 32)
    if (part s p).step.isSome then advanceEpoch (passDesc s p) p else s

/-- The injectors have sent everything of the last image. -/
def injectorsIdle (x : Part) : Bool := x.inject.elim true fun i => decide (i.left = 0) && i.recs.all fun r => r.2.isEmpty

/-- CONFIG (R229): the injectors start on an image and the stream epoch advances. -/
def configDesc (p : Nat) (agree : Bool) (idx : Nat) (d : BitVec 256) (s : State) : State :=
  let x := part s p
  let a := dSrc d
  let reading := s.tiers.transfers.any fun t => decide (t.purpose = .config p)
  if !agree then checkerFault s p a
  else if gChip a ≠ s.fabric.chip ∨ gTierOf a = 3 ∨ !bytesInRanges x (gTierOf a) (gOff a) 0xc0 true then streamOutside s p idx a
  else if injectorsIdle x && !reading then startInjectors s p idx a
  else s

def execStreamConfig (p : Nat) (agree : Bool) (s : State) : Host.Outcome State Fault Refusal :=
  onWf (.streamConfig p agree) s (takeDesc p 5 (configDesc p agree))

/-- END (R229): with every descriptor before it completed, the step's program closes; unused releases are discarded. -/
def endDesc (p : Nat) (_ : Nat) (_ : BitVec 256) (s : State) : State :=
  match (part s p).step with
  | none => s
  | some k =>
    if (part s p).stream.active ≠ [] then s
    else
      modPart (modStream (passDesc s p) p fun m =>
        { m with discarded := m.discarded + m.releases.length, releases := [], usedMarks := [] }) p fun x =>
        { x with step := some { k with ended := true } }

def execStreamEnd (p : Nat) (s : State) : Host.Outcome State Fault Refusal :=
  onWf (.streamEnd p) s (takeDesc p 6 (endDesc p))

/-- MARK_RELEASE_WRITE: the engine takes the oldest word written to the release register. -/
def markRelease (p : Nat) (s : State) : State :=
  modStream s p fun m =>
    match m.relWrites with
    | [] => m
    | w :: r =>
      let id := bfld w 0 16
      if id ∈ m.usedMarks ∨ m.releases.any (fun e => decide (e.1 = id)) then { m with relWrites := r, ignored := m.ignored + 1 }
      else { m with relWrites := r, releases := m.releases ++ [(id, w.extractLsb' 64 64)] }

def execMarkReleaseWrite (p : Nat) (s : State) : Host.Outcome State Fault Refusal :=
  onWf (.markReleaseWrite p) s (markRelease p)

/-- The release of the mark that the engine waits at has arrived. -/
def releaseHere (m : Stream) : Bool :=
  (m.prog[m.next]?).any fun d =>
    (m.releases.any fun r => decide (r.1 = dfld d 4 2)) || m.relWrites.any fun w => decide (bfld w 0 16 = dfld d 4 2)

/-- STREAM_STALL_EXPIRY: a mark has waited for its release for the watchdog period, and none has arrived. -/
def execStreamStallExpiry (p : Nat) (s : State) : Host.Outcome State Fault Refusal :=
  onWf (.streamStallExpiry p) s fun s =>
    let m := (part s p).stream
    match m.markAt with
    | none => s
    | some c => if c + watchdog ≤ s.time.watch ∧ releaseHere m = false then streamFault s p m.next 14 0x5104 else s

/-! ### Transfers -/

/-- TRANSFER_GRANT: a free entry of a tier's engine (`entry` names a reserved one by its partition and grant) goes to the
transfer that R237 chooses for it. -/
def execTransferGrant (tier : Nat) (entry : Option (Nat × Option Nat)) (s : State) : Host.Outcome State Fault Refusal :=
  onWf (.transferGrant tier entry) s fun s =>
    match chosen s tier entry with
    | none => s
    | some x => issueTransfer s tier x entry.isSome

/-- A transfer on another chip, answered by a response (14 R336). -/
def isOutward (x : Transfer) : Bool :=
  match x.purpose with
  | .outward .. => true
  | _ => false

/-- Target tier of a transfer, for its limit and its late status: the tier whose engine issued it, or the tier that a
transfer on another chip names. -/
def targetTier (x : Transfer) : Nat :=
  match x.purpose with
  | .outward _ _ _ t => gTierOf t.addr.toNat
  | _ => x.tier

/-- Limit in counts (09 R214, 14 R338). -/
def limitOf (x : Transfer) : Nat := reqLimit (targetTier x) + (if isOutward x then 2500 else 0)

/-- TRANSFER_COMPLETION: an issued transfer of a tier completes within its limit: 0; 1, after a corrected error; 0x4T01,
an uncorrectable error (09 R200, R217). -/
def transferDone (id status : Nat) (s : State) : State :=
  match findTransfer s id with
  | none => s
  | some x =>
    match x.issued with
    | none => s
    | some c =>
      if isOutward x || atGate s id || decide (c + limitOf x ≤ count s) then s
      else
        let (t, o) := placeOf s x
        if status = 0 then completeTransfer s x 0
        else if status = 1 then completeTransfer (unitError s t o false) x 0
        else if status = memStatus t 1 then completeTransfer (unitError s t o true) x status
        else s

def execTransferCompletion (id status : Nat) (s : State) : Host.Outcome State Fault Refusal :=
  onWf (.transferCompletion id status) s fun s => startChecks (transferDone id status s)

/-- TRANSFER_LATE: no completion is stamped within the limit. A write that the HT gate holds is in no tier yet. -/
def transferLate (id : Nat) (s : State) : State :=
  match findTransfer s id with
  | none => s
  | some x =>
    match x.issued with
    | none => s
    | some c =>
      if atGate s id || decide (count s < c + limitOf x) then s
      else if isOutward x then finishTransfer (dropTransfer s id) x (memStatus (targetTier x) 2) []
      else completeTransfer s x (memStatus x.tier 2)

def execTransferLate (id : Nat) (s : State) : Host.Outcome State Fault Refusal :=
  onWf (.transferLate id) s fun s => startChecks (transferLate id s)

/-! ### The home table and the tiers by themselves -/

/-- A grain is lost (09 R212): a fault record of kind 15 or 16, ST = 3; its move stops and held writes are refused. -/
def loseGrain (s : State) (kind g : Nat) (partKept : Bool) : State :=
  let e := ht s g
  let owner := ((List.range 16).find? fun p => defined s p && ownsGrain (part s p) g).getD e.part
  let p := if partKept then e.part else owner
  let (_, s) := recordFault s kind p 0xffff 0 0 0 (leBytes 8 (globalAt s 3 (winBase + frameBytes * g))) none
  moveLost (setHt s g { e with st := 3, part := p }) g

/-- Entries whose HF, or DF, names a frame. -/
def namersOf (s : State) (t f : Nat) (dest : Bool) : List Nat :=
  (s.tiers.ht.filter fun e => e.2.v &&
    (if dest then decide (e.2.dtier = t ∧ e.2.df = f ∧ e.2.st ≠ 0) else decide (e.2.htier = t ∧ e.2.hf = f))).map fun e => e.1

/-- A frame breaks a condition of the frame map check (16 R382). A freed grain's frame that waits for reads is named by
no entry. -/
def frameBroken (s : State) (t f : Nat) : Bool :=
  match frameSt s t f with
  | .home => decide ((namersOf s t f false).length ≠ 1)
  | .destination => decide ((namersOf s t f true).length ≠ 1)
  | .releasing =>
    decide ((namersOf s t f true).length ≠ 1) && !(s.tiers.freeing.any fun e => decide (e.2 = (t, f)))
  | .free | .plain => false

/-- An uncorrectable error at a grain's entry: the unit that keeps it is retired as any other (R200, R201). -/
def entryError (s : State) (g : Nat) : State :=
  let (k, u) := htPlace s g
  errorAt s 0 k (4096 * u + 8 * (g % 512)) true

/-- HT_SCRUB: entries found uncorrectable (with whether PART is known) are lost, then the frame map is checked. -/
def scrub (bad : List (Nat × Bool)) (s : State) : State :=
  let s := bad.foldl (fun s e =>
    let s := entryError s e.1
    if (ht s e.1).v ∧ (ht s e.1).st ≠ 3 then loseGrain s 15 e.1 e.2 else s) s
  let broken := (s.tiers.frames.map fun e => (e.1 / 4194304, e.1 % 4194304)).filter fun e => frameBroken s e.1 e.2
  broken.foldl (fun s e =>
    let gs := namersOf s e.1 e.2 false ++ namersOf s e.1 e.2 true
    let gs := gs.filter fun g => decide ((ht s g).st ≠ 3)
    if gs = [] then (recordFault s 16 0xff 0xffff 0 0 0 (leBytes 8 (globalAt s e.1 (frameBytes * e.2))) none).2
    else gs.foldl (fun s g => loseGrain s 16 g true) s) s

def execHtScrub (bad : List (Nat × Bool)) (s : State) : Host.Outcome State Fault Refusal :=
  onWf (.htScrub bad) s (scrub bad)

/-- PAGE_RETIREMENT_DONE: the oldest copy of a unit of the slot has ended; its table entry is switched, the poison of its chunks
with it, and its errors count anew. -/
def retirementDone (tier k : Nat) (s : State) : State :=
  let x := slot s tier k
  match x.copying with
  | [] => s
  | (u, mask) :: r =>
    let old := (x.poison.filter fun c => decide (c / 16 = u)).map fun c => c % 16
    let mask := old.foldl (fun m c => m ||| (1#16 <<< c)) (mask ||| (tfind x.retired u).getD 0)
    setSlot s tier k
      { x with
        copying := r, spent := x.spent + 1, retired := tset x.retired u mask, unitErrors := tdel x.unitErrors u
        poison := x.poison.filter fun c => decide (c / 16 ≠ u) }

def execPageRetirementDone (tier slot : Nat) (s : State) : Host.Outcome State Fault Refusal :=
  onWf (.pageRetirementDone tier slot) s (retirementDone tier slot)

/-- CHANNEL_FAILURE: a channel of tier 0 or 1 is out of service until the next start-up; a tier 2 device or link takes the
whole tier with it (09 R217). -/
def channelFailure (tier k : Nat) (s : State) : State :=
  if tier = 2 then (if k < s.tiers.cxl.length then modTiers s fun m => { m with out2 := true } else s)
  else if k < tierSlots s tier ∧ (slot s tier k).state = 0 ∧ 0 < tierFrames s tier then
    setSlot s tier k { slot s tier k with state := 2 }
  else s

def execChannelFailure (tier slot : Nat) (s : State) : Host.Outcome State Fault Refusal :=
  onWf (.channelFailure tier slot) s (channelFailure tier slot)

end Sys2Proof.Machine
end

