-- ==== Sys2Proof/Machine/Models.lean ====
section
/-! DEFINITION. Model configurations (12 R291, 10 R234, R247), the expert map (08 R178), balancing parameters (08 R176) and
the rounding seed (04 R85).
Readings of the spec: log entry 59. -/

namespace Sys2Proof.Machine

/-! ### SEED -/

def seedOp (c : Cmd) (s : State) : Answer :=
  (0, 0, [], modPart s c.part fun x => { x with seed := BitVec.ofNat 64 (pf c 0 8) })

def execSeed (p : Nat) (s : State) : Host.Outcome State Fault Refusal :=
  onWf (.seed p) s (takeCmd p (opcode 0x0107) fun c s => answer c (seedOp c s))

/-! ### MODEL_INSTALL -/

/-- Positive and finite, in FP16. -/
def posF16 (w : Nat) : Bool := decide (0 < w ∧ w < 0x7c00)

/-- Chip and partition of a member of GROUP. -/
def groupEnt (c : Cmd) (i : Nat) : Nat × Nat := (nfld (pf c (0x40 + 4 * i) 4) 0 14, nfld (pf c (0x40 + 4 * i) 4) 16 4)

/-- Entry GMEM of GROUP names this chip and partition; for a mirror, the twin's (log entry 23, DEDUCED). -/
def groupOwn (s : State) (c : Cmd) (gmem : Nat) : Bool :=
  decide (groupEnt c gmem = (s.fabric.chip, c.part)) ||
    (isMirror s c.part && decide (groupEnt c gmem = (s.pair.twin, c.part)))

/-- The lowest offset of a reserved value (12 Table 8, 11 Table 1, 08 Table 5). -/
def installReserved (c : Cmd) (s : State) : Option Nat :=
  let pmax := pf c 4 2
  let gsize := pf c 0x12 1
  let gmem := pf c 0x13 1
  lowest
    [(decide (1023 < pf c 0 2), 0), (decide (pmax < 16 ∨ 4096 < pmax), 4), (decide (pf c 6 2 = 0 ∨ pmax < pf c 6 2), 6),
     (decide (pf c 8 2 = 0 ∨ pmax < pf c 8 2), 8), (decide (pf c 10 2 = 0 ∨ 4096 < pf c 10 2), 10),
     (decide (pf c 12 4 = 0 ∨ 10000000 < pf c 12 4), 12), (decide (gsize = 0 ∨ 16 < gsize), 0x12),
     (decide (gsize ≤ gmem), 0x13), (decide (8191 < pf c 0x30 4), 0x30),
     (decide (pf c 0x34 4 < 2500 ∨ 2500000 < pf c 0x34 4), 0x34), (decide (1 < pf c 0x38 1), 0x38),
     (decide (pf c 0x3a 2 = 0), 0x3a), (!posF16 (pf c 0x3c 2), 0x3c), (!posF16 (pf c 0x3e 2), 0x3e),
     (decide (gsize ≤ 16) && (!groupOwn s c gmem || !isZero c.params (0x40 + 4 * gsize) (4 * (16 - gsize))), 0x40)]

/-- The model is the target of a MODEL_SWITCH in progress or waiting in the queue. -/
def switchTarget (s : State) (p mcid : Nat) : Bool :=
  (part s p).switching.elim false (fun w => decide (w.mcid = mcid)) ||
    (tget [] s.cs.queues p).any fun d => decide (d.opc = 0x0202 ∧ pf d 0 2 = mcid)

/-- A layer's balancing loop and bias tables as MODEL_INSTALL sets them (08 R174). -/
def newBalance (now : Nat) (en : Bool) (per de bm : Nat) (l : LayerInfo) : Balance :=
  let bias := (l.bias ++ List.replicate (l.experts - l.bias.length) 0).take l.experts
  { enable := en, period := per, delta := BitVec.ofNat 16 de, bmax := BitVec.ofNat 16 bm, next := none, gathered := 0
    load := [], active := false, since := now, biasA := bias, biasB := bias, sel := false }

/-- The model that a MODEL_INSTALL and its package describe. -/
def newModel (c : Cmd) (pkg : PkgInfo) (now : Nat) : Model :=
  { pmax := pf c 4 2, maxreq := pf c 6 2, ch := pf c 8 2, tbpp := pf c 10 2, stepest := pf c 12 4, inW := pf c 0x10 1
    outW := pf c 0x11 1, gsize := pf c 0x12 1, gmem := pf c 0x13 1, wfirst := pf c 0x14 4, wlayer := pf c 0x18 4
    wadapt := pf c 0x1c 4, pkg := BitVec.ofNat 64 (pf c 0x20 8), xmap := BitVec.ofNat 64 (pf c 0x28 8), obuf := pf c 0x30 4
    rlim := pf c 0x34 4, group := (List.range (pf c 0x12 1)).map (groupEnt c)
    dstop := (List.range 4).map fun i => pf c (0x80 + 4 * i) 4, tadp := BitVec.ofNat 64 (pf c 0x90 8)
    vocab := pkg.vocab, layers := pkg.layers
    bal := pkg.layers.foldl (fun b l =>
      tset b l.layer (newBalance now (decide (pf c 0x38 1 = 1)) (pf c 0x3a 2) (pf c 0x3c 2) (pf c 0x3e 2) l)) [] }

/-- Mark the frames [f, f + n) of tier 0 that have one state with another. -/
def remark (s : State) (f : Nat) (a b : FrameState) : Nat → State
  | 0 => s
  | n + 1 => remark (if frameSt s 0 f = a then setFrame s 0 f b else s) (f + 1) a b n

/-- A window's frames that no other installed model's window and no load grant covers are free again. -/
def freeWindow (s : State) (p wf n : Nat) : State :=
  let x := part s p
  let kept (f : Nat) : Bool :=
    (x.models.any fun m => decide (m.2.wfirst ≤ f ∧ f < m.2.wfirst + m.2.wlayer + m.2.wadapt)) ||
      x.grants.any fun g => decide (g.tier = 0 ∧ g.first ≤ f ∧ f < g.first + g.frames)
  ((List.range n).map fun i => wf + i).foldl (fun s f =>
    if !kept f && decide (frameSt s 0 f = .plain) then setFrame s 0 f .free else s) s

/-- An installed configuration is taken away. -/
def dropModel (s : State) (p mcid : Nat) : State :=
  match tfind (part s p).models mcid with
  | none => s
  | some m =>
    freeWindow (modPart s p fun x => { x with models := tdel x.models mcid }) p m.wfirst (m.wlayer + m.wadapt)

/-- The expert map and the adapter table that a model configuration names lie in the partition's ranges on this chip: the map in
tier 0, where the device writes it (10 R244, 13 R302; 0 names no adapter table: log entry 59, DEDUCED). -/
def tablesInRanges (s : State) (p : Nat) (pkg : PkgInfo) (c : Cmd) : Bool :=
  let x := part s p
  let n := 16 * (pkg.layers.map fun l => l.experts).sum
  let tadp := pf c 0x90 8
  (decide (n = 0) || bytesInRanges x 0 (gOff (pf c 0x28 8)) n false) &&
    (decide (tadp = 0) ||
      (decide (gChip tadp = s.fabric.chip ∧ gTierOf tadp < 3) && bytesInRanges x (gTierOf tadp) (gOff tadp) 2048 true))

def installOp (pkg : PkgInfo) (c : Cmd) (s : State) : Answer :=
  let p := c.part
  let mcid := pf c 0 2
  let n := pf c 0x18 4 + pf c 0x1c 4
  match installReserved c s with
  | some o => reserved s o
  | none =>
    if !isVerified s (pf c 0x20 8) then (0x1405, 0, [], s)
    else if (part s p).active = some mcid ∨ switchTarget s p mcid then (0x1502, 0, [], s)
    else if !framesInRanges (part s p) 0 (pf c 0x14 4) n false || !tablesInRanges s p pkg c then (0x1204, 0, [], s)
    else
      let s := dropModel s p mcid
      let s := remark s (pf c 0x14 4) .free .plain n
      (0, 0, [], modPart s p fun x => { x with models := tset x.models mcid (newModel c pkg (count s)) })

def execModelInstall (p : Nat) (pkg : PkgInfo) (s : State) : Host.Outcome State Fault Refusal :=
  onWf (.modelInstall p pkg) s (takeCmd p (opcode 0x0201) fun c s => answer c (installOp pkg c s))

/-! ### MODEL_SWITCH (10 R247) -/

/-- A mirror only records the active model; its rounds begin with it (13 R298, 08 R179). -/
def mirrorSwitch (c : Cmd) (s : State) : Answer :=
  let mcid := pf c 0 2
  if 1023 < mcid then reserved s 0
  else if (tfind (part s c.part).models mcid).isNone then (0x1501, 0, [], s)
  else (0, 0, [], modPart s c.part fun x => { x with active := some mcid, nextRound := 0, committed := 0 })

/-- Steps 1 and 2: the partition is between steps; what the old program has appended is discarded; the new model's first
program is given to the engines, and its CONFIG begins the first fill. -/
def switchCmd (addr : Nat) (prog : List (BitVec 256)) (c : Cmd) (s : State) : State :=
  let p := c.part
  let mcid := pf c 0 2
  if 1023 < mcid then refuse s c 0x1202 0
  else if (tfind (part s p).models mcid).isNone then refuse s c 0x1501 0
  else
    let s := lastDrain s p
    let s := modPart s p fun x =>
      { x with active := none, switching := some { mcid := mcid, cmd := c, phase := 2 }, chained := false, filling := false }
    loadProgram s p addr prog

/-- The program begins with the old epoch's DRAINs, if any, and the CONFIG (R247 step 3). -/
def opensWithConfig : List (BitVec 256) → Bool
  | [] => false
  | d :: r => decide (dKind d = 5) || (decide (dKind d = 4) && opensWithConfig r)

/-- A MODEL_SWITCH may begin: no admitted request is left, no step runs, and its program fits and begins with its CONFIG; a
yielded or evicted partition begins it as well (13 R306, R309), its engines at work again once it has been resumed. -/
def switchFree (s : State) (p addr : Nat) (prog : List (BitVec 256)) : Bool :=
  let x := part s p
  x.reqs.isEmpty && x.step.isNone && x.pub.isNone && x.switching.isNone &&
    decide (x.pre = .running ∨ x.pre = .yielded ∨ x.pre = .evicted) && programFits s p addr prog && opensWithConfig prog

/-- MODEL_SWITCH. Under a safety hold, and in safe state, it is refused without waiting for the requests (12 Table 10, 16
R379; log entry 59, DEDUCED). -/
def execModelSwitch (p addr : Nat) (prog : List (BitVec 256)) (s : State) : Host.Outcome State Fault Refusal :=
  onWf (.modelSwitch p addr prog) s fun s =>
    if switchFree s p addr prog || decide (1 ≤ holdLevel s) || s.boot.safe then
      takeCmd p (opcode 0x0202) (switchCmd addr prog) s
    else s

/-- STAGEs of the first fill, by number: those before the first MARK of the program whose bytes fit in the layer area (R234). -/
def fillStages (area : Nat) : Nat → List (BitVec 256 × Nat) → List Nat
  | _, [] => []
  | used, (d, i) :: r =>
    if dKind d = 3 ∨ dKind d = 6 then []
    else if dKind d = 2 then (if used + dLen d ≤ area then i :: fillStages area (used + dLen d) r else [])
    else fillStages area used r

/-- Place the output buffer of a model whose region is free: one grain, when there is room (log entry 24, DESIGN CHOICE). -/
def placeObuf (s : State) (p : Nat) (m : Model) : State :=
  if (region s p m.obuf).state ≠ 0 then s
  else
    match placeRun s p 32768 with
    | none => s
    | some (u, s) =>
      setRegion s p m.obuf
        { state := 1, kind := 1, owner := 0xffff, base := u, cap := 32768, len := 0, pLen := 0, pStep := 0 }

/-- FIRST_FILL_COMPLETE: the STAGEs of the first fill have been written; the switch is complete, its rounds begin. -/
def firstFill (p : Nat) (s : State) : State :=
  let x := part s p
  match x.switching, streamModel x with
  | some w, some m =>
    let fill := fillStages (frameBytes * m.wlayer) 0 x.stream.prog.zipIdx
    if x.filling = true ∧ x.stream.prog ≠ [] ∧ (fill.all fun i => descTaken x.stream i) = true ∧
        (x.stream.active.any fun a => decide (a.idx ∈ fill)) = false then
      let s := modPart s p fun x =>
        { x with switching := none, active := some w.mcid, filling := false, nextRound := 0, committed := 0 }
      finish (placeObuf s p m) w.cmd 0 0 []
    else s
  | _, _ => s

def execFirstFillComplete (p : Nat) (s : State) : Host.Outcome State Fault Refusal :=
  onWf (.firstFillComplete p) s (firstFill p)

/-! ### MODEL_REMOVE -/

/-- The output buffer that only this model names is freed with it. -/
def freeObuf (s : State) (p mcid obuf : Nat) : State :=
  let r := region s p obuf
  if r.kind = 1 ∧ r.state ≠ 0 ∧ !((part s p).models.any fun m => decide (m.1 ≠ mcid ∧ m.2.obuf = obuf)) ∧ isPrimary s p then
    releaseGrains (setRegion s p obuf Region.zero) p (grainsOf r.base r.cap)
  else s

def removeOp (c : Cmd) (s : State) : Answer :=
  let p := c.part
  let mcid := pf c 0 2
  if 1023 < mcid then reserved s 0
  else
    match tfind (part s p).models mcid with
    | none => (0x1501, 0, [], s)
    | some m =>
      if (part s p).active = some mcid ∨ switchTarget s p mcid then (0x1502, 0, [], s)
      else (0, 0, [], dropModel (freeObuf s p mcid m.obuf) p mcid)

def execModelRemove (p : Nat) (s : State) : Host.Outcome State Fault Refusal :=
  onWf (.modelRemove p) s (takeCmd p (opcode 0x0203) fun c s => answer c (removeOp c s))

/-! ### EXPERT_MAP and BALANCE -/

/-- An expert map entry, its reserved bits zero (08 Table 6, 00 R7). -/
def entryBytes (x : XEntry) : List Byte :=
  leBytes 8 x.addr.toNat ++ leBytes 4 x.len ++ leBytes 1 x.hmem ++ leBytes 1 (if x.v then 1 else 0) ++ zeros 2

/-- EXPERT_MAP: the entry of a routed layer of the active model is written, between steps. -/
def expertMapOp (c : Cmd) (s : State) : Answer :=
  let p := c.part
  let l := pf c 0 2
  let e := nfld (pf c 2 2) 0 10
  let ent := entryBytes (parseX (sub c.params 8 16))
  match activeModel (part s p) with
  | none => (0x1501, 0, [], s)
  | some m =>
    if expertsOf m l = 0 then reserved s 0
    else if expertsOf m l ≤ e then reserved s 2
    else if (parseX ent).v = true ∧ m.gsize ≤ (parseX ent).hmem then reserved s 0x14
    else
      let o := mapOffset m l e
      let st := tierAccess s 0 o 16 true
      if !bytesInRanges (part s p) 0 o 16 false then (0x1204, 0, [], s)
      else if st ≠ 0 then (st, o % 2 ^ 32, [], s)
      else (0, 0, [], writeTier s 0 o ent)

def execExpertMap (p : Nat) (s : State) : Host.Outcome State Fault Refusal :=
  onWf (.expertMap p) s fun s =>
    if (part s p).step.isSome then s else takeCmd p (opcode 0x0204) (fun c s => answer c (expertMapOp c s)) s

/-- New parameters of one layer: a window in progress finishes under the old ones. -/
def setBalance (now : Nat) (en : Bool) (per : Nat) (de bm : BitVec 16) (b : Balance) : Balance :=
  if b.active then { b with next := some (en, per, de, bm) }
  else { b with enable := en, period := per, delta := de, bmax := bm, since := if en && !b.enable then now else b.since }

def balanceReserved (c : Cmd) : Option Nat :=
  lowest
    [(decide (1 < pf c 2 1), 2), (decide (pf c 4 2 = 0), 4), (!posF16 (pf c 6 2), 6), (!posF16 (pf c 8 2), 8)]

/-- BALANCE: it is applied to the layers whose setting no later command of its count writes (12 R293). -/
def balanceOp (c : Cmd) (s : State) : Answer :=
  let p := c.part
  let l := pf c 0 2
  let x := part s p
  match balanceReserved c, x.active, activeModel x with
  | some o, _, _ => reserved s o
  | none, some id, some m =>
    if l ≠ 0xffff ∧ !thas m.bal l then reserved s 0
    else
      let wins (k : Nat) : Bool := decide (l = k ∨ l = 0xffff) && (winner s c (6, p, k)).isNone
      let set (b : Balance) : Balance :=
        setBalance (count s) (decide (pf c 2 1 = 1)) (pf c 4 2) (BitVec.ofNat 16 (pf c 6 2)) (BitVec.ofNat 16 (pf c 8 2)) b
      let m := { m with bal := m.bal.map fun e => if wins e.1 then (e.1, set e.2) else e }
      (0, 0, [], modPart s p fun x => { x with models := tset x.models id m })
  | none, _, _ => (0x1501, 0, [], s)

def execBalance (p : Nat) (s : State) : Host.Outcome State Fault Refusal :=
  onWf (.balance p) s (takeCmd p (opcode 0x0205) fun c s => answer c (balanceOp c s))

end Sys2Proof.Machine
end

