-- ==== Sys2Proof/Machine/Experts.lean ====
section
/-! DEFINITION. Expert messages (08 R177 to R186): the isolation check, dispatches, closes, returns and cancels that arrive,
the service of a layer, and the two return limits.
Readings of the spec: log entry 63. -/

namespace Sys2Proof.Machine

/-! ### What every message meets -/

/-- Member index of a (chip, partition) pair. -/
def memberOf (m : Model) (chip p : Nat) : Option Nat := m.group.findIdx? fun e => decide (e = (chip, p))

/-- A message with a reserved value (a row format outside 03 Table 5 among them), or whose rows do not have the length that its header gives. -/
def expertBad (m : ExpertMsg) : Bool :=
  decide (m.mtype = 0 ∨ 4 < m.mtype ∨ m.ver ≠ 1) ||
    (decide (m.mtype = 1) && !afmtOk m.rfmt) || (decide (m.mtype = 2) && !(wfmtOk m.rfmt || decide (m.rfmt = 0x1f))) ||
    (decide (m.mtype ≤ 2) && decide (m.rows.length ≠ m.nrow * m.rbytes)) ||
    (decide (m.mtype = 2) && decide (m.status ≠ 0 ∧ m.status / 4096 ≠ 5))

/-- Take a message of one type: a reserved value discards it; a source outside the group of a primary partition is an
isolation event of kind 7 (R177); else `f` gets the partition's model and the member that sent it. -/
def takeExpert (msg : ExpertMsg) (mtype : Nat) (f : Model → Nat → State → State) (s : State) : State :=
  let other := decide (1 ≤ msg.mtype ∧ msg.mtype ≤ 4 ∧ msg.mtype ≠ mtype)
  let s0 := s
  let s := takeMessage s 15 (expertBytes msg)
  if other then s0
  else if expertBad msg then modFabric s fun x => { x with discarded := x.discarded + 1 }
  else
    let p := msg.dstPart % 16
    let refused := isolation s p 7 msg.schip msg.srcPart 0
    if !isPrimary s p then refused
    else
      match activeModel (part s p) with
      | none => refused
      | some m =>
        match memberOf m msg.schip msg.srcPart with
        | none => refused
        | some i => f m i s

def staleMsg (s : State) (p : Nat) : State :=
  modPart s p fun x => { x with acct := { x.acct with stale := sat64 (x.acct.stale + 1) } }

/-- The round that a partition runs, or will run next. -/
def roundOf (x : Part) : Nat := x.step.elim x.nextRound fun k => k.round

/-- A dispatch or close for a layer already served, or for a round before the one running (R179). -/
def tooOld (x : Part) (round layer : Nat) : Bool :=
  decide ((round, layer) ∈ x.ingress.served) || roundBefore round (roundOf x)

/-- The partition keeps a cancel of that source, round and generation (R185), or has counted the source as absent. -/
def isCancelled (x : Part) (i round gen : Nat) : Bool := decide ((i, round, gen) ∈ x.ingress.cancels)

def modIngress (s : State) (p : Nat) (f : Ingress → Ingress) : State :=
  modPart s p fun x => { x with ingress := f x.ingress }

/-! ### Dispatch, close, cancel -/

def dispatchRecv (msg : ExpertMsg) (_ : Model) (i : Nat) (s : State) : State :=
  let p := msg.dstPart % 16
  let x := part s p
  if tooOld x msg.round msg.layer then staleMsg s p
  else if isCancelled x i msg.round msg.gen then s
  else modIngress s p fun g => { g with dispatches := g.dispatches ++ [msg] }

def execExpertDispatchRecv (m : ExpertMsg) (s : State) : Host.Outcome State Fault Refusal :=
  onWf (.expertDispatchRecv m) s (takeExpert m 1 (dispatchRecv m))

def closeRecv (msg : ExpertMsg) (_ : Model) (i : Nat) (s : State) : State :=
  let p := msg.dstPart % 16
  let x := part s p
  if tooOld x msg.round msg.layer then staleMsg s p
  else if isCancelled x i msg.round msg.gen then s
  else modIngress s p fun g => { g with closes := g.closes ++ [(i, msg.round, msg.gen, msg.layer, msg.nrow)] }

def execExpertCloseRecv (m : ExpertMsg) (s : State) : Host.Outcome State Fault Refusal :=
  onWf (.expertCloseRecv m) s (takeExpert m 4 (closeRecv m))

/-- Cancel (R185): what the source sent for the round with that generation and is not served is discarded, and the cancel
is kept until the round is over. -/
def cancelRecv (msg : ExpertMsg) (m : Model) (i : Nat) (s : State) : State :=
  let p := msg.dstPart % 16
  let mine (d : ExpertMsg) : Bool :=
    decide (memberOf m d.schip d.srcPart = some i ∧ d.round = msg.round ∧ d.gen = msg.gen)
  if roundBefore msg.round (roundOf (part s p)) then s
  else
    modIngress s p fun g =>
      { g with
        dispatches := g.dispatches.filter fun d => !mine d
        closes := g.closes.filter fun c => decide ((c.1, c.2.1, c.2.2.1) ≠ (i, msg.round, msg.gen))
        cancels := if (i, msg.round, msg.gen) ∈ g.cancels then g.cancels else g.cancels ++ [(i, msg.round, msg.gen)] }

def execExpertCancelRecv (m : ExpertMsg) (s : State) : Host.Outcome State Fault Refusal :=
  onWf (.expertCancelRecv m) s (takeExpert m 3 (cancelRecv m))

/-! ### The service of a layer (R179, R181, R186) -/

/-- Member `i` has sent its close for the layer, or counts as having sent nothing. -/
def closedBy (x : Part) (round layer i : Nat) : Bool :=
  (x.ingress.closes.any fun c => decide (c.1 = i ∧ c.2.1 = round ∧ c.2.2.2.1 = layer)) ||
    (x.ingress.cancels.any fun c => decide (c.1 = i ∧ c.2.1 = round)) || decide ((i, round, layer) ∈ x.ingress.absent)

/-- Dispatches held from member `i` for the layer; none from one that counts as having sent nothing. -/
def heldFrom (x : Part) (m : Model) (round layer i : Nat) : List ExpertMsg :=
  if (i, round, layer) ∈ x.ingress.absent then []
  else
    x.ingress.dispatches.filter fun d => decide (memberOf m d.schip d.srcPart = some i ∧ d.round = round ∧ d.layer = layer)

/-- Dispatches that member `i`'s close counts; none once it counts as having sent nothing (R183). -/
def closeCount (x : Part) (round layer i : Nat) : Nat :=
  if (i, round, layer) ∈ x.ingress.absent then 0
  else (x.ingress.closes.find? fun c => decide (c.1 = i ∧ c.2.1 = round ∧ c.2.2.2.1 = layer)).elim 0 fun c => c.2.2.2.2

/-- All members have closed and the dispatches they count are held. -/
def layerReady (x : Part) (m : Model) (round layer : Nat) : Bool :=
  (List.range m.gsize).all fun i =>
    closedBy x round layer i && decide (closeCount x round layer i ≤ (heldFrom x m round layer i).length)

/-- What serving a dispatch gives: the partition is not the expert's home, or the work that was done. -/
def outcomeOf (s : State) (m : Model) (d : ExpertMsg) (w : ServeWork) : ServeWork :=
  let e := mapEntry s m d.layer d.expert
  if e.v = false ∨ e.hmem ≠ m.gmem then { beats := 0, tbytes := 0, status := 0x5302, rows := [] } else w

/-- A service that the layer allows: as many bytes as the rows' return format takes, or a status of class 0x5xxx. -/
def workOk (m : Model) (d : ExpertMsg) (w : ServeWork) : Bool :=
  let rb := (m.layers.find? fun l => decide (l.layer = d.layer)).elim 0 fun l => l.retBytes
  if w.status = 0 then decide (w.rows.length = d.nrow * rb) else decide (w.status / 4096 = 5 ∧ w.rows = [])

/-- Serve one dispatch: its return goes to the source, and work for another partition is counted as served. -/
def serveOne (p : Nat) (m : Model) (s : State) (e : ExpertMsg × ServeWork) : State :=
  let (d, w) := e
  let w := outcomeOf s m d w
  let l := m.layers.find? fun l => decide (l.layer = d.layer)
  let own := decide ((d.schip, d.srcPart) = (s.fabric.chip, p))
  let s := if own then s else
    modPart s p fun x =>
      { x with acct := { x.acct with
          servBeats := sat64 (x.acct.servBeats + w.beats), servTbytes := sat64 (x.acct.servTbytes + w.tbytes) } }
  sendExpert s d.schip
    { mtype := 2, ver := 1, expert := d.expert, schip := s.fabric.chip, srcPart := p, dstPart := d.srcPart, round := d.round
      gen := d.gen, layer := d.layer, step := d.step, nrow := if w.status = 0 then d.nrow else 0
      rfmt := l.elim 0 fun l => l.retFmt, rbytes := l.elim 0 fun l => l.retBytes, status := w.status, beats := w.beats
      tbytes := w.tbytes, rows := w.rows }

/-- EXPERT_LAYER_SERVE: the partition serves a layer of the round it runs, the dispatches of each expert ordered by member
and as they came; `work` gives for each what its service cost and gave. -/
def serveLayer (p layer : Nat) (work : List ServeWork) (s : State) : State :=
  let x := part s p
  match x.step, activeModel x with
  | some k, some m =>
    let ds := (List.range m.gsize).flatMap fun i => (heldFrom x m k.round layer i).take (closeCount x k.round layer i)
    if layerReady x m k.round layer ∧ (k.round, layer) ∉ x.ingress.served ∧ work.length = ds.length ∧
        (ds.zip work).all (fun e => workOk m e.1 e.2) then
      let s := (ds.zip work).foldl (serveOne p m) s
      modIngress s p fun g =>
        { g with
          served := g.served ++ [(k.round, layer)]
          dispatches := g.dispatches.filter fun d => decide (d.round ≠ k.round ∨ d.layer ≠ layer)
          closes := g.closes.filter fun c => decide (c.2.1 ≠ k.round ∨ c.2.2.2.1 ≠ layer)
          absent := g.absent.filter fun a => decide (a.2 ≠ (k.round, layer)) }
    else s
  | _, _ => s

def execExpertLayerServe (p layer : Nat) (work : List ServeWork) (s : State) : Host.Outcome State Fault Refusal :=
  onWf (.expertLayerServe p layer work) s (serveLayer p layer work)

/-! ### Returns (R182, R183) -/

def modFilter (k : Step) (layer : Nat) (f : LayerFilter → LayerFilter) : Step :=
  { k with filters := k.filters.map fun l => if l.layer = layer then f l else l }

/-- The layer closes when every dispatch it sent has had its return delivered. -/
def closeDone (k : Step) (layer : Nat) : Step :=
  if k.dispatches.all fun d => decide (d.layer ≠ layer) || d.returned then modFilter k layer fun l => { l with opened := false }
  else k

/-- The words of a return as the VE's mailbox takes them: header, then rows, padded to whole words (log entry 25, DEDUCED). -/
def returnWords (msg : ExpertMsg) : List Chan :=
  let bs := padLine (expertBytes msg)
  (linesOf (bs.length / 64) bs).zipIdx.map fun (l, i) =>
    { payload := l, loop := BitVec.ofNat 16 i, kind := 0, epoch := 0, ctx := 0 }

def lateMsg (s : State) (p : Nat) : State :=
  modPart s p fun x => { x with acct := { x.acct with late := sat64 (x.acct.late + 1) } }

/-- The work of a return is charged to the partition that dispatched, delivered or dropped (R186). -/
def chargeRemote (s : State) (p : Nat) (msg : ExpertMsg) : State :=
  if (msg.schip, msg.srcPart) = (s.fabric.chip, p) then s
  else
    modPart s p fun x =>
      { x with acct := { x.acct with
          remBeats := sat64 (x.acct.remBeats + msg.beats), remTbytes := sat64 (x.acct.remTbytes + msg.tbytes) } }

/-- The return filter (08 Table 8), its rows in order. -/
def returnRecv (msg : ExpertMsg) (_ : Model) (_ : Nat) (s : State) : State :=
  let p := msg.dstPart % 16
  let x := part s p
  let s := chargeRemote s p msg
  match x.step with
  | none => staleMsg s p
  | some k =>
    let mine (d : Dispatch) : Bool :=
      decide (d.layer = msg.layer ∧ d.expert = msg.expert ∧ d.returned = false)
    if msg.gen ≠ x.gen ∨ msg.round ≠ k.round then staleMsg s p
    else
      match k.dispatches.find? mine with
      | none => staleMsg s p
      | some d =>
        let open_ := k.filters.any fun f => decide (f.layer = msg.layer ∧ f.opened = true ∧ count s < f.limit)
        if !open_ then lateMsg s p
        else
          let s := modVe s d.ve fun v => { v with arrived := v.arrived ++ (returnWords msg).map fun w => (7, w) }
          let hit (e : Dispatch) : Dispatch := if e = d then { e with returned := true } else e
          let s := modPart s p fun x =>
            { x with step := some (closeDone { k with dispatches := k.dispatches.map hit } msg.layer) }
          if msg.status = 0 then s else markEnded s p (fun m => holdsSlot m d.slots) msg.status msg.schip

def execExpertReturnRecv (m : ExpertMsg) (s : State) : Host.Outcome State Fault Refusal :=
  onWf (.expertReturnRecv m) s (takeExpert m 2 (returnRecv m))

/-- RETURN_LIMIT_EXPIRY: the layer closes, and the requests whose choices await a missing return end (R183). -/
def returnLimit (p layer : Nat) (s : State) : State :=
  let x := part s p
  match x.step, activeModel x with
  | some k, some m =>
    if k.filters.any fun f => decide (f.layer = layer ∧ f.opened = true ∧ f.limit ≤ count s) then
      let missing := k.dispatches.filter fun d => decide (d.layer = layer ∧ d.returned = false)
      let s := modPart s p fun x => { x with step := some (modFilter k layer fun l => { l with opened := false }) }
      missing.foldl (fun s d =>
        markEnded s p (fun e => holdsSlot e d.slots) 0x5301 ((m.group[d.home]?).elim 0 fun g => g.1)) s
    else s
  | _, _ => s

def execReturnLimitExpiry (p layer : Nat) (s : State) : Host.Outcome State Fault Refusal :=
  onWf (.returnLimitExpiry p layer) s (returnLimit p layer)

/-- Event 0xe405, at most one per partition per 25,000 counts. -/
def missingEvent (p layer round : Nat) (s : State) (i : Nat) : State :=
  let g := (part s p).ingress
  if g.lastEvent = none64 ∨ g.lastEvent + 25000 ≤ count s then
    event (modIngress s p fun g => { g with lastEvent := count s }) [0] 0xe405
      (leBytes 1 p ++ leBytes 1 i ++ leBytes 2 layer ++ leBytes 4 round ++ leBytes 8 (count s))
  else s

/-- HOME_CLOSE_LIMIT_EXPIRY: the return limit has passed since the home's own close; the members whose close is missing
count as having sent nothing. -/
def homeLimit (p layer : Nat) (s : State) : State :=
  let x := part s p
  match x.step, activeModel x with
  | some k, some m =>
    let late := k.filters.any fun f => decide (f.layer = layer ∧ f.limit ≤ count s)
    let missing := (List.range m.gsize).filter fun i => !closedBy x k.round layer i
    if late && decide ((k.round, layer) ∉ x.ingress.served) then
      let s := modIngress s p fun g => { g with absent := g.absent ++ missing.map fun i => (i, k.round, layer) }
      missing.foldl (missingEvent p layer k.round) s
    else s
  | _, _ => s

def execHomeCloseLimitExpiry (p layer : Nat) (s : State) : Host.Outcome State Fault Refusal :=
  onWf (.homeCloseLimitExpiry p layer) s (homeLimit p layer)

end Sys2Proof.Machine
end

