-- ==== Sys2Proof/Machine/Flags.lean ====
section
/-! DEFINITION. What the device's state shows: the power limit and its source (17 R413, R412), PSTATE, the identity STATE
(15 R367), the bodies of POWER_READ, TELEMETRY and IDENTITY (17 Table 3; 15 Tables 11 and 12), and the levels of the
multi-role lands (18 R432 to R436).
Readings of the spec: log entry 69. -/

namespace Sys2Proof.Machine

/-! ### The power limit -/

/-- The orphan cap in W (17 R425). -/
def orphanCap (s : State) : Nat := s.power.orph * 1800 / 100

/-- The cap that a master's slot holds, 0 none: 0 C, 1 A, 2 B (12 R294, 17 R425). -/
def capOf (s : State) (m : Nat) : Nat :=
  if m = 0 then s.power.capC
  else if m = 1 then (if s.power.orphA then orphanCap s else s.power.capA)
  else if s.power.orphB then orphanCap s else s.power.capB

/-- The effective cap, 0 when none is held (12 R294). -/
def effCap (s : State) : Nat :=
  (([0, 1, 2].map (capOf s)).filter (· ≠ 0)).foldl (fun b c => if b = 0 then c else min b c) 0

/-- The active components of L in mW, with their LSRC codes in rising order (17 Tables 3 and 4). -/
def limitParts (s : State) : List (Nat × Nat) :=
  [(0, 2200000)] ++
    ([0, 1, 2].filterMap fun m => if capOf s m = 0 then none else some (m + 1, 1000 * capOf s m)) ++
    (if s.lands.brake then [(4, 1000 * s.power.brakeLevel)] else []) ++
    (if s.power.stage = 3 then [(5, 0)] else if s.power.thermOn then [(5, s.power.thermLimit)] else []) ++
    (if holdLevel s = 2 then [(6, 0)] else [])

/-- L in mW and the component that sets it: the lowest code among equals. -/
def limitSrc (s : State) : Nat × Nat :=
  (limitParts s).foldl (fun b e => if e.2 < b.2 then e else b) (0, 2200000)

def limitL (s : State) : Nat := (limitSrc s).2

/-- PAVG in W, rounded up. -/
def pavgW (s : State) : Nat := cdiv s.power.pavg 1000

/-- PSTATE[1:0] (17 Table 3). -/
def powerState (s : State) : Nat :=
  if s.power.shed = 2 then 2 else if s.power.shed = 3 ∨ s.power.shed = 4 then 3 else if s.power.limited then 1 else 0

/-- The body of POWER_READ (17 Table 3). -/
def powerBody (s : State) : List Byte :=
  let w := s.power
  let rail (i : Nat) : List Byte :=
    leBytes 2 (tget 0 w.mv i) ++ leBytes 1 i ++ zeros 1 ++ leBytes 4 (tget 0 w.ma i) ++ leBytes 8 (tget 0 w.energy i)
  leBytes 1 1 ++ leBytes 1 (powerState s + (if s.lands.brake then 4 else 0) + 8 * w.stage) ++ leBytes 1 (limitSrc s).1 ++
    leBytes 1 13 ++ leBytes 4 (limitL s / 1000) ++ leBytes 8 w.sampledAt ++ leBytes 4 (capOf s 0) ++ leBytes 4 (capOf s 1) ++
    leBytes 4 (capOf s 2) ++ leBytes 4 w.brakeLevel ++ leBytes 1 w.orph ++
    leBytes 1 ((if w.orphA then 1 else 0) + (if w.orphB then 2 else 0)) ++ leBytes 1 (holdLevel s) ++ zeros 1 ++
    leBytes 4 (pavgW s) ++ leBytes 2 w.vcw ++ leBytes 2 w.vce ++ zeros 20 ++ (List.range 13).flatMap rail

/-! ### Identity -/

/-- STATE of the identity report: 0 start-up, 1 ready, 2 control recovery (15 Table 11). -/
def devState (s : State) : Nat := if s.boot.recovery then 2 else if s.boot.ready && !s.boot.safe then 1 else 0

/-- The strapped pair role, OT4 (18 Table 4). -/
def pairRole (s : State) : Bool := s.lands.straps.getLsbD 4

def certBytes : List Byte := Config.cert.take 1024

/-- The identity report up to the end of CERT (15 Table 11). -/
def identityBody (s : State) (nonce : List Byte) : List Byte :=
  leBytes 1 1 ++ leBytes 1 0x10 ++ leBytes 2 Config.site.toNat ++ leBytes 4 0xf0a9 ++ leBytes 8 Config.serial.toNat ++
    leBytes 4 Config.romVer.toNat ++ leBytes 4 s.boot.svn ++ leBytes 4 s.boot.svnMin ++
    leBytes 2 (if s.fabric.accepted then s.fabric.chip else 0xffff) ++ leBytes 1 (devState s) ++
    leBytes 1 ((if s.pair.on then 1 else 0) + (if pairRole s then 2 else 0)) ++ pad 32 s.boot.sfDigest ++
    pad 32 s.boot.fabDigest ++
    pad 32 (Config.sm3 ((List.range 16).flatMap fun p => if defined s p then (part s p).entry.raw else zeros 160)) ++
    pad 32 nonce ++ leBytes 8 (count s) ++ zeros 8 ++ pad 64 Config.idPub ++ pad 64 Config.xPub ++
    leBytes 2 certBytes.length ++ zeros 14 ++ certBytes

/-- The signed report. -/
def identityReport (s : State) (nonce : List Byte) : List Byte :=
  let b := identityBody s nonce
  b ++ pad 64 (Config.sm2Sign (Config.sm3 b))

/-! ### Telemetry (15 R368, Table 12) -/

/-- A signed 16-bit figure. -/
def int16 (x : Int) : List Byte := leBytes 2 (x % 65536).toNat

/-- The hottest block, the lowest number among equals. -/
def hottest (s : State) : Nat :=
  (s.tele.temp.foldl (fun (b : Option (Nat × Int)) e =>
    match b with
    | none => some e
    | some x => if x.2 < e.2 then some e else some x) none).elim 0 fun e => e.1

/-- A link is up. -/
def linkUp (s : State) (l : Nat) : Bool := decide ((link s l).st = .up)

/-- One entry of a telemetry group. -/
def teleEntry (s : State) (part? : Option Nat) (group i : Nat) : List Byte :=
  if group = 0 then
    int16 s.tele.west ++ int16 s.tele.east ++ leBytes 2 (hottest s) ++ leBytes 1 (devState s) ++
      leBytes 1 (if s.time.lost then 1 else 0) ++ leBytes 4 s.tiers.n1 ++ leBytes 4 s.tiers.n2 ++ leBytes 1 s.boot.cores ++
      zeros 47
  else if group = 1 then
    if part?.elim true fun p => holdsCol (part s p) (colOf i) then
      leBytes 2 (tget 0 s.tele.stagePs i) ++ leBytes 2 (tget 0 s.tele.wear i) ++ int16 (tget 0 s.tele.temp i) ++
        leBytes 1 (tget 0 s.tele.blockSt i) ++ zeros 1
    else zeros 8
  else if group = 2 then
    let x := link s i
    let up := linkUp s i
    leBytes 1 (if up then 1 else 0) ++ leBytes 1 (if up then x.width else 0) ++ leBytes 1 x.rate ++
      leBytes 1 (if x.spare < 5 then x.spare else 0xff) ++ leBytes 4 (sat 32 x.corrected) ++
      leBytes 4 (sat 32 x.replayCount) ++ leBytes 4 (sat 32 x.changes)
  else if group = 3 then
    let x := if i < 256 then slot s 0 i else if i < 320 then slot s 1 (i - 256) else slot s 2 (i - 320)
    leBytes 1 x.state ++ leBytes 4 (sat 32 x.corrected) ++ leBytes 4 (sat 32 x.uncorrected) ++
      leBytes 4 (sat 32 x.retired.length) ++ zeros 3
  else leBytes 8 (sat64 (tget 0 s.safety.counts i))

/-- Entries of a group and their size. -/
def teleShape (group : Nat) : Nat × Nat :=
  if group = 0 then (1, 64) else if group = 1 then (128, 8) else if group = 2 then (19, 16)
  else if group = 3 then (328, 16) else (32, 8)

/-- The telemetry record. -/
def teleRecord (s : State) (part : Nat) (group : Nat) : List Byte :=
  let (n, size) := teleShape group
  leBytes 1 1 ++ leBytes 1 group ++ leBytes 1 part ++ zeros 5 ++ leBytes 8 s.tele.renewed ++ leBytes 4 n ++ leBytes 4 size ++
    zeros 8 ++ (List.range n).flatMap (teleEntry s (if part < 16 then some part else none) group)

/-! ### The multi-role lands (18 R432 to R436) -/

/-- Level that the device drives on land OTn, none where it drives nothing. A serial line (SB_TX, HB_OUT) is given at its
idle level; what it sends is in the lists of messages and frames. -/
def landLevel (s : State) (n : Nat) : Option Bool :=
  if s.lands.phase = 0 ∨ !s.power.good.getLsbD 3 ∨ !s.power.good.getLsbD railIO18 then none
  else if n = 11 then some s.boot.safe
  else if n = 12 then some (!s.boot.safe)
  else if 13 ≤ n then none
  else if n = 1 then some (!s.lands.alertLow)
  else if s.lands.phase = 1 then some (decide (n = 0) && !s.boot.safe)
  else if n = 3 then some (decide (devState s = 1))
  else if n = 4 then some (s.power.stage % 2 = 1)
  else if n = 5 then some (decide (2 ≤ s.power.stage))
  else if n = 6 then some (decide (2 ≤ powerState s))
  else some false

end Sys2Proof.Machine
end

