-- ==== Sys2Proof/Machine/Ends.lean ====
section
/-! DEFINITION. Ending commands together: partition reset (13 R312) and the end of every command by an emergency stop
(12 R295).
Readings of the spec: log entry 64. -/

namespace Sys2Proof.Machine

/-- Every queued command of one queue that `mine` names ends with a status. -/
def endQueued (s : State) (q : Nat) (mine : Cmd → Bool) (status : Nat) : State :=
  ((tget [] s.cs.queues q).filter mine).foldl (fun s c => refuse (dequeue s q c) c status 0) s

/-- Requests of a partition whose last step is committed and not published end as that step found them. -/
def asPublished (x : Part) : Part :=
  match x.pub with
  | none => x
  | some w =>
    { x with reqs := x.reqs.map fun r =>
        match w.before.find? fun b => decide (b.cmd = r.cmd) with
        | some b => { b with cancel := r.cancel, charged := r.charged }
        | none => r }

/-- Every live request of a partition ends (13 R312). -/
def endLive (s : State) (p status : Nat) : State :=
  let s := stepAbandon s p status 0 false
  let s := modPart s p asPublished
  endReqs s p ((part s p).reqs.map fun r => r.index) status 0

/-- A drawer operation that no step and no publish holds ends with a status: an open and a move leave the drawer closed, a
close that waits leaves it open. -/
def endOp (s : State) (p status : Nat) (op : DrawerOp) : State :=
  if op.phase = 4 then s
  else if op.kind = 2 then openFail s p op status 0
  else
    let s :=
      if op.kind = 5 ∨ op.phase = 1 then setDrawerState s op.drawer 1
      else if op.kind = 3 then setDrawerState s op.drawer 3
      else s
    finish (dropOp s p op) op.cmd status 0 []

/-- Scan jobs of a partition's drawer operations are dropped. -/
def dropScans (s : State) (mine : ScanFor → Bool) : State :=
  modTiers s fun m =>
    { m with
      scans := m.scans.filter fun j => !mine j.serves
      engines := m.engines.filter fun e => !(m.scans.any fun j => decide (j.id = e.2.1) && mine j.serves) }

def drawerScan (p : Nat) (w : ScanFor) : Bool :=
  match w with
  | .open_ q _ | .close q _ => decide (q = p)
  | _ => false

/-- The partition reset (R312): live requests, steps, moves, drawer operations and queued commands end, and the command of a
phase in progress; the array is reset;
RES of every budget is 0; the save image is discarded; the partition is running, but for one that stays yielded. -/
def partitionReset (s : State) (p : Nat) (self : Option Cmd) (status : Nat) : State :=
  let s := endLive s p status
  let s := abortMoves s p status
  let s := dropScans s (drawerScan p)
  let s := ((part s p).ops.filter fun o => decide (o.phase ≠ 4)).foldl (fun s o => endOp s p status o) s
  let s := endQueued s p (fun c => decide (self ≠ some c)) status
  let s := switchFail s p status 0
  let s := ((part s p).yieldCmd.toList ++ (part s p).evictCmd.toList ++ (part s p).resumeCmd.toList).foldl
    (fun s c => refuse s c status 0) s
  let s := arrayReset s p
  modPart s p fun x =>
    { x with
      yieldCmd := none, evictCmd := none, resumeCmd := none
      budgets := x.budgets.map fun e => (e.1, { e.2 with res := 0 })
      image := none, yieldRec := none, chained := false, cancelDone := []
      pre := if x.stuck = 0 then .running else .yielded
      stream := { x.stream with needConfig := true } }

/-- The phase of a yield, eviction or resume is in progress (13 Table 8). -/
def prePhase (x : Part) : Bool :=
  match x.pre with
  | .yielding | .quiescing | .saving | .reloading => true
  | .running | .yielded | .evicted => false

/-- Nothing of the device remembers its commands: every command in progress has been answered. -/
def forgetAll (s : State) : State :=
  let s := modTiers s fun m =>
    { m with
      transfers := m.transfers.map fun x =>
        match x.purpose with
        | .load p g _ => { x with purpose := .load p g none }
        | .drawer _ => { x with purpose := .discard }
        | _ => x
      moves := m.moves.map fun v => match v.purpose with
        | .command _ => { v with purpose := .own }
        | _ => v
      checks := [], replaces := [], scans := [], engines := [], reads := [] }
  let s := { s with
    parts := s.parts.map fun e =>
      (e.1, { e.2 with
        yieldCmd := none, evictCmd := none, resumeCmd := none, resetCmd := none, switching := none, ops := []
        cancelDone := [], image := none }) }
  modPower (modPair s fun x => { x with setting := none }) fun w => { w with capWait := [] }

/-- Every running step ends without publishing, and every queued or running command ends with 0x3006, but for the EMERGENCY
itself (12 Table 10, level 3). -/
def stopAll (s : State) (self : Cmd) : State :=
  let s := (List.range 16).foldl (fun s p => endLive s p 0x3006) s
  let s := (List.range 17).foldl (fun s q => endQueued s q (fun _ => true) 0x3006) s
  let s := (s.cs.running.filter fun c => decide (c ≠ self)).foldl (fun s c => finish s c 0x3006 0 []) s
  forgetAll s

end Sys2Proof.Machine
end

