-- ==== Sys2Proof/Machine/Power.lean ====
section
/-! DEFINITION. The power manager (17): caps, brake, holds, shedding, measurement, core voltages, the thermal ladder, the
orphan cap, and the commands that set them (12 R294, R295).
Readings of the spec: log entry 68. -/

namespace Sys2Proof.Machine

/-! ### Shedding and the waiting CAP_SETs (17 R419 to R421) -/

/-- A CAP_SET completes: 0x6001 with the power reached when its cap lies below the floor of 320 W (12 R294). -/
def capFinish (s : State) (c : Cmd) (eff : Nat) : State :=
  let w := pf c 0 4
  if w ≠ 0 ∧ w < 320 then finish s c 0x6001 (pavgW s) [] else finish s c 0 eff []

/-- The CAP_SETs that waited for shedding complete. -/
def capsShed (s : State) : State :=
  let (now, later) := s.power.capWait.partition fun e => decide (e.2.1 = none64)
  now.foldl (fun s e => capFinish s e.1 e.2.2) (modPower s fun w => { w with capWait := later })

/-- Set the shedding state; a change of PSTATE[1:0] to or from 2 and 3 raises event 0xe701 (R421). -/
def setShed (s : State) (n : Nat) : State :=
  let a := powerState s
  let s := modPower s fun w => { w with shed := n, shedAt := count s }
  let b := powerState s
  if a ≠ b ∧ (2 ≤ a ∨ 2 ≤ b) then event s [0, 1, 2] 0xe701 ((powerBody s).take 64) else s

/-- Moves that need tier 1 or tier 2 abort with 0x4309 (R420 step 2). -/
def abortLower (s : State) : State :=
  (s.tiers.moves.filter fun m => decide (m.srcTier ≠ 0 ∨ m.dstTier ≠ 0)).foldl (fun s m => moveAbort s m.grain 0x4309) s

def setDark (s : State) (on : Bool) : State := modTiers s fun t => { t with dark := on || s.boot.safe }

/-! ### The rise of core current (17 R418) -/

/-- From now on the core current of each die rises by at most 40 A per us. -/
def startRamp (s : State) : State :=
  modPower s fun w => { w with ramp := some (count s, tget 0 w.ma 0, tget 0 w.ma 1) }

/-- Largest core current of die `i` in mA that the rise under way allows now. -/
def rampBound (s : State) (i : Nat) : Option Nat :=
  s.power.ramp.map fun (c, west, east) => (if i = 0 then west else east) + 1600 * (count s - c)

/-- Largest current of a core rail in mA (17 Table 1). -/
abbrev coreRailMax : Nat := 1250000

/-- The rise no longer binds: it allows every current of both core rails. -/
def rampOver (s : State) : Bool :=
  [0, 1].all fun i => (rampBound s i).elim true fun b => decide (coreRailMax ≤ b)

/-- Both monitors of a core rail read more than the rise allows, beyond their 2% (17 R411): the device draws no such current. -/
def overRamp (rails : List (Nat × Nat × Nat)) (s : State) : Bool :=
  [0, 1].any fun i =>
    match rampBound s i, rails[i]? with
    | some b, some (_, ma, mb) => decide (102 * min b coreRailMax < 100 * min ma mb)
    | _, _ => false

/-- Injection held at zero is released: the gate leaves 65,536 for a free fraction (log entry 7, DESIGN CHOICE), and the
current rises from where it stands. -/
def release (s : State) : State :=
  let (n, s) := draw s
  startRamp (modPower s fun w => { w with gate := n % 65536 })

/-- L has fallen to `l` mW: PAVG meets it after the response time of the component that set it, 500 counts for the brake and
2,500 for any other; with two that change at one count the shorter applies (R413, Table 4). -/
def lowerLimit (s : State) (l : Nat) : State :=
  let soon := decide ((limitSrc s).1 = 4) || s.power.limitDue.any fun e => decide (e.1 = count s + 500)
  let (past, later) := s.power.limitDue.partition fun e => decide (e.1 ≤ count s)
  modPower s fun w => { w with limitDue := past.getLast?.toList ++ later ++ [(count s + (if soon then 500 else 2500), l)] }

/-- L at its new value; a rise of L lifts what PAVG has to meet, and begins a rise of current. -/
def trackLimit (s : State) : State :=
  let l := limitL s
  let s :=
    if s.power.lastLimit < l then modPower (startRamp s) fun w => { w with limitDue := w.limitDue.map fun e => (e.1, max e.2 l) }
    else if l < s.power.lastLimit then lowerLimit s l
    else s
  modPower s fun w => { w with lastLimit := l }

/-- L may have changed: the device sheds while L is below 400 W, and leaves shed when it is not (R420, R421). -/
def relimit (s : State) : State :=
  let s := trackLimit s
  let low := decide (limitL s < 400000)
  if low ∧ s.power.shed = 0 then
    abortLower (setShed (setDark (modPower s fun w => { w with gate := 65536, ramp := none }) true) 3)
  else if low ∧ s.power.shed = 4 then setShed s 3
  else if !low ∧ s.power.shed = 3 then
    capsShed (setShed (setDark (release s) false) 0)
  else if !low ∧ s.power.shed = 2 then setShed s 4
  else s

/-- SHED_COMPLETE: no transfer of tier 1 or tier 2 is in flight; links are in L1 and channels in self-refresh. -/
def shedComplete (s : State) : State :=
  let flying := s.tiers.transfers.any fun x => x.issued.isSome && decide (x.tier = 1 ∨ x.tier = 2) && !atGate s x.id
  if s.power.shed = 3 ∧ !flying then capsShed (setShed s 2) else s

def execShedComplete (s : State) : Host.Outcome State Fault Refusal := onWf .shedComplete s shedComplete

/-- UNSHED_COMPLETE: the memory is back, and injection is released. -/
def unshedComplete (s : State) : State :=
  if s.power.shed = 4 then setShed (setDark (release s) false) 0 else s

def execUnshedComplete (s : State) : Host.Outcome State Fault Refusal := onWf .unshedComplete s unshedComplete

/-! ### Commands -/

/-- CAP_SET (12 R294, 17 R419). -/
def capCmd (c : Cmd) (s : State) : State :=
  let w := pf c 0 4
  if 2200 < w then answer c (reserved s 0)
  else
    let before := effCap s
    let s := modPower s fun x =>
      if c.port = 0 then { x with capC := w }
      else if c.port = 1 then { x with capA := w, orphA := false }
      else { x with capB := w, orphB := false }
    let after := effCap s
    let s := relimit s
    if after = 0 ∨ (before ≠ 0 ∧ before ≤ after) then capFinish s c after
    else if 400 ≤ after then modPower s fun x => { x with capWait := x.capWait ++ [(c, count s + 2500, after)] }
    else if s.power.shed = 2 then capFinish s c after
    else modPower s fun x => { x with capWait := x.capWait ++ [(c, none64, after)] }

def execCapSet (s : State) : Host.Outcome State Fault Refusal :=
  onWf .capSet s (takeCmd 16 (opcode 0x0601) capCmd)

/-- CAP_RESPONSE_ELAPSED: lowered caps whose response time has passed. -/
def capElapsed (s : State) : State :=
  let (now, later) := s.power.capWait.partition fun e => decide (e.2.1 ≠ none64 ∧ e.2.1 ≤ count s)
  now.foldl (fun s e => capFinish s e.1 e.2.2) (modPower s fun w => { w with capWait := later })

def execCapResponseElapsed (s : State) : Host.Outcome State Fault Refusal := onWf .capResponseElapsed s capElapsed

/-- BRAKE_CFG (17 R422). -/
def brakeOp (c : Cmd) (s : State) : Answer :=
  let w := pf c 0 4
  if w < 320 ∨ 2200 < w then reserved s 0
  else (0, 0, [], relimit (modPower s fun x => { x with brakeLevel := w }))

def execBrakeCfg (s : State) : Host.Outcome State Fault Refusal :=
  onWf .brakeCfg s (takeCmd 16 (opcode 0x0602) fun c s => answer c (brakeOp c s))

/-- ORPHAN_CFG (17 R425). -/
def orphanOp (c : Cmd) (s : State) : Answer :=
  let n := pf c 0 1
  if n < 10 ∨ 100 < n then reserved s 0
  else (0, 0, [], relimit (modPower s fun x => { x with orph := n }))

def execOrphanCfg (s : State) : Host.Outcome State Fault Refusal :=
  onWf .orphanCfg s (takeCmd 16 (opcode 0x0603) fun c s => answer c (orphanOp c s))

/-- Write the sender's safety hold (12 R295). -/
def setHold (s : State) (port level : Nat) : State :=
  let s := modPower s fun x => if port = 1 then { x with holdA := level } else { x with holdB := level }
  let s :=
    if 1 ≤ level then { s with parts := s.parts.map fun e => (e.1, { e.2 with chained := false }) } else s
  relimit s

/-- EMERGENCY (12 R295): level 3 ends every step and command, is answered, and the device enters safe state. -/
def emergencyCmd (c : Cmd) (s : State) : State :=
  let level := pf c 0 1
  if 3 < level then answer c (reserved s 0)
  else if level = 3 then
    let s := setHold s c.port 3
    safeState (finish (stopAll s c) c 0 0 []) 0x3006 0
  else finish (setHold s c.port level) c 0 0 []

/-- An EMERGENCY of one level; a reserved level is refused by whichever row takes it. -/
def emergencyOpc (level : Nat) (c : Cmd) : Bool := opcode 0x0604 c && decide (pf c 0 1 = level ∨ 3 < pf c 0 1)

def execEmergencyRelease (s : State) : Host.Outcome State Fault Refusal :=
  onWf .emergencyRelease s (takeCmd 16 (emergencyOpc 0) emergencyCmd)

def execEmergencyHold (s : State) : Host.Outcome State Fault Refusal :=
  onWf .emergencyHold s (takeCmd 16 (emergencyOpc 1) emergencyCmd)

def execEmergencyShed (s : State) : Host.Outcome State Fault Refusal :=
  onWf .emergencyShed s (takeCmd 16 (emergencyOpc 2) emergencyCmd)

def execEmergencyStop (s : State) : Host.Outcome State Fault Refusal :=
  onWf .emergencyStop s (takeCmd 16 (emergencyOpc 3) emergencyCmd)

/-- POWER_READ (17 R412). -/
def execPowerRead (s : State) : Host.Outcome State Fault Refusal :=
  onWf .powerRead s (takeCmd 16 (opcode 0x0605) fun c s => finish s c 0 0 (powerBody s))

/-! ### Measurement (17 R411, R414) -/

/-- One rail's sample: its first monitor's reading, its energy since the last sample (mV x mA x us is pJ). -/
def sampleRail (us : Nat) (w : Power) (e : (Nat × Nat × Nat) × Nat) : Power :=
  let ((mv, ma, _), i) := e
  let pj := tget 0 w.energyRem i + mv * ma * us
  { w with
    mv := tset w.mv i mv, ma := tset w.ma i ma
    energy := tset w.energy i (sat64 (tget 0 w.energy i + pj / 1000000)), energyRem := tset w.energyRem i (pj % 1000000) }

/-- Rails whose two monitors differ by more than 5% (16 Table 3, kind 20). -/
def monitorsDiffer (rails : List (Nat × Nat × Nat)) : BitVec 13 :=
  rails.zipIdx.foldl (fun b e =>
    let hi := max e.1.2.1 e.1.2.2
    let lo := min e.1.2.1 e.1.2.2
    if 5 * hi < 100 * (hi - lo) then b ||| (1#13 <<< e.2) else b) 0

/-- The last ten samples of package power, in mW, with this one. -/
def samplesWith (rails : List (Nat × Nat × Nat)) (s : State) : List Nat :=
  ((rails.map fun e => e.1 * e.2.1).sum / 1000 :: s.power.samples).take 10

/-- PAVG would stand above a limit of 400 W or more that gating has had its response time to meet (R413, R414, R420): the
device draws no such power. -/
def overLimit (rails : List (Nat × Nat × Nat)) (s : State) : Bool :=
  let xs := samplesWith rails s
  decide (s.power.shed = 0) &&
    s.power.limitDue.any fun e => decide (e.1 ≤ count s ∧ 400000 ≤ e.2 ∧ e.2 < xs.sum / xs.length)

/-- POWER_SAMPLE: each rail's voltage in mV and its two current readings in mA. PAVG is the mean of the last ten samples of
package power; the gated fraction is the control loop's (log entry 7, DESIGN CHOICE), zero while neither L nor a rise of core
current binds. A sample of a current that the rise does not allow, or of a power above a limit that is due, is none that the
device can take (R413, R418; log entry 68). -/
def powerSample (rails : List (Nat × Nat × Nat)) (above : Bool) (s : State) : State :=
  if rails.length ≠ 13 ∨ count s % 25 ≠ 0 ∨ count s ≤ s.power.sampledAt ∨ overRamp rails s ∨
      overLimit rails s then s
  else
    let us := (count s - s.power.sampledAt) / 25
    let xs := samplesWith rails s
    let bad := monitorsDiffer rails
    let new := bad &&& ~~~s.power.monBad
    let s := modPower s fun w =>
      let w := rails.zipIdx.foldl (sampleRail us) w
      { w with samples := xs, pavg := xs.sum / xs.length, sampledAt := count s, monBad := bad }
    let s := ((List.range 13).filter new.getLsbD).foldl (fun s i => (recordFault s 20 0xff 0xffff 0 i 0 [] none).2) s
    if s.power.shed ≠ 0 then s
    else if above then
      let (n, s) := draw s
      modPower s fun w => { w with limited := true, gate := 1 + n % 65536 }
    else if rampOver s then modPower s fun w => { w with limited := false, gate := 0, ramp := none }
    else
      let (n, s) := draw s
      modPower s fun w => { w with limited := false, gate := n % (w.gate + 1) }

def execPowerSample (rails : List (Nat × Nat × Nat)) (demandAboveL : Bool) (s : State) :
    Host.Outcome State Fault Refusal :=
  onWf (.powerSample rails demandAboveL) s (powerSample rails demandAboveL)

/-! ### Core voltage (17 R415, R416) -/

/-- A live wear gauge point of a die reads below code 40. -/
def worn (s : State) (die : Nat) : Bool :=
  s.safety.wear.any fun e => decide (e.2.1 < 40) &&
    (match e.1 with
      | .segment d r g => decide (d = die) && decide (g ∈ mapOf s d r)
      | .ve b => decide (b / 64 = die)
      | _ => false)

/-- CORE_VOLTAGE_STEP: one step of 5 mV between 650 and 850 mV, at most one every 100 us on a rail. Three tries without an
answer give a record of kind 20, and the rail moves no more. -/
def voltageStep (die : Nat) (up answered : Bool) (s : State) : State :=
  let v := if die = 0 then s.power.vcw else s.power.vce
  let new := if up then v + 5 else v - 5
  let ok := decide (650 ≤ new ∧ new ≤ 850) && (match tfind s.power.lastVolt die with
    | none => true
    | some c => decide (c + 2500 ≤ count s)) && (up || (s.power.limited && !worn s die))
  if s.power.avsStopped.getLsbD die ∨ !ok then s
  else if !answered then
    modPower (recordFault s 20 0xff 0xffff 0 die 0 [] none).2 fun w => { w with avsStopped := w.avsStopped ||| (1#2 <<< die) }
  else
    modPower s fun w =>
      let w := { w with lastVolt := tset w.lastVolt die (count s) }
      if die = 0 then { w with vcw := new } else { w with vce := new }

def execCoreVoltageStep (die : Nat) (up answered : Bool) (s : State) : Host.Outcome State Fault Refusal :=
  onWf (.coreVoltageStep die up answered) s (voltageStep die up answered)

/-! ### Brake (17 R422, 18 R436) -/

/-- BRAKE_ASSERT: BRAKE_N held asserted for `held` counts. Ignored in the strap phase. -/
def brakeAssert (held : Nat) (s : State) : State :=
  if 25 ≤ held ∧ s.lands.phase ≠ 0 then relimit (modLands s fun l => { l with brake := true }) else s

def execBrakeAssert (held : Nat) (s : State) : Host.Outcome State Fault Refusal :=
  onWf (.brakeAssert held) s (brakeAssert held)

def execBrakeRelease (s : State) : Host.Outcome State Fault Refusal :=
  onWf .brakeRelease s fun s => relimit (modLands s fun l => { l with brake := false })

/-! ### The thermal ladder (17 R423, R424); temperatures in 1/16 degree -/

/-- A die reaches `d` degrees or a stack `k`. -/
def reaches (dies hbm : List Int) (d k : Int) : Bool :=
  dies.any (fun t => decide (16 * d ≤ t)) || hbm.any fun t => decide (16 * k ≤ t)

/-- The highest stage whose entry condition holds. -/
def enterStage (dies hbm : List Int) : Nat :=
  if reaches dies hbm 105 100 then 3 else if reaches dies hbm 100 95 then 2 else if reaches dies hbm 95 90 then 1 else 0

/-- The leave condition of a stage holds. -/
def leaveStage (dies hbm : List Int) (n : Nat) : Bool :=
  if n = 3 then !reaches dies hbm 100 95 else if n = 2 then !reaches dies hbm 98 93 else !reaches dies hbm 93 88

/-- The stage after a sample: risen, or left downwards while the leave conditions hold. -/
def nextStage (dies hbm : List Int) (old : Nat) : Nat :=
  let e := enterStage dies hbm
  let down (n : Nat) : Nat := if e < n ∧ leaveStage dies hbm n then n - 1 else n
  if old ≤ e then e else down (down (down old))

/-- The thermal limit on a change of stage (17 Table 5). -/
def thermChange (s : State) (old new : Nat) : State :=
  if new = 3 ∧ old < 3 then
    let s := (recordFault s 21 0xff 0xffff 0 0 0 [] none).2
    modPower s fun w => { w with stage := 3, thermSaved := if w.thermOn then w.thermLimit else w.pavg }
  else if old = 3 ∧ new < 3 then
    modPower s fun w => { w with stage := new, thermOn := true, thermLimit := w.thermSaved, thermStep := count s }
  else if new = 2 ∧ old < 2 then
    modPower s fun w => { w with stage := 2, thermOn := true, thermLimit := w.pavg, thermStep := count s }
  else modPower s fun w => { w with stage := new }

/-- THERMAL_SAMPLE: the readings of the two networks of each die, and of each stack. Networks of a die that differ by more
than 5 degrees give a record of kind 21 (16 Table 3). -/
def thermalSample (west east : Int × Int) (hbm : List Int) (s : State) : State :=
  let far (x : Int × Int) : Bool := decide (80 < (x.1 - x.2).natAbs)
  let bad : BitVec 2 := (if far west then 1 else 0) ||| (if far east then 2 else 0)
  let new := bad &&& ~~~s.power.netBad
  let s := if new = 0 then s else (recordFault s 21 0xff 0xffff 0 0 0 [] none).2
  let dies := [max west.1 west.2, max east.1 east.2]
  let old := s.power.stage
  let n := nextStage dies hbm old
  let enters := reaches dies hbm 100 95
  let leaves := leaveStage dies hbm 2
  let s := modPower s fun w =>
    { w with
      netBad := bad, entryHolds := enters, leaveHolds := leaves
      thermStep := if (enters && !w.entryHolds) || (leaves && !w.leaveHolds) then count s else w.thermStep }
  if n = old then s else relimit (event (thermChange s old n) [0, 1, 2] 0xe702 ((powerBody (thermChange s old n)).take 64))

def execThermalSample (west east : Int × Int) (hbm : List Int) (s : State) : Host.Outcome State Fault Refusal :=
  onWf (.thermalSample west east hbm) s (thermalSample west east hbm)

/-- THERMAL_LIMIT_STEP: 5% down each 1 ms while the entry condition of stage 2 holds, 5% up each 10 ms once its leave
condition holds, and inactive above every other component of L. -/
def thermStep (s : State) : State :=
  let w := s.power
  if !w.thermOn ∨ w.stage = 3 then s
  else if w.entryHolds ∧ w.thermStep + 25000 ≤ count s then
    relimit (modPower s fun w => { w with thermLimit := w.thermLimit * 95 / 100, thermStep := count s })
  else if w.leaveHolds ∧ w.thermStep + 250000 ≤ count s then
    let n := w.thermLimit * 105 / 100
    let others := (limitParts s).filter fun e => decide (e.1 ≠ 5)
    relimit (modPower s fun w =>
      { w with thermLimit := n, thermStep := count s, thermOn := !(others.all fun e => decide (e.2 < n)) })
  else s

def execThermalLimitStep (s : State) : Host.Outcome State Fault Refusal := onWf .thermalLimitStep s thermStep

/-- THERMAL_TRIP: a comparator at 115 degrees on a die or 110 on a stack holds injection and brings safe state. -/
def thermalTrip (die : Bool) (reading : Int) (s : State) : State :=
  if 16 * (if die then 115 else 110) ≤ reading ∧ s.boot.safe = false then
    let (n, s) := recordFault s 21 0xff 0xffff 0 0 0 [] none
    safeState (modPower s fun w => { w with gate := 65536 }) 0x5101 n
  else s

def execThermalTrip (die : Bool) (reading : Int) (s : State) : Host.Outcome State Fault Refusal :=
  onWf (.thermalTrip die reading) s (thermalTrip die reading)

/-! ### Loss of a rack manager (17 R425) -/

def mgmtOf (s : State) (m : Nat) : Mgmt := if m = 1 then s.mgmtA else s.mgmtB
def setMgmt (s : State) (m : Nat) (x : Mgmt) : State := if m = 1 then { s with mgmtA := x } else { s with mgmtB := x }

/-- ORPHAN_CAP_APPLY: 10 s after manager `m` (1 A, 2 B) was declared lost. -/
def orphanApply (m : Nat) (s : State) : State :=
  let x := mgmtOf s m
  let held := if m = 1 then s.power.orphA else s.power.orphB
  if x.lost ∧ x.lostAt + 250000000 ≤ count s ∧ !held then
    let s := modPower s fun w => if m = 1 then { w with orphA := true } else { w with orphB := true }
    let s := event s [0, 3 - m] 0xe703
      (leBytes 1 m ++ leBytes 1 s.power.orph ++ zeros 2 ++ leBytes 4 (orphanCap s) ++ leBytes 8 (count s))
    relimit s
  else s

def execOrphanCapApply (m : Nat) (s : State) : Host.Outcome State Fault Refusal :=
  onWf (.orphanCapApply m) s (orphanApply m)

end Sys2Proof.Machine
end

