-- ==== Sys2Proof/Machine/Control.lean ====
section
/-! DEFINITION. Commands of the trusted monitor and the service firmware about partitions: ECHO, IDENTITY, TELEMETRY (12
R281; 15 R367, R368), the partition table (13 R298 to R301), yield, eviction and resume (13 R305 to R311), reset (R312),
accounting (R313), and MIRROR_CMD (13 R298).
Readings of the spec: log entries 64, 65. -/

namespace Sys2Proof.Machine

/-! ### Reports -/

/-- Take the command of the row's queue: the queue operand names any of the seventeen (16 the device queue). -/
def execEcho (q : Nat) (s : State) : Host.Outcome State Fault Refusal :=
  onWf (.echo q) s (takeCmd q (opcode 0x0001) fun c s => finish s c 0 0 c.params)

def execIdentity (q : Nat) (s : State) : Host.Outcome State Fault Refusal :=
  onWf (.identity q) s (takeCmd q (opcode 0x0002) fun c s => finish s c 0 0 (identityReport s (sub c.params 0 32)))

/-- TELEMETRY (15 R368): a GROUP above 4 is a reserved value. -/
def telemetryOp (c : Cmd) (s : State) : Answer :=
  let g := pf c 0 4
  if 4 < g then reserved s 0 else (0, 0, teleRecord s c.part g, s)

def execTelemetry (q : Nat) (s : State) : Host.Outcome State Fault Refusal :=
  onWf (.telemetry q) s (takeCmd q (opcode 0x0003) fun c s => answer c (telemetryOp c s))

/-! ### The partition table (13 R299 to R301) -/

/-- Two ranges [a, a + n) and [b, b + m) of numbers share one. -/
def rangesMeet (a n b m : Nat) : Bool := decide (0 < n ∧ 0 < m ∧ a < b + m ∧ b < a + n)

/-- Tier 0 frames that no partition may hold: the drawer table's 514 at the top and the SF work area's 1,024 directly below
them (11 R264, 15 R352). -/
def keptFrames : Nat := 514 + 1024

/-- Range entry `i` breaks its row of Table 3, or carries a reserved value. -/
def rangeBad (s : State) (p : Nat) (r : RangeEnt) : Bool :=
  decide (r.tier = 3 ∨ r.count = 0) || decide (tierFrames s r.tier < r.first + r.count) ||
    (decide (r.tier = 0) && rangesMeet r.first r.count (266418 - keptFrames) keptFrames) ||
    (List.range 16).any fun q =>
      decide (q ≠ p) && defined s q && (part s q).entry.ranges.any fun o =>
        decide (o.2.tier = r.tier) && rangesMeet r.first r.count o.2.first o.2.count && !(r.ro && o.2.ro)

/-- Another defined partition satisfies a condition. -/
def other (s : State) (p : Nat) (f : PartEntry → Bool) : Bool :=
  (List.range 16).any fun q => decide (q ≠ p) && defined s q && f (part s q).entry

/-- Save area condition (Table 3): SAVEFRAMES is at least 1 + ceil(17.8125 x C). -/
def saveOk (e : PartEntry) : Bool :=
  let n := ((List.range 16).filter e.bcols.getLsbD).length
  decide (1 + cdiv (178125 * n) 10000 ≤ e.saveframes) &&
    e.ranges.any fun r =>
      !r.2.ro && decide (r.2.tier = 0 ∧ r.2.first ≤ e.savefirst ∧ e.savefirst + e.saveframes ≤ r.2.first + r.2.count)

/-- The lowest offset of a broken condition of R300. -/
def defineReserved (s : State) (c : Cmd) : Option Nat :=
  let e := parseEntry c.params
  let p := pf c 1 1 % 16
  let head := [(decide (pf c 0 1 ≠ 1), 0), (decide (15 < pf c 1 1), 1)]
  if e.bcols = 0 then lowest head
  else
    lowest (head ++
      [(other s p (fun o => decide (o.bcols &&& e.bcols ≠ 0)), 4),
       (decide (8388608 < e.gbase + e.gcount) || other s p (fun o => rangesMeet e.gbase e.gcount o.gbase o.gcount), 8),
       (decide (16777216 < e.dbase + e.dlimit) || other s p (fun o => rangesMeet e.dbase e.dlimit o.dbase o.dlimit), 0x10),
       (!saveOk e, 0x18)] ++
      e.ranges.map fun r => (rangeBad s p r.2, 0x20 + 8 * r.1))

/-- The first frame, as a key of the frame map, that the home table holds and the new entry takes from the partition (R301 check
3). -/
def losesFrame (s : State) (p : Nat) (e : PartEntry) : Option Nat :=
  (s.tiers.frames.find? fun f =>
    let t := f.1 / 4194304
    let k := f.1 % 4194304
    heldFrame s t k && inRanges (part s p) t k 1 false && !inRanges { part s p with entry := e } t k 1 false).map
      fun f => f.1

/-- Mark the frames of a run of one tier that have state `a` with `b`. -/
def markRun (s : State) (t first n : Nat) (a b : FrameState) : State :=
  (List.range n).foldl (fun s i => if frameSt s t (first + i) = a then setFrame s t (first + i) b else s) s

/-- Plain frames of the partition's RO = 0 ranges that the new entry leaves out are free again (log entry 21, DEDUCED). -/
def freeLeft (s : State) (p : Nat) (e : PartEntry) : State :=
  let x := part s p
  modTiers s fun m =>
    { m with frames := m.frames.filter fun f =>
        !(decide (f.2 = .plain) && inRanges x (f.1 / 4194304) (f.1 % 4194304) 1 false &&
          !inRanges { x with entry := e } (f.1 / 4194304) (f.1 % 4194304) 1 false) }

/-- A load grant whose frames the entry leaves out closes: they are out of the partition's reach (R301). -/
def closeGrants (x : Part) : Part :=
  { x with grants := x.grants.map fun g =>
      { g with opened := g.opened && framesInRanges x g.tier g.first g.frames true } }

/-- Write a table entry: the save area's frames are plain, those of an old save area free again. -/
def writeEntry (s : State) (p : Nat) (e : PartEntry) : State :=
  let old := (part s p).entry
  let s := markRun s 0 old.savefirst old.saveframes .plain .free
  let s := freeLeft s p e
  let s := modPart s p fun x => closeGrants { x with entry := e }
  markRun s 0 e.savefirst e.saveframes .free .plain

/-- What stays with a partition number while it is unused: its accounting, which ends with the last whole interval (R313), its batch
generation, and the window of its isolation events (R304). -/
def keepsNumber (s : State) (p : Nat) (x : Part) : Part :=
  let y := part s p
  { x with acct := { y.acct with now := s.power.intervalEnd }, gen := y.gen, lastIsol := y.lastIsol }

/-- An unused partition becomes primary (R301, 11 R265): its tables are zero and its next step id is 1. -/
def makePrimary (s : State) (p : Nat) (e : PartEntry) : State :=
  let s := { s with
    drawers := s.drawers.filter fun d => !decide (e.dbase ≤ d.1 ∧ d.1 < e.dbase + e.dlimit)
    regions := s.regions.filter fun r => !decide (r.1 / 8192 = p) }
  let s := setPart s p (keepsNumber s p { Part.reset with role := .primary, nextStep := 1 })
  writeEntry s p e

/-- A partition is undefined after its reset; what is left of it is its accounting. -/
def undefine (s : State) (p : Nat) : State :=
  let s := (part s p).waitReplies.foldl (fun s e => sendReady s e.2.1 e.2.2) (publishNow s p)
  let s := writeEntry s p PartEntry.zero
  setPart s p (keepsNumber s p Part.reset)

/-- A usable column is left out of a partition held by R393: it runs again. -/
def unstick (s : State) (p : Nat) : State :=
  modPart s p fun x =>
    if x.stuck = 2 ∧ x.entry.bcols &&& s.safety.badCols = 0 then { x with stuck := 0, pre := .running } else x

/-- The entry that a PART_DEFINE gives: none where BCOLS is 0, whatever its other fields hold (R300). -/
def definedEntry (c : Cmd) : PartEntry :=
  let e := parseEntry c.params
  if e.bcols = 0 then PartEntry.zero else e

/-- What refuses a PART_DEFINE (R301, steps 1 to 3): status and DETAIL. -/
def defineRefused (s : State) (c : Cmd) : Option (Nat × Nat) :=
  let p := pf c 1 1 % 16
  if defined s p && isMirror s p then some (0x1203, 0)
  else
    match defineReserved s c with
    | some o => some (0x1202, o)
    | none => if defined s p then (losesFrame s p (definedEntry c)).map fun k => (0x4307, frameBytes * (k % 4194304) % 2 ^ 32)
      else none

/-- PART_DEFINE (R301). -/
def defineCmd (c : Cmd) (s : State) : State :=
  let p := pf c 1 1 % 16
  let e := definedEntry c
  match defineRefused s c with
  | some (st, d) => finish s c st d []
  | none =>
    if !defined s p then finish (if e.bcols = 0 then s else makePrimary s p e) c 0 0 []
    else
      let s := partitionReset s p (some c) 0x3005
      if e.bcols = 0 then finish (undefine s p) c 0 0 [] else finish (unstick (writeEntry s p e) p) c 0 0 []

/-- A PART_DEFINE that is not refused waits for a phase in progress of its partition (R301 step 4). -/
def defineWaits (s : State) : Bool :=
  match front 16 s with
  | none => false
  | some c => decide (c.opc = 0x0101) && prePhase (part s (pf c 1 1 % 16)) && (defineRefused s c).isNone

def execPartDefine (s : State) : Host.Outcome State Fault Refusal :=
  onWf .partDefine s fun s => if defineWaits s then s else takeCmd 16 (opcode 0x0101) defineCmd s

/-! ### Reset, yield, eviction and resume -/

/-- A row of a partition's queue that waits while a phase is in progress (13 Table 8). -/
def settled (p : Nat) (f : State → State) (s : State) : State := if prePhase (part s p) then s else f s

def execPartReset (p : Nat) (s : State) : Host.Outcome State Fault Refusal :=
  onWf (.partReset p) s (settled p (takeCmd p (opcode 0x0102) fun c s => finish (partitionReset s p (some c) 0x3005) c 0 0 []))

/-- Commands of the partition's queue read so far: the sequencer's position is the number of its waiting commands. -/
def yieldRecord (s : State) (p : Nat) (evicted : Bool) : YieldRec :=
  let x := part s p
  { queuePos := (tget [] s.cs.queues p).length, admitted := x.reqs.length, nextStep := x.nextStep,
    nextRound := x.nextRound, epoch := x.epoch, model := x.active, evicted := evicted }

/-- The yield record in 64 bytes; its layout is the model's (log entry 26, DESIGN CHOICE). -/
def yieldBytes (r : YieldRec) : List Byte :=
  pad 64 (leBytes 8 r.queuePos ++ leBytes 8 r.admitted ++ leBytes 8 r.nextStep ++ leBytes 4 r.nextRound ++
    leBytes 1 r.epoch.toNat ++ leBytes 2 (r.model.getD 0xffff) ++ leBytes 1 (if r.evicted then 1 else 0))

/-- Write the yield record to the first 64 bytes of the save area, where they can be written (09 R203). -/
def saveRecord (s : State) (p : Nat) (evicted : Bool) : State :=
  let r := yieldRecord s p evicted
  let o := frameBytes * (part s p).entry.savefirst
  let s := if tierAccess s 0 o 64 true = 0 then writeTier s 0 o (yieldBytes r) else s
  modPart s p fun x => { x with yieldRec := some r }

/-- PART_YIELD (R305, R311): the SF begins no further step. -/
def yieldCmd (p : Nat) (c : Cmd) (s : State) : State :=
  match (part s p).pre with
  | .running => modPart s p fun x => { x with pre := .yielding, yieldCmd := some c, chained := false }
  | _ => finish s c 0 0 []

def execPartYield (p : Nat) (s : State) : Host.Outcome State Fault Refusal :=
  onWf (.partYield p) s (settled p (takeCmd p (opcode 0x0103) (yieldCmd p)))

/-- Appended descriptors of the next step are discarded (R305, 10 R235); the program that a switch runs is no step's, and stays
(R306). -/
def dropAppended (s : State) (p : Nat) : State :=
  if (part s p).step.isNone && (part s p).switching.isNone then lastDrain s p else s

/-- Finish a command kept in the partition, if there is one. -/
def finishOpt (s : State) (c : Option Cmd) (status : Nat) : State :=
  match c with
  | none => s
  | some c => finish s c status 0 []

/-- YIELD_BOUNDARY: no step runs; the record is written and the partition is yielded. -/
def yieldBoundary (p : Nat) (s : State) : State :=
  let x := part s p
  if x.pre = .yielding ∧ x.step.isNone then
    let s := saveRecord (dropAppended s p) p false
    finishOpt (modPart s p fun x => { x with pre := .yielded, yieldCmd := none }) x.yieldCmd 0
  else s

def execYieldBoundary (p : Nat) (s : State) : Host.Outcome State Fault Refusal :=
  onWf (.yieldBoundary p) s (yieldBoundary p)

/-- Injectors, engines and VEs issue nothing more (13 Table 6 phase 1): transfers not issued are dropped, moves abort. The
program of a switch in progress is no step's: its engines wait until the partition has been resumed (log entry 65, DEDUCED). -/
def quiesce (s : State) (p : Nat) : State :=
  let x := part s p
  let bs := blocksOf x
  let s := discardTransfers s (ofVes bs)
  let s := if x.switching.isNone then modPart (lastDrain s p) p fun x => { x with inject := none } else s
  let s := bs.foldl (fun s b => modVe s b fun v => { v with running := false, waitSince := none }) s
  abortMoves s p 0x4309

/-- An eviction begins: the phases of Table 6 run from here. -/
def evictBegin (s : State) (p : Nat) : State :=
  quiesce (modPart s p fun x => { x with pre := .quiescing, chained := false }) p

/-- PART_EVICT (R307, R311). -/
def evictCmd (p : Nat) (c : Cmd) (s : State) : State :=
  match (part s p).pre with
  | .evicted => finish s c 0 0 []
  | _ => evictBegin (modPart s p fun x => { x with evictCmd := some c }) p

def execPartEvict (p : Nat) (s : State) : Host.Outcome State Fault Refusal :=
  onWf (.partEvict p) s (settled p (takeCmd p (opcode 0x0104) (evictCmd p)))

/-- Transfers of the partition's steps still in flight in tier 0 or tier 1. -/
def stillFlying (s : State) (p : Nat) : Bool :=
  s.tiers.transfers.any fun x =>
    decide (x.part = p ∧ x.tier ≤ 1) && x.issued.isSome && !outsideSteps x.purpose && !atGate s x.id

/-- Phase 2: queue contents and tile registers are discarded; what the save keeps stays (13 Table 6). -/
def freezeTile (d : Nat) (x : Tile) : Tile :=
  { resetTile x with
    epoch := x.epoch, ctxA := x.ctxA, ctxP := x.ctxP, rwA := x.rwA, rwP := x.rwP, passed := x.passed, regs := []
    junk := some (x.junk.getD d) }

/-- The mask registers as they read; the vector and scalar registers are discarded. -/
def freezeVe (d : Nat) (x : Ve) : Ve :=
  { forgetRegs d x with
    m := (List.range 8).map fun i => (i, mr x i), running := false, mail := [], arrived := [], marked := [], lanes := []
    waitSince := none }

/-- Phase 2 of an eviction for a partition's array, the network and the injectors' links. -/
def freezeArray (s : State) (p : Nat) : State :=
  let x := part s p
  let bs := blocksOf x
  { s with
    tiles := s.tiles.map fun e => if hasTile x e.1 then (e.1, freezeTile (s.draw + e.1) e.2) else e
    ves := bs.foldl (fun vs b => tset vs b (freezeVe (s.draw + 8192 + b) (tget Ve.reset vs b))) s.ves
    draw := s.draw + 8192 + 128
    veNet := s.veNet.filter fun w => !(decide (w.src ∈ bs) || decide (w.dst ∈ bs))
    injectOut := s.injectOut.filter fun e => !x.entry.bcols.getLsbD e.1 }

/-- EVICT_QUIESCE_END: phase 2 freezes the array; the running step ends without publishing and its members stay admitted
(R309). Tier 2 transfers are abandoned, their responses discarded and counted. -/
def quiesceEnd (p : Nat) (s : State) : State :=
  if (part s p).pre = .quiescing ∧ !stillFlying s p then
    let mine (x : Transfer) : Bool := decide (x.part = p ∧ 2 ≤ x.tier) && !outsideSteps x.purpose
    let n := (s.tiers.transfers.filter mine).length
    let s := modTiers s fun m => { m with transfers := m.transfers.filter fun x => !mine x }
    let s := modStream s p fun m => { m with discarded := m.discarded + n }
    modPart (freezeArray (stepAbandon s p 0 0 true) p) p fun x => { x with pre := .saving }
  else s

def execEvictQuiesceEnd (p : Nat) (s : State) : Host.Outcome State Fault Refusal :=
  onWf (.evictQuiesceEnd p) s (quiesceEnd p)

/-- The record of a tile that leaves with its state (13 Table 6, 16 R391). -/
def tileRec (s : State) (t : Nat) : TileRec :=
  let x := tile s t
  { t := t, epoch := x.epoch, ctxA := x.ctxA, ctxP := x.ctxP, rwA := x.rwA, rwP := x.rwP, passed := x.passed,
    gen0 := x.gen0, gen1 := x.gen1, scratch := x.scratch, junk := x.junk }

/-- Entries of a block's codebook RAM. -/
def codebookOf (s : State) (b : Nat) : Tab W64 := s.codebook.filter fun e => decide (e.1 / 8192 = b)

def veRec (s : State) (b : Nat) : VeRec :=
  let x := ve s b
  { b := b, epv := x.epv, slots := x.slots, m := (List.range 8).map fun i => (i, mr x i), gens := x.gens, cache := x.cache, codebook := codebookOf s b }

/-- Tiles of the partition whose state differs from that of a reset array. -/
def tilesOf (s : State) (x : Part) : List Nat := (s.tiles.filter fun e => hasTile x e.1).map fun e => e.1

/-- EVICT_SAVE_COMPLETE: phases 3 to 5. The image is kept as data beside the save area, whose bytes beyond the record the
spec gives no layout (log entry 26, DESIGN CHOICE). -/
def saveComplete (p : Nat) (s : State) : State :=
  let x := part s p
  if x.pre = .saving then
    let img : SaveImage := { tiles := (tilesOf s x).map (tileRec s), ves := (blocksOf x).map (veRec s) }
    let n := 37355520 * (colsOf x).length
    let s := countTier (saveRecord s p true) p 0 true n
    finishOpt (modPart s p fun x => { x with pre := .evicted, image := some img, evictCmd := none }) x.evictCmd 0
  else s

def execEvictSaveComplete (p : Nat) (s : State) : Host.Outcome State Fault Refusal :=
  onWf (.evictSaveComplete p) s (saveComplete p)

/-- A partition runs again: its yield record is read. The step begun after it takes the start count (01 R12). -/
def runAgain (s : State) (p : Nat) : State :=
  modPart s p fun x => { x with pre := .running, yieldRec := none, chained := false, stuck := if x.stuck = 2 then 2 else 0 }

/-- PART_RESUME (R306, R310, R311). A partition held by an unusable column resumes under PART_DEFINE alone (16 R393). -/
def resumeCmd (p : Nat) (c : Cmd) (s : State) : State :=
  let x := part s p
  match x.pre with
  | .evicted => modPart s p fun x => { x with pre := .reloading, resumeCmd := some c }
  | .yielded => if x.stuck = 2 then finish s c 0 0 [] else finish (runAgain s p) c 0 0 []
  | _ => finish s c 0 0 []

def execPartResume (p : Nat) (s : State) : Host.Outcome State Fault Refusal :=
  onWf (.partResume p) s (settled p (takeCmd p (opcode 0x0105) (resumeCmd p)))

/-- Restore a tile from its record: queues empty, every context at the beginning of a pass. -/
def restoreTile (x : Tile) (r : TileRec) : Tile :=
  { resetTile x with
    epoch := r.epoch, ctxA := r.ctxA, ctxP := r.ctxP, rwA := r.rwA, rwP := r.rwP, passed := r.passed, gen0 := r.gen0
    gen1 := r.gen1, scratch := r.scratch, junk := r.junk }

/-- A VE stops and enters buffer mode; its buffers hold words of valid parity (07 R162, R163; log entry 3, DESIGN CHOICE). -/
def bufferMode (x : Ve) : Ve :=
  { x with buffer := true, running := false, buf := [], mail := [], arrived := [], lanes := [], waitSince := none }

/-- Restore a VE: in buffer mode with a valid operand cache, its vector and scalar registers discarded (R310, 07 R164). -/
def restoreVe (d : Nat) (x : Ve) (r : VeRec) : Ve :=
  { bufferMode (forgetRegs d x) with
    epv := r.epv, slots := r.slots, m := r.m, gens := r.gens, cache := r.cache, cacheInit := true, marked := [], txOut := []
    txFail := 0, ckFailed := false }

/-- Restore VEs from their records. -/
def restoreVes (s : State) (rs : List VeRec) : State :=
  rs.foldl (fun s r => modVe { s with draw := s.draw + 1 } r.b fun x => restoreVe s.draw x r) s

/-- Reload an image into a partition's array. -/
def reload (s : State) (img : SaveImage) : State :=
  let s := img.tiles.foldl (fun s r => modTile s r.t fun x => restoreTile x r) s
  let s := restoreVes s img.ves
  let bs := img.ves.map fun r => r.b
  { s with
    codebook := img.ves.foldl (fun m r => r.codebook.foldl (fun m e => tset m e.1 e.2) m)
      (s.codebook.filter fun e => decide (e.1 / 8192 ∉ bs)) }

/-- RESUME_RELOAD_COMPLETE: the image is back, the partition runs. -/
def reloadComplete (p : Nat) (s : State) : State :=
  let x := part s p
  if x.pre = .reloading then
    let s := match x.image with
      | none => s
      | some img => reload s img
    let s := countTier s p 0 false (37355520 * (colsOf x).length)
    let e := (x.yieldRec.map fun r => r.epoch).getD x.epoch
    let s := runAgain s p
    finishOpt (modPart s p fun x =>
      { x with image := none, resumeCmd := none, epoch := e, stream := { x.stream with epoch := e, marked := [] }
               pre := if x.stuck = 0 then .running else .yielded }) x.resumeCmd 0
  else s

def execResumeReloadComplete (p : Nat) (s : State) : Host.Outcome State Fault Refusal :=
  onWf (.resumeReloadComplete p) s (reloadComplete p)

/-! ### Accounting (13 R313) -/

/-- The counters (13 Table 9). -/
def acctBytes (s : State) (p : Nat) : List Byte :=
  let a := (part s p).acct
  let b8 := leBytes 8
  leBytes 1 1 ++ leBytes 1 p ++ zeros 6 ++ b8 a.since ++ b8 a.now ++ b8 a.tbeats ++ b8 a.veissue ++
    (List.range 6).flatMap (fun k => b8 (tget 0 a.tierb k)) ++ b8 a.fabSent ++ b8 a.fabRecv ++ b8 a.energy ++
    b8 a.remBeats ++ b8 a.remTbytes ++ b8 a.servBeats ++ b8 a.servTbytes ++ b8 a.steps ++ b8 a.abandon ++ b8 a.isol ++
    b8 a.stale ++ b8 a.late ++ b8 s.power.unattr

/-- ACCT_READ: only C may set CLR; other values than 0 and 1 are reserved. A clear sets every counter to 0 and SINCE to
NOW. -/
def acctCmd (c : Cmd) (s : State) : State :=
  let p := c.part
  let clr := pf c 0 1
  if 1 < clr then answer c (reserved s 0)
  else if clr = 1 ∧ c.port ≠ 0 then finish s c 0x1201 0 []
  else
    let body := acctBytes s p
    let clear (x : Part) : Part :=
      { x with acct := { Acct.zero with since := x.acct.now, now := x.acct.now, act := x.acct.act } }
    finish (if clr = 1 then modPart s p clear else s) c 0 0 body

def acctOpc (clr : Nat) (c : Cmd) : Bool := opcode 0x0106 c && decide (pf c 0 1 = clr ∨ 1 < pf c 0 1)

def execAcctRead (p : Nat) (s : State) : Host.Outcome State Fault Refusal :=
  onWf (.acctRead p) s (takeCmd p (acctOpc 0) acctCmd)

def execAcctReadClear (p : Nat) (s : State) : Host.Outcome State Fault Refusal :=
  onWf (.acctReadClear p) s (takeCmd p (acctOpc 1) acctCmd)

/-! ### MIRROR_CMD (13 R298, 12 R296) -/

/-- The 48 bytes of a final reply's header (12 Table 4). -/
def replyHeader (r : Reply) : List Byte :=
  leBytes 1 1 ++ leBytes 1 r.rflags ++ leBytes 2 r.status ++ leBytes 2 r.opc ++ leBytes 1 r.part ++ leBytes 1 r.src ++
    leBytes 4 r.seq ++ leBytes 4 r.body.length ++ leBytes 8 r.tag.toNat ++ leBytes 8 r.acount ++ leBytes 8 r.ccount ++
    leBytes 4 r.order ++ leBytes 4 r.detail

/-- What an inner command does on the mirror; none where its opcode is not allowed. -/
def innerOp (pkg : PkgInfo) (c : Cmd) (s : State) : Option Answer :=
  if c.opc = 0x0107 then some (seedOp c s)
  else if c.opc = 0x0201 then some (installOp pkg c s)
  else if c.opc = 0x0202 then some (mirrorSwitch c s)
  else if c.opc = 0x0203 then some (removeOp c s)
  else if c.opc = 0x0204 then some (expertMapOp c s)
  else if c.opc = 0x0205 then some (balanceOp c s)
  else if c.opc = 0x0303 then some (budgetOp c s)
  else if c.opc = 0x0401 then some (createOp c s)
  else if c.opc = 0x0406 then some (deleteOp c s)
  else if c.opc = 0x0501 then some (allocOp c s)
  else if c.opc = 0x0503 then some (freeOp c s)
  else none

/-- The inner command as it begins on the mirror: it may have been superseded, or its deadline reached, as one that the CS
accepted with the inner header's fields (12 R286, R293). -/
def innerBegin (pkg : PkgInfo) (c : Cmd) (s : State) : Option Answer :=
  let d := innerCmd c
  match superseded s c with
  | some o => (innerOp pkg d s).map fun _ => (0x3004, o, [], s)
  | none => if isLate d (count s) then (innerOp pkg d s).map fun _ => (0x3002, 0, [], s) else innerOp pkg d s

/-- MIRROR_CMD: the reply carries the inner command's reply header. -/
def mirrorOp (pkg : PkgInfo) (c : Cmd) (s : State) : State :=
  let d := innerCmd c
  match innerBegin pkg c s with
  | none => finish s c 0x1201 0 []
  | some (st, detail, body, t) =>
    if d.plen + 32 ≠ c.plen then answer c (reserved s 0x18)
    else finish t c 0 0 (replyHeader (mkReply d (rflags t false false) st (count t) detail body))

def execMirrorCmd (p : Nat) (pkg : PkgInfo) (s : State) : Host.Outcome State Fault Refusal :=
  onWf (.mirrorCmd p pkg) s (takeCmd p (opcode 0x0702) (mirrorOp pkg))

end Sys2Proof.Machine
end

