-- ==== Sys2Proof/Machine/Fec.lean ====
section
/-! DEFINITION. The forward error correction of a link (14 R324): a frame of 256 bytes as a codeword of 272, its two
Reed-Solomon halves, and the codeword over the active lanes.
Readings of the spec: log entry 54. -/

namespace Sys2Proof.Machine

/-! ### The field of polynomial x^8 + x^4 + x^3 + x^2 + 1 -/

/-- Multiplication by alpha. -/
def gfDouble (a : Nat) : Nat := if 128 ≤ a then (2 * a) ^^^ 0x11d else 2 * a

/-- Product of an element with the low `n` bits of another. -/
def gfMulBits : Nat → Nat → Nat → Nat
  | 0, _, _ => 0
  | n + 1, a, b => (if b % 2 = 1 then a else 0) ^^^ gfMulBits n (gfDouble a) (b / 2)

def gfMul (a b : Nat) : Nat := gfMulBits 8 a b

def gfPow (a : Nat) : Nat → Nat
  | 0 => 1
  | n + 1 => gfMul a (gfPow a n)

/-- Value of a polynomial, highest coefficient first. -/
def gfEval (p : List Nat) (x : Nat) : Nat := p.foldl (fun v c => gfMul v x ^^^ c) 0

/-- Solution of `n` linear equations in `n` unknowns, each row its coefficients and then its right side. -/
def gfSolve : Nat → List (List Nat) → Option (List Nat)
  | 0, _ => some []
  | n + 1, rows =>
    match rows.find? fun r => decide (r.headD 0 ≠ 0) with
    | none => none
    | some r =>
      let unit := r.tail.map (gfMul (gfPow (r.headD 0) 254))
      let rest := (rows.erase r).map fun q => (q.tail.zip unit).map fun e => e.1 ^^^ gfMul (q.headD 0) e.2
      (gfSolve n rest).map fun xs => (unit.zip (xs ++ [1])).foldl (fun v e => v ^^^ gfMul e.1 e.2) 0 :: xs

/-! ### One half: 128 data symbols and 8 parity symbols, the first symbol of the highest power -/

/-- The generator polynomial: monic, with roots alpha^0 to alpha^7. -/
def rsGenerator : List Nat := [1, 255, 11, 81, 54, 239, 173, 200, 24]

/-- The parity symbols: the remainder of the data by the generator. -/
def rsParity (data : List Nat) : List Nat :=
  data.foldl (fun r d =>
    let k := r.headD 0 ^^^ d
    List.zipWith (fun a g => a ^^^ gfMul k g) (r.tail ++ [0]) rsGenerator.tail) (List.replicate 8 0)

/-- The half read at the eight roots; all zero of a code word. -/
def syndromes (r : List Nat) : List Nat := (List.range 8).map fun i => gfEval r (gfPow 2 i)

/-- Positions in error, if `v` symbols are: the roots of the locator polynomial. -/
def errorPlaces (syn : List Nat) (v len : Nat) : List Nat :=
  match gfSolve v ((List.range v).map fun j => ((syn.drop j).take v).reverse ++ [syn.getD (j + v) 0]) with
  | none => []
  | some l => (List.range len).filter fun k => decide (gfEval (1 :: l) (gfPow 2 (len - 1 - k)) = 0)

/-- The half with `v` symbols corrected, if it then is a code word. -/
def correctBy (r syn : List Nat) (v : Nat) : Option (List Nat) :=
  let at' := errorPlaces syn v r.length
  let xs := at'.map fun k => gfPow 2 (r.length - 1 - k)
  match (if at'.length = v then gfSolve v ((List.range v).map fun j => xs.map (gfPow · j) ++ [syn.getD j 0]) else none) with
  | none => none
  | some ys =>
    let c := (at'.zip ys).foldl (fun r e => r.set e.1 (r.getD e.1 0 ^^^ e.2)) r
    if (syndromes c).all (fun y => decide (y = 0)) then some c else none

/-- A received half decoded: up to 4 symbol errors are corrected. -/
def rsDecode (r : List Nat) : Option (List Nat) :=
  let syn := syndromes r
  if syn.all fun y => decide (y = 0) then some r else [1, 2, 3, 4].findSome? (correctBy r syn)

/-! ### The codeword: byte k of the frame in half k mod 2, the parity behind in the same way -/

/-- The members of a list at even places. -/
def evens : List α → List α
  | [] => []
  | [a] => [a]
  | a :: _ :: r => a :: evens r

/-- Two lists, a member of each in turn. -/
def interleave : List α → List α → List α
  | [], bs => bs
  | a :: as, bs => a :: (match bs with
    | [] => as
    | b :: bs => b :: interleave as bs)

/-- The codeword of a frame. -/
def fecEncode (f : List Byte) : List Byte :=
  let half (bs : List Byte) : List Byte := (rsParity (bs.map BitVec.toNat)).map (BitVec.ofNat 8)
  f ++ interleave (half (evens f)) (half (evens f.tail))

/-- The frame of a codeword whose halves both decode. -/
def fecDecode (w : List Byte) : Option (List Byte) :=
  if w.length ≠ 272 then none
  else
    match rsDecode ((evens w).map BitVec.toNat), rsDecode ((evens w.tail).map BitVec.toNat) with
    | some a, some b => some (((interleave a b).take 256).map (BitVec.ofNat 8))
    | _, _ => none

/-! ### The active lanes: codeword byte j on lane j mod width -/

/-- The bytes of a codeword on each of `w` active lanes, lowest lane first. -/
def spread (w : Nat) (c : List Byte) : List (List Byte) :=
  (List.range w).map fun i => (c.zipIdx.filter fun e => decide (e.2 % w = i)).map Prod.fst

/-- The codeword that the active lanes brought. -/
def gatherLanes (ls : List (List Byte)) : List Byte :=
  (List.range (ls.map List.length).sum).filterMap fun j => (ls[j % ls.length]?).bind fun l => l[j / ls.length]?

end Sys2Proof.Machine
end

