-- ==== Sys2Proof/Machine/Links.lean ====
section
/-! DEFINITION. Fabric links and the Iberaine port as links (14 R316 to R331, R343 to R345; 18 R433): training, sideband,
frames, replay, credits, lane swaps, fast recovery, and forwarding. Link 18 is the Iberaine port.
Readings of the spec: log entry 54. -/

namespace Sys2Proof.Machine

/-! ### Frames (14 Table 4) -/

/-- A frame without its CRC. -/
def frameBody (seq ftype aseq vcf cred dlen ctl : Nat) (payload : List Byte) : List Byte :=
  leBytes 2 (seq % 4096 + 4096 * ftype) ++ leBytes 2 (aseq % 4096) ++ leBytes 1 vcf ++ leBytes 1 cred ++ leBytes 2 dlen ++
    leBytes 4 ctl ++ pad 240 payload

def mkFrame (seq ftype aseq vcf cred dlen ctl : Nat) (payload : List Byte) : List Byte :=
  let b := frameBody seq ftype aseq vcf cred dlen ctl payload
  b ++ leBytes 4 (crc32c b)

def fSeq (f : List Byte) : Nat := nfld (fld f 0 2) 0 12
def fType (f : List Byte) : Nat := nfld (fld f 0 2) 12 4
def fAseq (f : List Byte) : Nat := nfld (fld f 2 2) 0 12
def fVc (f : List Byte) : Nat := nfld (fld f 4 1) 0 3
def fSot (f : List Byte) : Bool := decide (nfld (fld f 4 1) 3 1 = 1)
def fEot (f : List Byte) : Bool := decide (nfld (fld f 4 1) 4 1 = 1)
def fCred (f : List Byte) : Nat := fld f 5 1
def fDlen (f : List Byte) : Nat := fld f 6 2
def fCtl (f : List Byte) : Nat := fld f 8 4
def fPayload (f : List Byte) : List Byte := sub f 12 (fDlen f)

/-- The frame that a codeword on the active lanes of a link brings: both halves decode, and the CRC matches (14 R324). -/
def received (x : Link) (lanes : List (List Byte)) : Option (List Byte) :=
  if lanes.length ≠ x.width then none
  else (fecDecode (gatherLanes lanes)).filter fun f => decide (crc32c (f.take 252) = fld f 252 4)

/-- A frame goes out as one codeword over the active lanes. -/
def putFrame (x : Link) (f : List Byte) : Link := { x with wire := x.wire ++ [spread x.width (fecEncode f)] }

/-- The frame has no reserved value: a virtual channel of the link, at most 240 payload bytes. -/
def frameValid (l : Nat) (f : List Byte) : Bool := decide (fVc f < (if l = 18 then 2 else 6) ∧ fDlen f ≤ 240)

/-- Sequence number of the last data frame accepted in order. -/
def lastAccepted (x : Link) : Nat := (x.expSeq + 4095) % 4096

/-- Credits that the next frame returns: of the lowest channel that has any, at most 31. -/
def credByte (x : Link) : Nat :=
  match x.credRet.find? fun e => decide (0 < e.2) with
  | none => 0
  | some (ch, n) => ch + 8 * min n 31

/-- The credits of a CRED byte have been returned. -/
def credTaken (x : Link) (c : Nat) : Link :=
  { x with credRet := tset x.credRet (c % 8) (tget 0 x.credRet (c % 8) - c / 8) }

/-- Put a frame without a sequence number on the wire: 0 idle, 2 NAK, 3 lane swap, 4 link-up. -/
def sendPlain (s : State) (l ftype ctl : Nat) : State :=
  let x := link s l
  let c := if ftype = 4 then 0 else credByte x
  setLink s l { putFrame (credTaken x c) (mkFrame 0 ftype (lastAccepted x) 0 c 0 ctl []) with lastSent := count s }

/-- A frame of the replay buffer: its VCF byte, its CRED byte, its payload. -/
def dataFrame (x : Link) (e : Nat × List Byte) : List Byte :=
  mkFrame e.1 1 (lastAccepted x) (fld e.2 0 1) (fld e.2 1 1) (e.2.length - 2) 0 (e.2.drop 2)

/-! ### Packets as CMD transactions (14 R342, R344; 12 Table 4) -/

def replyBytes (r : Reply) : List Byte :=
  leBytes 1 1 ++ leBytes 1 r.rflags ++ leBytes 2 r.status ++ leBytes 2 r.opc ++ leBytes 1 r.part ++ leBytes 1 r.src ++
    leBytes 4 r.seq ++ leBytes 4 r.body.length ++ leBytes 8 r.tag.toNat ++ leBytes 8 r.acount ++ leBytes 8 r.ccount ++
    leBytes 4 r.order ++ leBytes 4 r.detail ++ r.body

/-- Fields of the reply header to which the manual gives no meaning in an event are zero (log entry 34, DEDUCED). -/
def eventBytes (e : Event) : List Byte :=
  leBytes 1 1 ++ leBytes 1 (8 + if e.timeQuality then 4 else 0) ++ zeros 2 ++ leBytes 2 e.code ++ zeros 2 ++ leBytes 4 e.seq ++
    leBytes 4 e.body.length ++ zeros 32 ++ e.body

def packetWire : Packet → List Byte
  | .reply r => replyBytes r
  | .event e => eventBytes e
  | .boot b body => leBytes 1 0xb1 ++ leBytes 1 b ++ zeros 6 ++ leBytes 4 body.length ++ zeros 4 ++ body
  | .mctp c k body => leBytes 1 c ++ leBytes 1 k ++ body

/-- Stream number that marks transactions of the Iberaine port in the ingress: no stream of the fabric has it. -/
abbrev iberaineStream : Nat := 16

/-- Lay a packet for the control node into frames of channel 1 of the Iberaine port (log entry 34, DEDUCED). -/
def frameC (s : State) (k : Packet) : State :=
  let id := tget 0 s.fabric.nextMsg iberaineStream
  let s := modFabric s fun f => { f with nextMsg := tset f.nextMsg iberaineStream ((id + 1) % 65536) }
  let bs := packetWire k
  let ps := pieces 4096 (bs.length / 4096 + 1) bs
  let txn (e : List Byte × Nat) : Txn :=
    { ttype := 0x11, strm := 0, dchip := 0, schip := s.fabric.chip % 16384, srcPart := 0, dstPart := 0
      last := decide (e.2 + 1 = ps.length), addr := BitVec.ofNat 64 (2 ^ 48 * id + 4096 * e.2), len := e.1.length, tid := 0
      status := 0, aop := 0, operand := 0, data := e.1 }
  modLink s 18 fun x =>
    { x with txq := tset x.txq 1 (tget [] x.txq 1 ++ (ps.zipIdx.map txn).flatMap fun t => txnFrames 1 (txnBytes t)) }

/-- Packets made for the control node and the twin are laid into frames. -/
def frameOut (s : State) : State :=
  let c := s.out.iberaine.drop s.out.framedC
  let t := s.out.twin.drop s.out.framedT
  let s := { s with out := { s.out with framedC := s.out.iberaine.length, framedT := s.out.twin.length } }
  let s := c.foldl frameC s
  t.foldl (fun s k => sendMessage s 0x11 14 s.pair.twin 0 0 (packetWire k)) s

/-! ### Streams that wait for their old link (14 R331) -/

/-- A transaction in transit that cannot go on is discarded and counted (14 R329). -/
def lostTxn (s : State) : State := modFabric s fun f => { f with noRoute := f.noRoute + 1 }

def routeOr (s : State) (phase : Nat) (t : Txn) : State := (route s phase t).getD (lostTxn s)

/-- Try the waiting transactions again, in order. -/
def retryWaiting (s : State) : State :=
  let ws := s.fabric.waiting
  ws.foldl (fun s w => routeOr s w.2 w.1) (modFabric s fun f => { f with waiting := [] })

/-! ### Acknowledgement and credits (14 R324, R325) -/

/-- Drop the frames up to and with a sequence number from the replay buffer. -/
def dropAcked (r : List (Nat × List Byte)) (aseq : Nat) : List (Nat × List Byte) :=
  if r.any fun e => decide (e.1 = aseq) then (r.dropWhile fun e => decide (e.1 ≠ aseq)).tail else r

/-- ASEQ of a frame that decoded. -/
def takeAck (s : State) (l aseq : Nat) : State :=
  let x := link s l
  let r := dropAcked x.replay aseq
  if r.length = x.replay.length then s
  else retryWaiting (setLink s l { x with replay := r, progressAt := count s, replays := 0 })

/-- CRED of a frame. -/
def takeCred (s : State) (l cred : Nat) : State :=
  modLink s l fun x => { x with credits := tset x.credits (cred % 8) (min 64 (tget 0 x.credits (cred % 8) + cred / 8)) }

/-! ### Link changes (14 R322; 12 Table 12) -/

/-- Event 0xe401. -/
def linkEvent (s : State) (l cause disc : Nat) : State :=
  let x := link s l
  let up := decide (x.st = .up)
  let s := setLink s l { x with changes := sat 32 (x.changes + 1) }
  event s [0] 0xe401
    (leBytes 1 l ++ leBytes 1 (if up then 1 else 0) ++ leBytes 1 (if up then x.width else 0) ++ leBytes 1 x.rate ++
      leBytes 1 cause ++ leBytes 1 (if x.spare < 5 then x.spare else 0xff) ++ zeros 2 ++ leBytes 4 disc ++ zeros 4)

/-- Event 0xe402. -/
def iberaineEvent (s : State) (ms : List Nat) (kind disc : Nat) : State :=
  event s ms 0xe402 (leBytes 1 kind ++ zeros 3 ++ leBytes 4 disc ++ leBytes 8 (count s))

/-- Width that R320 allows on lanes still held. -/
def widthOf (n : Nat) : Nat := if 4 ≤ n then 4 else if 2 ≤ n then 2 else n

/-- A link goes down and starts fast recovery: it retrains on the lanes it still holds, sending its link-up frame. -/
def linkDown (s : State) (l cause : Nat) : State :=
  let x := link s l
  let w := if l = 18 then min 2 x.lanes.length else widthOf x.lanes.length
  let s := setLink s l
    { x with st := .recovery, downAt := count s, width := w, lanes := x.lanes.take w, swap := none, rotates := false
             spare := if x.width = w then x.spare else 5 }
  let s := sendPlain s l 4 (link s l).expSeq
  if l = 18 then iberaineEvent (modLink s l fun x => { x with changes := sat 32 (x.changes + 1) }) [1, 2] 1 0
  else linkEvent s l cause 0

/-- Replies and events held while the port was down are sent, followed by one event 0xe402 after a loss (14 R345). -/
def iberaineFlush (s : State) (afterLoss : Bool) : State :=
  let disc := s.out.disc
  let s := { s with out := { s.out with iberaine := s.out.iberaine ++ s.out.heldC, heldC := [], disc := 0 } }
  if afterLoss then iberaineEvent s [0] 2 disc else s

/-- Send the frames of the replay buffer again, in order. -/
def replayAll (s : State) (l : Nat) : State :=
  modLink s l fun x => { (x.replay.map (dataFrame x)).foldl putFrame x with lastSent := count s }

/-- The link is up: trained anew, or after fast recovery with the partner's next expected number. Its own link-up frame goes
out once more, for a partner that began to listen only now (log entry 54, DEDUCED). -/
def linkUpNow (s : State) (l ctl : Nat) : State :=
  let x := link s l
  let fresh := decide (x.st = .activate)
  let lossy := decide (x.downAt ≠ 0)
  let r := if fresh then [] else dropAcked x.replay ((ctl + 4095) % 4096)
  let s := setLink (sendPlain s l 4 x.expSeq) l
    { link (sendPlain s l 4 x.expSeq) l with
      st := .up, since := count s, downAt := 0, replay := r, replays := 0, progressAt := count s, nakSent := false
      replayCount := sat 32 (x.replayCount + r.length)
      changes := if l = 18 then sat 32 (x.changes + 1) else x.changes }
  let s := if fresh then s else replayAll s l
  let s := if l = 18 then iberaineFlush s lossy else linkEvent s l (if fresh then 1 else 2) 0
  retryWaiting s

/-- Enter ACTIVATE: sequence numbers 0, a link-up frame sent, and 64 frames of each channel to be advertised as credits by the
frames that follow (14 R325). -/
def enterActivate (s : State) (l : Nat) : State :=
  let chans := if l = 18 then 2 else 6
  let s := modLink s l fun x =>
    { x with
      st := .activate, since := count s, nextSeq := 0, expSeq := 0, replay := [], nakSent := false, partialTx := []
      credRet := (List.range chans).map fun c => (c, 64), credits := [], swap := none, rotates := false }
  sendPlain s l 4 0

/-! ### Training (14 R319, R320) -/

def maskLanes (m : BitVec 5) : List Nat := (List.range 5).filter m.getLsbD

/-- Limit of a training state in counts. -/
def trainLimit (st : LinkState) : Option Nat :=
  match st with
  | .sideband => some 1250000
  | .detect => some 25000
  | .lock => some 50000
  | .equalise | .qualify => some 250000
  | .activate => some 25000
  | _ => none

/-- Lanes that a link may train on: those it detected, less the retired ones. -/
def trainable (x : Link) (m : BitVec 5) : List Nat := (maskLanes m).filter fun n => decide (n ∉ x.retiredLanes)

/-- Highest rate code common to both partners. -/
def firstRate (s : State) (l : Nat) (x : Link) : Nat := max ((s.fabric.ents[l]?).elim 0 fun e => e.maxr) x.partnerRate

/-- Better of two choices (width, rate code): greater bandwidth, then wider. -/
def better (a b : Nat × Nat) : Bool :=
  let bw (c : Nat × Nat) : Nat := c.1 * (4 / 2 ^ c.2)
  decide (bw b < bw a ∨ (bw a = bw b ∧ b.1 < a.1))

/-- SELECT: width, rate, lanes and spare (R320); none without a good lane. -/
def choose (goods : List (Nat × BitVec 5)) (x : Link) : Option (Nat × Nat × List Nat × Nat) :=
  match goods.find? fun g => decide (4 ≤ (trainable x g.2).length) with
  | some (r, m) =>
    let ls := trainable x m
    some (4, r, ls.take 4, (ls[4]?).getD 5)
  | none =>
    let cs := goods.filterMap fun g =>
      let n := (trainable x g.2).length
      if 1 ≤ n then some ((widthOf n, g.1), (trainable x g.2).take (widthOf n)) else none
    match cs with
    | [] => none
    | c :: r =>
      let b := r.foldl (fun b c => if better c.1 b.1 then c else b) c
      some (b.1.1, b.1.2, b.2, 5)

/-- A state fails: the link stays down and is reported. -/
def trainFail (s : State) (l : Nat) : State :=
  linkEvent (modLink s l fun x => { x with st := .failed, since := count s }) l 8 0

/-- Move to the next training state. -/
def toState (s : State) (l : Nat) (st : LinkState) (f : Link → Link) : State :=
  modLink s l fun x => { f x with st := st, since := count s }

/-- LINK_TRAIN_STATE_PASS: a training state has found `info`, within its limit. -/
def statePass (l : Nat) (info : TrainInfo) (s : State) : State :=
  let x := link s l
  let inTime := (trainLimit x.st).elim true fun n => decide (count s < x.since + n)
  if l = 18 ∨ inTime = false then s
  else
    match x.st with
    | .sideband => if x.sideOk then toState s l .detect id else s
    | .detect =>
      let ls := trainable x info.lanes
      if ls = [] then s else toState s l .lock fun x => { x with lanes := ls }
    | .lock => if info.pass then toState s l .equalise fun x => { x with rateIdx := firstRate s l x, goods := [] } else s
    | .equalise => if info.pass then toState s l .qualify id else s
    | .qualify =>
      let m : BitVec 5 := (info.good[0]?).getD 0
      let found : BitVec 5 := x.lanes.foldl (fun b n => b ||| (m &&& (1#5 <<< n))) 0
      let goods := x.goods ++ [(x.rateIdx, found)]
      if 4 ≤ (maskLanes found).length ∨ 2 ≤ x.rateIdx then toState s l .select fun x => { x with goods := goods }
      else toState s l .equalise fun x => { x with goods := goods, rateIdx := x.rateIdx + 1 }
    | .select =>
      match choose x.goods x with
      | none => trainFail s l
      | some (w, r, ls, sp) => enterActivate (setLink s l { x with width := w, rate := r, lanes := ls, spare := sp }) l
    | _ => s

def execLinkTrainStatePass (l : Nat) (info : TrainInfo) (s : State) : Host.Outcome State Fault Refusal :=
  onWf (.linkTrainStatePass l info) s (statePass l info)

/-- LINK_TRAIN_LIMIT. -/
def execLinkTrainLimit (l : Nat) (s : State) : Host.Outcome State Fault Refusal :=
  onWf (.linkTrainLimit l) s fun s =>
    let x := link s l
    match trainLimit x.st with
    | none => s
    | some n => if l ≠ 18 ∧ x.since + n ≤ count s then trainFail s l else s

/-! ### Sideband (18 R433, Table 6) -/

/-- CRC-16 of 18 Table 6. -/
def crc16 (bs : List Byte) : Nat := crcRegF 16 0x1021 0xffff bs

def presentMask (x : Link) : Nat := ((List.range 5).filter fun n => decide (n ∉ x.retiredLanes)).foldl (fun a n => a + 2 ^ n) 0

def sideBytes (s : State) (l : Nat) (e : LinkEnt) : List Byte :=
  let b := leBytes 1 0x5b ++ leBytes 1 1 ++ leBytes 2 e.pchip ++ leBytes 1 e.plink ++ leBytes 1 l ++ leBytes 2 s.fabric.chip ++
    leBytes 1 (presentMask (link s l)) ++ leBytes 1 e.maxr
  b ++ leBytes 2 (crc16 b)

/-- SIDEBAND_SEND: the message of a link still in SIDEBAND, once every 1 ms, in the train phase. -/
def sidebandSend (l : Nat) (s : State) : State :=
  let x := link s l
  match s.fabric.ents[l]? with
  | none => s
  | some e =>
    if x.st = .sideband ∧ s.lands.phase = 1 ∧ (x.lastSent < x.since ∨ x.lastSent + 25000 ≤ count s) then
      modFabric (setLink s l { x with lastSent := count s }) fun f => { f with sideSent := f.sideSent ++ [sideBytes s l e] }
    else s

def execSidebandSend (l : Nat) (s : State) : Host.Outcome State Fault Refusal := onWf (.sidebandSend l) s (sidebandSend l)

/-- A message that is discarded: a reserved value, a CRC mismatch, or for another chip. -/
def sideBad (s : State) (m : List Byte) : Bool :=
  decide (m.length ≠ 12 ∨ fld m 0 1 ≠ 0x5b ∨ fld m 1 1 ≠ 1 ∨ fld m 10 2 ≠ crc16 (m.take 10)) ||
    decide (17 < fld m 4 1 % 32 ∨ 17 < fld m 5 1 % 32 ∨ fld m 9 1 % 4 = 3) ||
    !s.fabric.accepted || decide (fld m 2 2 % 16384 ≠ s.fabric.chip)

/-- SIDEBAND_RECV. -/
def sidebandRecv (m : List Byte) (s : State) : State :=
  if s.lands.phase ≠ 1 then s
  else if sideBad s m then modFabric s fun f => { f with sideDisc := f.sideDisc + 1 }
  else
    let l := fld m 4 1 % 32
    match s.fabric.ents[l]? with
    | none => s
    | some e =>
      if (link s l).st = .sideband ∧ fld m 6 2 % 16384 = e.pchip ∧ fld m 5 1 % 32 = e.plink then
        modLink s l fun x =>
          { x with sideOk := true, partnerLanes := BitVec.ofNat 5 (fld m 8 1), partnerRate := fld m 9 1 % 4 }
      else s

def execSidebandRecv (msg : List Byte) (s : State) : Host.Outcome State Fault Refusal :=
  onWf (.sidebandRecv msg) s (sidebandRecv msg)

/-! ### Receiving frames (14 R324, R325, R333) -/

def isUp (s : State) (l : Nat) : Bool := decide ((link s l).st = .up)

/-- A data frame that is not the one expected is discarded; the first since an accepted one sends a NAK. -/
def discardFrame (s : State) (l : Nat) : State :=
  let x := link s l
  if x.nakSent then s else sendPlain (setLink s l { x with nakSent := true }) l 2 x.expSeq

/-- Frames that a transaction took: each returns a credit when it leaves its buffer. -/
def returnCredits (s : State) (l ch n : Nat) : State :=
  modLink s l fun x => { x with credRet := tset x.credRet ch (tget 0 x.credRet ch + n) }

/-- A paired partition lapses: the record, the PVAL bit (a function of `lapsing`), and INVAL (16 R403). -/
def startLapse (s : State) (p : Nat) : State :=
  let x := part s p
  if x.paired && !x.lapsing then
    let k := x.pub.elim 0 fun w => w.step.id
    let s := (recordFault s 25 p 0xffff k 0 0 [] none).2
    sendAcked (modPart s p fun x => { x with lapsing := true }) 10 p k []
  else s

/-- A pair message of partition `p` carried a reserved value: the partition lapses, on its primary by R403, on the mirror by
the mirror becoming invalid (16 R398). -/
def badPair (s : State) (p : Nat) : State :=
  if isMirror s p then modPart s p fun x => { x with mirrorValid := false } else startLapse s p

/-- A transaction for this chip is delivered. A broken message counts as having carried a reserved value (14 R340): one of the
twin's pair messages makes the partition that the transaction names lapse. -/
def deliverTxn (s : State) (t : Txn) : State :=
  let broken := decide (t.ttype = 0x12) && !follows s t && s.pair.on && decide (t.schip = s.pair.twin)
  let s := ingress s t
  if broken then badPair s t.dstPart else s

/-- A whole transaction for this chip has arrived on a channel of a link (14 R328). -/
def arrived (s : State) (l ch : Nat) (bs : List Byte) : State :=
  let t := parseTxn bs
  let n := (txnFrames ch bs).length
  let s := returnCredits s l ch n
  if l = 18 then
    if t.ttype = 0x11 ∧ ch = 0 ∧ txnOk t then ingress s { t with strm := iberaineStream }
    else modFabric s fun f => { f with discarded := f.discarded + 1 }
  else if t.dchip = s.fabric.chip ∧ txnOk t then
    deliverTxn (if defined s t.dstPart then countFabric s t.dstPart (outsideTxn t false) false bs.length else s) t
  else modFabric s fun f => { f with discarded := f.discarded + 1 }

/-- Key of a channel of a link in the tables of forwarding. -/
def fwdKey (l ch : Nat) : Nat := 8 * l + ch

/-- The header of the foreign transaction that a frame of a link belongs to: in its first frame, or kept from there. -/
def foreignTxn (s : State) (l : Nat) (f : List Byte) : Option Txn :=
  if l = 18 then none
  else if fSot f then
    let t := parseTxn (fPayload f)
    if 32 ≤ (fPayload f).length ∧ t.dchip ≠ s.fabric.chip then some { t with data := [] } else none
  else tfind s.fabric.fwdIn (fwdKey l (fVc f))

/-- A frame bound for another chip is placed in the queue of frames to forward (14 R318, R324). -/
def queueFrame (s : State) (l : Nat) (f : List Byte) (t : Txn) : State :=
  let k := fwdKey l (fVc f)
  let e : FwdFrame :=
    { link := l, chan := fVc f, txn := t, first := fSot f, last := fEot f, payload := fPayload f, owed := true }
  modFabric (modLink s l fun x => { x with partialTx := tset x.partialTx (fVc f) [] }) fun b =>
    { b with fwdIn := if fEot f then tdel b.fwdIn k else tset b.fwdIn k t, fwd := b.fwd ++ [e] }

/-- A frame for this chip is put behind those of its transaction; the last one makes it whole. -/
def gatherFrame (s : State) (l : Nat) (f : List Byte) : State :=
  let ch := fVc f
  let bs := (if fSot f then [] else tget [] (link s l).partialTx ch) ++ fPayload f
  let s := modLink s l fun x => { x with partialTx := tset x.partialTx ch (if fEot f then [] else bs) }
  let s := modFabric s fun b => { b with fwdIn := tdel b.fwdIn (fwdKey l ch) }
  if fEot f then arrived s l ch bs else s

/-- The expected data frame is accepted. -/
def acceptFrame (s : State) (l : Nat) (f : List Byte) : State :=
  let s := takeCred (modLink s l fun x => { x with expSeq := (x.expSeq + 1) % 4096, nakSent := false }) l (fCred f)
  match foreignTxn s l f with
  | some t => queueFrame s l f t
  | none => gatherFrame s l f

/-- DATA_FRAME_RECV. -/
def dataRecv (l : Nat) (lanes : List (List Byte)) (s : State) : State :=
  if !isUp s l then s
  else
    match received (link s l) lanes with
    | none => discardFrame s l
    | some f =>
      if fType f ≠ 1 ∨ frameValid l f = false then s
      else
        let s := takeAck s l (fAseq f)
        if fSeq f = (link s l).expSeq then acceptFrame s l f else discardFrame s l

def execDataFrameRecv (l : Nat) (lanes : List (List Byte)) (s : State) : Host.Outcome State Fault Refusal :=
  onWf (.dataFrameRecv l lanes) s (dataRecv l lanes)

/-- A frame of a kind without sequence number: acknowledgement and credits, then its own effect. One that does not decode
is dropped. Idle frames are exchanged in ACTIVATE too (14 Table 3). -/
def plainRecv (l ftype : Nat) (lanes : List (List Byte)) (g : List Byte → State → State) (s : State) : State :=
  if isUp s l || (decide (ftype = 0) && decide ((link s l).st = .activate)) then
    match received (link s l) lanes with
    | none => s
    | some f => if fType f = ftype then g f (takeCred (takeAck s l (fAseq f)) l (fCred f)) else s
  else s

/-- IDLE_FRAME_RECV. -/
def execIdleFrameRecv (l : Nat) (lanes : List (List Byte)) (s : State) : Host.Outcome State Fault Refusal :=
  onWf (.idleFrameRecv l lanes) s (plainRecv l 0 lanes fun _ s => s)

/-- NAK: the frames from the expected one are sent again in order; sixteen replays of one frame take the link down. -/
def nakRecv (l exp : Nat) (s : State) : State :=
  let s := takeAck s l ((exp + 4095) % 4096)
  let x := link s l
  if x.replay = [] then s
  else
    let s := replayAll (setLink s l
      { x with replays := x.replays + 1, replayCount := sat 32 (x.replayCount + x.replay.length) }) l
    if 16 ≤ x.replays + 1 then linkDown s l 3 else s

/-- NAK_FRAME_RECV. -/
def execNakFrameRecv (l : Nat) (lanes : List (List Byte)) (s : State) : Host.Outcome State Fault Refusal :=
  onWf (.nakFrameRecv l lanes) s (plainRecv l 2 lanes fun f => nakRecv l (fCtl f % 4096))

/-! ### Lanes (14 R321) -/

def swapCtl (r sp : Nat) : Nat := r + 8 * sp

/-- An active lane is retired: the spare is swapped in, or without one the link goes down. -/
def retireLane (s : State) (l lane : Nat) : State :=
  let x := link s l
  if lane ∉ x.lanes ∨ x.swap.elim false (fun w => decide (w.1 = lane)) then s
  else if x.spare < 5 ∧ x.swap = none then
    sendPlain (setLink s l { x with swap := some (lane, x.spare, true, false) }) l 3 (swapCtl lane x.spare)
  else
    linkDown (setLink s l
      { x with lanes := x.lanes.filter fun n => decide (n ≠ lane), retiredLanes := dedup (x.retiredLanes ++ [lane]) }) l 6

/-- LANE_LOCK_LOSS. -/
def execLaneLockLoss (l lane : Nat) (s : State) : Host.Outcome State Fault Refusal :=
  onWf (.laneLockLoss l lane) s fun s => if isUp s l then retireLane s l lane else s

/-- LANE_ERROR_INTERVAL: corrected symbols of an active lane over 1 s. -/
def execLaneErrorInterval (l lane corrected symbols : Nat) (s : State) : Host.Outcome State Fault Refusal :=
  onWf (.laneErrorInterval l lane corrected symbols) s fun s =>
    if isUp s l ∧ lane ∈ (link s l).lanes then
      let s := modLink s l fun x => { x with corrected := sat 32 (x.corrected + corrected) }
      if symbols < 1000000 * corrected then retireLane s l lane else s
    else s

/-- A lane-swap frame: the partner's decision, acknowledged with the same frame, or its acknowledgement of ours. -/
def swapRecv (l ctl : Nat) (s : State) : State :=
  let r := ctl % 8
  let sp := ctl / 8 % 8
  let x := link s l
  match x.swap with
  | some (a, b, own, _) => if a = r ∧ b = sp then setLink s l { x with swap := some (a, b, own, true) } else s
  | none =>
    if r ∈ x.lanes ∧ sp = x.spare ∧ sp < 5 then
      sendPlain (setLink s l { x with swap := some (r, sp, true, true) }) l 3 (swapCtl r sp)
    else s

/-- LANE_SWAP_FRAME_RECV. -/
def execLaneSwapFrameRecv (l : Nat) (lanes : List (List Byte)) (s : State) : Host.Outcome State Fault Refusal :=
  onWf (.laneSwapFrameRecv l lanes) s (plainRecv l 3 lanes fun f => swapRecv l (fCtl f))

/-- LANE_SWAP_EFFECT: both sides have acknowledged; the spare takes the retired lane's place. After a BIST rotation of this
side's the lane that left is the spare (16 Table 4). -/
def swapEffect (l : Nat) (s : State) : State :=
  let x := link s l
  match x.swap with
  | some (r, sp, true, true) =>
    setLink s l
      { x with
        lanes := (List.range 5).filter fun n => decide (n = sp ∨ (n ∈ x.lanes ∧ n ≠ r)), swap := none, rotates := false
        spare := if x.rotates then r else 5
        retiredLanes := if x.rotates then x.retiredLanes else dedup (x.retiredLanes ++ [r]) }
  | _ => s

def execLaneSwapEffect (l : Nat) (s : State) : Host.Outcome State Fault Refusal :=
  onWf (.laneSwapEffect l) s fun s => if isUp s l then swapEffect l s else s

/-! ### Link-up, and links that go down (14 R322) -/

/-- LINK_UP_FRAME_RECV: in ACTIVATE, or within 200 us of going down. -/
def linkUpRecv (l : Nat) (lanes : List (List Byte)) (s : State) : State :=
  let x := link s l
  match received x lanes with
  | none => s
  | some f =>
    if fType f ≠ 4 then s
    else
      match x.st with
      | .activate => if count s < x.since + 25000 then linkUpNow s l (fCtl f % 4096) else s
      | .recovery => if count s < x.downAt + 5000 ∧ 0 < x.width then linkUpNow s l (fCtl f % 4096) else s
      | _ => s

def execLinkUpFrameRecv (l : Nat) (lanes : List (List Byte)) (s : State) : Host.Outcome State Fault Refusal :=
  onWf (.linkUpFrameRecv l lanes) s (linkUpRecv l lanes)

/-- ACK_PROGRESS_TIMEOUT: 10 us. -/
def execAckProgressTimeout (l : Nat) (s : State) : Host.Outcome State Fault Refusal :=
  onWf (.ackProgressTimeout l) s fun s =>
    let x := link s l
    if isUp s l ∧ x.replay ≠ [] ∧ x.progressAt + 250 ≤ count s then linkDown s l 4 else s

/-- CODEWORD_ALIGNMENT_LOSS. -/
def execCodewordAlignmentLoss (l : Nat) (s : State) : Host.Outcome State Fault Refusal :=
  onWf (.codewordAlignmentLoss l) s fun s => if isUp s l then linkDown s l 5 else s

/-- Transactions that wait whole in a channel's queue. -/
def wholeTxns : List (List Byte) → List (List Byte)
  | fs =>
    let (done, _) := fs.foldl (fun (acc : List (List Byte) × Option (List Byte)) f =>
      match f with
      | [] => acc
      | v :: p =>
        let cur := if v.getLsbD 3 then some p else acc.2.map fun c => c ++ p
        if v.getLsbD 4 then (acc.1 ++ cur.toList, none) else (acc.1, cur)) ([], none)
    done

/-- The frames of a queue behind its last EOT: the transaction that has not wholly arrived. -/
def unendedFrames (fs : List (List Byte)) : List (List Byte) :=
  (fs.reverse.takeWhile fun f => !(f.headD 0).getLsbD 4).reverse

/-- Frames on the queue of a transaction in transit that link `l` had not begun to send are to be forwarded anew. -/
def unsentFrames (key : Nat) (fs : List (List Byte)) : List FwdFrame :=
  match unendedFrames fs with
  | [] => []
  | h :: r =>
    if (h.headD 0).getLsbD 3 then
      let t : Txn := { parseTxn h.tail with data := [] }
      (h :: r).map fun f =>
        { link := key / 8, chan := key % 8, txn := t, first := (f.headD 0).getLsbD 3, last := false, payload := f.tail
          owed := false }
    else []

/-- The waiting frames without those behind the last EOT of the channels that `cut` names. -/
def wholeFrames (cut : Nat → Bool) (fs : List FwdFrame) : List FwdFrame :=
  (fs.foldr (fun e (a : List FwdFrame × List Nat) =>
    let k := fwdKey e.link e.chan
    if !cut k || e.last || a.2.contains k then (e :: a.1, if e.last then k :: a.2 else a.2) else a) ([], [])).1

/-- Forwarding when link `l` leaves its port. A transaction that it was receiving never becomes whole: the frames of it still
here are dropped. One that it was sending goes another way when none of its frames had left; else the rest of it is
discarded (14 R339; log entry 54, DEDUCED). -/
def leaveForward (s : State) (l : Nat) (txq : Tab (List (List Byte))) : State :=
  modFabric s fun b =>
    let cut (k : Nat) : Bool := decide (k / 8 = l) && thas b.fwdIn k
    let fwd := wholeFrames cut b.fwd
    let ended (k : Nat) : Bool :=
      cut k && ((fwd.find? fun e => decide (fwdKey e.link e.chan = k)).elim true fun e => e.first)
    let opened := b.fwdOpen.filter fun e => !ended e.1
    let back := opened.flatMap fun e =>
      match e.2 with
      | some (o, c) => if o = l then unsentFrames e.1 (tget [] txq c) else []
      | none => []
    let again (k : Nat) : Bool := back.any fun f => decide (fwdKey f.link f.chan = k)
    { b with
      fwd := back ++ fwd, fwdIn := b.fwdIn.filter fun e => decide (e.1 / 8 ≠ l)
      fwdOpen := (opened.filter fun e => !again e.1).map fun e =>
        match e.2 with
        | some (o, c) => (e.1, if o = l then none else some (o, c))
        | none => e }

/-- A link leaves its port: its replay buffer is discarded and counted, and the transactions that it had not begun to send
move with their streams (R331). It retrains from DETECT. The Iberaine port retrains from LIGHT and keeps the packets that it
has not begun to send (R345). -/
def leavePort (s : State) (l : Nat) : State :=
  let x := link s l
  let lost := x.replay.length
  let moved := x.txq.flatMap fun e => (wholeTxns e.2).map fun bs => (parseTxn bs, e.1 % 2)
  let s := setLink s l
    { x with
      st := if l = 18 then .light else .detect, since := count s, replay := [], partialTx := []
      txq := if l = 18 then x.txq.map fun e => (e.1, e.2.dropWhile fun f => !(f.headD 0).getLsbD 3) else [] }
  let s := modFabric s fun f => { f with lost := f.lost + lost }
  let s := leaveForward s l x.txq
  if l = 18 then s
  else retryWaiting (moved.foldl (fun s w => routeOr s w.2 w.1) (linkEvent s l 7 lost))

/-- FAST_RECOVERY_TIMEOUT. -/
def execFastRecoveryTimeout (l : Nat) (s : State) : Host.Outcome State Fault Refusal :=
  onWf (.fastRecoveryTimeout l) s fun s =>
    let x := link s l
    if x.st = .recovery ∧ x.downAt + 5000 ≤ count s then leavePort s l else s

/-! ### Sending (14 R324, R325) -/

/-- A channel has a frame to send and a credit for it. -/
def canSend (x : Link) (ch : Nat) : Bool := !(tget [] x.txq ch).isEmpty && decide (0 < tget 0 x.credits ch)

/-- The channel whose turn it is among those holding credit. -/
def sendTurn (x : Link) : Option Nat := ((List.range 6).map fun i => (x.lastTurn + 1 + i) % 6).find? (canSend x)

/-- FRAME_TRANSMIT. -/
def transmit (l ch : Nat) (s : State) : State :=
  let s := frameOut s
  let x := link s l
  if x.st ≠ .up ∨ sendTurn x ≠ some ch ∨ 512 ≤ x.replay.length then s
  else
    match tget [] x.txq ch with
    | (v :: p) :: r =>
      let c := credByte x
      let e : Nat × List Byte := (x.nextSeq, v :: BitVec.ofNat 8 c :: p)
      let y := credTaken x c
      setLink s l
        { putFrame y (dataFrame x e) with
          txq := tset x.txq ch r, nextSeq := (x.nextSeq + 1) % 4096, replay := x.replay ++ [e], lastTurn := ch
          credits := tset x.credits ch (tget 0 x.credits ch - 1), lastSent := count s
          progressAt := if x.replay = [] then count s else x.progressAt }
    | _ => s

def execFrameTransmit (l ch : Nat) (s : State) : Host.Outcome State Fault Refusal :=
  onWf (.frameTransmit l ch) s (transmit l ch)

/-- IDLE_FRAME_TIMER: with no data to send, and in ACTIVATE. -/
def execIdleFrameTimer (l : Nat) (s : State) : Host.Outcome State Fault Refusal :=
  onWf (.idleFrameTimer l) s fun s =>
    let s := frameOut s
    if (isUp s l ∧ sendTurn (link s l) = none) ∨ (link s l).st = .activate then sendPlain s l 0 0 else s

/-! ### Forwarding (14 R318, R325, R328 to R331) -/

/-- Phase of a frame in transit: 1 once it has crossed a link between groups (14 R330). -/
def fwdPhase (s : State) (e : FwdFrame) : Nat := if isGlb s e.link then 1 else e.chan % 2

/-- The output link and channel that a transaction in transit wants. -/
def wantsOut (s : State) (e : FwdFrame) : Option (Nat × Nat) :=
  (linkFor s e.txn).map fun o => (o, 2 * txnClass e.txn.ttype + fwdPhase s e)

/-- Routing sends a frame in phase 1 onto a link between groups (14 R330). -/
def wrongGroup (s : State) (e : FwdFrame) : Bool :=
  decide (fwdPhase s e = 1) && (wantsOut s e).elim false fun o => isGlb s o.1

/-- Where the frames of a transaction go whose first frame is `e`: an output, or none, when they are discarded. -/
def fwdGoal (s : State) (e : FwdFrame) : Option (Nat × Nat) := if wrongGroup s e then none else wantsOut s e

/-- Frame `e`, the oldest of its channel, may go on: a later one of its transaction always; a first one when its stream and
the output's channel are free, and no older transaction of another input waits for that channel (14 R325, R331, R333). -/
def mayForward (s : State) (e : FwdFrame) : Bool :=
  !e.first ||
    match fwdGoal s e with
    | none => true
    | some (o, c) =>
      streamClear s o (fwdPhase s e) e.txn && !channelTaken { s with fabric := { s.fabric with
        fwdOpen := tdel s.fabric.fwdOpen (fwdKey e.link e.chan) } } o c &&
        !(s.fabric.waiting.any fun w => decide (streamKey w.1 = streamKey e.txn)) &&
        !((s.fabric.fwd.takeWhile fun d => decide (d ≠ e)).any fun d =>
          d.first && decide (fwdKey d.link d.chan ≠ fwdKey e.link e.chan) && decide (fwdGoal s d = some (o, c)))

/-- The frame of link `l` that goes on next: the oldest among the oldest of each channel that may. -/
def nextForward (s : State) (l : Nat) : Option FwdFrame :=
  (s.fabric.fwd.zipIdx.find? fun d =>
    decide (d.1.link = l) && !((s.fabric.fwd.take d.2).any fun f => decide (f.link = l ∧ f.chan = d.1.chan)) &&
      mayForward s d.1).map Prod.fst

/-- A frame leaves its receive buffer: onto its output's queue, or discarded and counted (14 R329, R330). -/
def forwardFrame (s : State) (e : FwdFrame) : State :=
  let k := fwdKey e.link e.chan
  let goal := if e.first then fwdGoal s e else tget none s.fabric.fwdOpen k
  let wrong := wrongGroup s e
  let s := modFabric s fun b =>
    { b with fwd := b.fwd.erase e, fwdOpen := if e.last then tdel b.fwdOpen k else tset b.fwdOpen k goal }
  let s := if e.owed then returnCredits s e.link e.chan 1 else s
  let s :=
    match goal with
    | none =>
      if wrong then modFabric s fun b => { b with routeErr := b.routeErr + 1 } else if e.first then lostTxn s else s
    | some (o, c) =>
      let v := BitVec.ofNat 8 (c + (if e.first then 8 else 0) + (if e.last then 16 else 0))
      let s := modLink s o fun x => { x with txq := tset x.txq c (tget [] x.txq c ++ [v :: e.payload]) }
      if e.first then modFabric s fun b => { b with streamLink := tset b.streamLink (streamKey e.txn / 2 ^ 22) o } else s
  if e.last then retryWaiting s else s

/-- TRANSACTION_FORWARD: a frame received on link `l` and bound for another chip goes on. -/
def forwardTxn (l : Nat) (s : State) : State :=
  match nextForward s l with
  | none => s
  | some e => forwardFrame s e

def execTransactionForward (l : Nat) (s : State) : Host.Outcome State Fault Refusal :=
  onWf (.transactionForward l) s (forwardTxn l)

end Sys2Proof.Machine
end

