-- ==== Sys2Proof/Machine/Router.lean ====
section
/-! DEFINITION. The router of a tile (03 R42 to R47; 05 R92 to R96, R107 to R119), configuration tokens, the injectors, the
end of an epoch and its switch, and the handshake watchdog.
Readings of the spec: log entries 51, 53. -/

namespace Sys2Proof.Machine

/-! ### Places -/

/-- The tile `n` positions away in direction 0 N, 1 E, 2 S, 3 W (03 R33, R42). -/
def away (t d n : Nat) : Option Nat :=
  if d = 0 then (if n ≤ t % 64 then some (t - n) else none)
  else if d = 1 then (if t / 64 + n < 128 then some (t + 64 * n) else none)
  else if d = 2 then (if t % 64 + n < 64 then some (t + n) else none)
  else if n ≤ t / 64 then some (t - 64 * n)
  else none

/-- Far end of output 0 to 7 (Table 2). -/
def farEnd (t out : Nat) : Option Nat := away t (out % 4) (if out < 4 then 1 else 8)

/-- The port is open: its far end lies in the tile's own partition (13 R303). -/
def edgeOpen (s : State) (t out : Nat) : Bool :=
  (farEnd t out).elim false fun u => (partOfTile s t).isSome && decide (partOfTile s u = partOfTile s t)

/-- Next hop of a configuration token toward its target, row first, by express hops while eight or more positions remain
(03 R47); none at the target. -/
def cfgHop (t u : Nat) : Option Nat :=
  let hop (d n : Nat) : Nat := if 8 ≤ n then 4 + d else d
  if t / 64 < u / 64 then some (hop 1 (u / 64 - t / 64))
  else if u / 64 < t / 64 then some (hop 3 (t / 64 - u / 64))
  else if t % 64 < u % 64 then some (hop 2 (u % 64 - t % 64))
  else if u % 64 < t % 64 then some (hop 0 (t % 64 - u % 64))
  else none

/-- Target tile and target type of a configuration token (03 R47). -/
def cfgTarget (w : Chan) : Nat := w.loop.toNat % 8192
def cfgType (w : Chan) : Nat := w.loop.toNat / 8192

/-- The tag as Table 2 of 05 lays it out. -/
def tagBytes (w : Chan) : List Byte :=
  leBytes 4 (w.ctx.toNat + 8 * w.epoch.toNat + 128 * w.kind.toNat + 512 * w.loop.toNat)

/-! ### Tokens and queues -/

/-- A data or control token; a drain marker (05 Table 2). -/
def isTok (w : Chan) : Bool := decide (w.kind.toNat ≤ 1)
def isMark (w : Chan) : Bool := decide (w.kind.toNat = 2)

/-- Router queue of an input and label. -/
def inQueue (x : Tile) (inp lbl : Nat) : List Chan := tget [] x.inq (8 * inp + lbl)

/-- Queue of a context and role: 0 A, 1 W, 2 P, 3 C. -/
def ctxQueue (x : Tile) (slot role : Nat) : List Chan := tget [] x.q (4 * slot + role)

/-- Word at the head of a context's queue. -/
def qHead (x : Tile) (slot role : Nat) : Option Chan := (ctxQueue x slot role).head?

/-- Data or control token at the head. -/
def qTok (x : Tile) (slot role : Nat) : Option Chan := (qHead x slot role).filter isTok

/-- The head of the queue is a drain marker. -/
def qMark (x : Tile) (slot role : Nat) : Bool := (qHead x slot role).elim false isMark

def qPop (x : Tile) (slot role : Nat) : Tile := { x with q := tset x.q (4 * slot + role) (ctxQueue x slot role).tail }
def qPush (x : Tile) (slot role : Nat) (w : Chan) : Tile :=
  { x with q := tset x.q (4 * slot + role) (ctxQueue x slot role ++ [w]) }

/-- A queue of two words has room (03 R43). -/
def roomIn (q : List Chan) : Bool := decide (q.length < 2)

/-- Local output `o` can take a word of the slot: it has none of it waiting. -/
def outRoom (x : Tile) (o slot : Nat) : Bool := !(tget [] x.lout o).any fun w => decide (w.ctx.toNat = slot)

/-- A word that a context sends (05 R95). -/
def outWord (x : Tile) (slot : Nat) (payload : Line) (kind loop : BitVec 16) : Chan :=
  { payload := payload, loop := loop, kind := kind.setWidth 2, epoch := x.epoch, ctx := BitVec.ofNat 3 slot }

def sendOut (x : Tile) (o : Nat) (w : Chan) : Tile := { x with lout := tset x.lout o (tget [] x.lout o ++ [w]) }

def slotRun (x : Tile) (slot : Nat) : SlotRun := tget SlotRun.reset x.slots slot
/-- The first slot after `last` that is ready, wrapping from 7 to 0 (05 R105). -/
def nextReady (last : Nat) (ready : Nat → Bool) : Option Nat :=
  ((List.range 8).map fun i => (last + 1 + i) % 8).find? ready

def modRun (x : Tile) (slot : Nat) (f : SlotRun → SlotRun) : Tile := { x with slots := tset x.slots slot (f (slotRun x slot)) }

/-! ### Context queues that are connected (05 R112, 07 R146) -/

/-- An entry of the active router word delivers to the queue. -/
def routed (x : Tile) (slot role : Nat) : Bool :=
  (List.range 56).any fun k =>
    decide (rOut x.rwA (k / 8) (k % 8) = 8 + role ∧ rLabel x.rwA (k / 8) (k % 8) = slot)

def connected (x : Tile) (slot role : Nat) : Bool :=
  let c := ctxOf x slot
  routed x slot role ||
    (if cClass c = 1 then
      decide (role = 1 ∨ (role = 0 ∧ mAsrc c = 0) ∨ (role = 2 ∧ mPsrc c = 2) ∨ (role = 3 ∧ mNprob c ≠ 0))
    else decide (cClass c = 2 ∧ role = 0 ∧ vSrc c = 0))

/-- A matrix or move context waits for a token before each pass (05 R104). -/
def gated (x : Tile) (slot : Nat) : Bool := routed x slot 3

/-- The context takes part in scheduling (03 R48, 05 R112). -/
def live (x : Tile) (slot : Nat) : Bool := ctxOn x slot && !x.ended.getLsbD slot && !x.stopped.getLsbD slot

/-- The drain fault of R113, for a context whose next firing requires the queues of these roles. -/
def drainStuck (x : Tile) (slot : Nat) (needs : List Nat) : Bool :=
  needs.any (qMark x slot) && (List.range 4).any fun r => connected x slot r && (qTok x slot r).isSome

/-- A fault of a context: it stops. -/
def contextFault (s : State) (t slot kind : Nat) (data : List Byte) : State :=
  let c := cCfg (ctxOf (tile s t) slot)
  tileFault (modTile s t fun x => { x with stopped := x.stopped ||| (1#8 <<< slot) }) t kind c data

/-- Uncorrectable error of a storage of the tile; the failing address is the unit's own (16 Table 2). -/
def tileStorage (s : State) (t cfgid : Nat) : State :=
  let (bs, s) := freeBytes s 8
  tileFault s t 11 cfgid bs

/-- The context has been found waiting, which the watchdog times, when it holds a token or has work in progress. -/
def stalled (s : State) (t slot : Nat) : State :=
  let x := tile s t
  let r := slotRun x slot
  let busy := r.fork.isSome || r.second.isSome || r.ctr.isSome || r.mv.isSome ||
    (x.pass.elim false fun p => decide (p.slot = slot)) || (List.range 4).any fun k => (ctxQueue x slot k) ≠ []
  if live x slot && busy then
    setTile s t (modRun x slot fun r => { r with waitSince := some (r.waitSince.getD s.time.watch) })
  else s

/-- The context has moved on. -/
def moved (x : Tile) (slot : Nat) : Tile := modRun x slot fun r => { r with waitSince := none }

/-! ### Grants of the outputs (03 R44) -/

/-- What the head of an input's queue wants: an output, or none. Label 8 names the configuration queue. -/
def wants (x : Tile) (t inp lbl : Nat) : Option Nat :=
  if lbl = 8 then
    match tget [] x.cfgq inp with
    | w :: _ => cfgHop t (cfgTarget w)
    | [] => none
  else
    match inQueue x inp lbl with
    | w :: _ => if w.epoch = x.epoch then some (rOut x.rwA inp lbl) else none
    | [] => none

/-- Channels (9 x input + label) with a word for the output. -/
def wanting (x : Tile) (t out : Nat) : List Nat :=
  (List.range 63).filter fun c => decide (wants x t (c / 9) (c % 9) = some out)

/-- The channels that wait for each output, in the order in which they began to. -/
def refresh (t : Nat) (x : Tile) : Tile :=
  { x with
    waiters := (List.range 12).filterMap fun o =>
      let now := wanting x t o
      let old := (tget [] x.waiters o).filter fun i => decide (i ∈ now)
      let all := old ++ now.filter fun i => decide (i ∉ old)
      if all = [] then none else some (o, all) }

/-- A local output code names the collector: the slot's active word has V = 0 (07 R147). -/
def toCollector (x : Tile) (slot : Nat) : Bool := !ctxOn x slot

/-- The channel of a word on a link between tiles: its label, or 8 for the configuration path (05 R114). -/
def linkChannel (w : Chan) : Nat := if w.kind.toNat = 3 then 8 else w.ctx.toNat

/-- The output can take the word at the head of an input's queue. A channel that is stalled downstream stalls here for its
own label alone (05 Table 10), and configuration tokens have a path of their own (05 R114). -/
def canTake (s : State) (t inp lbl out : Nat) : Bool :=
  let x := tile s t
  if out < 8 then
    let c := if lbl = 8 then 8 else rLabel x.rwA inp lbl
    !(tget [] x.latch out).any fun w => decide (linkChannel w = c)
  else if out < 12 ∧ lbl < 8 then
    let l := rLabel x.rwA inp lbl
    if toCollector x l then decide (x.coll.length < 4) && !(ve s (blockOf t)).buffer
    else roomIn (ctxQueue x l (out - 8))
  else true

/-- The channel may be granted the output: no channel that waited before it can use it. -/
def turnOf (s : State) (t inp lbl out : Nat) : Bool :=
  ((tget [] (tile s t).waiters out).find? fun c => canTake s t (c / 9) (c % 9) out).elim true fun c =>
    decide (c = 9 * inp + lbl)

/-- The granted input goes behind the others that wait, its own channels in their order. -/
def granted (t inp out : Nat) (x : Tile) : Tile :=
  let ws := tget [] x.waiters out
  refresh t { x with
    waiters := tset x.waiters out ((ws.filter fun c => decide (c / 9 ≠ inp)) ++ ws.filter fun c => decide (c / 9 = inp)) }

/-- A word leaves the tile at an output; toward a closed port it is held there, and reported (13 R303). -/
def sendHop (s : State) (t inp out cfgid : Nat) (w : Chan) : State :=
  let s := modTile s t fun x => granted t inp out { x with latch := tset x.latch out (tget [] x.latch out ++ [w]) }
  if edgeOpen s t out then s else tileFault s t 4 cfgid (leBytes 2 t ++ leBytes 1 out ++ tagBytes w)

/-- A drain marker that leaves an input queue sets its entry's bit (05 R111). -/
def passMark (watch : Nat) (inp lbl : Nat) (w : Chan) (x : Tile) : Tile :=
  if isMark w then
    { x with passed := x.passed ||| (1#56 <<< (8 * inp + lbl)), firstMark := some (x.firstMark.getD watch) }
  else x

/-- ROUTER_OUTPUT_GRANT: the head of the queue of an input and label goes to the output it waits for. `memOk` false:
parity of the latch between check and recomputation fails (05 R94). -/
def outputGrant (t inp lbl : Nat) (memOk : Bool) (s : State) : State :=
  let x := tile s t
  match wants x t inp lbl with
  | none => s
  | some out =>
    if !turnOf s t inp lbl out || !canTake s t inp lbl out then s
    else if lbl = 8 then
      match tget [] x.cfgq inp with
      | [] => s
      | w :: r =>
        let s := setTile s t { x with cfgq := tset x.cfgq inp r }
        if memOk then sendHop s t inp out 0 w else tileStorage s t 0
    else
      match inQueue x inp lbl with
      | [] => s
      | w :: r =>
        if 12 ≤ out then
          if thas x.held inp then s
          else
            tileFault (setTile s t (refresh t
              { x with inq := tset x.inq (8 * inp + lbl) r, held := tset x.held inp w })) t 3 0
              (leBytes 1 inp ++ leBytes 1 lbl ++ tagBytes w)
        else
          let l := rLabel x.rwA inp lbl
          let x := passMark s.time.watch inp lbl w { x with inq := tset x.inq (8 * inp + lbl) r }
          let w := { w with ctx := BitVec.ofNat 3 l }
          if !memOk then tileStorage (setTile s t (granted t inp out x)) t 0
          else if out < 8 then sendHop (setTile s t x) t inp out 0 w
          else if toCollector x l then
            setTile s t (granted t inp out { x with coll := x.coll ++ [{ word := w, label := l, role := out - 8 }] })
          else setTile s t (granted t inp out (qPush x l (out - 8) w))

def execRouterOutputGrant (t inp lbl : Nat) (memOk : Bool) (s : State) : Host.Outcome State Fault Refusal :=
  onWf (.routerOutputGrant t inp lbl memOk) s (outputGrant t inp lbl memOk)

/-! ### Arrival (05 R94, R111, R114, R116 to R118) -/

/-- The marker-passed bit of an input and label. -/
def passedBit (x : Tile) (inp lbl : Nat) : Bool := x.passed.getLsbD (8 * inp + lbl)

/-- Table 11: the epoch at which a token is accepted at an input. -/
def epochFits (x : Tile) (t inp lbl : Nat) (w : Chan) : Bool :=
  if w.kind.toNat = 3 then decide (cfgTarget w ≠ t ∨ w.epoch = x.epoch + 1)
  else if passedBit x inp lbl then decide (w.epoch = x.epoch + 1)
  else decide (w.epoch = x.epoch)

/-- Where a fault holds a word of an input: configuration tokens keep clear of the others (05 R114). -/
def heldKey (inp : Nat) (w : Chan) : Nat := if w.kind.toNat = 3 then 7 + inp else inp

/-- A token held at its input by a fault. -/
def holdAt (s : State) (t inp : Nat) (w : Chan) : State := modTile s t fun x => { x with held := tset x.held (heldKey inp w) w }

/-- Fields of a stray-epoch report (05 R117). -/
def strayData (x : Tile) (t inp lbl : Nat) (w : Chan) : List Byte :=
  leBytes 2 t ++ leBytes 1 inp ++ leBytes 1 lbl ++ leBytes 1 w.kind.toNat ++ leBytes 1 w.epoch.toNat ++
    leBytes 1 x.epoch.toNat ++ leBytes 1 (if passedBit x inp lbl then 1 else 0)

/-- A word that has left its source enters an input: the check code, then the epoch, then the routing. -/
def enter (t inp : Nat) (chk : Ecc) (w : Chan) (s : State) : State :=
  let lbl := w.ctx.toNat
  if chk = .bad then tileFault (holdAt s t inp w) t 1 0 (tagBytes w)
  else
    let s := if chk = .corrected then modVe s (blockOf t) fun v => { v with softErrors := v.softErrors + 1 } else s
    let x := tile s t
    if !epochFits x t inp lbl w then tileFault (holdAt s t inp w) t 2 0 (strayData x t inp lbl w)
    else if w.kind.toNat = 3 then
      setTile s t (refresh t { x with cfgq := tset x.cfgq inp (tget [] x.cfgq inp ++ [w]) })
    else if w.epoch = x.epoch ∧ 12 ≤ rOut x.rwA inp lbl then
      tileFault (holdAt s t inp w) t 3 0 (leBytes 1 inp ++ leBytes 1 lbl ++ tagBytes w)
    else
      setTile s t (refresh t
        { x with
          inq := tset x.inq (8 * inp + lbl) (inQueue x inp lbl ++ [w])
          heldSince := if w.epoch = x.epoch then x.heldSince else some (x.heldSince.getD s.time.watch) })

/-- The input can take the word: nothing is held there, the queue it would enter has room, and no drain marker of the
present epoch waits in that queue, since the marker sets its bit only as it leaves (05 R111; log entry 51, DEDUCED). -/
def canEnter (x : Tile) (inp : Nat) (w : Chan) : Bool :=
  !thas x.held (heldKey inp w) &&
    (if w.kind.toNat = 3 then roomIn (tget [] x.cfgq inp)
     else
      roomIn (inQueue x inp w.ctx.toNat) &&
        !(inQueue x inp w.ctx.toNat).any fun m => isMark m && decide (m.epoch = x.epoch))

/-- Words wait in an output latch of tile `u`: the first whose input can take it arrives. -/
def fromLatch (t u out inp : Nat) (chk : Ecc) (s : State) : State :=
  let y := tile s u
  if partOfTile s t = none ∨ partOfTile s t ≠ partOfTile s u then s
  else
    match (tget [] y.latch out).find? (canEnter (tile s t) inp) with
    | none => s
    | some w =>
      let ws := (tget [] y.latch out).erase w
      enter t inp chk w (setTile s u { y with latch := if ws = [] then tdel y.latch out else tset y.latch out ws })

/-- The word of a slot that waits at local out `o`, when its input can take it. -/
def loutWord (x : Tile) (o slot : Nat) : Option Chan :=
  (tget [] x.lout o).find? fun w => decide (w.ctx.toNat = slot) && canEnter x (5 + o) w

/-- ROUTER_TOKEN_ARRIVAL: 0 to 3 from the neighbour N, E, S, W; 4 to 7 by express from there; 8, 9 from local out 0, 1; 10
from the injector, at row 0: the spec does not say which of the eight north ports of a block column a configuration token
enters by, and the model takes the one of its target's own tile column (log entry 51, DESIGN CHOICE). Words of several
contexts at a local out are served in the order of R105. -/
def tokenArrival (t src : Nat) (chk : Ecc) (s : State) : State :=
  let x := tile s t
  if src < 8 then
    let out := (src + 2) % 4 + (if src < 4 then 0 else 4)
    let inp := if src < 4 then src else 4
    match away t (src % 4) (if src < 4 then 1 else 8) with
    | none => s
    | some u => fromLatch t u out inp chk s
  else if src < 10 then
    let o := src - 8
    match nextReady (tget 7 x.lastO o) fun k => (loutWord x o k).isSome with
    | none => s
    | some k =>
      match loutWord x o k with
      | none => s
      | some w =>
        enter t (5 + o) chk w
          (setTile s t { x with lout := tset x.lout o ((tget [] x.lout o).erase w), lastO := tset x.lastO o k })
  else
    match tfind s.injectOut (t / 64 / 8) with
    | none => s
    | some w =>
      if t % 64 = 0 ∧ t / 64 = cfgTarget w / 64 ∧ canEnter x 0 w then
        enter t 0 chk w { s with injectOut := tdel s.injectOut (t / 64 / 8) }
      else s

def execRouterTokenArrival (t src : Nat) (chk : Ecc) (s : State) : Host.Outcome State Fault Refusal :=
  onWf (.routerTokenArrival t src chk) s (tokenArrival t src chk)

/-! ### Configuration (03 R47, R48, R52; 05 R114) -/

/-- A configuration fault over the word of a token: the epoch that needed it does not start on the tile (03 R52). -/
def badConfig (s : State) (t : Nat) (w : Chan) : State :=
  tileFault (modTile s t fun x => { x with cfgBad := true }) t 5 (if cfgType w = 0 then cCfg w.payload else 0) (tagBytes w)

/-- CONFIG_TOKEN_WRITE: the token at the head of an input's configuration queue has reached its target. -/
def configWrite (t inp : Nat) (s : State) : State :=
  let x := tile s t
  match tget [] x.cfgq inp with
  | [] => s
  | w :: r =>
    if cfgTarget w ≠ t ∨ thas x.held (heldKey inp w) then s
    else
      let y := refresh t { x with cfgq := tset x.cfgq inp r }
      let s := setTile s t y
      if w.epoch ≠ x.epoch + 1 then tileFault (holdAt s t inp w) t 2 0 (strayData x t inp w.ctx.toNat w)
      else if 1 < cfgType w then tileFault s t 5 0 (tagBytes w)
      else if cEpoch w.payload ≠ w.epoch.toNat ∨ (cfgType w = 0 ∧ contextOk w.payload = false) then
        badConfig s t w
      else if cfgType w = 0 then setTile s t { y with ctxP := tset y.ctxP w.ctx.toNat w.payload }
      else setTile s t { y with rwP := some w.payload }

def execConfigTokenWrite (t inp : Nat) (s : State) : Host.Outcome State Fault Refusal :=
  onWf (.configTokenWrite t inp) s (configWrite t inp)

/-- Every tile of the partition has switched to the epoch before `e`, or to `e` (05 R109). -/
def tilesReady (s : State) (x : Part) (e : BitVec 4) : Bool :=
  (blocksOf x).all fun b => (List.range 64).all fun i =>
    let f := (tile s (tileIn b i)).epoch
    decide (f = e - 1 ∨ f = e)

/-- The payload with the epoch written into bits [510:507] (10 R223). -/
def withEpoch (w : Line) (e : BitVec 4) : Line := (w &&& ~~~(0xf#512 <<< 507)) ||| ((e.setWidth 512) <<< 507)

/-- INJECTOR_SEND: the injector of block column index `j` sends its next record (05 R107, 10 R223). -/
def injectorSend (p j : Nat) (s : State) : State :=
  let x := part s p
  match x.inject, (colsOf x)[j]? with
  | some i, some c =>
    match tget [] i.recs j with
    | [] => s
    | (tgt, slot, w) :: r =>
      if i.left ≠ 0 ∨ halted x ∨ s.power.gate = 65536 ∨ thas s.injectOut c ∨ !tilesReady s x i.epoch then s
      else
        let word : Chan :=
          { payload := withEpoch w i.epoch, loop := BitVec.ofNat 16 (8192 * (tgt / 8192) + 512 * c + tgt % 512), kind := 3
            epoch := i.epoch, ctx := BitVec.ofNat 3 slot }
        let i := { i with recs := tset i.recs j r }
        modPart { s with injectOut := tset s.injectOut c word } p fun x => { x with inject := some i }
  | _, _ => s

def execInjectorSend (p j : Nat) (s : State) : Host.Outcome State Fault Refusal :=
  onWf (.injectorSend p j) s (injectorSend p j)

/-! ### The epoch switch (05 R115) -/

/-- Marker-passed bits at a switch: set for the unused entries (R111). -/
def freshPassed (r : Line) : BitVec 56 :=
  (List.range 56).foldl (fun m k => if rUsed r (k / 8) (k % 8) then m else m ||| (1#56 <<< k)) 0

/-- Every condition of R115. -/
def maySwitch (x : Tile) : Bool :=
  x.rwP.isSome && !x.cfgBad && decide (x.passed = BitVec.allOnes 56) &&
    (List.range 8).all fun k => !ctxOn x k || x.ended.getLsbD k

/-- The tile in its next epoch, with its generators loaded from the seed (04 R85). -/
def switchTile (seed : W64) (t : Nat) (x : Tile) : Tile :=
  let e := x.epoch + 1
  let rw := x.rwP.getD x.rwA
  refresh t
    { x with
      epoch := e, ctxA := x.ctxP.foldl (fun m c => tset m c.1 c.2) x.ctxA, ctxP := [], rwA := rw, rwP := none
      passed := freshPassed rw, q := (x.q.map fun k => (k.1, k.2.filter fun w => !isMark w)).filter fun k => k.2 ≠ []
      ended := 0, stopped := 0, firstMark := none, heldSince := none, slots := [], unitS := none
      gen0 := genLoad (seed.extractLsb' 0 32) t e.toNat, gen1 := genLoad (seed.extractLsb' 32 32) t e.toNat }

/-- TILE_EPOCH_SWITCH. -/
def execTileEpochSwitch (t : Nat) (s : State) : Host.Outcome State Fault Refusal :=
  onWf (.tileEpochSwitch t) s fun s =>
    if maySwitch (tile s t) then
      modTile s t (switchTile ((partOfTile s t).elim 0 fun p => (part s p).seed) t)
    else s

/-! ### The operand port (06 R121; 07 R145) -/

/-- What becomes of a word for a tile's queue: delivered, or it waits; a word of an epoch that Table 11 does not accept is
a stray (R145). A delivery by the port has no router input and so no marker-passed bit: the model takes the bit as clear for
a word of the tile's epoch, lets one of the next epoch wait, drops a stray word, and reports it with input 0xff and bit 0
(log entry 53, DESIGN CHOICE). -/
def deliver (s : State) (t slot role : Nat) (w : Chan) (took : State → State) : State :=
  let x := tile s t
  if w.epoch = x.epoch + 1 then s
  else if w.epoch ≠ x.epoch then
    tileFault (took s) t 2 0
      (leBytes 2 t ++ leBytes 1 0xff ++ leBytes 1 slot ++ leBytes 1 w.kind.toNat ++ leBytes 1 w.epoch.toNat ++
        leBytes 1 x.epoch.toNat ++ leBytes 1 0)
  else if roomIn (ctxQueue x slot role) then
    let s := took s
    modTile s t fun x => qPush x slot role w
  else s

/-- The next item of a VE's lane. -/
def deliverVe (b lane : Nat) (i : PortItem) (s : State) : State :=
  let t := tileIn b i.tile
  let took (s : State) : State := modVe s b fun x => { x with lanes := tset x.lanes lane (tget [] x.lanes lane).tail }
  match i.dest with
  | none => modTile (took s) t fun x => { x with scratch := tset x.scratch i.line i.word.payload }
  | some k => deliver s t (k / 4) (k % 4) i.word took

/-- The queue that a descriptor delivers into: W for a FEED, the named role for a DRAIN. -/
def descRole (d : BitVec 256) : Nat := if dKind d = 4 then nfld (dfld d 16 1) 0 2 else 1

/-- A FEED or DRAIN in progress that delivers into the same queue. -/
def sameQueue (a c : BitVec 256) : Bool :=
  decide (dKind a = 1 ∨ dKind a = 4) && decide (dDest a % 65536 = dDest c % 65536 ∧ descRole a = descRole c)

/-- A stream descriptor of partition `p` whose next word the lane may deliver: it has a word, no earlier descriptor of its
queue is in progress, the tile is in its epoch (or has left it), and the queue has room. -/
def deliverable (s : State) (p b lane : Nat) (a : Active) : Bool :=
  let d := a.desc
  let w := dDest d
  let x := tile s (destTile w)
  decide (destBlock w = b ∧ nfld w 0 6 / 8 = lane) &&
    (if dKind d = 1 then !a.words.isEmpty && (part s p).step.isSome && !(part s p).filling else decide (dKind d = 4)) &&
    !((part s p).stream.active.any fun c => decide (c.idx < a.idx) && sameQueue c.desc d) &&
    decide (a.epoch ≠ x.epoch + 1) && (decide (a.epoch ≠ x.epoch) || roomIn (ctxQueue x (destSlot w) (descRole d)))

/-- A word of a FEED has been accepted: with its frame delivered the next one is read, with its last word the descriptor
is done (10 R227). -/
def feedTook (p idx : Nat) (s : State) : State :=
  let s := modActive s p idx fun a => { a with words := a.words.tail, done := a.done + 1 }
  match findActive s p idx with
  | none => s
  | some a =>
    if a.words ≠ [] then s
    else if a.issued < feedFrames a.desc then nextFrame s p idx
    else dropActive s p idx

/-- The next word of a stream descriptor. -/
def deliverStream (p : Nat) (a : Active) (s : State) : State :=
  let w := dDest a.desc
  let t := destTile w
  let word (payload : Line) (kind loop : Nat) : Chan :=
    { payload := payload, loop := BitVec.ofNat 16 loop, kind := BitVec.ofNat 2 kind, epoch := a.epoch
      ctx := BitVec.ofNat 3 (destSlot w) }
  if dKind a.desc = 4 then deliver s t (destSlot w) (descRole a.desc) (word 0 2 0) fun s => dropActive s p a.idx
  else
    match a.words with
    | [] => s
    | l :: _ => deliver s t (destSlot w) 1 (word l 0 (a.done / dWpf a.desc)) (feedTook p a.idx)

/-- OPERAND_PORT_DELIVERY: one lane of a block's port delivers a word; the VE's own words first. -/
def portDelivery (b lane : Nat) (s : State) : State :=
  if s.power.gate = 65536 then s
  else
    match tget [] (ve s b).lanes lane with
    | i :: _ => deliverVe b lane i s
    | [] =>
      match partOfBlock s b with
      | none => s
      | some p => ((part s p).stream.active.find? (deliverable s p b lane)).elim s fun a => deliverStream p a s

def execOperandPortDelivery (b lane : Nat) (s : State) : Host.Outcome State Fault Refusal :=
  onWf (.operandPortDelivery b lane) s (portDelivery b lane)

/-! ### The handshake watchdog (05 R119; 16 Table 3) -/

def overdue (s : State) (since : Option Nat) : Bool := since.elim false fun c => decide (c + watchdog ≤ s.time.watch)

/-- HANDSHAKE_WATCHDOG_EXPIRY. The watch begins anew once it has reported. A tile that has not switched is watched from
its first marker and from the first token it holds for the next epoch (05 R119). The spec gives no layout for the DATA of
kind 8: the model gives the tile in 2 bytes and the clear bits in 7, one slot byte for a context, the program counter for a VE
(log entry 51, DESIGN CHOICE). -/
def watchdogExpiry (site : WatchSite) (s : State) : State :=
  match site with
  | .tileSwitch t =>
    let x := tile s t
    if overdue s x.firstMark || overdue s x.heldSince then
      let again (o : Option Nat) : Option Nat := o.map fun _ => s.time.watch
      tileFault (setTile s t { x with firstMark := again x.firstMark, heldSince := again x.heldSince }) t 8 0
        (leBytes 2 t ++ leBytes 7 (~~~x.passed).toNat)
    else s
  | .ve b =>
    let x := ve s b
    if overdue s x.waitSince then
      veFault (setVe s b { x with waitSince := some s.time.watch }) b 8 (leBytes 2 x.pc.toNat)
    else s
  | .context t slot =>
    let x := tile s t
    if overdue s (slotRun x slot).waitSince then
      tileFault (setTile s t (modRun x slot fun r => { r with waitSince := some s.time.watch })) t 8
        (cCfg (ctxOf x slot)) (leBytes 1 slot)
    else s

def execHandshakeWatchdogExpiry (site : WatchSite) (s : State) : Host.Outcome State Fault Refusal :=
  onWf (.handshakeWatchdogExpiry site) s (watchdogExpiry site)

end Sys2Proof.Machine
end

