-- ==== Sys2Proof/Machine/Steering.lean ====
section
/-! DEFINITION. Steering units, counters and moves (05 R97 to R104, Table 5; 03 R51), and the end of a context's epoch
(05 R112, R113).
Readings of the spec: log entry 51. -/

namespace Sys2Proof.Machine

/-! ### Control fields and requirements (05 Table 3, Table 5) -/

/-- Control fields of a firing: ACT, VAL, loop index that LCHK compares. -/
def ctlOf (c : Line) (w : Option Chan) : Option (Nat × Nat × Nat) :=
  if sCsrc c then some (sCact c, sCval c, sCval c)
  else w.map fun w => (bfld w.payload 0 2, bfld w.payload 16 16, w.loop.toNat)

/-- Whether a firing takes the heads of queues A and P. `a`, `p`: they hold a token; `arbP`: the arbiter's choice for
merge with ACT 3. none: it cannot fire. -/
def takes (op act : Nat) (a p arbP : Bool) : Option (Bool × Bool) :=
  if op = 0 ∨ op = 2 then (if a then some (true, false) else none)
  else if op = 3 ∨ act = 2 then (if a && p then some (true, true) else none)
  else if act = 0 then (if a then some (true, false) else none)
  else if act = 1 then (if p then some (false, true) else none)
  else if a && p then some (if arbP then (false, true) else (true, false))
  else if a then some (true, false)
  else if p then some (false, true)
  else none

/-- The queues that the next firing requires, as far as it is decided (05 R113). Merge with ACT 3 requires A or P: it can
never fire once every one of the two that is connected shows a marker. -/
def steerNeeds (x : Tile) (slot : Nat) : List Nat :=
  let c := ctxOf x slot
  let ctl := if sCsrc c then [] else [3]
  ctl ++
    match ctlOf c (qTok x slot 3) with
    | none => []
    | some (act, _, _) =>
      if sOp c = 0 ∨ sOp c = 2 then [0]
      else if sOp c = 3 ∨ act = 2 then [0, 2]
      else if act = 0 then [0]
      else if act = 1 then [2]
      else
        let rs := [0, 2].filter (connected x slot)
        if rs.all (qMark x slot) then rs else []

/-- The control fields of the next firing, and whether it takes A and P; none while the rule of R98 is not met. -/
def firingOf (x : Tile) (slot : Nat) (arbP : Bool) : Option ((Nat × Nat × Nat) × Bool × Bool) :=
  let c := ctxOf x slot
  match ctlOf c (qTok x slot 3) with
  | none => none
  | some ctl => (takes (sOp c) ctl.1 (qTok x slot 0).isSome (qTok x slot 2).isSome arbP).map fun t => (ctl, t)

/-- A forwarded token keeps payload, kind and loop index and takes the label and epoch of R95. -/
def forward (x : Tile) (slot : Nat) (w : Chan) : Chan := { w with epoch := x.epoch, ctx := BitVec.ofNat 3 slot }

/-- The lane-wise sum of a join (05 Table 5). -/
def joinSum (a p : Chan) : Chan :=
  { a with payload := lineOf ((List.range 16).map fun i => fadd (lane a.payload i) (lane p.payload i)) }

/-- What one firing sends at once: outputs and tokens, with a second token for local out 0. Forks send copies. -/
def firingSends (op act : Nat) (a p : Option Chan) : List (Nat × Chan) × Option Chan :=
  let put (o : Nat) (w : Option Chan) : List (Nat × Chan) := (w.map fun w => (o, w)).toList
  if op = 0 then
    (if act = 0 then put 0 a else if act = 1 then put 1 a else if act = 2 then put 0 a ++ put 1 a else [], none)
  else if op = 1 then (if act = 2 then (put 0 a, p) else (put 0 (a.or p), none))
  else if op = 3 then
    (if act = 0 then
      (match a, p with
        | some a, some p => put 0 (some (joinSum a p))
        | _, _ => [])
     else if act = 1 then put 0 a
     else if act = 2 then put 0 a ++ put 1 p
     else put 0 p, none)
  else ([], none)

/-- Outputs of a fork. -/
def forkOuts (act : Nat) : List Nat := if act = 0 then [0] else if act = 1 then [1] else if act = 2 then [0, 1] else []

/-- Payload of a control token (05 Table 3). -/
def ctlPayload (act : Nat) (last : Bool) (val : Nat) : Line :=
  BitVec.ofNat 512 (act % 4 + (if last then 4 else 0) + 65536 * (val % 65536))

/-- The next token of a run: output, token; and what remains of the run (05 R103). -/
def runToken (x : Tile) (slot : Nat) (r : CtrRun) : (Nat × Chan) × Option CtrRun :=
  let c := ctxOf x slot
  if r.endTok then ((1, outWord x slot (ctlPayload (kActe c) true r.n) 1 (BitVec.ofNat 16 r.run)), none)
  else
    let last := decide (r.i + 1 = r.n)
    let act := if r.n = 1 then (if kFwin c then kActf c else kActl c) else if r.i = 0 then kActf c
      else if last then kActl c else kActb c
    let val := if kVsrc c then kCval c else r.i
    ((0, outWord x slot (ctlPayload act last val) 1 (BitVec.ofNat 16 (kLbase c + r.i))),
      if !last then some { r with i := r.i + 1 } else if kEndo c then some { r with endTok := true } else none)

/-! ### The steering unit's turn -/

/-- Tokens that a firing consumes from queues A and P. -/
def firingTokens (x : Tile) (slot : Nat) (ta tp : Bool) : Option Chan × Option Chan :=
  (if ta then qTok x slot 0 else none, if tp then qTok x slot 2 else none)

/-- Loop indices that LCHK compares with the control token's (05 R101). -/
def usedLoops (a p : Option Chan) : List Nat := (a.toList ++ p.toList).map fun w => w.loop.toNat

/-- LCHK finds a mismatch. -/
def mispaired (c : Line) (loop : Nat) (used : List Nat) : Bool := sLchk c && used.any fun l => decide (l ≠ loop)

/-- The first tokens of a firing have room at their outputs, or it will fail the pairing check (05 R99). -/
def firingRoom (x : Tile) (slot : Nat) (arbP : Bool) : Bool :=
  let c := ctxOf x slot
  match firingOf x slot arbP with
  | none => false
  | some ((act, val, loop), ta, tp) =>
    let (a, p) := firingTokens x slot ta tp
    let outs := if sOp c = 2 then (if val = 0 then [] else forkOuts act)
      else (firingSends (sOp c) act (a.map (forward x slot)) (p.map (forward x slot))).1.map fun e => e.1
    mispaired c loop (usedLoops a p) || outs.all fun o => outRoom x o slot

/-- A steering context or a counter can use the unit (Table 8): its firing rule is met, or it has a control token to send;
and the token it sends has room. One that waits for room leaves the unit to the others: a unit held by a counter that runs
ahead would lock the halo exchange of 06 R131 (log entry 51, DEDUCED). -/
def steerReady (x : Tile) (slot : Nat) : Bool :=
  let c := ctxOf x slot
  let r := slotRun x slot
  live x slot &&
    (if cClass c = 3 then r.fork.isSome || r.second.isSome || firingRoom x slot false
    else decide (cClass c = 4) && r.ctr.elim false fun k => outRoom x (runToken x slot k).1.1 slot)

/-- The unit serves the slot: it holds the unit, or is next in turn. -/
def steerTurn (x : Tile) (slot : Nat) : Bool :=
  decide ((x.unitS.or (nextReady x.lastS (steerReady x))) = some slot)

/-- The unit has granted the slot, and stays with it until its grain ends. -/
def holdUnit (slot : Nat) (x : Tile) : Tile := { x with unitS := some slot, lastS := slot }

/-- The grain has ended. -/
def leaveUnit (slot : Nat) (x : Tile) : Tile := moved { x with unitS := none, lastS := slot } slot

/-- Send the next copy of a fork, on every output it names (05 R99). -/
def forkCopy (s : State) (t slot j n : Nat) (w : Chan) (act : Nat) : State :=
  let x := tile s t
  let outs := forkOuts act
  if !outs.all fun o => outRoom x o slot then stalled s t slot
  else
    let x := outs.foldl (fun x o => sendOut x o { forward x slot w with loop := BitVec.ofNat 16 j }) x
    let x := modRun x slot fun r => { r with fork := if j + 1 < n then some (j + 1, n, w, act) else none }
    setTile s t (if j + 1 < n then moved (holdUnit slot x) slot else leaveUnit slot x)

/-- Fire: consume the control token and the data tokens, and send. -/
def fire (s : State) (t slot : Nat) (arbP : Bool) : State :=
  let x := tile s t
  let c := ctxOf x slot
  match firingOf x slot arbP with
  | none => stalled s t slot
  | some ((act, val, loop), ta, tp) =>
    let (a, p) := firingTokens x slot ta tp
    if mispaired c loop (usedLoops a p) then
      contextFault s t slot 6 (leBytes 2 loop ++ (usedLoops a p).flatMap (leBytes 2))
    else
      let y := if sCsrc c then x else qPop x slot 3
      let y := if ta then qPop y slot 0 else y
      let y := if tp then qPop y slot 2 else y
      if sOp c = 2 then
        match a with
        | none => s
        | some w =>
          if forkOuts act = [] ∨ val = 0 then setTile s t (leaveUnit slot y)
          else forkCopy (setTile s t y) t slot 0 val w act
      else
        let (now, second) := firingSends (sOp c) act (a.map (forward x slot)) (p.map (forward x slot))
        if !now.all fun e => outRoom x e.1 slot then stalled s t slot
        else
          let y := now.foldl (fun y e => sendOut y e.1 e.2) y
          let y := match second with
            | none => leaveUnit slot y
            | some w => modRun (moved (holdUnit slot y) slot) slot fun r => { r with second := some w }
          setTile s t y

/-- STEERING_FIRING: one firing, or the next token of a firing of several. `arbP`: merge with ACT 3 takes P when both
queues hold a token (R100). -/
def steeringFiring (t slot : Nat) (arbP : Bool) (s : State) : State :=
  let x := tile s t
  let r := slotRun x slot
  if cClass (ctxOf x slot) ≠ 3 ∨ live x slot = false then s
  else if r.fork = none ∧ r.second = none ∧ drainStuck x slot (steerNeeds x slot) then contextFault s t slot 7 []
  else if !steerTurn x slot then stalled s t slot
  else
    match r.fork, r.second with
    | some (j, n, w, act), _ => forkCopy s t slot j n w act
    | none, some w =>
      if !outRoom x 0 slot then stalled s t slot
      else setTile s t (leaveUnit slot (modRun (sendOut x 0 w) slot fun r => { r with second := none }))
    | none, none => fire s t slot arbP

def execSteeringFiring (t slot : Nat) (arbP : Bool) (s : State) : Host.Outcome State Fault Refusal :=
  onWf (.steeringFiring t slot arbP) s (steeringFiring t slot arbP)

/-! ### Counters (05 R102, R103) -/

/-- A run of `n` iterations that has none left to send. -/
def runOf (c : Line) (n run : Nat) : Option CtrRun :=
  if 0 < n then some { n := n, i := 0, run := run, endTok := false }
  else if kEndo c then some { n := n, i := 0, run := run, endTok := true }
  else none

/-- COUNTER_RUN_START: at the epoch switch the runs of a counter with TRIG = 0, one after another; else on a trigger. -/
def counterStart (t slot : Nat) (s : State) : State :=
  let x := tile s t
  let c := ctxOf x slot
  let r := slotRun x slot
  if cClass c ≠ 4 ∨ live x slot = false ∨ r.ctr.isSome then s
  else
    let start (n : Nat) (x : Tile) : State :=
      setTile s t (modRun (moved x slot) slot fun r => { r with ctr := runOf c n r.runs, runs := r.runs + 1 })
    if !kTrig c then (if r.runs < kRuns c then start (kNiter c) x else s)
    else if drainStuck x slot [3] then contextFault s t slot 7 []
    else
      match qTok x slot 3 with
      | none => s
      | some w => start (if kNsrc c then bfld w.payload 16 16 else kNiter c) (qPop x slot 3)

def execCounterRunStart (t slot : Nat) (s : State) : Host.Outcome State Fault Refusal :=
  onWf (.counterRunStart t slot) s (counterStart t slot)

/-- COUNTER_EMIT. -/
def counterEmit (t slot : Nat) (s : State) : State :=
  let x := tile s t
  if cClass (ctxOf x slot) ≠ 4 ∨ live x slot = false then s
  else
    match (slotRun x slot).ctr with
    | none => s
    | some r =>
      if !steerTurn x slot then stalled s t slot
      else
        let ((o, w), rest) := runToken x slot r
        if !outRoom x o slot then stalled s t slot
        else setTile s t (leaveUnit slot (modRun (sendOut x o w) slot fun r => { r with ctr := rest }))

def execCounterEmit (t slot : Nat) (s : State) : Host.Outcome State Fault Refusal :=
  onWf (.counterEmit t slot) s (counterEmit t slot)

/-! ### Moves (03 R51; 05 R95, R104, R105; 06 R122) -/

/-- Queues that the rest of a move's pass requires. -/
def moveNeeds (x : Tile) (slot : Nat) : List Nat :=
  (if gated x slot && (slotRun x slot).mv.isNone then [3] else []) ++ if vSrc (ctxOf x slot) = 0 then [0] else []

/-- The move path may copy a word of the slot. -/
def moveReady (x : Tile) (slot : Nat) : Bool :=
  let c := ctxOf x slot
  live x slot && decide (cClass c = 2) &&
    ((slotRun x slot).mv.isSome || !gated x slot || (qTok x slot 3).isSome) &&
    (decide (vSrc c = 1) || (qTok x slot 0).isSome) && (decide (vDst c = 1) || outRoom x 0 slot)

/-- MOVE_WORD. -/
def moveWord (t slot : Nat) (memOk : Bool) (s : State) : State :=
  let x := tile s t
  let c := ctxOf x slot
  if cClass c ≠ 2 ∨ live x slot = false then s
  else if drainStuck x slot (moveNeeds x slot) then contextFault s t slot 7 []
  else if nextReady x.lastM (moveReady x) ≠ some slot then stalled s t slot
  else if vSrc c = 1 ∧ memOk = false then tileStorage s t (cCfg c)
  else
    let (i, loop) := (slotRun x slot).mv.getD (0, if vSrc c = 1 then 0 else (qTok x slot 0).elim 0 fun w => w.loop)
    let y := if (slotRun x slot).mv.isNone && gated x slot then qPop x slot 3 else x
    let line := if vSrc c = 1 then scratchAt x (vSbase c + i) else (qTok x slot 0).elim 0 fun w => w.payload
    let y := if vSrc c = 1 then y else qPop y slot 0
    let y := if vDst c = 0 then y else { y with scratch := tset y.scratch ((vDbase c + i) % 1024) line }
    let y := if vDst c = 1 then y else sendOut y 0 (outWord x slot line 0 loop)
    let y := modRun (moved y slot) slot fun r => { r with mv := if i + 1 < vCount c then some (i + 1, loop) else none }
    setTile s t { y with lastM := slot }

def execMoveWord (t slot : Nat) (memOk : Bool) (s : State) : Host.Outcome State Fault Refusal :=
  onWf (.moveWord t slot memOk) s (moveWord t slot memOk)

/-! ### The end of a context's epoch (05 R112, R113) -/

/-- Whether a matrix pass of the slot is in progress. -/
def inPass (x : Tile) (slot : Nat) : Bool := x.pass.elim false fun p => decide (p.slot = slot)

/-- No firing, pass or counter run is in progress; a counter with TRIG = 0 has sent its last run. -/
def quiet (x : Tile) (slot : Nat) : Bool :=
  let r := slotRun x slot
  let c := ctxOf x slot
  r.fork.isNone && r.second.isNone && r.ctr.isNone && r.mv.isNone && !inPass x slot &&
    (decide (cClass c ≠ 4) || kTrig c || decide (r.runs = kRuns c))

/-- Local outputs whose entry for the slot is used. -/
def markOuts (x : Tile) (slot : Nat) : List Nat := (List.range 2).filter fun o => rUsed x.rwA (5 + o) slot

/-- Every connected queue holds a drain marker at its head. -/
def allMarked (x : Tile) (slot : Nat) : Bool := (List.range 4).all fun r => !connected x slot r || qMark x slot r

/-- The context ends: a marker on each used local output, each as the output has room. The spec gives a drain marker no
payload and no loop index: every marker that the device makes carries zero in both (log entry 51, DESIGN CHOICE). -/
def endContext (slot : Nat) (x : Tile) : Tile :=
  let x := (markOuts x slot).foldl (fun x o => sendOut x o (outWord x slot 0 2 0)) x
  moved { x with ended := x.ended ||| (1#8 <<< slot) } slot

end Sys2Proof.Machine
end

