-- ==== Sys2Proof/Machine/Matrix.lean ====
section
/-! DEFINITION. The arithmetic unit and the weight expander (03 R53 to R66; 04 R72 to R84; 06 R125 to R128; 07 R156, R157),
and CONTEXT_EPOCH_END.
Readings of the spec: log entry 52. -/

namespace Sys2Proof.Machine

/-! ### Weight units (03 R60, R61) -/

/-- A 16-bit context reads each coded frame as two weight tiles (R61). -/
def splits (c : Line) : Bool := is16bit (cAfmt c) && isPacked (cWfmt c)

/-- Reduction indices of one unit: a coded frame, or a block of words (Table 9). -/
def unitK (w : Nat) : Nat := if isPacked w then 256 else if is16bit w then 16 else 32

/-- Words of one unit. -/
def unitWords (w : Nat) : Nat :=
  if w = 0x10 then 9 else if w = 0x11 then 13 else if w = 0x12 then 6
  else (if is4bit w then 2 else 4) + if isMx w then 1 else 0

/-- Reduction indices that the expander decodes for one weight tile. -/
def tileK (c : Line) : Nat :=
  if splits c then 128 else if isPacked (cWfmt c) then 256 else unitK (cWfmt c) * cdiv (mKdep c) (unitK (cWfmt c))

/-- Weight tiles that one repetition decodes: the upper half of a last frame that R61 does not issue among them. -/
def decodedTiles (c : Line) (nkt : Nat) : Nat := if splits c then 2 * cdiv nkt 2 else nkt

/-- Whether a half has all its weights. -/
def halfFull (c : Line) (h : Half) : Bool := decide (8 * tileK c ≤ h.weights.length)

/-- The half being filled, if any. -/
def halfOpen (c : Line) (p : Pass) : Bool := p.halves.getLast?.elim false fun h => !halfFull c h

/-- The problem needs a further unit of weights. -/
def needsUnit (c : Line) (p : Pass) : Bool := halfOpen c p || decide (p.ktStarted < p.rep * decodedTiles c p.nkt)

/-! ### Decoding (03 R62 to R64; 04 R77, R79 to R84) -/

/-- A frame as one number: word j carries bits [512j + 511 : 512j]. -/
def frameNat : List Line → Nat
  | [] => 0
  | l :: r => l.toNat + 2 ^ 512 * frameNat r

/-- E4M3 code as a number. -/
def e4m3 (b : Nat) : Num := decodeNum (4, 3, 7, 1) b

/-- Weight (k, n) of a G2 or G3 frame, `cb` bits to a code, as FP32 (R63). -/
def groupWeight (fr cb k n : Nat) : Num :=
  let base := (16 + 64 * cb) * (8 * (k / 64) + n)
  let code := nfld fr (base + 16 + cb * (k % 64)) cb
  num32 (rne (numAdd (numMul (e4m3 (nfld fr base 8)) (.fin false code 0)) (e4m3 (nfld fr (base + 8) 8))))

/-- Entry of a codebook slot (03 R37). -/
def codeEntry (s : State) (b slot e : Nat) : W64 := tget 0 s.codebook (8192 * b + 4096 * slot + e)

/-- Weight (k, n) of a VQ12 frame (R64). -/
def vqWeight (s : State) (b slot fr k n : Nat) : Num :=
  e4m3 (bfld (codeEntry s b slot (nfld fr (12 * (8 * (k / 8) + n)) 12)) (8 * (k % 8)) 8)

/-- Code (k, n) of an uncompressed block (Table 9). -/
def plainCode (w fr k n : Nat) : Nat := nfld fr (codeBits w * (8 * k + n)) (codeBits w)

/-- Weight (k, n) of a unit as a number, its own block scale not applied. -/
def unitWeight (s : State) (b : Nat) (c : Line) (fr k n : Nat) : Num :=
  let w := cWfmt c
  if w = 0x10 then groupWeight fr 2 k n
  else if w = 0x11 then groupWeight fr 3 k n
  else if w = 0x12 then vqWeight s b (cCbs c) fr k n
  else operandNum w (plainCode w fr k n)

/-- The expander converts: the operand format is not the weights' own (R62). -/
def converts (c : Line) : Bool := decide (operandFmt (cAfmt c) (cWfmt c) ≠ cWfmt c)

/-- Scale of column `n` for the 32 k from `k0` of a unit: carried by the frame, or chosen by R80. -/
def unitScale (s : State) (b : Nat) (c : Line) (fr k0 n : Nat) : Nat :=
  if converts c then
    mxScale (operandFmt (cAfmt c) (cWfmt c)) ((List.range 32).map fun i => unitWeight s b c fr (k0 + i) n)
  else nfld fr (512 * (unitWords (cWfmt c) - 1) + 8 * n) 8

/-- One decoded weight, and the expander's generator after it. -/
def decodeOne (s : State) (b : Nat) (c : Line) (fr i : Nat) (g : W32) : Weight × W32 :=
  let k := i / 8
  let n := i % 8
  let f := operandFmt (cAfmt c) (cWfmt c)
  if !converts c then ({ code := BitVec.ofNat 16 (plainCode f fr k n), nan := false }, g)
  else
    let g := if cRnd c = 1 then genStep g else g
    let v := unitWeight s b c fr k n
    if isMx f then
      let sc := unitScale s b c fr (32 * (k / 32)) n
      ({ code := BitVec.ofNat 16 (mxElem f sc (cRnd c) (genDraw g) v), nan := false }, g)
    else
      let odd := match v with
        | .fin .. => false
        | _ => true
      ({ code := BitVec.ofNat 16 (convTo f (cRnd c) (genDraw g) 0 v), nan := odd && decide (f = 6) }, g)

/-- Weights `i` to `i + n - 1` of a unit. -/
def decodeRun (s : State) (b : Nat) (c : Line) (fr i : Nat) : Nat → W32 → List Weight × W32
  | 0, g => ([], g)
  | n + 1, g =>
    let (w, g) := decodeOne s b c fr i g
    let (ws, g) := decodeRun s b c fr (i + 1) n g
    (w :: ws, g)

/-- The eight scales that a run of weights brings when it begins a block of 32 k. -/
def scalesFor (s : State) (b : Nat) (c : Line) (fr i : Nat) : List Byte :=
  if isMx (operandFmt (cAfmt c) (cWfmt c)) ∧ i % 256 = 0 then
    (List.range 8).map fun n => BitVec.ofNat 8 (unitScale s b c fr (i / 8) n)
  else []

/-! ### Activation lines (03 R57) -/

def kplOf (f : Nat) : Nat := if is4bit f then 8 else if is16bit f then 2 else 4

/-- Line of index `k` within a run of lines, scale lines counted. -/
def lineIdx (f k : Nat) : Nat :=
  if isMx f then k / 32 * (32 / kplOf f + 1) + k % 32 / kplOf f else k / kplOf f

/-- Scale line of index `k` in a run of `kTot` indices: behind the data lines of its block. -/
def scaleIdx (f kTot k : Nat) : Nat := k / 32 * (32 / kplOf f + 1) + cdiv (min 32 (kTot - 32 * (k / 32))) (kplOf f)

/-- Index by which the lines count: within the weight tile for queue A, over the problem in the scratchpad (log entry 32, DEDUCED). -/
def actIndex (c : Line) (p : Pass) (k : Nat) : Nat := if mAsrc c = 0 then k else mKdep c * p.kt + k
def actTotal (c : Line) (p : Pass) : Nat := if mAsrc c = 0 then mKdep c else mKdep c * p.nkt

/-- First line that the row group in progress reads from index `k` on, and the line after its last. -/
def lineFrom (c : Line) (p : Pass) (k : Nat) : Nat := lineIdx (cAfmt c) (actIndex c p k)
def lineEnd (c : Line) (p : Pass) : Nat :=
  let f := cAfmt c
  let i := actIndex c p (mKdep c - 1)
  if isMx f then scaleIdx f (actTotal c p) i + 1 else lineIdx f i + 1

/-! ### The pass -/

/-- Problem descriptor `d` of a list (06 R126). -/
def descOf (x : Tile) (c : Line) (d : Nat) : Nat := bfld (scratchAt x (mPlbase c + d / 8)) (64 * (d % 8)) 64

/-- The pass at the start of problem `d`. With PSRC = 2 POFF has no effect (06 R127). -/
def openProblem (x : Tile) (c : Line) (d : Nat) (p : Pass) : Pass :=
  let w := if mNprob c = 0 then 2 ^ 53 else descOf x c d
  let or0 (n e : Nat) : Nat := if n = 0 then e else n
  { p with
    d := d, rep := dskRep w, nrg := or0 (nfld w 45 8) (mNrg c), nkt := or0 (nfld w 33 12) (mNkt c), aoff := nfld w 0 10
    poff := if mPsrc c = 2 then 0 else nfld w 10 10, ooff := nfld w 20 10, skip := dskSkip w
    gnxt := dskGnxt w && decide (d + 1 < p.nprob), waitGnxt := false, j := 0, kt := 0, rg := 0, k := 0, quarter := 0
    loaded := false, ktStarted := 0, ringBase := 0, ringLen := 0, psum := [], ahead := false }

/-- Past the end of a problem: GNXT's token is awaited, or the next problem is opened; skipped problems are passed by. A
descriptor not behind a GNXT may be read at any time after the first beat of the problem before it (06 R128): the model
reads it at that problem's last beat (log entry 52, DESIGN CHOICE). -/
def nextProblem (x : Tile) (c : Line) : Nat → Pass → Pass
  | 0, p => { p with spent := true }
  | n + 1, p =>
    if p.gnxt then { p with waitGnxt := true }
    else if p.nprob ≤ p.d + 1 then { p with spent := true }
    else
      let q := openProblem x c (p.d + 1) p
      if q.skip then nextProblem x c n q else q

/-- Open problem `d`, passing by it when it is skipped. -/
def enterProblem (x : Tile) (c : Line) (d : Nat) (p : Pass) : Pass :=
  let q := openProblem x c d p
  if q.skip then nextProblem x c p.nprob q else q

def Pass.fresh (slot nprob : Nat) (loop : BitVec 16) (stamped : Bool) : Pass :=
  { slot := slot, loop := loop, stamped := stamped, d := 0, nprob := nprob, rep := 0, nrg := 0, nkt := 0, aoff := 0, poff := 0
    ooff := 0, skip := false, gnxt := false, waitGnxt := false, j := 0, kt := 0, rg := 0, k := 0, quarter := 0
    loaded := false, finished := [], outw := [], frame := [], ktStarted := 0, decoded := 0, halves := []
    ringBase := 0, ringLen := 0, psum := [], ahead := false, cRow := List.replicate 8 0, gRow := List.replicate 8 0, spent := false }

/-- The pass has ended when nothing of it remains (05 R106). -/
def closePass (x : Tile) : Tile :=
  match x.pass with
  | some p => if p.spent && p.finished.isEmpty && p.outw.isEmpty then { x with pass := none } else x
  | none => x

def setPass (x : Tile) (p : Pass) : Tile := closePass { x with pass := some p }

/-! ### Activations and weights of a beat -/

/-- The line that the source of the activations gives next: the head of queue A, or a scratchpad line. -/
def sourceLine (x : Tile) (c : Line) (p : Pass) (i : Nat) : Option Line :=
  if mAsrc c = 0 then (qTok x p.slot 0).map fun w => w.payload
  else some (scratchAt x (mAbase c + p.aoff + mAstride c * p.rg + i))

/-- Line `i` of the row group in progress: in the staging ring, line i in q(i mod 8), or the one about to enter it (03
R39). -/
def actLine (x : Tile) (c : Line) (p : Pass) (i : Nat) : Option Line :=
  if p.ringBase ≤ i ∧ i < p.ringBase + p.ringLen then some (regAt x (i % 8))
  else if i = p.ringBase + p.ringLen then sourceLine x c p i
  else none

/-- Activation (r, k) with its block scale. -/
def actNum (x : Tile) (c : Line) (p : Pass) (r k : Nat) : Num :=
  let f := cAfmt c
  let i := actIndex c p k
  let l (n : Nat) : Line := (actLine x c p n).getD 0
  let v := operandNum f (bfld (l (lineIdx f i)) (codeBits f * (16 * (i % kplOf f) + r)) (codeBits f))
  if isMx f then numMul v (scaleNum (bfld (l (scaleIdx f (actTotal c p) i)) (8 * r) 8)) else v

/-- Weight (k, n) of a half with its block scale; a flagged one is NaN (04 R79). -/
def weightNum (c : Line) (h : Half) (k n : Nat) : Num :=
  let f := operandFmt (cAfmt c) (cWfmt c)
  match h.weights[8 * k + n]? with
  | none => .nan
  | some w =>
    if w.nan then .nan
    else
      let v := operandNum f w.code.toNat
      if isMx f then numMul v (scaleNum ((h.scales[8 * (k / 32) + n]?).getD 0).toNat) else v

/-! ### Banks (03 R40, R58) -/

/-- The 128 accumulators of a bank. -/
def bankGet (x : Tile) (bank : Nat) : List W32 :=
  (List.range 128).map fun i => lane (regAt x (16 + 8 * bank + i / 16)) (i % 16)

/-- 128 words as eight lines. -/
def bankLines (ws : List W32) : List Line := (List.range 8).map fun i => lineOf (ws.drop (16 * i))

def bankSet (x : Tile) (bank : Nat) (ls : List Line) : Tile :=
  { x with regs := (ls.zipIdx).foldl (fun m e => tset m (16 + 8 * bank + e.2) e.1) x.regs }

/-- Lines written to the scratchpad from line `a`, modulo 1,024. -/
def scratchSet (x : Tile) (a : Nat) (ls : List Line) : Tile :=
  { x with scratch := (ls.zipIdx).foldl (fun m e => tset m ((a + e.2) % 1024) e.1) x.scratch }

def scratchGet (x : Tile) (a n : Nat) : List Line := (List.range n).map fun i => scratchAt x (a + i)

/-! ### Queues that the rest of a pass requires (05 R113) -/

/-- Roles that a problem takes tokens from. -/
def problemRoles (c : Line) : List Nat := [1] ++ (if mAsrc c = 0 then [0] else []) ++ if mPsrc c = 2 then [2] else []

/-- Roles that the problems from `d` on require, as far as the list decides it: a GNXT token stands before descriptors that
may still be rewritten (06 R128). -/
def laterNeeds (x : Tile) (c : Line) : Nat → Nat → Nat → List Nat
  | 0, _, _ => []
  | n + 1, nprob, d =>
    if nprob ≤ d then []
    else
      let w := descOf x c d
      (if dskSkip w then [] else problemRoles c) ++
        if dskGnxt w && decide (d + 1 < nprob) then [3] else laterNeeds x c n nprob (d + 1)

/-- Roles that the rest of the pass in progress requires. -/
def passNeeds (x : Tile) (c : Line) (p : Pass) : List Nat :=
  if p.spent then []
  else if p.waitGnxt then [3]
  else
    let lastRep := decide (p.rep ≤ p.j + 1)
    let lastGroup := lastRep && decide (p.nkt ≤ p.kt + 1 ∧ p.nrg ≤ p.rg + 1)
    let taken := p.rg + (if p.loaded then 1 else 0) + if p.ahead then 1 else 0
    let w := decide (p.frame.length < unitWords (cWfmt c)) && (!p.frame.isEmpty || needsUnit c p)
    let a := decide (mAsrc c = 0) && (!lastGroup || decide (p.ringBase + p.ringLen < lineEnd c p))
    let q := decide (mPsrc c = 2) &&
      (!lastRep || (decide (p.kt = 0) &&
        (decide (taken + 1 < p.nrg) || (decide (taken < p.nrg) && decide (p.psum.length < 8)))))
    (if w then [1] else []) ++ (if a then [0] else []) ++ (if q then [2] else []) ++
      if p.gnxt then [3] else laterNeeds x c p.nprob p.nprob (p.d + 1)

/-- Roles that the next pass of a matrix context requires. -/
def startNeeds (x : Tile) (slot : Nat) : List Nat :=
  let c := ctxOf x slot
  let q := openProblem x c 0 (Pass.fresh slot (max (mNprob c) 1) 0 false)
  (if gated x slot then [3] else []) ++ 
    if q.skip then (if q.gnxt then [3] else laterNeeds x c q.nprob q.nprob 1) else passNeeds x c q

/-- The pass in progress, with its context word, when its context is live; a drain fault stops it first. -/
def onPass (t : Nat) (s : State) (f : Tile → Line → Pass → State) : State :=
  let x := tile s t
  match x.pass with
  | none => s
  | some p =>
    if live x p.slot = false then s
    else if drainStuck x p.slot (passNeeds x (ctxOf x p.slot) p) then contextFault s t p.slot 7 []
    else f x (ctxOf x p.slot) p

/-! ### MATRIX_PASS_START, GNXT_TOKEN_CONSUME (05 R105; 06 R127, R128) -/

/-- Ready for the arithmetic unit (Table 8): descriptor 0 is judged once the gating token is there. -/
def passReady (x : Tile) (slot : Nat) : Bool :=
  let c := ctxOf x slot
  live x slot && decide (cClass c = 1) && (!gated x slot || (qTok x slot 3).isSome) &&
    ((decide (mNprob c ≠ 0) && dskSkip (descOf x c 0)) ||
      ((qTok x slot 1).isSome && (decide (mAsrc c = 1) || (qTok x slot 0).isSome)))

def passStart (t slot : Nat) (memOk : Bool) (s : State) : State :=
  let x := tile s t
  let c := ctxOf x slot
  if cClass c ≠ 1 ∨ live x slot = false ∨ x.pass.isSome then s
  else if drainStuck x slot (startNeeds x slot) then contextFault s t slot 7 []
  else if nextReady x.lastA (passReady x) ≠ some slot then stalled s t slot
  else if mNprob c ≠ 0 ∧ memOk = false then tileStorage s t (cCfg c)
  else
    let (loop, stamped) :=
      if mAsrc c = 1 then (0, true)
      else
        match qTok x slot 0 with
        | some w => (w.loop, true)
        | none => (0, false)
    let y := moved (if gated x slot then qPop x slot 3 else x) slot
    let p := Pass.fresh slot (max (mNprob c) 1) loop stamped
    setTile s t (setPass { y with lastA := slot } (enterProblem x c 0 p))

def execMatrixPassStart (t slot : Nat) (memOk : Bool) (s : State) : Host.Outcome State Fault Refusal :=
  onWf (.matrixPassStart t slot memOk) s (passStart t slot memOk)

def execGnxtTokenConsume (t : Nat) (memOk : Bool) (s : State) : Host.Outcome State Fault Refusal :=
  onWf (.gnxtTokenConsume t memOk) s fun s =>
    onPass t s fun x c p =>
      if !p.waitGnxt then s
      else if (qTok x p.slot 3).isNone then stalled s t p.slot
      else if memOk = false then tileStorage s t (cCfg c)
      else setTile s t (moved (setPass (qPop x p.slot 3) (enterProblem x c (p.d + 1) p)) p.slot)

/-! ### WEIGHT_WORD_ACCEPT, EXPANDER_DECODE (03 R60, R65, R66) -/

/-- The pass with its loop loopStamp, from the first activation token once it has arrived (05 R95). -/
def loopStamp (x : Tile) (p : Pass) : Pass :=
  if p.stamped then p
  else
    match qTok x p.slot 0 with
    | some w => { p with loop := w.loop, stamped := true }
    | none => p

/-- The half of the buffer that the next weight tile fills is free: half kt mod 2 holds one weight tile (R61, R65). -/
def halfFree (c : Line) (p : Pass) : Bool :=
  !p.halves.any fun h => decide (h.kt % 2 = p.ktStarted % decodedTiles c p.nkt % 2)

/-- The next word of queue W can be taken: the unit in progress lacks it, or a further unit is needed and a half is free;
and under WFWD local out 1 has room. -/
def mayAccept (x : Tile) (c : Line) (p : Pass) : Bool :=
  !p.spent && !p.waitGnxt && decide (p.frame.length < unitWords (cWfmt c)) &&
    (!p.frame.isEmpty || (needsUnit c p && (halfOpen c p || halfFree c p))) &&
    (!mWfwd c || (outRoom x 1 p.slot && (loopStamp x p).stamped))

def acceptWord (t : Nat) (s : State) : State :=
  onPass t s fun x c p =>
    match qTok x p.slot 1 with
    | none => stalled s t p.slot
    | some w =>
      if !mayAccept x c p then stalled s t p.slot
      else
        let p := loopStamp x p
        let y := qPop x p.slot 1
        let y := if mWfwd c then sendOut y 1 (outWord x p.slot w.payload 0 p.loop) else y
        setTile s t (moved (setPass y { p with frame := p.frame ++ [w.payload] }) p.slot)

def execWeightWordAccept (t : Nat) (s : State) : Host.Outcome State Fault Refusal :=
  onWf (.weightWordAccept t) s (acceptWord t)

/-- Sixteen weights into the half being filled, or into a new one; a tile that R61 does not issue leaves once it is
decoded. -/
def expand (t : Nat) (memOk : Bool) (s : State) : State :=
  onPass t s fun x c p =>
    let w := cWfmt c
    if p.frame.length < unitWords w ∨ (halfOpen c p = false ∧ halfFree c p = false) then s
    else if w = 0x12 ∧ memOk = false then tileStorage s t (cCfg c)
    else
      let b := blockOf t
      let fr := frameNat p.frame
      let (ws, g) := decodeRun s b c fr p.decoded 16 x.gen1
      let sc := scalesFor s b c fr p.decoded
      let halves :=
        if halfOpen c p then
          match p.halves.getLast? with
          | some h => p.halves.dropLast ++ [{ h with weights := h.weights ++ ws, scales := h.scales ++ sc }]
          | none => p.halves
        else p.halves ++ [{ kt := p.ktStarted % decodedTiles c p.nkt, weights := ws, scales := sc }]
      let fin := decide (8 * unitK w ≤ p.decoded + 16)
      let p := { p with
        halves := halves.filter fun h => decide (h.kt < p.nkt) || !halfFull c h
        ktStarted := if halfOpen c p then p.ktStarted else p.ktStarted + 1
        frame := if fin then [] else p.frame, decoded := if fin then 0 else p.decoded + 16 }
      setTile s t (moved (setPass { x with gen1 := g } p) p.slot)

def execExpanderDecode (t : Nat) (memOk : Bool) (s : State) : Host.Outcome State Fault Refusal :=
  onWf (.expanderDecode t memOk) s (expand t memOk)

/-! ### BEAT_ISSUE -/

/-- Stage one activation line into the ring, and take one starting partial sum from queue P, as far as they have arrived
and there is room (03 R39, R59). -/
def stageOne (c : Line) (x : Tile) (p : Pass) : Tile × Pass :=
  let i := p.ringBase + p.ringLen
  let (x, p) :=
    if p.ringLen < 8 ∧ i < lineEnd c p then
      match sourceLine x c p i with
      | some l =>
        let q := loopStamp x p
        let y := if mAsrc c = 0 then qPop x p.slot 0 else x
        ({ y with regs := tset y.regs (i % 8) l }, { q with ringLen := p.ringLen + 1 })
      | none => (x, p)
    else (x, p)
  if mPsrc c = 2 ∧ p.psum.length < 8 ∧
      p.kt = 0 ∧ p.rg + (if p.loaded then 1 else 0) + (if p.ahead then 1 else 0) < p.nrg then
    match qTok x p.slot 2 with
    | some w => (qPop x p.slot 2, { p with psum := p.psum ++ [w.payload] })
    | none => (x, p)
  else (x, p)

/-- Stage what has arrived: a beat finds the ring filled as far as the sources allow. -/
def stageIn (c : Line) (x : Tile) (p : Pass) : Tile × Pass :=
  (List.range 8).foldl (fun y _ => stageOne c y.1 y.2) (x, p)

/-- Sum of a list in an order and grouping that the spec leaves open (07 R156; log entry 33, DESIGN CHOICE). -/
def freeSum (add : W32 → W32 → W32) : Nat → Nat → List W32 → W32
  | _, _, [] => 0
  | _, _, [a] => a
  | 0, _, a :: _ => a
  | n + 1, d, xs =>
    let i := Config.freeNat d % xs.length
    let ys := xs.eraseIdx i
    let j := Config.freeNat (d + 1) % ys.length
    freeSum add n (d + 2) (add ((xs[i]?).getD 0) ((ys[j]?).getD 0) :: ys.eraseIdx j)

def addUp (a b : W32) : W32 := roundUp (numAdd (num32 a) (num32 b))

/-- The row group after the one in progress, within the repetition: weight tile and row group. -/
def nextGroup (p : Pass) : Option (Nat × Nat) :=
  if p.rg + 1 < p.nrg then some (p.kt, p.rg + 1) else if p.kt + 1 < p.nkt then some (p.kt + 1, 0) else none

/-- The bank is still to be stored or drained. -/
def bankBusy (p : Pass) (bank : Nat) : Bool := p.finished.any fun e => decide (e.1 = bank)

/-- The row group whose bank is loaded next: the one in progress, or the one after it in the other bank (R59). -/
def loadTarget (c : Line) (p : Pass) : Option (Nat × Nat) :=
  let g := if !p.loaded then some (p.kt, p.rg) else if p.ahead then none else (nextGroup p).filter fun e => decide (e.2 % 2 ≠ p.rg % 2)
  g.filter fun e => !bankBusy p (e.2 % 2) && decide (e.1 ≠ 0 ∨ mPsrc c ≠ 2 ∨ p.psum.length = 8)

/-- The bank of a row group at its start (R58): zero, the scratchpad, or queue P; and, at the first weight tile, its
sums into the check row (07 R156). -/
def loadBank (d : Nat) (c : Line) (kt rg : Nat) (x : Tile) (p : Pass) : Tile × Pass :=
  let lines :=
    if kt = 0 ∧ mPsrc c = 0 then List.replicate 8 0
    else if kt = 0 ∧ mPsrc c = 2 then p.psum
    else scratchGet x (mPbase c + p.poff + 8 * rg) 8
  let x := bankSet x (rg % 2) lines
  let p := { p with loaded := true, ahead := p.loaded, psum := [] }
  if kt = 0 ∧ mPsrc c ≠ 0 then
    let ws := bankGet x (rg % 2)
    let col (n : Nat) : List W32 := (List.range 16).map fun r => (ws[8 * r + n]?).getD 0
    (x, { p with
      cRow := (List.range 8).map fun n => freeSum fadd 17 (d + 64 * n) ((p.cRow[n]?).getD 0 :: col n)
      gRow := (List.range 8).map fun n => freeSum addUp 17 (d + 64 * n + 32) ((p.gRow[n]?).getD 0 :: (col n).map fabs) })
  else (x, p)

/-- Load the bank that is loaded next, when what it needs is there. -/
def loadNext (d : Nat) (c : Line) (x : Tile) (p : Pass) : Tile × Pass :=
  match loadTarget c p with
  | none => (x, p)
  | some (kt, rg) => loadBank d c kt rg x p

/-- Everything that the next beat needs is there. -/
def beatReady (x : Tile) (c : Line) (p : Pass) : Bool :=
  let f := cAfmt c
  let ks := if is4bit f then min (p.k + 2) (mKdep c) else p.k + 1
  let i := actIndex c p (ks - 1)
  p.loaded && (actLine x c p (lineIdx f i)).isSome && (!isMx f || (actLine x c p (scaleIdx f (actTotal c p) i)).isSome) &&
    (match p.halves.head? with
      | some h => decide (h.kt = p.kt ∧ 8 * ks ≤ h.weights.length)
      | none => false) &&
    (decide (0 < p.kt ∨ 0 < p.rg ∨ 0 < p.k ∨ 0 < p.quarter) || decide (x.checkFifo.length < 2))

/-- Accumulators of a beat (Table 8; 04 R72, R73). -/
def beatAcc (x : Tile) (c : Line) (p : Pass) (h : Half) : List W32 :=
  let f := cAfmt c
  let ks := if is4bit f ∧ p.k + 1 < mKdep c then [p.k, p.k + 1] else [p.k]
  (bankGet x (p.rg % 2)).zipIdx.map fun (a, i) =>
    let r := i / 8
    let n := i % 8
    if is16bit f ∧ (r / 8 ≠ p.quarter / 2 ∨ n / 4 ≠ p.quarter % 2) then a
    else rne (ks.foldl (fun z k => numAdd z (numMul (actNum x c p r k) (weightNum c h k n))) (num32 a))

/-- The check row of one k (07 R156). -/
def checkK (d : Nat) (x : Tile) (c : Line) (h : Half) (k : Nat) (p : Pass) : Pass :=
  let acts := (List.range 16).map fun r => actNum x c p r k
  let a := freeSum fadd 16 d (acts.map rne)
  let g := freeSum addUp 16 (d + 32) (acts.map fun v => roundUp (numAbs v))
  { p with
    cRow := p.cRow.zipIdx.map fun (v, n) => rne (numAdd (num32 v) (numMul (num32 a) (weightNum c h k n)))
    gRow := p.gRow.zipIdx.map fun (v, n) => roundUp (numAdd (num32 v) (numMul (num32 g) (numAbs (weightNum c h k n)))) }

/-- The check row over the k that a beat completes. -/
def checkBeat (d : Nat) (x : Tile) (c : Line) (h : Half) (p : Pass) : Pass :=
  let f := cAfmt c
  if is16bit f then (if p.quarter = 3 then checkK d x c h p.k p else p)
  else if is4bit f ∧ p.k + 1 < mKdep c then checkK (d + 64) x c h (p.k + 1) (checkK d x c h p.k p)
  else checkK d x c h p.k p

/-- Lines of one drained row group (06 Table 1). -/
def lout (c : Line) : Nat := if cOfmt c ≤ 1 then 2 else if cOfmt c = 0x1f then 8 else 4

/-- The beat is the last of its row group. -/
def lastOfGroup (c : Line) (p : Pass) : Bool :=
  if is16bit (cAfmt c) then decide (p.quarter = 3 ∧ mKdep c ≤ p.k + 1)
  else decide (mKdep c ≤ p.k + if is4bit (cAfmt c) then 2 else 1)

/-- The check word leaves at the end of a repetition (07 R157). -/
def pushCheck (x : Tile) (p : Pass) : Tile := { x with checkFifo := x.checkFifo ++ [lineOf (p.cRow ++ p.gRow)] }

/-- The staging ring lets go of the lines before index `k` of the row group in progress (03 R39). -/
def ringTo (c : Line) (k : Nat) (p : Pass) : Pass :=
  let n := lineFrom c p k
  { p with ringBase := n, ringLen := p.ringBase + p.ringLen - n }

/-- The ring at the start of a row group. -/
def ringFresh (c : Line) (p : Pass) : Pass := { p with ringBase := lineFrom c p 0, ringLen := 0 }

/-- The loop nest past one beat (R58, 06 R127). -/
def loopAdvance (c : Line) (x : Tile) (p : Pass) : Tile × Pass :=
  if !lastOfGroup c p then
    if is16bit (cAfmt c) then
      (x, if p.quarter = 3 then ringTo c (p.k + 1) { p with quarter := 0, k := p.k + 1 } else { p with quarter := p.quarter + 1 })
    else
      let k := p.k + if is4bit (cAfmt c) then 2 else 1
      (x, ringTo c k { p with k := k })
  else
    let drain := decide (p.nkt ≤ p.kt + 1)
    let line := if drain then mObase c + p.ooff + (p.j * p.nrg + p.rg) * lout c else mPbase c + p.poff + 8 * p.rg
    let p := { p with
      finished := p.finished ++ [(p.rg % 2, line, drain)], k := 0, quarter := 0, loaded := p.ahead, ahead := false
      rg := p.rg + 1 }
    if p.rg < p.nrg then (x, ringFresh c p)
    else
      let p := { p with rg := 0, kt := p.kt + 1, halves := p.halves.tail }
      if p.kt < p.nkt then (x, ringFresh c p)
      else
        let x := pushCheck x p
        let p := { p with kt := 0, j := p.j + 1, cRow := List.replicate 8 0, gRow := List.replicate 8 0 }
        if p.j < p.rep then (x, ringFresh c p) else (x, nextProblem x c p.nprob p)

/-- One tile-beat is counted (03 R54; 13 Table 9, Table 10). -/
def countBeat (s : State) (t : Nat) : State :=
  match partOfTile s t with
  | none => s
  | some q =>
    modPart s q fun x =>
      let x := addAct x (t / 64 / 64) 1
      match x.step with
      | some k => { x with step := some { k with tbeats := k.tbeats + 1 } }
      | none => { x with acct := { x.acct with tbeats := sat64 (x.acct.tbeats + 1) } }

/-- The last beat of a problem waits until the expander has decoded all of the problem's weights. R61 has the weights
that no beat needs decoded, and no rule says whether the last beat waits for them: the model makes it wait (log entry 52,
DESIGN CHOICE). -/
def expanderIdle (c : Line) (p : Pass) : Bool :=
  !(lastOfGroup c p && decide (p.nrg ≤ p.rg + 1 ∧ p.nkt ≤ p.kt + 1 ∧ p.rep ≤ p.j + 1)) ||
    (p.frame.isEmpty && !needsUnit c p)

/-- BEAT_ISSUE: the staging ring and the banks are filled as far as the inputs allow (03 R39, R59), and a beat issues
once everything it needs is there; a beat that faults has issued and counts. `residueOk` false: an adder's residue differs (16 R374), and the sum is not written. `memOk` false: a read
of the scratchpad or of the decoded weight buffer meets an uncorrectable error. -/
def beat (t : Nat) (residueOk memOk : Bool) (s : State) : State :=
  onPass t s fun x c p =>
    if p.spent ∨ p.waitGnxt then s
    else
      let (y, p') := stageIn c x p
      let (y, q) := loadNext s.draw c y p'
      if !memOk ∧ (q ≠ p' ∨ beatReady y c q = true) then tileStorage s t (cCfg c)
      else if !beatReady y c q || !expanderIdle c q then
        if q = p then stalled s t p.slot
        else setTile { s with draw := s.draw + 512 } t (moved (setPass y q) p.slot)
      else
        match q.halves.head? with
        | none => s
        | some h =>
          if !residueOk then countBeat (tileFault (setTile s t (setPass y q)) t 9 (cCfg c) []) t
          else
            let acc := beatAcc y c q h
            let q := checkBeat (s.draw + 512) y c h q
            let y := bankSet y (q.rg % 2) (bankLines acc)
            let (y, q) := loopAdvance c y q
            countBeat (setTile { s with draw := s.draw + 1024 } t (moved (setPass y q) p.slot)) t

def execBeatIssue (t : Nat) (residueOk memOk : Bool) (s : State) : Host.Outcome State Fault Refusal :=
  onWf (.beatIssue t residueOk memOk) s (beat t residueOk memOk)

/-! ### ACCUMULATOR_DRAIN (03 R58; 04 R77, R84) -/

/-- Accumulators converted to OFMT in increasing element index, and the drain generator after them. -/
def drainCodes (c : Line) : List W32 → W32 → List Nat × W32
  | [], g => ([], g)
  | w :: r, g =>
    let g := if cRnd c = 1 then genStep g else g
    let (ns, g') := drainCodes c r g
    (convTo (cOfmt c) (cRnd c) (genDraw g) 0 (num32 w) :: ns, g')

/-- The lines of a drained bank; FP32 passes unchanged, without a draw. -/
def drainLines (c : Line) (ws : List W32) (g : W32) : List Line × W32 :=
  if cOfmt c = 0x1f then (bankLines ws, g)
  else
    let (ns, g) := drainCodes c ws g
    let bits := codeBits (cOfmt c)
    let per := 512 / bits
    ((List.range (lout c)).map fun i => BitVec.ofNat 512 (packCodes bits ((ns.drop (per * i)).take per)), g)

/-- Store a bank, convert it (into the scratchpad first, 06 R122), or send the next word of a conversion. -/
def drain (t : Nat) (s : State) : State :=
  onPass t s fun x c p =>
    match p.outw, p.finished with
    | l :: r, _ =>
      if !outRoom x 0 p.slot then stalled s t p.slot
      else
        let y := sendOut x 0 (outWord x p.slot l 0 p.loop)
        setTile s t (moved (setPass y { p with outw := r, finished := if r = [] then p.finished.tail else p.finished }) p.slot)
    | [], [] => s
    | [], (bank, line, drains) :: rest =>
      if !drains then
        setTile s t (moved (setPass (scratchSet x line (bankLines (bankGet x bank))) { p with finished := rest }) p.slot)
      else
        let (ls, g) := drainLines c (bankGet x bank) x.gen0
        let y := { x with gen0 := g }
        let y := if mOdst c = 0 then y else scratchSet y line ls
        let q := if mOdst c = 1 then { p with finished := rest } else { p with outw := ls }
        setTile s t (moved (setPass y q) p.slot)

def execAccumulatorDrain (t : Nat) (s : State) : Host.Outcome State Fault Refusal :=
  onWf (.accumulatorDrain t) s (drain t)

/-! ### CONTEXT_EPOCH_END (05 R112, R113) -/

/-- Roles that the next firing of a context requires. -/
def contextNeeds (x : Tile) (slot : Nat) : List Nat :=
  let c := ctxOf x slot
  if cClass c = 1 then
    match x.pass with
    | some p => if p.slot = slot then passNeeds x c p else startNeeds x slot
    | none => startNeeds x slot
  else if cClass c = 2 then moveNeeds x slot
  else if cClass c = 3 then
    (if (slotRun x slot).fork.isSome || (slotRun x slot).second.isSome then [] else steerNeeds x slot)
  else if cClass c = 4 ∧ kTrig c then [3]
  else []

def contextEnd (t slot : Nat) (s : State) : State :=
  let x := tile s t
  if live x slot = false then s
  else if drainStuck x slot (contextNeeds x slot) then contextFault s t slot 7 []
  else if quiet x slot && allMarked x slot && (markOuts x slot).all fun o => outRoom x o slot then
    setTile s t (endContext slot x)
  else stalled s t slot

def execContextEpochEnd (t slot : Nat) (s : State) : Host.Outcome State Fault Refusal :=
  onWf (.contextEpochEnd t slot) s (contextEnd t slot)

end Sys2Proof.Machine
end

