-- ==== Sys2Proof/Machine/Port.lean ====
section
/-! DEFINITION. The VE's instructions toward tiles, other VEs, the codebook and the tiers (07 R144 to R150, R157).
Readings of the spec: log entries 30, 53, 56. -/

namespace Sys2Proof.Machine

/-! ### Operand port (R144, R145) -/

/-- Quarters named by IMM[1:0]. -/
def quartersOf (w : W64) : Nat := nfld (iImm w) 0 2 + 1

/-- Items of the VE's port toward a tile of the block, not yet delivered. -/
def portHolds (x : Ve) (tile : Nat) : Bool := (tget [] x.lanes (tile / 8)).any fun i => decide (i.tile = tile)

/-- Put items on the lane of a tile's column. -/
def toPort (x : Ve) (tile : Nat) (is : List PortItem) : Ve :=
  { x with lanes := tset x.lanes (tile / 8) (tget [] x.lanes (tile / 8) ++ is) }

/-- A channel word of this VE. -/
def veChan (x : Ve) (payload : Line) (kind loop ctx : Nat) : Chan :=
  { payload := payload, loop := BitVec.ofNat 16 loop, kind := BitVec.ofNat 2 kind, epoch := x.epv, ctx := BitVec.ofNat 3 ctx }

/-- The queue that sA names: tile, slot, role. -/
def portTile (a : Nat) : Nat := nfld a 0 6
def portSlot (a : Nat) : Nat := nfld a 6 3
def portRole (a : Nat) : Nat := nfld a 9 2

/-- The queue has had its drain marker in this epoch. -/
def portMarked (s : State) (b a : Nat) : Bool :=
  markedQueue s ((partOfBlock s b).getD 16) b (portTile a) (portSlot a) (portRole a) (ve s b).epv

/-- PPUT: quarters of vD as channel words into one queue of one tile. -/
def portPut (b : Nat) (w : W64) (s : State) : Except State (Option State) :=
  let x := ve s b
  let a := (sr x (iA w)).toNat
  let kind := nfld (iImm w) 2 2
  if !scalars [iA w, iB w] || decide (1 < kind) || portMarked s b a then .error s
  else
    let item (q : Nat) : PortItem :=
      { tile := portTile a, dest := some (4 * portSlot a + portRole a), line := 0
        word := veChan x (quarter (vr x (iD w)) q) kind ((sr x (iB w)).toNat + q) (portSlot a) }
    .ok (some (setVe s b (toPort x (portTile a) ((List.range (quartersOf w)).map item))))

def execPput (b : Nat) (s : State) : Host.Outcome State Fault Refusal :=
  onWf (.pput b) s (veIssue b 0x48 (portPut b))

/-- PWR: quarters of vD as scratchpad lines. -/
def portWrite (w : W64) (x : Ve) : Option Ve :=
  if !scalars [iA w] then none
  else
    let a := (sr x (iA w)).toNat
    let item (q : Nat) : PortItem :=
      { tile := nfld a 0 6, dest := none, line := (nfld a 6 10 + q) % 1024
        word := veChan x (quarter (vr x (iD w)) q) 0 0 0 }
    some (toPort x (nfld a 0 6) ((List.range (quartersOf w)).map item))

def execPwr (b : Nat) (s : State) : Host.Outcome State Fault Refusal :=
  onWf (.pwr b) s (veIssue b 0x49 (regOp b portWrite))

/-- PRD: scratchpad lines into quarters of vD, behind the port's writes of the tile. -/
def portRead (b : Nat) (w : W64) (s : State) : Except State (Option State) :=
  let x := ve s b
  let a := (sr x (iA w)).toNat
  let t := nfld a 0 6
  if !scalars [iA w] then .error s
  else if portHolds x t then .ok none
  else
    let y := tile s (tileIn b t)
    let ls := (List.range (quartersOf w)).map fun q => scratchAt y (nfld a 6 10 + q)
    .ok (some (setVe s b (setVr x (iD w) (withQuarters (vr x (iD w)) ls))))

def execPrd (b : Nat) (ecc : Ecc) (s : State) : Host.Outcome State Fault Refusal :=
  onWf (.prd b ecc) s (veRead b 0x4a ecc (fun _ _ => true) (portRead b))

/-- PMARK: one drain marker into a queue, which the port records. -/
def portMark (b : Nat) (w : W64) (s : State) : Except State (Option State) :=
  let x := ve s b
  let a := (sr x (iA w)).toNat
  if !scalars [iA w] || portMarked s b a then .error s
  else
    let item : PortItem :=
      { tile := portTile a, dest := some (4 * portSlot a + portRole a), line := 0, word := veChan x 0 2 0 (portSlot a) }
    let x := toPort x (portTile a) [item]
    .ok (some (setVe s b { x with marked := queueKey (portTile a) (portSlot a) (portRole a) :: x.marked }))

def execPmark (b : Nat) (s : State) : Host.Outcome State Fault Refusal :=
  onWf (.pmark b) s (veIssue b 0x4b (portMark b))

/-! ### Collector and check path (R147, R157) -/

/-- Words of a collector FIFO that one COLL takes: up to four, or up to and with a drain marker; none while it waits. -/
def collTake (ws : List Coll) : Option (List Coll × Bool) :=
  let ds := (ws.take 4).takeWhile fun c => decide (c.word.kind ≠ 2)
  if ds.length = 4 then some (ds, false) else if ds.length < ws.length then some (ds, true) else none

/-- COLL. -/
def collect4 (b : Nat) (w : W64) (s : State) : Except State (Option State) :=
  let x := ve s b
  let t := (baseAddr x w) % 64
  if !scalars [iA w, iB w] then .error s
  else if portHolds x t then .ok none
  else
    let y := tile s (tileIn b t)
    match collTake y.coll with
    | none => .ok none
    | some (ds, mark) =>
      let first := y.coll.head?
      let sb : Nat :=
        ds.length + (if mark then 8 else 0) +
          first.elim 0 fun c => 16 * (c.label % 8) + 128 * (c.role % 4) + 65536 * c.word.loop.toNat
      let s := setTile s (tileIn b t) { y with coll := y.coll.drop (ds.length + if mark then 1 else 0) }
      let x := setVr x (iD w) (withQuarters (vr x (iD w)) (ds.map fun c => c.word.payload))
      .ok (some (setVe s b (setSr x (iB w) (BitVec.ofNat 32 sb))))

def execColl (b : Nat) (s : State) : Host.Outcome State Fault Refusal :=
  onWf (.coll b) s (veIssue b 0x4c (collect4 b))

/-- CKPOP: the next check word of a tile into lanes 0 to 15, the rest zero. -/
def checkPop (b : Nat) (w : W64) (s : State) : Except State (Option State) :=
  let x := ve s b
  let t := (baseAddr x w) % 64
  if !scalars [iA w] then .error s
  else if portHolds x t then .ok none
  else
    let y := tile s (tileIn b t)
    match y.checkFifo with
    | [] => .ok none
    | l :: r =>
      let s := setTile s (tileIn b t) { y with checkFifo := r }
      .ok (some (setVe s b (setVr x (iD w) (withQuarters VReg.zero [l]))))

def execCkpop (b : Nat) (s : State) : Host.Outcome State Fault Refusal :=
  onWf (.ckpop b) s (veIssue b 0x4d (checkPop b))

/-! ### VE network (R148, R150) -/

/-- An access of the VE outside its partition: the isolation event of the partition, before the program fault. -/
def veOutside (s : State) (b kind addr : Nat) : State :=
  match partOfBlock s b with
  | none => s
  | some p => isolation s p kind s.fabric.chip 0xff addr

/-- NSEND: quarters of vD to a mailbox of the VE of a block of the same partition. -/
def netSend (b : Nat) (w : W64) (s : State) : Except State (Option State) :=
  let x := ve s b
  let dst := nfld (sr x (iA w)).toNat 0 7
  if !scalars [iA w] then .error s
  else if (partOfBlock s b).isNone ∨ partOfBlock s dst ≠ partOfBlock s b then .error (veOutside s b 3 dst)
  else
    let word (q : Nat) : NetWord :=
      { src := b, dst := dst, box := nfld (iImm w) 2 3, word := veChan x (quarter (vr x (iD w)) q) 0 0 0 }
    .ok (some { s with veNet := s.veNet ++ (List.range (quartersOf w)).map word })

def execNsend (b : Nat) (s : State) : Host.Outcome State Fault Refusal :=
  onWf (.nsend b) s (veIssue b 0x50 (netSend b))

/-- NRECV: words of a mailbox into quarters 0 onward of vD; waits for the first. -/
def netRecv (b : Nat) (w : W64) (s : State) : Except State (Option State) :=
  let x := ve s b
  let box := nfld (iImm w) 2 3
  let ws := (tget [] x.mail box).take (quartersOf w)
  if ws = [] then .ok none
  else
    let x := { x with mail := tset x.mail box ((tget [] x.mail box).drop ws.length) }
    .ok (some (setVe s b (setVr x (iD w) (withQuarters (vr x (iD w)) (ws.map fun c => c.payload)))))

def execNrecv (b : Nat) (s : State) : Host.Outcome State Fault Refusal :=
  onWf (.nrecv b) s (veIssue b 0x51 (netRecv b))

/-! ### Codebook (R150, 03 R38) -/

/-- CBWR: 32 entries of a codebook slot, while no active context of the block names it. -/
def codebookWrite (b : Nat) (w : W64) (s : State) : Except State (Option State) :=
  let x := ve s b
  let slot := nfld (iImm w) 0 1
  let base := (sr x (iA w)).toNat % 4096 / 32 * 32
  if !scalars [iA w] then .error s
  else if (List.range 64).any fun i => namesCodebook (tile s (tileIn b i)) slot then .ok none
  else
    let v := vr x (iD w)
    let put (m : Tab W64) (j : Nat) : Tab W64 :=
      tset m (8192 * b + 4096 * slot + base + j) ((lane64 v (2 * j + 1)).append (lane64 v (2 * j)))
    .ok (some { s with codebook := (List.range 32).foldl put s.codebook })

def execCbwr (b : Nat) (s : State) : Host.Outcome State Fault Refusal :=
  onWf (.cbwr b) s (veIssue b 0x54 (codebookWrite b))

/-! ### Tier transfers (R149, R150) -/

/-- Bytes of a run of words of the VE's space. -/
def veBytes (x : Ve) (a n : Nat) : List Byte :=
  (List.range n).flatMap fun i => leBytes 4 (veWord x (if x.buffer then a + i else (a + i) % 65536)).toNat

/-- Destination partition of a transaction toward another chip: the group member there, else the same number (log
entry 30, DEDUCED). -/
def remotePart (s : State) (p chip : Nat) : Nat :=
  match activeModel (part s p) with
  | none => p
  | some m => ((m.group.find? fun e => decide (e.1 = chip)).map fun e => e.2).getD p

/-- Where a VE's access is checked (R150, 13 Table 4): none when it may go, else the kind of its isolation event. -/
def txfRefused (s : State) (p a len : Nat) (write : Bool) : Option Nat :=
  let x := part s p
  let o := gOff a
  if gChip a ≠ s.fabric.chip then none
  else if gTierOf a < 3 then (if bytesInRanges x (gTierOf a) o len (!write) then none else some 3)
  else if o < winBase then (if controlPage p ≤ o ∧ o + len ≤ controlPage p + 4096 then none else some 3)
  else if (unitPieces o len).any fun u =>
      inWindow u.1 && (!ownsGrain x (winGrain u.1) || ((ht s (winGrain u.1)).v && decide ((ht s (winGrain u.1)).part ≠ p))) then
    some 4
  else none

/-- One piece of a transfer on another chip: a READ or WRITE on the stream of the block (14 Table 10, R336). -/
def txfRemote (s : State) (b p word n a len : Nat) (write : Bool) (bs : List Byte) (need : Need) : State :=
  let t : Txn :=
    { ttype := if write then 2 else 1, strm := b % 12, dchip := gChip a, schip := s.fabric.chip, srcPart := p
      dstPart := remotePart s p (gChip a), last := false, addr := BitVec.ofNat 64 a, len := len, tid := s.fabric.nextTid
      status := 0, aop := 0, operand := 0, data := bs }
  let s := modFabric s fun f => { f with nextTid := (f.nextTid + 1) % 65536 }
  let id := s.tiers.nextId
  let x := mkTransfer p 3 write (gOff a) len false bs need (.outward b word n t)
  let s := modTransfer (pend s x) id fun y => { y with issued := some (count s) }
  match issueTxn s t with
  | (0, s) => s
  | (st, s) => finishTransfer (dropTransfer s id) { x with id := id } st []

/-- The transfer's pieces, one for each 4 KiB unit: those on this chip become pending, an access to the control page is
done at once (10 R233). -/
def txfPieces (s : State) (b p sa n a len : Nat) (write : Bool) (who : Option Nat) : State :=
  let x := ve s b
  let need : Need :=
    match (part s p).step with
    | none => .none
    | some k => ((who.bind (memberOfSlot k)).map Need.request).getD .step
  let o := gOff a
  if gChip a = s.fabric.chip ∧ gTierOf a = 3 ∧ o < winBase then
    if write then
      if o = controlPage p then
        modStream s p fun m => { m with relWrites := m.relWrites ++ [bytesLine (veBytes x sa 16)] }
      else s
    else
      let (bs, s) := freeBytes s len
      modVe s b fun v => setVeWords v sa (wordsOf (len / 4) bs)
  else
    let s := modVe s b fun v => { v with txOut := v.txOut ++ [n] }
    (unitPieces o len).foldl (fun s (u, k) =>
      let word := sa + (u - o) / 4
      let bs := if write then veBytes x word (k / 4) else []
      if gChip a ≠ s.fabric.chip then txfRemote s b p word n (a - o + u) k write bs need
      else
        let win := decide (gTierOf a = 3)
        pend s (mkTransfer p (gTierOf a) write u k win bs need (.txf b word n))) s

/-- TXF, for the whole step or for the request that holds slot `who` when the program names one (10 Table 4): one transfer between the VE's space and a tier; a seventeenth waits. -/
def transferPost (b : Nat) (who : Option Nat) (w : W64) (s : State) : Except State (Option State) :=
  let x := ve s b
  let n := nfld (iImm w) 0 16
  let write := decide (nfld (iImm w) 16 1 = 1)
  let sa := (sr x (iA w)).toNat
  let sa := if x.buffer then sa else sa % 65536
  let a := ((sr x (iC w)).append (sr x (iB w))).toNat
  if !scalars [iA w, iB w, iC w] then .error s
  else if x.buffer ∧ n ≠ 0 ∧ 4096 < sa + 16 * n then .error s
  else
    match partOfBlock s b with
    | none => .error s
    | some p =>
      match if n = 0 then none else txfRefused s p a (64 * n) write with
      | some kind => .error (isolation s p kind s.fabric.chip 0xff a)
      | none =>
        if n = 0 then .ok (some s)
        else if 16 ≤ x.txOut.length then .ok none
        else
          let id := ((List.range 17).find? fun i => decide (i ∉ x.txOut)).getD 0
          .ok (some (txfPieces s b p sa id a (64 * n) write who))

/-- The access of a TXF that the range checkers judge: its global address; none for a transfer of nothing, one
on another chip, one that waits or one with a reserved value. -/
def txfJudged (s : State) (b : Nat) : Option Nat :=
  let x := ve s b
  let w := fetchVe x
  let a := ((sr x (iC w)).append (sr x (iB w))).toNat
  if x.running ∧ iOpc w = 0x52 ∧ scalars [iA w, iB w, iC w] ∧ nfld (iImm w) 0 16 ≠ 0 ∧ x.txOut.length < 16 ∧
      gChip a = s.fabric.chip then (partOfBlock s b).map fun _ => a
  else none

/-- A TXF toward a tier reads words of the VE's space (R142, R163). -/
def txfReads (w : W64) (_ : State) : Bool := decide (nfld (iImm w) 16 1 = 1 ∧ nfld (iImm w) 0 16 ≠ 0)

/-- TXF. When the two copies of the range checker disagree, the access is refused, the VE stops and the fault is recorded
(16 R374). -/
def execTxf (b : Nat) (agree : Bool) (ecc : Ecc) (who : Option Nat) (s : State) : Host.Outcome State Fault Refusal :=
  onWf (.txf b agree ecc who) s fun s =>
    match if agree then none else txfJudged s b with
    | some a => veFault (modVe s b fun x => { x with running := false, waitSince := none }) b 17 (leBytes 8 a)
    | none => veRead b 0x52 ecc txfReads (transferPost b who) s

/-- TXWAIT: every outstanding transfer has completed; sD takes the first failing status. -/
def transferWait (b : Nat) (w : W64) (s : State) : Except State (Option State) :=
  let x := ve s b
  if !scalars [iD w] then .error s
  else if x.txOut ≠ [] then .ok none
  else .ok (some (setVe s b (setSr { x with txFail := 0 } (iD w) (BitVec.ofNat 32 x.txFail))))

def execTxwait (b : Nat) (s : State) : Host.Outcome State Fault Refusal :=
  onWf (.txwait b) s (veIssue b 0x53 (transferWait b))

end Sys2Proof.Machine
end

