-- ==== Sys2Proof/Machine/Startup.lean ====
section
/-! DEFINITION. Supplies, reset and start-up (15 R355 to R366; 17 R408 to R410; 18 R429 to R431; 09 R191 to R199), control
recovery (15 R350, R351) and the renewal of telemetry (R368).
Readings of the spec: log entries 46, 47. -/

namespace Sys2Proof.Machine

/-! ### Reset and supplies -/

/-- What RESET_N low leaves: the counter and its accounting intervals (13 R315), the rails, the fuses and what has been sent; everything else is as at reset. Memory
is as after power-on, since no content is promised (16 R379, log entries 4, 36). -/
def inReset (s : State) : State :=
  { State.reset with
    pending := s.pending, draw := s.draw, time := s.time
    out := { s.out with heldC := [], disc := 0, framedC := s.out.iberaine.length, framedT := s.out.twin.length }
    boot := { Boot.reset with svnMin := s.boot.svnMin, raises := s.boot.raises, revoked := s.boot.revoked }
    fabric := { Fabric.reset with
      sent := s.fabric.sent, pairSent := s.fabric.pairSent, expertSent := s.fabric.expertSent, sideSent := s.fabric.sideSent }
    pair := { Pair.reset with beats := s.pair.beats, twinReplies := s.pair.twinReplies }
    power := { Power.reset with good := s.power.good, intervalEnd := count s / 25000 * 25000 } }

/-- The straps are sampled (18 R430). -/
def sampleStraps (straps : BitVec 16) (s : State) : State :=
  modLands s fun l => { l with phase := 0, straps := straps, sampledAt := count s }

/-- RESET_N_RISE: start-up begins when the always-on supply is good. -/
def resetRise (straps : BitVec 16) (s : State) : State :=
  if s.boot.resetN then s
  else
    let s := modBoot s fun b => { b with resetN := true }
    if mgmtPowered s then sampleStraps straps s else s

def execResetNRise (straps : BitVec 16) (s : State) : Host.Outcome State Fault Refusal :=
  onWf (.resetNRise straps) s (resetRise straps)

def execResetNFall (s : State) : Host.Outcome State Fault Refusal := onWf .resetNFall s inReset

/-- TRAIN_PHASE_START: 250 counts after the sampling moment. -/
def trainStart (s : State) : State :=
  if s.lands.phase = 0 ∧ s.boot.resetN ∧ mgmtPowered s ∧ s.lands.sampledAt + 250 ≤ count s then
    modLands s fun l => { l with phase := 1 }
  else s

def execTrainPhaseStart (s : State) : Host.Outcome State Fault Refusal := onWf .trainPhaseStart s trainStart

/-- SUPPLY_GOOD: a rail has stood above its good figure for 100 us (17 R409). The always-on supply starts the device afresh
with the counter at zero (02 R25); with RESET_N high, the later of it and VDD_IO18 samples the straps. -/
def supplyGood (rail : Nat) (straps : BitVec 16) (s : State) : State :=
  if s.power.good.getLsbD rail then s
  else
    let s := modPower s fun w => { w with good := w.good ||| (1#13 <<< rail) }
    let s :=
      if rail = 3 then
        let high := s.boot.resetN
        modBoot (inReset { s with time := { count := 0, lost := false, bridging := false, watch := 0 } }) fun b =>
          { b with resetN := high }
      else s
    if (rail = 3 ∨ rail = railIO18) ∧ s.boot.resetN ∧ mgmtPowered s then sampleStraps straps s else s

def execSupplyGood (rail : Nat) (straps : BitVec 16) (s : State) : Host.Outcome State Fault Refusal :=
  onWf (.supplyGood rail straps) s (supplyGood rail straps)

/-- Content that the units of a lost rail held is gone: it reads as after power-on (17 R409, log entries 3 and 4). -/
def loseContent (rail : Nat) (s : State) : State :=
  if rail ≤ 1 then
    { s with
      tiles := s.tiles.filter fun e => decide (e.1 / 4096 ≠ rail)
      ves := s.ves.filter fun e => decide (e.1 / 64 ≠ rail)
      veNet := s.veNet.filter fun w => decide (w.src / 64 ≠ rail ∧ w.dst / 64 ≠ rail)
      injectOut := s.injectOut.filter fun e => decide (e.1 / 8 ≠ rail) }
  else if rail = 2 then
    { s with
      tiles := s.tiles.map fun e => (e.1, { e.2 with scratch := [] })
      ves := s.ves.map fun e => (e.1, { e.2 with cache := [], cacheInit := false, slots := [] })
      codebook := [] }
  else if rail = 4 ∨ rail = 5 ∨ rail = 6 then { s with mem := { s.mem with t0 := [] } }
  else s

/-- What the device does at the loss of a rail once start-up has begun (17 Table 2). -/
def railReact (rail recno : Nat) (s : State) : State :=
  if rail = 7 then modTiers s fun m => { m with out1 := true }
  else if rail = 8 then modTiers s fun m => { m with out2 := true }
  else if rail = 9 then (List.range 18).foldl (fun s l => if isUp s l then linkDown s l 5 else s) s
  else if rail = 10 ∨ rail = 11 then (if isUp s 18 then linkDown s 18 5 else s)
  else
    let s := if s.boot.safe then s else safeState s 0x5101 recno
    if rail = railIO18 then modLands s fun l => { l with phase := 0 } else s

/-- RAIL_LOSS. Without the always-on supply the whole device stops: nothing of its state is left. -/
def railLoss (rail : Nat) (s : State) : State :=
  if !s.power.good.getLsbD rail then s
  else
    let s := loseContent rail (modPower s fun w => { w with good := w.good &&& ~~~(1#13 <<< rail) })
    if rail = 3 then
      let high := s.boot.resetN
      modBoot (inReset s) fun b => { b with resetN := high }
    else if !(s.power.good.getLsbD 3 && s.boot.resetN) then s
    else
      let (n, s) := recordFault (modPower s fun w => { w with lostRails := w.lostRails ||| (1#13 <<< rail) }) 20 0xff 0xffff 0
        rail 0 [] none
      railReact rail n s

def execRailLoss (rail : Nat) (s : State) : Host.Outcome State Fault Refusal := onWf (.railLoss rail) s (railLoss rail)

/-! ### Start-up phases (15 Table 5) -/

def phaseDone (s : State) (x : Phase) : Bool := decide (x ∈ s.boot.done)

/-- A phase ends: it has not ended before, its condition holds, and the device is not in safe state. -/
def phaseEnd (x : Phase) (needs : List Phase) (ok : State → Bool) (f : State → State) (s : State) : State :=
  if !s.boot.safe && !phaseDone s x && needs.all (phaseDone s) && ok s then
    f (modBoot s fun b => { b with done := b.done ++ [x] })
  else s

/-- Safe state during start-up: no step runs (15 Table 6). -/
def startFail (s : State) : State := safeState s 0 0

/-- STARTUP_SELF_TEST (phase A): what the tests found; `bad` lists failing cores, 0 and 1 the lockstep pair, 2 the spare. -/
def selfTest (romOk sramOk : Bool) (bad : List Nat) (s : State) : State :=
  let pairBad := ([0, 1].filter fun c => decide (c ∈ bad)).length
  let spareBad := decide (2 ∈ bad)
  if !romOk || !sramOk || decide (2 ≤ pairBad) || (decide (pairBad = 1) && spareBad) then startFail s
  else
    modBoot s fun b =>
      { b with cores := 3 - pairBad - (if spareBad then 1 else 0), spareUsed := decide (pairBad = 1) || spareBad }

def execStartupSelfTest (romOk sramOk : Bool) (badCores : List Nat) (s : State) : Host.Outcome State Fault Refusal :=
  onWf (.startupSelfTest romOk sramOk badCores) s (phaseEnd .a [] (fun _ => true) (selfTest romOk sramOk badCores))

/-- STARTUP_IDENTITY (phase B, R366). -/
def execStartupIdentity (s : State) : Host.Outcome State Fault Refusal :=
  onWf .startupIdentity s (phaseEnd .b [.a] (fun _ => true) fun s => modBoot s fun b => { b with keys := true })

/-- STARTUP_MANAGEMENT (phase C): the ports answer, and each rack manager's 500 ms run from here (log entry 37, DEDUCED). -/
def openPorts (s : State) : State :=
  { s with
    mgmtA := { s.mgmtA with enabled := true, lastMsg := count s }
    mgmtB := { s.mgmtB with enabled := true, lastMsg := count s } }

def execStartupManagement (s : State) : Host.Outcome State Fault Refusal :=
  onWf .startupManagement s (phaseEnd .c [.b] (fun _ => true) openPorts)

/-- The column map of a block row with the given failing segments (03 R34, R35): none when fewer than 64 are left. -/
def mapWithout (die : Nat) (bad : List Nat) : Option (List Nat) :=
  let xs := (List.range 66).filter fun g => decide (g ∉ bad)
  if xs.length < 64 then none else some (if die = 0 then xs.take 64 else xs.drop (xs.length - 64))

/-- Write every block row's map around its failing segments; false when a row has no spare left. -/
def mapAll (bad : List (Nat × Nat × Nat)) (s : State) : Bool × State :=
  (List.range 16).foldl (fun (acc : Bool × State) k =>
    let mine := (bad.filter fun e => decide (e.1 = k / 8 ∧ e.2.1 = k % 8)).map fun e => e.2.2
    let s := mine.foldl (fun s g => markBad s (.segment (k / 8) (k % 8) g)) acc.2
    match mapWithout (k / 8) mine with
    | none => (false, s)
    | some m => (acc.1, modSafety s fun f => { f with maps := tset f.maps k m })) (true, s)

/-- A VE that failed: the die's spare takes its place when it is usable and unused; without one the block is unusable. Numbers
128 and 129 are the spares. -/
def veFailed (s : State) (b : Nat) : State :=
  if 128 ≤ b then markBad (modSafety s fun f => { f with spareVe := f.spareVe &&& ~~~(1#2 <<< (b - 128)) }) (.spareVe (b - 128))
  else if s.safety.spareVe.getLsbD (b / 64) then
    modVe (modSafety s fun f => { f with spareVe := f.spareVe &&& ~~~(1#2 <<< (b / 64)) }) b fun x => { x with spare := true }
  else { markBad s (.ve b) with tele := { s.tele with blockSt := tset s.tele.blockSt b 2 } }

/-- STARTUP_DOMAINS (phase D): 0.75 V requested, every VE in buffer mode with a valid operand cache, segments and VEs that
fail replaced by spares. -/
def domains (badSegs : List (Nat × Nat × Nat)) (badVes : List Nat) (badHelper : Bool) (s : State) : State :=
  if badHelper then startFail s
  else
    let s := modPower s fun w => { w with vcw := 750, vce := 750 }
    let s := { s with ves := (List.range 128).map fun b => (b, { Ve.reset with cacheInit := true }) }
    let spares := badVes.filter fun b => decide (128 ≤ b)
    let s := (spares ++ badVes.filter fun b => decide (b < 128)).foldl veFailed s
    match mapAll badSegs s with
    | (true, s) => s
    | (false, s) => startFail s

def execStartupDomains (badSegs : List (Nat × Nat × Nat)) (badVes : List Nat) (badHelper : Bool) (s : State) :
    Host.Outcome State Fault Refusal :=
  onWf (.startupDomains badSegs badVes badHelper) s
    (phaseEnd .d [.c] (fun s => decide (s.power.good = BitVec.allOnes 13)) (domains badSegs badVes badHelper))

/-! ### Memory (phases H and K; 09 R191 to R200) -/

/-- N1 for the smallest channel capacity, which counts as 32 GB at most (09 R192). -/
def formN1 (cmin : Nat) : Nat := 98 * cmin / (100 * 32768)

/-- W and N2 of the ready devices (09 R193). -/
def formW (n : Nat) : Nat := if 8 ≤ n then 8 else if 4 ≤ n then 4 else if 2 ≤ n then 2 else n

def formN2 (ds : List Cxl) : Nat :=
  match ds with
  | [] => 0
  | d :: r => ds.length * min (r.foldl (fun m x => min m x.bytes) d.bytes) (8000000000000 / ds.length) / frameBytes

/-- Frames of tier 1 once formed. -/
def tier1Frames (s : State) : Nat := if s.tiers.up1 then formN1 s.tiers.cmin else 0

/-- One entry of the retirement list: tier, slot, unit (R365). -/
def retireEntry (s : State) (i : Nat) : Nat × Nat × Nat :=
  let w := leNat (mread s.mem.retire (8 * i) 8)
  (nfld w 62 2, nfld w 54 8, nfld w 0 23)

/-- A listed unit is retired into a page retirement unit, its poison mask zero; entries beyond a slot's page retirement units are counted, and the first
of a slot reported. -/
def retireListed (s : State) (e : Nat × Nat × Nat) : State :=
  let (t, k, u) := e
  let x := slot s t k
  if thas x.retired u ∨ (t = 1 ∧ 8 * tier1Frames s ≤ u) then s
  else if x.spent < pageUnits s t (tier1Frames s) then
    setSlot s t k { x with retired := tset x.retired u 0, spent := x.spent + 1 }
  else
    let s := modBoot (setSlot s t k { x with exhausted := true }) fun b => { b with surplus := b.surplus + 1 }
    if x.exhausted then s else tierEvent s 3 t 0 0xff k 0 0

/-- The accepted retirement list is applied once the memory is trained. -/
def applyRetire (s : State) : State :=
  if s.boot.retireOk && phaseDone s .h then (List.range (s.boot.retireLen / 8)).foldl (fun s i => retireListed s (retireEntry s i)) s
  else s

/-- LPXRATE of the straps (18 Table 4). -/
def lpxRate (s : State) : Nat := bfld s.lands.straps 5 2

/-- Slots take a state. -/
def slotsTo (s : State) (t n : Nat) (ks : List Nat) : State := ks.foldl (fun s k => setSlot s t k { slot s t k with state := n }) s

/-- The largest capacity of a channel that tier 1 uses (09 R192). -/
abbrev channelCap : Nat := 32000000000

/-- Slots of tier 0 that fail: those listed, and those of a stack that trained at no rate (09 R191, R199). -/
def failed0 (rates bad : List Nat) : List Nat :=
  (List.range 256).filter fun k => decide (k ∈ bad ∨ rates.getD (hbmPlace k).1 0 = 0)

/-- Slots of tier 1 that fail: those listed, and those that do not answer where others do. With no answer at all tier 1 is absent
(09 R192, R199). -/
def failed1 (caps bad : List Nat) : List Nat :=
  (List.range 64).filter fun k => decide (k ∈ bad ∨ caps.getD k 0 = 0)

/-- STARTUP_MEMORY (phase H): rates reached by the eight stacks in 0.1 Gbit/s (0: none), failed slots of tier 0 and 1, and the
capacities detected on the 64 channels of tier 1 (0: no device answers). Up to four slots of tier 0 and one of tier 1 are
retired; the home table area and the drawer table are zero and every frame is free. -/
def memoryUp (rates bad0 bad1 caps : List Nat) (s : State) : State :=
  let b0 := failed0 rates bad0
  let absent := caps.all fun c => decide (c = 0)
  let b1 := if absent then [] else failed1 caps bad1
  let live := ((List.range 64).filter fun k => decide (k ∉ b1)).map fun k => min channelCap (caps.getD k 0)
  let c := live.foldl min channelCap
  let s := modTiers s fun m => { m with stackRate := rates, capOver := caps.map fun k => k - c }
  if 4 < b0.length then startFail (slotsTo s 0 2 b0)
  else
    let lpx := decide (absent = false ∧ b1.length ≤ 1 ∧ lpxRate s ≠ 3 ∧ 0 < formN1 c)
    let s := slotsTo (slotsTo s 0 1 b0) 1 (if b1.length ≤ 1 then 1 else 2) b1
    let s := { s with drawers := [], regions := [] }
    applyRetire (modTiers s fun m =>
      { m with
        up0 := true, up1 := lpx, cmin := c, retired0 := b0, retired1 := if lpx then b1 else [], ht := [], frames := [] })

def execStartupMemory (rates bad0 bad1 caps : List Nat) (s : State) : Host.Outcome State Fault Refusal :=
  onWf (.startupMemory rates bad0 bad1 caps) s (phaseEnd .h [.d] (fun _ => true) (memoryUp rates bad0 bad1 caps))

/-- Order of ready devices: by port, lower lanes first. -/
def insertCxl (d : Cxl) : List Cxl → List Cxl
  | [] => [d]
  | e :: r => if 2 * d.port + d.half < 2 * e.port + e.half then d :: e :: r else e :: insertCxl d r

/-- A link that the straps give port `d.port`: two of eight lanes where BIF bifurcates it, else one (18 Table 4). -/
def strapped (s : State) (d : Cxl) : Bool := decide (d.half = 0) || s.lands.straps.getLsbD (7 + d.port)

/-- STARTUP_TIER2 (phase K): the ready devices, on links that the straps give. -/
def tier2Up (ready : List Cxl) (s : State) : State :=
  let ds := (ready.filter (strapped s)).foldl (fun l d => insertCxl d l) []
  modTiers s fun m =>
    { m with up2 := true, cxl := ds.take (formW ds.length), cxlUnused := ds.length - formW ds.length }

def execStartupTier2 (ready : List Cxl) (s : State) : Host.Outcome State Fault Refusal :=
  onWf (.startupTier2 ready) s (phaseEnd .k [.d] (fun _ => true) (tier2Up ready))

/-! ### The Iberaine port and the boot exchange (phases E, F, G) -/

/-- STARTUP_IBERAINE: negotiation begins at LIGHT; the phase ends when the port is up. -/
def iberaineStart (s : State) : State :=
  if (link s 18).st = .down ∧ s.boot.safe = false ∧ phaseDone s .b then
    modLink s 18 fun x => { x with st := .light, since := count s }
  else phaseEnd .e [.b] iberaineUp id s

def execStartupIberaine (s : State) : Host.Outcome State Fault Refusal := onWf .startupIberaine s iberaineStart

/-- BOOT_EXCHANGE_HELLO: the identity report up to the end of CERT, unsigned (R361). -/
def helloSend (s : State) : State :=
  if phaseDone s .e && !s.boot.hello && !s.boot.ready && !s.boot.safe then
    send (modBoot s fun b => { b with hello := true }) 0 (.boot 1 (identityBody s (zeros 32)))
  else s

def execBootExchangeHello (s : State) : Host.Outcome State Fault Refusal := onWf .bootExchangeHello s helloSend

/-- The TM takes a boot packet of one type before READY (R360). -/
def bootPacket (btype : Nat) (pkt : List Byte) (f : State → State) (s : State) : State :=
  if portOpen s 0 && !s.boot.ready && isBoot pkt && decide (bootType pkt = btype) then f (takeMessage s iberaineStream pkt) else s

def piece (pkt : List Byte) : Nat × Nat := (bootOff pkt, bootLen pkt)

/-- BOOT_IMAGE_PIECE. The image is judged anew at the next START, unless its code runs already. -/
def imagePiece (pkt : List Byte) (s : State) : State :=
  if phaseDone s .l then s
  else
    let s := { s with mem := { s.mem with image := mwrite s.mem.image (bootOff pkt) (pkt.drop 16) } }
    modBoot s fun b =>
      { b with
        imageGot := b.imageGot ++ [piece pkt], imageOk := false, svn := 0, sfDigest := zeros 32
        done := b.done.filter fun x => decide (x ≠ .g) }

def execBootImagePiece (pkt : List Byte) (s : State) : Host.Outcome State Fault Refusal :=
  onWf (.bootImagePiece pkt) s (bootPacket 3 pkt (imagePiece pkt))

/-- Phase J has begun: an enabled link has left the state in which reset put it. -/
def fabricBegun (s : State) : Bool := phaseDone s .j || (List.range 18).any fun l => decide ((link s l).st ≠ .down)

/-- BOOT_FABCFG_PIECE. A record that phase J uses already holds until the next start-up (14 R326). -/
def fabcfgPiece (pkt : List Byte) (s : State) : State :=
  if fabricBegun s then s
  else
    let s := { s with mem := { s.mem with fabcfg := mwrite s.mem.fabcfg (bootOff pkt) (pkt.drop 16) } }
    let s := modFabric s fun f => { f with accepted := false, chip := 0, ents := [], routes := [] }
    modBoot s fun b => { b with fabGot := b.fabGot ++ [piece pkt], fabOk := false, fabDigest := zeros 32 }

def execBootFabcfgPiece (pkt : List Byte) (s : State) : Host.Outcome State Fault Refusal :=
  onWf (.bootFabcfgPiece pkt) s (bootPacket 4 pkt (fabcfgPiece pkt))

/-- BOOT_RETIRE_PIECE. -/
def retirePiece (pkt : List Byte) (s : State) : State :=
  let s := { s with mem := { s.mem with retire := mwrite s.mem.retire (bootOff pkt) (pkt.drop 16) } }
  modBoot s fun b =>
    { b with
      retireGot := b.retireGot ++ [piece pkt], retireOk := false
      retireLen := max b.retireLen (bootOff pkt + bootLen pkt) }

def execBootRetirePiece (pkt : List Byte) (s : State) : Host.Outcome State Fault Refusal :=
  onWf (.bootRetirePiece pkt) s (bootPacket 5 pkt (retirePiece pkt))

/-- BOOT_START: BLEN is 0; another is a reserved value, discarded and counted. -/
def bootStartIn (pkt : List Byte) (s : State) : State :=
  modBoot s fun b =>
    if bootLen pkt ≠ 0 then { b with bootDisc := b.bootDisc + 1 }
    else { b with start := true, startAt := count s, done := if Phase.f ∈ b.done then b.done else b.done ++ [.f] }

def execBootStart (pkt : List Byte) (s : State) : Host.Outcome State Fault Refusal :=
  onWf (.bootStart pkt) s (bootPacket 7 pkt (bootStartIn pkt))

/-- How far pieces reach from offset 0 without a gap. -/
def reach (got : List (Nat × Nat)) : Nat → Nat → Nat
  | 0, r => r
  | k + 1, r => reach got k (got.foldl (fun r e => if e.1 ≤ r then max r (e.1 + e.2) else r) r)

/-- Pieces cover the first `n` bytes of their object. -/
def covers (got : List (Nat × Nat)) (n : Nat) : Bool := decide (n ≤ reach got got.length 0)

/-! #### The image (R362, R363) -/

/-- Field of the image header. -/
def imgF (s : State) (o n : Nat) : Nat := leNat (mread s.mem.image o n)

def imgCode (s : State) : Nat := imgF s 8 4
def imgData (s : State) : Nat := imgF s 12 4
def imgBss (s : State) : Nat := imgF s 16 4

/-- The body in plain, decrypted when ENC is 1. -/
def imgBody (s : State) : List Byte :=
  let n := imgCode s + imgData s
  let body := mread s.mem.image 0x140 n
  if imgF s 0xa0 1 = 1 then
    pad n (Config.sm4Ctr (Config.sm2Unwrap (mread s.mem.image 0xc0 113)) (mread s.mem.image 0xb0 16) body)
  else body

/-- A reserved value of the header, or a length over its limit. -/
def imgHeaderBad (s : State) : Bool :=
  decide (imgF s 0 1 ≠ 1 ∨ 3 < imgF s 2 1 ∨ 1 < imgF s 0xa0 1) ||
    decide (imgCode s % 64 ≠ 0 ∨ imgData s % 64 ≠ 0 ∨ 4194304 < imgCode s ∨ 1048576 < imgData s + imgBss s)

/-- STATUS cause of the image, 0 when it passes. -/
def imageCause (s : State) : Nat :=
  if !covers s.boot.imageGot 0x140 then 1
  else if imgHeaderBad s then 2
  else if !covers s.boot.imageGot (0x140 + imgCode s + imgData s) then 1
  else if s.boot.revoked.getLsbD (imgF s 2 1) ∨ imgF s 4 4 < s.boot.svnMin then 3
  else if pad 32 (Config.sm3 (mread s.mem.image 0 0x40 ++ imgBody s)) ≠ mread s.mem.image 0x40 32 then 4
  else if !Config.sm2Verify (imgF s 2 1) (mread s.mem.image 0x40 32) (mread s.mem.image 0x60 64) then 5
  else 0

/-! #### The fabric record (14 R326, R327) -/

def fabF (s : State) (o n : Nat) : Nat := leNat (mread s.mem.fabcfg o n)

/-- Link entry `i` (14 Table 6). -/
def linkEnt (s : State) (i : Nat) : LinkEnt :=
  let w := fabF s (0x10 + 8 * i) 8
  { en := decide (nfld w 63 1 = 1), glb := decide (nfld w 62 1 = 1), port := nfld w 54 5, maxr := nfld w 52 2
    pchip := nfld w 34 14, plink := nfld w 29 5 }

/-- The record holds a reserved value, or links of one port differ in PCHIP or GLB. -/
def fabBad (s : State) : Bool :=
  let es := (List.range 18).map (linkEnt s)
  decide (fabF s 0 1 ≠ 1) || (es.any fun e => decide (17 < e.port ∨ e.maxr = 3 ∨ 17 < e.plink)) ||
    es.any fun e => e.en && es.any fun d => d.en && decide (d.port = e.port ∧ (d.pchip ≠ e.pchip ∨ d.glb ≠ e.glb))

def fabCause (s : State) : Nat := if covers s.boot.fabGot 65792 && !fabBad s then 0 else 6

/-- Route entries with V = 1, from the bytes of the record that are not zero. -/
def routesOf (s : State) : Tab (BitVec 18) :=
  s.mem.fabcfg.filterMap fun c =>
    if 0x100 ≤ c.1 ∧ c.1 < 65792 ∧ c.1 % 4 = 3 ∧ c.2.getLsbD 7 then
      some ((c.1 - 0x100) / 4, BitVec.ofNat 18 (fabF s (c.1 - 3) 4))
    else none

/-- The record is accepted. -/
def fabAccept (s : State) : State :=
  let s := modFabric s fun f =>
    { f with accepted := true, chip := nfld (fabF s 2 2) 0 14, ents := (List.range 18).map (linkEnt s), routes := routesOf s }
  modBoot s fun b => { b with fabOk := true, fabDigest := Config.sm3 (mread s.mem.fabcfg 0 65792) }

/-! #### The retirement list (R365) -/

/-- The entry's tier, slot and unit exist; before the memory is trained, tier 1 is taken at its largest. -/
def entryOk (s : State) (e : Nat × Nat × Nat) : Bool :=
  let n1 := if phaseDone s .h then tier1Frames s else formN1 32000000000
  decide ((e.1 = 0 ∧ e.2.2 < 532836) ∨ (e.1 = 1 ∧ e.2.1 < 64 ∧ e.2.2 < 8 * n1))

def retireCause (s : State) : Nat :=
  let n := s.boot.retireLen
  if covers s.boot.retireGot n && decide (n % 8 = 0 ∧ n ≤ 524288) &&
      (List.range (n / 8)).all fun i => entryOk s (retireEntry s i) then 0 else 7

/-! #### Verification (phase G) -/

/-- The image is judged: accepted, or discarded. -/
def judgeImage (s : State) : Nat × State :=
  if s.boot.imageOk then (0, s)
  else
    match imageCause s with
    | 0 => (0, modBoot s fun b => { b with imageOk := true, svn := imgF s 4 4, sfDigest := mread s.mem.image 0x40 32 })
    | c => (c, modBoot { s with mem := { s.mem with image := [] } } fun b => { b with imageGot := [] })

def judgeFab (s : State) : Nat × State :=
  if s.boot.fabOk then (0, s)
  else
    match fabCause s with
    | 0 => (0, fabAccept s)
    | c => (c, modBoot { s with mem := { s.mem with fabcfg := [] } } fun b => { b with fabGot := [] })

def judgeRetire (s : State) : Nat × State :=
  if s.boot.retireOk then (0, s)
  else
    match retireCause s with
    | 0 => (0, applyRetire (modBoot s fun b => { b with retireOk := true }))
    | c => (c, modBoot { s with mem := { s.mem with retire := [] } } fun b => { b with retireGot := [], retireLen := 0 })

/-- STARTUP_VERIFICATION: the objects not accepted before are judged, and STATUS gives the lowest cause. -/
def verifyBoot (s : State) : State :=
  if !s.boot.start || s.boot.safe || s.boot.ready then s
  else
    let (a, s) := judgeImage s
    let (b, s) := judgeFab s
    let (c, s) := judgeRetire s
    let cause := if a ≠ 0 then a else if b ≠ 0 then b else c
    let s := modBoot s fun x =>
      { x with start := false, done := if cause = 0 ∧ Phase.g ∉ x.done then x.done ++ [.g] else x.done }
    send s 0 (.boot 6 (leBytes 4 cause))

def execStartupVerification (s : State) : Host.Outcome State Fault Refusal := onWf .startupVerification s verifyBoot

/-! ### Fabric, firmware, ready (phases J, L, M) -/

def enabledLinks (s : State) : List Nat := (List.range 18).filter fun l => (s.fabric.ents[l]?).elim false fun e => e.en

/-- A link has come up, or is reported down. -/
def linkSettled (s : State) (l : Nat) : Bool := decide ((link s l).st = .up ∨ (link s l).st = .failed)

/-- STARTUP_FABRIC: enabled links begin training at SIDEBAND; the phase ends when each is up or reported down, and the
multi-role lands take their run roles (18 R429). -/
def fabricPhase (s : State) : State :=
  let ls := enabledLinks s
  let fresh := ls.filter fun l => decide ((link s l).st = .down)
  if s.boot.safe ∨ !phaseDone s .d ∨ !s.fabric.accepted ∨ s.lands.phase ≠ 1 then s
  else if fresh ≠ [] then fresh.foldl (fun s l => modLink s l fun x => { x with st := .sideband, since := count s }) s
  else
    phaseEnd .j [.d] (fun s => ls.all (linkSettled s)) (fun s => modLands s fun l => { l with phase := 2 }) s

def execStartupFabric (s : State) : Host.Outcome State Fault Refusal := onWf .startupFabric s fabricPhase

/-- The fused minimum after the verified image (R364). -/
def raiseSvn (s : State) : State :=
  if imgF s 1 1 % 2 = 1 ∧ s.boot.svnMin < s.boot.svn ∧ s.boot.raises < 64 then
    modBoot s fun b => { b with svnMin := b.svn, raises := b.raises + 1 }
  else s

/-- STARTUP_SERVICE_FIRMWARE (phase L): code, data and zeroed data in their regions of the control SRAM. -/
def loadFirmware (s : State) : State :=
  let s := raiseSvn s
  let body := imgBody s
  let n := imgCode s
  let s := { s with mem := { s.mem with
    sram := mwrite (mwrite (mzero s.mem.sram 0x500000 (imgData s + imgBss s)) 0x100000 (body.take n)) 0x500000 (body.drop n) } }
  modBoot s fun b => { b with sfRunning := true }

def execStartupServiceFirmware (s : State) : Host.Outcome State Fault Refusal :=
  onWf .startupServiceFirmware s (phaseEnd .l [.g, .h] (fun _ => true) loadFirmware)

/-- STARTUP_READY (phase M): tiers 1 and 2 are formed, READY goes to C, A and B. -/
def readyNow (s : State) : State :=
  let s := modTiers s fun m => { m with n1 := tier1Frames s, n2 := if m.up2 then formN2 m.cxl else 0 }
  let s := modBoot s fun b => { b with ready := true, recovery := false }
  let s := modSafety s fun f => { f with bistSince := count s }
  event s [0, 1, 2] 0xe010 (teleRecord s 0xff 0)

def execStartupReady (s : State) : Host.Outcome State Fault Refusal :=
  onWf .startupReady s (phaseEnd .m [.j, .k, .l] (fun _ => true) readyNow)

/-! ### Control recovery (15 R350, R351) -/

/-- LOCKSTEP_DIVERGENCE: both cores stop, the running step of every partition ends (kind 18). -/
def divergence (s : State) : State :=
  if phaseDone s .a && !s.boot.stopped && !s.boot.safe then
    modBoot (everyStepFault s 18 0 [] none) fun b => { b with stopped := true, recovery := true }
  else s

def execLockstepDivergence (s : State) : Host.Outcome State Fault Refusal := onWf .lockstepDivergence s divergence

/-- The SF code region gives the digest verified at start-up, with the header and the initialised data of the image. -/
def sfIntact (s : State) : Bool :=
  decide (pad 32 (Config.sm3 (mread s.mem.image 0 0x40 ++ mread s.mem.sram 0x100000 (imgCode s) ++ (imgBody s).drop (imgCode s))) =
    pad 32 s.boot.sfDigest)

/-- The SF is discarded, and the device waits for a new image as in start-up. -/
def discardSf (s : State) : State :=
  modBoot { s with mem := { s.mem with image := [] } } fun b =>
    { b with
      ready := false, sfRunning := false, imageOk := false, imageGot := [], svn := 0, sfDigest := zeros 32
      done := b.done.filter fun x => decide (x ≠ .g ∧ x ≠ .l ∧ x ≠ .m) }

/-- A VE enters buffer mode as recovery orders (07 R162). -/
def recoverVes (s : State) (p : Nat) : State := (blocksOf (part s p)).foldl enterBuffer s

/-- CONTROL_RECOVERY: the tests of the two cores have ended. -/
def recovery (failA failB : Bool) (s : State) : State :=
  if !s.boot.stopped || s.boot.safe then s
  else
    let one := failA != failB
    if (failA && failB) || (one && s.boot.spareUsed) then safeState s 0x5101 0
    else
      let s := modBoot s fun b =>
        { b with stopped := false, cores := if one then b.cores - 1 else b.cores, spareUsed := b.spareUsed || one }
      let s :=
        if s.boot.sfRunning ∧ sfIntact s = false then discardSf s else modBoot s fun b => { b with recovery := false }
      ((List.range 16).filter (isPrimary s)).foldl (fun s p => recoverVes (partitionReset s p none 0x3005) p) s

def execControlRecovery (failA failB : Bool) (s : State) : Host.Outcome State Fault Refusal :=
  onWf (.controlRecovery failA failB) s (recovery failA failB)

/-! ### Telemetry (15 R368) -/

/-- The margin code of a block: the least of its nine points (16 R387); 0xffff when none is measured. -/
def blockMargin (s : State) (b : Nat) : Nat :=
  let mine (u : BistUnit) : Bool :=
    match u with
    | .ve c => decide (c = b)
    | .segment d r g =>
      decide (d = b / 64 ∧ r = b % 8) && (List.range 8).any fun i => decide (physSeg s (8 * (b / 8) + i) r = g)
    | _ => false
  (s.safety.wear.filter fun e => mine e.1).foldl (fun m e => min m e.2.1) 0xffff

/-- TELEMETRY_RENEWAL: die temperatures in 1/16 degree; per block its stage time in ps and its temperature. -/
def teleRenew (west east : Int) (blocks : List (Nat × Nat × Int)) (s : State) : State :=
  { s with tele :=
    { s.tele with
      renewed := count s, west := west, east := east
      stagePs := blocks.foldl (fun m e => tset m e.1 e.2.1) s.tele.stagePs
      temp := blocks.foldl (fun m e => tset m e.1 e.2.2) s.tele.temp
      wear := (List.range 128).foldl (fun m b => tset m b (blockMargin s b)) s.tele.wear } }

def execTelemetryRenewal (west east : Int) (blocks : List (Nat × Nat × Int)) (s : State) : Host.Outcome State Fault Refusal :=
  onWf (.telemetryRenewal west east blocks) s (teleRenew west east blocks)

end Sys2Proof.Machine
end

