-- ==== Sys2Proof/Machine/Ports.lean ====
section
/-! DEFINITION. The management ports (14 R346 to R348) and the negotiation of the Iberaine port (15 R359).
Readings of the spec: log entries 38, 39. -/

namespace Sys2Proof.Machine

/-! ### I3C addresses and MCTP control messages -/

/-- A management port answers (15 R356 phase C, 16 R379). -/
def portAnswers (s : State) (port : Nat) : Bool := portOpen s port && (mgmtOf s port).enabled

def modMgmt (s : State) (m : Nat) (f : Mgmt → Mgmt) : State := setMgmt s m (f (mgmtOf s m))

/-- ENTDAA: a target without a dynamic address takes the one assigned. -/
def execEntdaa (port addr : Nat) (s : State) : Host.Outcome State Fault Refusal :=
  onWf (.entdaa port addr) s fun s =>
    if portAnswers s port ∧ (mgmtOf s port).dynAddr = none then modMgmt s port fun x => { x with dynAddr := some addr } else s

/-- Static address of both ports: 0x10 + SLOT (18 Table 4). -/
def staticAddr (s : State) : Nat := 0x10 + bfld s.lands.straps 0 4

/-- SETDASA. -/
def execSetdasa (port static addr : Nat) (s : State) : Host.Outcome State Fault Refusal :=
  onWf (.setdasa port static addr) s fun s =>
    if portAnswers s port ∧ static = staticAddr s ∧ (mgmtOf s port).dynAddr = none then
      modMgmt s port fun x => { x with dynAddr := some addr }
    else s

/-- A control message reaches its port: it counts as a message of the manager, and is answered (log entry 38, PRESUMED). -/
def mctpRow (port : Nat) (f : State → State × Nat × Nat × List Byte) (s : State) : State :=
  if portAnswers s port then
    let (t, code, completion, body) := f (managerSeen s port)
    send t port (.mctp code completion body)
  else s

/-- SET_ENDPOINT_ID: operations 0 and 1 take an endpoint id other than 0 and 0xff; any other is invalid data. -/
def setEid (port op eid : Nat) (s : State) : State × Nat × Nat × List Byte :=
  if op ≤ 1 ∧ eid ≠ 0 ∧ eid ≠ 255 then
    (modMgmt s port fun x => { x with eid := eid }, 1, 0, leBytes 1 0 ++ leBytes 1 eid ++ leBytes 1 0)
  else (s, 1, 2, [])

def execSetEndpointId (port op eid : Nat) (s : State) : Host.Outcome State Fault Refusal :=
  onWf (.setEndpointId port op eid) s (mctpRow port (setEid port op eid))

/-- GET_ENDPOINT_ID: the id, a simple endpoint with a dynamic id, nothing specific to the medium. -/
def execGetEndpointId (port : Nat) (s : State) : Host.Outcome State Fault Refusal :=
  onWf (.getEndpointId port) s (mctpRow port fun s => (s, 2, 0, leBytes 1 (mgmtOf s port).eid ++ zeros 2))

/-- Message types: 0x00 control, 0x7f vendor-defined, 0xff the base specification. -/
def knownType (t : Nat) : Bool := decide (t = 0 ∨ t = 0x7f ∨ t = 0xff)

/-- GET_MCTP_VERSION_SUPPORT. -/
def execGetMctpVersionSupport (port msgType : Nat) (s : State) : Host.Outcome State Fault Refusal :=
  onWf (.getMctpVersionSupport port msgType) s (mctpRow port fun s =>
    if knownType msgType then
      let v := Config.mctpVersions msgType
      (s, 4, 0, leBytes 1 (v.length / 4) ++ v)
    else (s, 4, 0x80, []))

/-- GET_MESSAGE_TYPE_SUPPORT: one type beside control, 0x7f. -/
def execGetMessageTypeSupport (port : Nat) (s : State) : Host.Outcome State Fault Refusal :=
  onWf (.getMessageTypeSupport port) s (mctpRow port fun s => (s, 5, 0, leBytes 1 1 ++ leBytes 1 0x7f))

/-- MCTP_UNSUPPORTED_CONTROL: any other command code is answered with completion code 5, unsupported. -/
def execMctpUnsupportedControl (port code : Nat) (s : State) : Host.Outcome State Fault Refusal :=
  onWf (.mctpUnsupportedControl port code) s fun s =>
    if code ∈ [1, 2, 4, 5] then s else mctpRow port (fun s => (s, code, 5, [])) s

/-- RACK_MANAGER_LOST: 500 ms without a valid message (R348). -/
def managerLost (m : Nat) (s : State) : State :=
  let x := mgmtOf s m
  if x.enabled ∧ !x.lost ∧ x.lastMsg + 12500000 ≤ count s then
    event (setMgmt s m { x with lost := true, lostAt := count s }) [0, 3 - m] 0xe403
      (leBytes 1 m ++ zeros 7 ++ leBytes 8 x.lastMsg)
  else s

def execRackManagerLost (m : Nat) (s : State) : Host.Outcome State Fault Refusal :=
  onWf (.rackManagerLost m) s (managerLost m)

/-! ### Iberaine negotiation (15 Table 7) -/

/-- Limit of a state in counts; LIGHT waits for light. -/
def iberaineLimit (st : LinkState) : Option Nat :=
  match st with
  | .power | .rate => some 250000
  | .lane => some 125000
  | .version | .activate => some 25000
  | _ => none

/-- Lanes of three that a mask names. -/
def threeLanes (m : BitVec 5) : List Nat := (List.range 3).filter m.getLsbD

/-- Width, rate code, lanes and spare for lanes good at 100 Gbit/s, or at 50 Gbit/s (rate code 3, log entry 39, PRESUMED): the two
lowest-numbered good lanes are active and the third is spare. -/
def iberaineChoice (at100 at50 : List Nat) : Option (Nat × Nat × List Nat × Nat) :=
  match at100, at50 with
  | a :: b :: r, _ => some (2, 2, [a, b], (r.head?).getD 5)
  | _, a :: b :: r => some (2, 3, [a, b], (r.head?).getD 5)
  | _, [a] => some (1, 3, [a], 5)
  | _, [] => none

/-- No common protocol version: the port stays down, and LIGHT restarts after 1 s. -/
def noVersion (s : State) : State :=
  let s := modLink s 18 fun x => { x with st := .failed, since := count s }
  iberaineEvent (modFabric s fun f => { f with versionFail := true, lightAt := count s }) [1, 2] 3 0

/-- IBERAINE_STATE_PASS: the present state has found `info` within its limit. The transmitters need VDD_OE and VDD_LAS. -/
def iberainePass (info : TrainInfo) (s : State) : State :=
  let x := link s 18
  let inTime := (iberaineLimit x.st).elim true fun n => decide (count s < x.since + n)
  let good (i : Nat) : List Nat := threeLanes ((info.good[i]?).getD 0)
  if !inTime || !(s.power.good.getLsbD 10 && s.power.good.getLsbD 11) then s
  else
    match x.st with
    | .light => if 2 ≤ (threeLanes info.lanes).length then toState s 18 .power id else s
    | .power => if info.pass then toState s 18 .lane id else s
    | .lane => toState s 18 .rate fun x => { x with goods := [(2, (info.good[0]?).getD 0)] }
    | .rate =>
      match iberaineChoice (threeLanes ((x.goods[0]?).elim 0 fun g => g.2)) (good 1) with
      | none => s
      | some (w, r, ls, sp) => toState s 18 .version fun x => { x with width := w, rate := r, lanes := ls, spare := sp }
    | .version => if Nat.testBit info.versions 1 then enterActivate s 18 else noVersion s
    | _ => s

def execIberaineStatePass (info : TrainInfo) (s : State) : Host.Outcome State Fault Refusal :=
  onWf (.iberaineStatePass info) s (iberainePass info)

/-- IBERAINE_STATE_LIMIT: the port trains again from LIGHT. -/
def iberaineOver (s : State) : State :=
  let x := link s 18
  match iberaineLimit x.st with
  | none => s
  | some n => if x.since + n ≤ count s then toState s 18 .light id else s

def execIberaineStateLimit (s : State) : Host.Outcome State Fault Refusal := onWf .iberaineStateLimit s iberaineOver

/-- IBERAINE_LIGHT_RETRY: 1 s after a version failure. -/
def lightRetry (s : State) : State :=
  if s.fabric.versionFail ∧ s.fabric.lightAt + 25000000 ≤ count s then
    toState (modFabric s fun f => { f with versionFail := false }) 18 .light id
  else s

def execIberaineLightRetry (s : State) : Host.Outcome State Fault Refusal := onWf .iberaineLightRetry s lightRetry

end Sys2Proof.Machine
end

