-- ==== Sys2Proof/Machine/Remote.lean ====
section
/-! DEFINITION. Remote operations at their target and their responses at the source (14 R335 to R339; 13 R302).
Readings of the spec: log entry 50. -/

namespace Sys2Proof.Machine

/-- The source (chip, partition) is a member of the destination's expert group (13 Table 4, 08 R177). -/
def remoteSource (x : Part) (t : Txn) : Bool :=
  match activeModel x with
  | none => false
  | some m => decide ((t.schip, t.srcPart) ∈ m.group)

/-- Bytes that a request touches at its address. -/
def reqBytes (t : Txn) : Nat := if t.ttype = 3 then atomSize t.aop else t.len

/-- The request's target lies within what the destination partition may be asked for (R335): ranges of tiers 0 to 2,
those with RO = 1 for reads alone, or the grain range in the mutable window. -/
def targetOk (s : State) (t : Txn) : Bool :=
  let x := part s t.dstPart
  let o := gOff t.addr.toNat
  let g := winGrain o
  if gTierOf t.addr.toNat < 3 then bytesInRanges x (gTierOf t.addr.toNat) o (reqBytes t) (decide (t.ttype = 1))
  else inWindow o && ownsGrain x g && (!(ht s g).v || decide ((ht s g).part = t.dstPart))

/-- The checks of the fabric ingress (R335, 13 Table 4). -/
def remoteAllowed (s : State) (t : Txn) : Bool :=
  defined s t.dstPart && remoteSource (part s t.dstPart) t && decide (gChip t.addr.toNat = s.fabric.chip) && targetOk s t

/-- An earlier request of the stream to the same 4 KiB unit is open (R336, point 2). -/
def sameUnitOpen (s : State) (t : Txn) : Bool :=
  s.fabric.remoteOpen.any fun u => decide (streamKey u = streamKey t ∧ u.addr.toNat / 4096 = t.addr.toNat / 4096)

def refuseRemote (s : State) (t : Txn) : State := isolation s t.dstPart 5 t.schip t.srcPart t.addr.toNat

/-- An admitted READ, WRITE or ATOMIC is served as a local access of its destination partition; what the home table says
of its grain comes when an engine issues it (09 R207). -/
def serveRemote (s : State) (t : Txn) : State :=
  let a := t.addr.toNat
  let write := decide (t.ttype ≠ 1)
  let data := if t.ttype = 2 then t.data else []
  pend (modFabric s fun f => { f with remoteOpen := f.remoteOpen ++ [t] })
    (mkTransfer t.dstPart (gTierOf a) write (gOff a) (reqBytes t) (decide (gTierOf a = 3)) data .none (.remote t))

/-- A request at the ingress: while an earlier one of its stream to the same unit is open it waits. When the two copies
of the range checker disagree it is refused and recorded (16 R374). -/
def remoteAccess (t : Txn) (ttype : Nat) (agree : Bool) (s : State) : State :=
  if sameUnitOpen s t then s
  else
    takeTxn t ttype (fun s =>
      if !agree then refuseChecked s t
      else if remoteAllowed s t then serveRemote s t
      else refuseRemote s t) s

/-- REMOTE_READ. -/
def execRemoteRead (t : Txn) (agree : Bool) (s : State) : Host.Outcome State Fault Refusal :=
  onWf (.remoteRead t agree) s (remoteAccess t 1 agree)

/-- REMOTE_WRITE. -/
def execRemoteWrite (t : Txn) (agree : Bool) (s : State) : Host.Outcome State Fault Refusal :=
  onWf (.remoteWrite t agree) s (remoteAccess t 2 agree)

/-- REMOTE_ATOMIC (R337). -/
def execRemoteAtomic (t : Txn) (agree : Bool) (s : State) : Host.Outcome State Fault Refusal :=
  onWf (.remoteAtomic t agree) s (remoteAccess t 3 agree)

/-- REMOTE_FENCE: it completes when no earlier request of its stream is open (R336, point 4). -/
def remoteFence (t : Txn) (s : State) : State :=
  if s.fabric.remoteOpen.any fun u => decide (streamKey u = streamKey t) then s
  else
    takeTxn t 4 (fun s =>
      if defined s t.dstPart && remoteSource (part s t.dstPart) t then answerTxn s t 0 [] else refuseRemote s t) s

def execRemoteFence (t : Txn) (s : State) : Host.Outcome State Fault Refusal := onWf (.remoteFence t) s (remoteFence t)

/-! ### Responses -/

/-- The response answers this request: its TID, stream, chips and partitions exchanged (R332, R336). -/
def answers (t q : Txn) : Bool :=
  decide (t.ttype = q.ttype + 0x80 ∧ t.tid = q.tid ∧ t.strm = q.strm ∧ t.schip = q.dchip ∧ t.dchip = q.schip ∧
    t.srcPart = q.dstPart ∧ t.dstPart = q.srcPart)

/-- The outstanding transfer that a response answers, if its limit has not passed (R338). -/
def answered (s : State) (t : Txn) : Option Transfer :=
  s.tiers.transfers.find? fun x =>
    (match x.purpose with
      | .outward _ _ _ q => answers t q
      | _ => false) &&
      x.issued.elim false fun c => decide (count s < c + limitOf x)

/-- A response completes its transfer; one that finds none, or comes too late, is discarded. A read's data have the
length asked for, or the response is one with a LEN that Table 8 does not allow. -/
def responseIn (t : Txn) (s : State) : State :=
  match answered s t with
  | none => s
  | some x =>
    if t.ttype = 0x81 ∧ t.status = 0 ∧ t.len ≠ x.len then modFabric s fun f => { f with discarded := f.discarded + 1 }
    else
      finishTransfer (dropTransfer s x.id) x t.status t.data

/-- READ_RSP. -/
def execReadRsp (t : Txn) (s : State) : Host.Outcome State Fault Refusal :=
  onWf (.readRsp t) s (takeTxn t 0x81 (responseIn t))

/-- WRITE_CPL. -/
def execWriteCpl (t : Txn) (s : State) : Host.Outcome State Fault Refusal :=
  onWf (.writeCpl t) s (takeTxn t 0x82 (responseIn t))

/-- ATOMIC_RSP. -/
def execAtomicRsp (t : Txn) (s : State) : Host.Outcome State Fault Refusal :=
  onWf (.atomicRsp t) s (takeTxn t 0x83 (responseIn t))

/-- FENCE_CPL. -/
def execFenceCpl (t : Txn) (s : State) : Host.Outcome State Fault Refusal :=
  onWf (.fenceCpl t) s (takeTxn t 0x84 (responseIn t))

end Sys2Proof.Machine
end

