-- ==== Sys2Proof/Machine/Routing.lean ====
section
/-! DEFINITION. Expert selection, capacity fill, counts and dispatch (07 R154; 08 R165 to R175, R178 to R182).
Readings of the spec: log entry 63. -/

namespace Sys2Proof.Machine

/-! ### The parameter block (08 Table 1) -/

def rtWord (x : Ve) (a : Nat) : W32 := tget 0 x.cache (a % 65536)
def putWord (x : Ve) (a : Nat) (w : W32) : Ve := { x with cache := tset x.cache (a % 65536) w }

/-- The seven words at sA. -/
def rtBlock (x : Ve) (w : W64) : List W32 := (List.range 7).map fun i => rtWord x ((sr x (iA w)).toNat + i)

def rtMode (ps : List W32) : Nat := bfld (ps.getD 0 0) 30 2
def rtK2 (ps : List W32) : Bool := (ps.getD 0 0).getLsbD 29
def rtSoft (ps : List W32) : Bool := (ps.getD 0 0).getLsbD 28
def rtExperts (ps : List W32) : Nat := bfld (ps.getD 0 0) 16 10 + 1
def rtCap (ps : List W32) : Nat := bfld (ps.getD 0 0) 0 12
def rtP0 (ps : List W32) : Nat := bfld (ps.getD 1 0) 16 16
def rtNp (ps : List W32) : Nat := bfld (ps.getD 1 0) 0 16
/-- SCORE, BIAS, FILL, REC, LAYER: words 2 to 6. -/
def rtField (ps : List W32) (i : Nat) : Nat := bfld (ps.getD i 0) 0 16

/-- No reserved value: K2 with one expert, CAP 0, NP 0, positions beyond 4,096. -/
def rtOk (ps : List W32) : Bool :=
  !(rtK2 ps && decide (rtExperts ps = 1)) &&
    decide (rtCap ps ≠ 0 ∧ rtNp ps ≠ 0 ∧ rtP0 ps ≤ 4095 ∧ rtP0 ps + rtNp ps ≤ 4096)

/-! ### Selection (R166 to R168) -/

/-- Unbiased score of the `j`-th covered position for expert `e`. -/
def rtScore (x : Ve) (ps : List W32) (j e : Nat) : W32 := rtWord x (rtField ps 2 + 64 * cdiv (rtExperts ps) 64 * j + e)

/-- Bias of an expert: an FP16 half of a word. -/
def rtBias (x : Ve) (ps : List W32) (e : Nat) : W32 :=
  rne (operandNum 0x0c (bfld (rtWord x (rtField ps 3 + e / 2)) (16 * (e % 2)) 16))

/-- `a` ranks above `c`: a higher value, or any number above NaN. -/
def ranks (a c : W32) : Bool :=
  match numCmp (num32 a) (num32 c) with
  | some k => decide (0 < k)
  | none => isNan c && !isNan a

/-- The first of the highest biased scores among the experts not excluded. -/
def rankFirst (bs : List (Nat × W32)) : Nat :=
  match bs with
  | [] => 0
  | b :: r => (r.foldl (fun best e => if ranks e.2 best.2 then e else best) b).1

/-- The two choices of a position. -/
def choices (x : Ve) (ps : List W32) (j : Nat) : Nat × Nat :=
  let bs := (List.range (rtExperts ps)).map fun e => (e, fadd (rtScore x ps j e) (rtBias x ps e))
  let e1 := rankFirst bs
  (e1, if rtK2 ps then rankFirst (bs.filter fun b => decide (b.1 ≠ e1)) else 0)

/-- A softmax weight 1 / (1 + exp(other - own)): for finite scores a free choice within 4 ulp of the exact value. -/
def softWeight (own other : W32) : W32 :=
  let free := (Config.veFn 19 own).toNat + (Config.veFn 20 other).toNat
  match numAdd (num32 own) (numNeg (num32 other)) with
  | .nan => rne .nan
  | .inf s => if s then 0 else 0x3f800000#32
  | .fin s m e =>
    let l : Int := if m = 0 then -1000 else (Nat.log2 m : Int) + e
    if m = 0 then withinUlp free 8 fxOne (-513)
    else if 8 ≤ l then (if s then nearZero free false else withinUlp free 8 (fxOne - 1) (-512))
    else let (a, k) := fxSigmoid (fxOf s m e); withinUlp free 8 a k

/-- Combine weights of a position with choices e1 and e2. -/
def weights (x : Ve) (ps : List W32) (j e1 e2 : Nat) : W32 × W32 :=
  let s1 := rtScore x ps j e1
  let s2 := rtScore x ps j e2
  if !rtK2 ps then (if rtSoft ps then 0x3f800000#32 else s1, 0)
  else if rtSoft ps then (softWeight s1 s2, softWeight s2 s1)
  else (s1, s2)

/-! ### Routing records (08 Table 2) -/

def recAt (ps : List W32) (j : Nat) : Nat := rtField ps 5 + 4 * j

/-- A field of a word replaced. -/
def setFld (w : W32) (lo n v : Nat) : W32 :=
  BitVec.ofNat 32 (w.toNat - nfld w.toNat lo n * 2 ^ lo + v % 2 ^ n * 2 ^ lo)

/-- MODE 0 and 1: E1, E2 and the weights, nothing placed. -/
def writeChoice (ps : List W32) (j : Nat) (x : Ve) : Ve :=
  let (e1, e2) := choices x ps j
  let (w1, w2) := weights x ps j e1 e2
  let a := recAt ps j
  let x := putWord x a (BitVec.ofNat 32 (65536 * e2 + e1))
  let x := putWord x (a + 1) 0x0fff0fff#32
  putWord (putWord x (a + 2) w1) (a + 3) w2

/-- The pass of R169 for one position: its expert's next free slot, or dropped. -/
def placeOne (ps : List W32) (second : Bool) (x : Ve) (j : Nat) : Ve :=
  let a := recAt ps j
  let e := if second then bfld (rtWord x a) 16 10 else bfld (rtWord x a) 0 10
  let f := (rtWord x (rtField ps 4 + e)).toNat
  let fits := decide (f < rtCap ps)
  let x := if fits then putWord x (rtField ps 4 + e) (BitVec.ofNat 32 (f + 1)) else x
  let x := putWord x a (setFld (rtWord x a) (if second then 31 else 30) 1 (if fits then 0 else 1))
  putWord x (a + 1) (setFld (rtWord x (a + 1)) (if second then 16 else 0) 12 (if fits then f else 0xfff))

def fillPass (ps : List W32) (second : Bool) (x : Ve) : Ve := (List.range (rtNp ps)).foldl (placeOne ps second) x

/-- A fill that starts at slot 0 clears the fill table. -/
def clearFill (ps : List W32) (x : Ve) : Ve :=
  if rtP0 ps ≠ 0 then x else (List.range (rtExperts ps)).foldl (fun x e => putWord x (rtField ps 4 + e) 0) x

/-- RTSEL on the operand cache (R166 to R171). -/
def rtSelect (ps : List W32) (x : Ve) : Ve :=
  let mode := rtMode ps
  let chosen := if mode ≤ 1 then (List.range (rtNp ps)).foldl (fun x j => writeChoice ps j x) x else x
  let x :=
    if mode = 0 then
      let x := fillPass ps false (clearFill ps chosen)
      if rtK2 ps then fillPass ps true x else x
    else if mode = 2 then fillPass ps false (clearFill ps chosen)
    else if mode = 3 ∧ rtK2 ps then fillPass ps true chosen
    else chosen
  if mode ≤ 1 then
    let word (j : Nat) : W32 := rtWord x (recAt ps j)
    let js := List.range (rtNp ps)
    { x with lastRt :=
        { layer := rtField ps 6, k2 := rtK2 ps, e1 := js.map fun j => bfld (word j) 0 10
          e2 := if rtK2 ps then js.map fun j => bfld (word j) 16 10 else [] } }
  else x

/-! ### What the step keeps (08 R169, R173, R175) -/

/-- The routing of a position as its record gives it. -/
def pickOf (ps : List W32) (b : Nat) (x : Ve) (j : Nat) : Pick :=
  let a := recAt ps j
  let w0 := rtWord x a
  let w1 := rtWord x (a + 1)
  { e1 := bfld w0 0 10, s1 := bfld w1 0 12, d1 := w0.getLsbD 30
    e2 := if rtK2 ps then bfld w0 16 10 else 1024, s2 := bfld w1 16 12, d2 := w0.getLsbD 31, b := b, at_ := a }

/-- The step keeps the positions' routing and their skip bits; the layer counts as routed. MODE 3 under top-1 reads no
record (R170) and changes no routing. -/
def keepPicks (ps : List W32) (b : Nat) (x : Ve) (k : Step) : Step :=
  let layer := rtField ps 6
  let k := { k with routed := if layer ∈ k.routed then k.routed else k.routed ++ [layer] }
  if rtMode ps = 3 ∧ rtK2 ps = false then k
  else (List.range (rtNp ps)).foldl (fun k j =>
    let key := 4096 * layer + rtP0 ps + j
    let q := pickOf ps b x j
    { k with picks := tset k.picks key q, skip := tset k.skip key (q.d1, q.d2) }) k

/-! ### Dispatch (R178 to R182) -/

/-- An expert has no home at dispatch: its entry has V = 0, or a member index not below GSIZE. -/
def homeless (s : State) (m : Model) (layer e : Nat) : Bool :=
  let x := mapEntry s m layer e
  !x.v || decide (m.gsize ≤ x.hmem)

/-- A choice without a home is exactly one that found no capacity: dropped, its slot 0xfff (R178, Table 2). -/
def dropHomeless (s : State) (m : Model) (layer : Nat) (q : Pick) : Pick :=
  let h1 := homeless s m layer q.e1
  let h2 := decide (q.e2 < 1024) && homeless s m layer q.e2
  { q with
    s1 := if h1 then 0xfff else q.s1, d1 := q.d1 || h1
    s2 := if h2 then 0xfff else q.s2, d2 := q.d2 || h2 }

/-- The D bits and slots of a pick in its record. -/
def writeBits (s : State) (q : Pick) : State :=
  modVe s q.b fun x =>
    let w := setFld (rtWord x q.at_) 30 1 (if q.d1 then 1 else 0)
    let x := putWord x q.at_ (if q.e2 < 1024 then setFld w 31 1 (if q.d2 then 1 else 0) else w)
    let v := setFld (rtWord x (q.at_ + 1)) 0 12 q.s1
    putWord x (q.at_ + 1) (if q.e2 < 1024 then setFld v 16 12 q.s2 else v)

/-- Slots of the positions that took expert `e`, in increasing S. -/
def takers (qs : List (Nat × Pick)) (e : Nat) : List Nat :=
  let ss := qs.filterMap fun (t, q) =>
    if q.e1 = e ∧ q.d1 = false then some (q.s1, t)
    else if q.e2 = e ∧ q.d2 = false then some (q.s2, t)
    else none
  (ss.mergeSort fun a c => decide (a.1 ≤ c.1)).map fun e => e.2

/-- `n` bytes of the operand cache from word `a` on, modulo 65,536 words (07 R142). -/
def cacheBytes (x : Ve) (a n : Nat) : List Byte :=
  ((List.range (cdiv n 4)).flatMap fun i => leBytes 4 (rtWord x (a + i)).toNat).take n

/-- The activations of a position, which the routing program keeps in the VE's operand cache: the row of slot t at word
`acts` + t x ceil(RBYTES / 4) (R181; log entry 56, DESIGN CHOICE). -/
def actRow (x : Ve) (l : LayerInfo) (acts t : Nat) : List Byte := cacheBytes x (acts + t * cdiv l.rbytes 4) l.rbytes

/-- Dispatch one expert's rows, in increasing slot S, to its home. -/
def dispatchOne (p b acts : Nat) (k : Step) (m : Model) (l : LayerInfo) (s : State) (e : Nat × List Nat) : State :=
  let home := (mapEntry s m l.layer e.1).hmem
  match m.group[home]? with
  | none => s
  | some (chip, q) =>
    let msg : ExpertMsg :=
      { expertHead s p k 1 l.layer q with
        expert := e.1, nrow := e.2.length, rfmt := l.afmt, rbytes := l.rbytes, rows := e.2.flatMap (actRow (ve s b) l acts) }
    let d : Dispatch := { layer := l.layer, expert := e.1, home := home, ve := b, slots := e.2, returned := false }
    sendExpert (modPart s p fun x => { x with step := x.step.map fun k => { k with dispatches := k.dispatches ++ [d] } })
      chip msg

/-- The partition dispatches a routed layer and closes it to every member. -/
def dispatchLayer (p b layer acts : Nat) (s : State) : State :=
  match (part s p).step, activeModel (part s p) with
  | some k, some m =>
    match m.layers.find? fun l => decide (l.layer = layer) with
    | none => s
    | some l =>
      if k.filters.any fun f => decide (f.layer = layer) then s
      else
        let qs := (k.picks.filter fun e => decide (e.1 / 4096 = layer)).map fun e => (e.1 % 4096, dropHomeless s m layer e.2)
        let keep (k : Step) : Step :=
          qs.foldl (fun k e =>
            { k with picks := tset k.picks (4096 * layer + e.1) e.2
                     skip := tset k.skip (4096 * layer + e.1) (e.2.d1, e.2.d2) }) k
        let s := modPart s p fun x => { x with step := x.step.map keep }
        let s := qs.foldl (fun s e => writeBits s e.2) s
        let es := (List.range l.experts).filterMap fun e => match takers qs e with
          | [] => none
          | ts => some (e, ts)
        let s := es.foldl (dispatchOne p b acts k m l) s
        let sent (i : Nat) : Nat := (es.filter fun e => decide ((mapEntry s m layer e.1).hmem = i)).length
        sendCloses s p k m layer sent
  | _, _ => s

/-! ### The instructions -/

/-- The bias table of a layer that the running step of the VE's partition uses: the one its selector named when the step
began (R174); none outside a step and for a layer that the model does not route. -/
def stepTable (s : State) (b layer : Nat) : Option (List (BitVec 16)) :=
  match partOfBlock s b with
  | none => none
  | some p =>
    match (part s p).step, activeModel (part s p) with
    | some k, some m =>
      match tfind k.sel layer, tfind m.bal layer with
      | some sel, some t => some (if sel then t.biasB else t.biasA)
      | _, _ => none
    | _, _ => none

/-- The bias table that the step uses stands at BIAS for a call that selects (R165, R174; log entry 63, DEDUCED). -/
def placeBias (table : Option (List (BitVec 16))) (ps : List W32) (x : Ve) : Ve :=
  match table with
  | none => x
  | some t =>
    if 1 < rtMode ps then x
    else
      (List.range (cdiv (min t.length (rtExperts ps)) 2)).foldl (fun x i =>
        putWord x (rtField ps 3 + i) ((t.getD (2 * i + 1) 0).append (t.getD (2 * i) 0))) x

/-- RTSEL: `last` when the partition's program dispatches the layer after this call, with the activations at `acts` (log
entries 12, DEDUCED, and 56, DESIGN CHOICE). -/
def routeSelect (b : Nat) (last : Bool) (acts : Nat) (w : W64) (s : State) : Except State (Option State) :=
  let x := ve s b
  let ps := rtBlock x w
  if !scalars [iA w] || !rtOk ps then .error s
  else
    let x := rtSelect ps (placeBias (stepTable s b (rtField ps 6)) ps x)
    let s := setVe s b x
    match partOfBlock s b with
    | none => .ok (some s)
    | some p =>
      let s := applyFailed (modPart s p fun y => { y with step := y.step.map (keepPicks ps b x) }) p
      .ok (some (if last then dispatchLayer p b (rtField ps 6) acts s else s))

def execRtsel (b : Nat) (ecc : Ecc) (last : Bool) (acts : Nat) (s : State) : Host.Outcome State Fault Refusal :=
  onWf (.rtsel b ecc last acts) s (veRead b 0x58 ecc (fun _ _ => true) (routeSelect b last acts))

/-- Add to a saturating counter of the cache. -/
def bump (x : Ve) (a : Nat) : Ve := putWord x a (BitVec.ofNat 32 (sat 32 ((rtWord x a).toNat + 1)))

/-- RTCNT: counts of the last RTSEL in MODE 0 or 1 into the table at sA, and into the step's demand (R175). -/
def routeCount (b : Nat) (w : W64) (s : State) : Except State (Option State) :=
  let x := ve s b
  let a := (sr x (iA w)).toNat
  if !scalars [iA w] then .error s
  else
    let r := x.lastRt
    let x := r.e1.foldl (fun x e => bump x (a + 2 * e)) x
    let x := r.e2.foldl (fun x e => bump x (a + 2 * e + 1)) x
    let add (k : Step) : Step :=
      (r.e1 ++ r.e2).foldl (fun k e =>
        { k with demand := tset k.demand (1024 * r.layer + e) (tget 0 k.demand (1024 * r.layer + e) + 1) }) k
    let s := setVe s b x
    match partOfBlock s b with
    | none => .ok (some s)
    | some p => .ok (some (modPart s p fun y => { y with step := y.step.map add }))

def execRtcnt (b : Nat) (ecc : Ecc) (s : State) : Host.Outcome State Fault Refusal :=
  onWf (.rtcnt b ecc) s (veRead b 0x59 ecc (fun _ _ => true) (routeCount b))

end Sys2Proof.Machine
end

