-- ==== Sys2Proof/Machine/Spares.lean ====
section
/-! DEFINITION. BIST slices, wear gauges, the spare pool and substitution (16 R380 to R395).
Readings of the spec: log entries 40, 48, 49. -/

namespace Sys2Proof.Machine

/-! ### Units -/

/-- A segment is in the live map. -/
def mapped (s : State) (d r g : Nat) : Bool := decide (g ∈ mapOf s d r)

def segBad (s : State) (d r g : Nat) : Bool := decide (1024 * d + 128 * r + g ∈ s.safety.badSegs)

/-- Block that holds a mapped segment. -/
def segBlock (s : State) (d r g : Nat) : Nat := 8 * (8 * d + (mapOf s d r).idxOf g / 8) + r

/-- The slice of Table 4 that tests a unit: live segments and VEs are tested with their block. -/
def sliceOf (s : State) (u : BistUnit) : BistUnit :=
  match u with
  | .segment d r g => if mapped s d r g then .block (segBlock s d r g) else u
  | .ve b => .block b
  | _ => u

/-- The track of a slice: 0 array, 1 lane, 2 memory. -/
def trackOf (u : BistUnit) : Nat :=
  match u with
  | .lane _ _ => 1
  | .tier0 _ | .tier1 _ | .tier2 _ => 2
  | _ => 0

/-- Margin code last read at a unit's point; 0xffff when none. -/
def marginOf (s : State) (u : BistUnit) : Nat := ((s.safety.wear.find? fun e => decide (e.1 = u)).map fun e => e.2.1).getD 0xffff

/-! ### BIST slices (R380 to R385) -/

/-- Core supply in mV and temperature in 1/16 degree of a unit's die; a unit of no one die answers for both. -/
def underTest (s : State) (u : BistUnit) : List (Nat × Int) :=
  let west := (s.power.vcw, s.tele.west)
  let east := (s.power.vce, s.tele.east)
  let die (d : Nat) : Nat × Int := if d = 0 then west else east
  match u with
  | .block b | .ve b => [((die (b / 64)).1, tget 0 s.tele.temp b)]
  | .segment d _ _ | .spareVe d => [die d]
  | .tier0 k => [die (k / 128)]
  | .tier1 k => [die (k / 32)]
  | .control | .lane _ _ | .tier2 _ => [west, east]

/-- Inside the ranges of R380: 0.70 to 0.85 V, 20 to 95 degrees. -/
def inTestRange (s : State) (u : BistUnit) : Bool :=
  (underTest s u).all fun e => decide (700 ≤ e.1 ∧ e.1 ≤ 850 ∧ 320 ≤ e.2 ∧ e.2 ≤ 1520)

/-- The unit can be isolated: a block once its partition is at a step boundary, a segment or spare VE outside the live map,
the spare core, the spare or a retired lane, a slot of a tier. -/
def isolable (s : State) (u : BistUnit) : Bool :=
  match u with
  | .block b => (partOfBlock s b).elim true fun p => (part s p).step.isNone && !prePhase (part s p)
  | .segment d r g => !mapped s d r g
  | .spareVe d => s.safety.spareVe.getLsbD d || s.safety.badSpareVe.getLsbD d
  | .control => !s.boot.spareUsed
  | .lane l n =>
    let x := link s l
    isUp s l && decide (x.swap = none ∧ n ∉ x.lanes) && (decide (x.spare = n) || decide (n ∈ x.retiredLanes)) &&
      decide (x.width = if l = 18 then 2 else 4)
  | .tier0 k => decide (0 < tierFrames s 0 ∧ k < 256)
  | .tier1 k => decide (0 < tierFrames s 1 ∧ k < 64)
  | .tier2 k => decide (0 < tierFrames s 2 ∧ k < s.tiers.cxl.length)
  | .ve _ => false

/-- Number of the sweep of 24 minutes that runs (R381). -/
def sweepNow (s : State) : Nat := (count s - s.safety.bistSince) / 36000000000

/-- Units that a sweep tests (R381, Table 4). -/
def inSweep (s : State) (u : BistUnit) : Bool :=
  match u with
  | .block b => decide (b < 128)
  | .segment d r g => !mapped s d r g && !segBad s d r g
  | .spareVe d => s.safety.spareVe.getLsbD d || s.safety.badSpareVe.getLsbD d
  | .control => !s.boot.spareUsed
  | .lane l n =>
    isUp s l && decide ((link s l).width = if l = 18 then 2 else 4) && decide (n < if l = 18 then 3 else 5)
  | .tier0 k => decide (0 < tierFrames s 0 ∧ k < 256)
  | .tier1 k => decide (0 < tierFrames s 1 ∧ k < 64)
  | .tier2 k => decide (0 < tierFrames s 2 ∧ k < s.tiers.cxl.length)
  | .ve _ => false

/-- The sweep has still to test the unit: it tests every unit once (R381). -/
def toSweep (s : State) (u : BistUnit) : Bool :=
  inSweep s u && !(s.safety.swept.any fun e => decide (e = (u, sweepNow s)))

/-- An unusable unit that a passed retest returns to the spare pool (R383, R395). -/
def mayReturn (s : State) (u : BistUnit) : Bool :=
  match u with
  | .segment d r g => segBad s d r g && !mapped s d r g
  | .spareVe d => s.safety.badSpareVe.getLsbD d
  | .lane l n => decide (n ∈ (link s l).retiredLanes)
  | _ => false

/-- Its track's turn: retests come first, in order; the retest of an unusable unit, which the SF may ask for at any time, comes
before the sweep (log entry 40, DEDUCED); then overdue units, then the sweep in any order (R381, R384, R385, R395). -/
def sliceTurn (s : State) (u : BistUnit) : Bool :=
  let mine (v : BistUnit) : Bool := decide (trackOf v = trackOf u)
  match (s.safety.retest.filter mine).head? with
  | some v => decide (sliceOf s v = u)
  | none => mayReturn s u || decide (u ∈ s.safety.overdue) || ((s.safety.overdue.filter mine).isEmpty && toSweep s u)

/-- Partitions asked to stop at a step boundary, with their records written (13 R305). -/
def holdPart (s : State) (p : Nat) : State :=
  let s := saveRecord (dropAppended s p) p ((part s p).pre = .evicted)
  modPart s p fun x => { x with holds := x.holds + 1, chained := false }

/-- One hold ends; the partition that runs again has read its record. -/
def releasePart (s : State) (p : Nat) : State :=
  modPart s p fun x =>
    { x with holds := x.holds - 1, yieldRec := if x.holds ≤ 1 ∧ x.pre = .running then none else x.yieldRec }

def setBlockSt (s : State) (b n : Nat) : State := { s with tele := { s.tele with blockSt := tset s.tele.blockSt b n } }

/-- Tiles of a block. -/
def tilesOfBlock (b : Nat) : List Nat := (List.range 64).map (tileIn b)

/-- BIST_SLICE_START. -/
def sliceStart (u : BistUnit) (s : State) : State :=
  if !s.boot.ready || s.boot.safe || (s.safety.slices.any fun x => decide (trackOf x.unit = trackOf u)) || !inTestRange s u ||
      !isolable s u || !sliceTurn s u then s
  else
    let s := modSafety s fun f => { f with swept := (f.swept.filter fun e => decide (e.1 ≠ u)) ++ [(u, sweepNow s)] }
    match u with
    | .block b =>
      let ps := (partOfBlock s b).toList
      let x : Slice := { unit := u, parts := ps, tiles := (tilesOfBlock b).map (tileRec s), ves := [veRec s b] }
      modSafety (setBlockSt (ps.foldl holdPart s) b 1) fun f => { f with slices := f.slices ++ [x] }
    | _ => modSafety s fun f => { f with slices := f.slices ++ [{ unit := u, parts := [], tiles := [], ves := [] }] }

def execBistSliceStart (u : BistUnit) (s : State) : Host.Outcome State Fault Refusal :=
  onWf (.bistSliceStart u) s (sliceStart u)

/-- The unit comes back: a block is re-initialised and its records restored, with the ends of its contexts (log entry 40, DEDUCED). -/
def sliceBack (s : State) (x : Slice) : State :=
  let s := modSafety s fun f => { f with slices := f.slices.filter fun y => decide (y.unit ≠ x.unit) }
  let s := x.tiles.foldl (fun s r => modTile s r.t fun y => { restoreTile y r with ended := y.ended, stopped := y.stopped }) s
  let s := restoreVes s x.ves
  match x.unit with
  | .block b => setBlockSt s b 0
  | _ => s

/-- The unit has passed: it is due for no retest, and its 30 minutes run anew. -/
def slicePassed (s : State) (u : BistUnit) : State :=
  modSafety s fun f =>
    { f with
      retest := f.retest.filter fun v => decide (sliceOf s v ≠ u)
      overdue := f.overdue.filter fun v => decide (v ≠ u)
      passes := (f.passes.filter fun e => decide (e.1 ≠ u)) ++ [(u, count s)] }

/-- A unit that failed is due for no retest by itself. -/
def noRetest (s : State) (u : BistUnit) : State :=
  modSafety s fun f => { f with retest := f.retest.filter fun v => decide (sliceOf s v ≠ u) }

/-- A spare or unusable unit that passed goes to the spare pool; the tested lane goes into service and the next lane, in
rotation, becomes the spare. -/
def toPool (s : State) (u : BistUnit) : State :=
  match u with
  | .segment d r g => modSafety s fun f => { f with badSegs := f.badSegs.filter fun k => decide (k ≠ 1024 * d + 128 * r + g) }
  | .spareVe d =>
    modSafety s fun f => { f with spareVe := f.spareVe ||| (1#2 <<< d), badSpareVe := f.badSpareVe &&& ~~~(1#2 <<< d) }
  | .lane l n =>
    let x := link s l
    let lanes := if l = 18 then 3 else 5
    if x.spare = n then
      match ((List.range lanes).map fun i => (n + 1 + i) % lanes).find? fun k => decide (k ∈ x.lanes) with
      | none => s
      | some k => sendPlain (setLink s l { x with swap := some (k, n, true, false), rotates := true }) l 3 (swapCtl k n)
    else
      setLink s l { x with retiredLanes := x.retiredLanes.filter fun k => decide (k ≠ n), spare := if x.spare < 5 then x.spare else n }
  | _ => s

/-- The unit of a failed slice becomes unusable. -/
def unusable (s : State) (u : BistUnit) : State :=
  match u with
  | .spareVe d => markBad (modSafety s fun f => { f with spareVe := f.spareVe &&& ~~~(1#2 <<< d) }) u
  | .control => modBoot s fun b => { b with spareUsed := true, cores := b.cores - 1 }
  | .lane l n =>
    modLink s l fun x => { x with spare := if x.spare = n then 5 else x.spare, retiredLanes := dedup (x.retiredLanes ++ [n]) }
  | .tier0 k => channelFailure 0 k s
  | .tier1 k => channelFailure 1 k s
  | .tier2 k => channelFailure 2 k s
  | _ => markBad s u

/-- No usable unmapped segment, or spare VE, is left (R393): fault kind 22; the block column is unusable, its partition's
step ends without publishing, and the partition stays yielded. -/
def spareExhausted (s : State) (b : Nat) : State :=
  let p := partOfBlock s b
  let (n, s) := recordFault s 22 (p.getD 0xff) b (p.elim 0 (stepId s)) 0 0 [] none
  let s := modSafety s fun f => { f with badCols := f.badCols ||| (1#16 <<< colOf b) }
  match p with
  | none => s
  | some p =>
    let s := stepAbandon s p 0x5101 n false
    let s := if (part s p).pre = .evicted then s else saveRecord (dropAppended s p) p false
    modPart s p fun x =>
      { x with stuck := 2, chained := false, pre := if x.pre = .evicted then .evicted else .yielded, yieldCmd := none }

/-- BIST_SLICE_END: `bad` names the segments and the VE that failed in a block; a block that fails with none named has no
spare for what failed. -/
def sliceEnd (u : BistUnit) (pass : Bool) (bad : List BistUnit) (s : State) : State :=
  match s.safety.slices.find? fun x => decide (x.unit = u) with
  | none => s
  | some x =>
    let s := sliceBack s x
    if pass then x.parts.foldl releasePart (toPool (slicePassed s u) u)
    else
      let s := noRetest s u
      match u with
      | .block b =>
        let mine := bad.filter fun v => decide (sliceOf s v = u ∧ v ≠ u)
        let (_, s) := recordFault s 23 ((partOfBlock s b).getD 0xff) b 0 0 0 [] none
        let s := mine.foldl markBad s
        if mine = [] then spareExhausted (x.parts.foldl releasePart (setBlockSt s b 2)) b
        else modSafety s fun f => { f with heldFor := f.heldFor ++ mine.flatMap fun v => x.parts.map fun p => (v, p) }
      | .tier0 k => unusable (recordFault s 23 0xff 0xffff 0 k 0 [] none).2 u
      | .tier1 k => unusable (recordFault s 23 0xff 0xffff 0 k 0 [] none).2 u
      | .tier2 k => unusable (recordFault s 23 0xff 0xffff 0 k 0 [] none).2 u
      | _ => unusable s u

def execBistSliceEnd (u : BistUnit) (pass : Bool) (bad : List BistUnit) (s : State) : Host.Outcome State Fault Refusal :=
  onWf (.bistSliceEnd u pass bad) s (sliceEnd u pass bad)

/-- BIST_SLICE_ABORT: supply or temperature has left its range; the unit returns as it was, without a verdict. -/
def sliceAbort (u : BistUnit) (s : State) : State :=
  match s.safety.slices.find? fun x => decide (x.unit = u) with
  | none => s
  | some x =>
    if inTestRange s u then s
    else
      modSafety (x.parts.foldl releasePart (sliceBack s x)) fun f =>
        { f with swept := f.swept.filter fun e => decide (e.1 ≠ u) }

def execBistSliceAbort (u : BistUnit) (s : State) : Host.Outcome State Fault Refusal :=
  onWf (.bistSliceAbort u) s (sliceAbort u)

/-- BIST_OVERDUE: 30 minutes since the unit's last pass, or since READY (R384). -/
def bistOverdue (u : BistUnit) (s : State) : State :=
  let last := ((s.safety.passes.find? fun e => decide (e.1 = u)).map fun e => e.2).getD s.safety.bistSince
  if s.boot.ready ∧ u ∉ s.safety.overdue ∧ inSweep s u ∧ last + 45000000000 ≤ count s then
    let (p, b) := match u with
      | .block b => ((partOfBlock s b).getD 0xff, b)
      | _ => (0xff, 0xffff)
    modSafety (recordFault s 24 p b 0 0 0 [] none).2 fun f => { f with overdue := f.overdue ++ [u] }
  else s

def execBistOverdue (u : BistUnit) (s : State) : Host.Outcome State Fault Refusal := onWf (.bistOverdue u) s (bistOverdue u)

/-! ### Wear gauges (R387, R388) -/

/-- The point belongs to a unit of the live map. -/
def livePoint (s : State) (u : BistUnit) : Bool :=
  match u with
  | .segment d r g => mapped s d r g
  | .ve _ => true
  | _ => false

/-- Event 0xe602 (12 Table 12). -/
def wearEvent (s : State) (kind : Nat) (u : BistUnit) (code : Nat) : State :=
  let (ut, b, n) := match u with
    | .segment d r g => (0, if mapped s d r g then segBlock s d r g else 0xffff, g + 128 * d)
    | .ve b => (1, b, 0)
    | _ => (0, 0xffff, 0)
  event s [0] 0xe602
    (leBytes 1 kind ++ leBytes 1 ut ++ leBytes 2 b ++ leBytes 2 n ++ leBytes 2 code ++ leBytes 8 (count s))

/-- One point's new margin: the renewals in a row below 40 and below 15 are counted, and the sixteenth below 40 of a live
point is reported. -/
def wearPoint (s : State) (e : BistUnit × Nat) : State :=
  let (u, code) := e
  let old := ((s.safety.wear.find? fun x => decide (x.1 = u)).map fun x => x.2).getD (0xffff, 0, 0)
  let a := if code < 40 then old.2.1 + 1 else 0
  let b := if code < 15 then old.2.2 + 1 else 0
  let s := modSafety s fun f => { f with wear := (f.wear.filter fun x => decide (x.1 ≠ u)) ++ [(u, code, a, b)] }
  if a = 16 ∧ livePoint s u then wearEvent s 1 u code else s

def execWearGaugeRenewal (points : List (BistUnit × Nat)) (s : State) : Host.Outcome State Fault Refusal :=
  onWf (.wearGaugeRenewal points) s fun s => points.foldl wearPoint s

/-- The critical threshold: below 15 for sixteen renewals. -/
def critical (s : State) (u : BistUnit) : Bool := s.safety.wear.any fun x => decide (x.1 = u ∧ 16 ≤ x.2.2.2)

/-! ### Column substitution (R389 to R393) -/

/-- The replacement of a segment: the usable unmapped segment of its row and die nearest to it, the lower number in a tie;
never one under test or one that reads below 40 (R388, R389). -/
def replacement (s : State) (d r g : Nat) : Option Nat :=
  let ok (c : Nat) : Bool :=
    !mapped s d r c && !segBad s d r c && decide (40 ≤ marginOf s (.segment d r c)) &&
      !(s.safety.slices.any fun x => decide (x.unit = .segment d r c))
  let dist (c : Nat) : Nat := (c - g) + (g - c)
  ((List.range 66).filter ok).foldl (fun b c =>
    match b with
    | none => some c
    | some x => if dist c < dist x then some c else some x) none

/-- The map without segment `g` and with `c`, in order. -/
def newMap (m : List Nat) (g c : Nat) : List Nat :=
  (List.range 66).filter fun k => decide (k = c ∨ (k ∈ m ∧ k ≠ g))

/-- Logical columns of the die whose segment changes. -/
def movedCols (s : State) (d r g c : Nat) : List Nat :=
  let m := mapOf s d r
  let n := newMap m g c
  (List.range 64).filter fun i => decide (m[i]? ≠ n[i]?)

/-- Tiles that move: those of the moved columns in the block row. -/
def movingTiles (s : State) (d r g c : Nat) : List Nat :=
  (movedCols s d r g c).flatMap fun i => (List.range 8).map fun y => 64 * (64 * d + i) + 8 * r + y

/-- Partitions that hold an affected block column. -/
def affected (s : State) (d r g c : Nat) : List Nat :=
  dedup ((movedCols s d r g c).filterMap fun i => partOfCol s (8 * d + i / 8))

/-- SUBSTITUTION_SCHEDULE: the SF names a segment that is to leave the live map, and the affected partitions stop at a step
boundary. -/
def schedule (d r g : Nat) (s : State) : State :=
  if !s.boot.ready ∨ s.boot.safe ∨ s.safety.subst.isSome ∨ !mapped s d r g then s
  else
    match replacement s d r g with
    | none => spareExhausted (markBad s (.segment d r g)) (segBlock s d r g)
    | some c =>
      let ps := affected s d r g c
      let x : Subst := { die := d, row := r, seg := g, repl := c, phase := 1, parts := ps, recs := [], forced := false }
      modSafety (ps.foldl (fun s p => modPart s p fun x => { x with holds := x.holds + 1, chained := false }) s) fun f =>
        { f with subst := some x }

def execSubstitutionSchedule (die row seg : Nat) (s : State) : Host.Outcome State Fault Refusal :=
  onWf (.substitutionSchedule die row seg) s (schedule die row seg)

/-- A tile has ended its epoch (05 R112). -/
def epochEnded (x : Tile) : Bool :=
  decide (x.passed = BitVec.allOnes 56) && (List.range 8).all fun k => !ctxOn x k || x.ended.getLsbD k

/-- A tile holds a token, or a pending word has arrived. -/
def holdsToken (x : Tile) : Bool :=
  (x.inq.any fun e => !e.2.isEmpty) || (x.cfgq.any fun e => !e.2.isEmpty) || !x.held.isEmpty || !x.latch.isEmpty ||
    (x.lout.any fun e => !e.2.isEmpty) || (x.q.any fun e => e.2.any fun w => !isMark w) || x.rwP.isSome || !x.ctxP.isEmpty

/-- The partitions stand at a step boundary. -/
def allStopped (s : State) (ps : List Nat) : Bool := ps.all fun p => (part s p).step.isNone && !prePhase (part s p)

/-- SUBSTITUTION_SAVE: the records of the moving tiles are saved; a token found resumes the partitions and is reported. -/
def substSave (s : State) : State :=
  match s.safety.subst with
  | none => s
  | some x =>
    let ts := movingTiles s x.die x.row x.seg x.repl
    if x.phase ≠ 1 ∨ !allStopped s x.parts then s
    else if ts.any fun t => holdsToken (tile s t) then
      let s := modSafety (x.parts.foldl releasePart s) fun f => { f with subst := none }
      wearEvent s 2 (.segment x.die x.row x.seg) (marginOf s (.segment x.die x.row x.seg))
    else if ts.all fun t => epochEnded (tile s t) then
      let s := x.parts.foldl (fun s p => saveRecord (dropAppended s p) p ((part s p).pre = .evicted)) s
      modSafety s fun f => { f with subst := some { x with phase := 2, recs := ts.map (tileRec s) } }
    else s

def execSubstitutionSave (s : State) : Host.Outcome State Fault Refusal := onWf .substitutionSave s substSave

/-- The block row's column map is written: segment `g` leaves it, and what is known of its old unit stays with it. -/
def writeMap (s : State) (d r g c : Nat) : State :=
  modSafety s fun f => { f with maps := tset f.maps (8 * d + r) (newMap (mapOf s d r) g c) }

/-- Holds for a failed unit that has left the live map are released. -/
def releaseFor (s : State) (u : BistUnit) : State :=
  let ps := dedup ((s.safety.heldFor.filter fun e => decide (e.1 = u)).map fun e => e.2)
  let s := modSafety s fun f => { f with heldFor := f.heldFor.filter fun e => decide (e.1 ≠ u) }
  (ps.filter fun p => !(s.safety.heldFor.any fun e => decide (e.2 = p))).foldl releasePart s

/-- SUBSTITUTION_MAP_WRITE: with no segment left by now, R393 applies. -/
def substMap (s : State) : State :=
  match s.safety.subst with
  | none => s
  | some x =>
    if x.phase ≠ 2 then s
    else
      match replacement s x.die x.row x.seg with
      | some c =>
        if c = x.repl then
          modSafety (writeMap s x.die x.row x.seg c) fun f => { f with subst := some { x with phase := 3 } }
        else modSafety (x.parts.foldl releasePart s) fun f => { f with subst := none }
      | none =>
        let s := modSafety (x.parts.foldl releasePart s) fun f => { f with subst := none }
        spareExhausted (markBad s (.segment x.die x.row x.seg)) (segBlock s x.die x.row x.seg)

def execSubstitutionMapWrite (s : State) : Host.Outcome State Fault Refusal := onWf .substitutionMapWrite s substMap

/-- The records stand in the tiles at their new places; their contexts have ended the epoch. -/
def restoreEnded (s : State) (r : TileRec) : State :=
  modTile s r.t fun y => { restoreTile y r with ended := BitVec.allOnes 8 }

/-- SUBSTITUTION_RESTORE_DONE. -/
def substDone (s : State) : State :=
  match s.safety.subst with
  | none => s
  | some x =>
    if x.phase ≠ 3 then s
    else
      let s := x.recs.foldl restoreEnded s
      let s := modSafety (x.parts.foldl releasePart s) fun f => { f with subst := none }
      releaseFor s (.segment x.die x.row x.seg)

def execSubstitutionRestoreDone (s : State) : Host.Outcome State Fault Refusal := onWf .substitutionRestoreDone s substDone

/-! ### Forced substitution (R392) -/

/-- Evict a partition as R307 gives, from its quiesced state. -/
def evictNow (s : State) (p : Nat) : State := saveComplete p (quiesceEnd p s)

/-- Resume a partition that was evicted for a substitution, as R310 gives; one that stood yielded stands so again. -/
def resumeNow (before : State) (s : State) (p : Nat) : State :=
  let old := part before p
  let s := reloadComplete p (modPart s p fun x => { x with pre := .reloading })
  modPart s p fun x => { x with pre := old.pre, stuck := old.stuck, yieldRec := old.yieldRec }

/-- The unit may be substituted by the TM itself: unusable, or past the critical threshold. -/
def mustGo (s : State) (u : BistUnit) : Bool :=
  critical s u ||
    (match u with
      | .segment d r g => segBad s d r g
      | .ve b => decide (b ∈ s.safety.badVes)
      | _ => false)

/-- FORCED_SUBSTITUTION: the affected partitions are evicted, the map is written, they resume; one already evicted stays so.
While a phase of one is in progress, or a transfer of tier 0 or 1 of one is in flight, the TM waits. -/
def forced (d r g : Nat) (s : State) : State :=
  if !s.boot.ready ∨ s.boot.safe ∨ s.safety.subst.isSome ∨ !mapped s d r g ∨ !mustGo s (.segment d r g) then s
  else
    match replacement s d r g with
    | none => releaseFor (spareExhausted s (segBlock s d r g)) (.segment d r g)
    | some c =>
      let ps := (affected s d r g c).filter fun p => decide ((part s p).pre ≠ .evicted)
      if (affected s d r g c).any fun p => prePhase (part s p) then s
      else
        let t := ps.foldl evictBegin s
        if ps.any (stillFlying t) then s
        else
          let t := writeMap (ps.foldl evictNow t) d r g c
          releaseFor (ps.foldl (resumeNow s) t) (.segment d r g)

def execForcedSubstitution (die row seg : Nat) (s : State) : Host.Outcome State Fault Refusal :=
  onWf (.forcedSubstitution die row seg) s (forced die row seg)

/-! ### VE substitution (R394) -/

/-- The die's spare VE is usable, unused and not worn. -/
def spareVeFree (s : State) (d : Nat) : Bool :=
  s.safety.spareVe.getLsbD d && !s.safety.badSpareVe.getLsbD d && decide (40 ≤ marginOf s (.spareVe d)) &&
    !(s.safety.slices.any fun x => decide (x.unit = .spareVe d))

/-- The spare VE in block `b`, with the operand cache image and running the program that the SF names. -/
def spareIn (image : List Byte) (pc : Nat) : Ve :=
  { setVeWords { Ve.reset with buffer := false } 0 (wordsOf 65536 image) with
    cacheInit := true, spare := true, running := true, pc := BitVec.ofNat 15 pc }

/-- The repair switch connects the die's spare as block `b`, with its image and the program running; the point and the mark of
the VE that left do not follow. -/
def spareConnect (s : State) (b image pc : Nat) : State :=
  modSafety (setVe (enterBuffer s b) b (spareIn (readTier s 0 image 262144) pc)) fun f =>
    { f with
      spareVe := f.spareVe &&& ~~~(1#2 <<< (b / 64)), badVes := f.badVes.filter fun n => decide (n ≠ b)
      wear := f.wear.filter fun e => decide (e.1 ≠ .ve b) }

/-- A VE that must go leaves by the forced path (R388, R392, R394): its partition is evicted, the spare is connected, the
partition resumes and the program starts. -/
def veForced (b image pc : Nat) (s : State) : State :=
  let all := (partOfBlock s b).toList
  let ps := all.filter fun p => decide ((part s p).pre ≠ .evicted)
  let t := ps.foldl evictBegin s
  if (all.any fun p => prePhase (part s p)) ∨ ps.any (stillFlying t) then s
  else
    let t := ps.foldl (resumeNow s) (spareConnect (ps.foldl evictNow t) b image pc)
    releaseFor (modVe t b fun x => { x with buffer := false, running := true, pc := BitVec.ofNat 15 pc }) (.ve b)

/-- A scheduled VE substitution: steps 1, 2 and 5 of Table 7. -/
def veScheduled (b image pc : Nat) (s : State) : State :=
  let ps := (partOfBlock s b).toList
  if !allStopped s ps then s
  else if (tilesOfBlock b).any fun t => holdsToken (tile s t) then wearEvent s 2 (.ve b) (marginOf s (.ve b))
  else if (tilesOfBlock b).all fun t => epochEnded (tile s t) then
    let s := ps.foldl (fun s p => saveRecord (dropAppended s p) p ((part s p).pre = .evicted)) s
    releaseFor (spareConnect s b image pc) (.ve b)
  else s

/-- VE_SUBSTITUTION: `image` is the tier 0 offset of the operand cache image; one that cannot be read is no image (log entry 49). -/
def veSubst (b image pc : Nat) (s : State) : State :=
  if !s.boot.ready ∨ s.boot.safe then s
  else if !spareVeFree s (b / 64) then (if mustGo s (.ve b) then releaseFor (spareExhausted s b) (.ve b) else s)
  else if tierAccess s 0 image 262144 false ≠ 0 then s
  else if mustGo s (.ve b) then veForced b image pc s
  else veScheduled b image pc s

def execVeSubstitution (b image pc : Nat) (s : State) : Host.Outcome State Fault Refusal :=
  onWf (.veSubstitution b image pc) s (veSubst b image pc)

end Sys2Proof.Machine
end

