-- ==== Sys2Proof/Machine/Twin.lean ====
section
/-! DEFINITION. The mirrored pair (16 R396 to R407; 14 R342): set-up and sync, the messages of a step, lapse, heartbeat
frames, the twin's failure and the takeover, two homes, and the end of pair mode.
Readings of the spec: log entries 66, 67. -/

namespace Sys2Proof.Machine

/-! ### Frames and messages -/

/-- PVAL bits: the device is primary of a partition in pair mode and its mirror is valid; partitions of which it was
primary when it declared its twin failed, and those it took over, keep the bit (log entry 42, DEDUCED). -/
def pvalBit (s : State) (p : Nat) : Bool :=
  let x := part s p
  s.pair.on && isPrimary s p && ((x.paired && !x.lapsing) || x.claimed)

/-- MVAL bits: the device holds a valid mirror of a partition. -/
def mvalBit (s : State) (p : Nat) : Bool := s.pair.on && isMirror s p && (part s p).mirrorValid

/-- Sixteen bits, one per partition. -/
def mask16 (f : Nat → Bool) : BitVec 16 :=
  (List.range 16).foldl (fun m p => if f p then m ||| (1#16 <<< p) else m) 0

def pval (s : State) : BitVec 16 := mask16 (pvalBit s)
def mval (s : State) : BitVec 16 := mask16 (mvalBit s)

/-- Bytes of bits [63:8] of a heartbeat frame in sending order, with its CRC (16 Table 10). -/
def beatHead (v : Nat) : List Byte := (List.range 7).map fun i => BitVec.ofNat 8 (nfld v (56 - 8 * i) 8)

/-- The frame with number `seq` (16 Table 10). -/
def beatFrame (seq : Nat) (pv mv : BitVec 16) : BitVec 64 :=
  let v := 0xa5 * 2 ^ 56 + 2 ^ 48 * (seq % 256) + 2 ^ 32 * pv.toNat + 2 ^ 16 * mv.toNat
  BitVec.ofNat 64 (v + crc8 (beatHead v))

/-- SYNC and CRC match, and SEQ is one more than that of the previous valid frame; the first frame has none before it. -/
def beatValid (s : State) (f : BitVec 64) : Bool :=
  let v := f.toNat
  decide (nfld v 56 8 = 0xa5 ∧ nfld v 0 8 = crc8 (beatHead v)) &&
    (match s.pair.rxSeq with
     | none => true
     | some q => decide (nfld v 48 8 = (q + 1) % 256))

/-- Event 0xe604 to C. -/
def pairEvent (s : State) (kind : Nat) (ps : BitVec 16) : State :=
  event s [0] 0xe604
    (leBytes 1 kind ++ zeros 1 ++ leBytes 2 ps.toNat ++ leBytes 2 s.pair.twin ++ zeros 2 ++ leBytes 8 (count s))

/-- Every value of the header and records that the device knows (16 Tables 8 and 9). -/
def knownMsg (m : PairMsg) : Bool :=
  decide (1 ≤ m.pkind ∧ m.pkind ≤ 12 ∧ m.ver = 1) &&
    m.recs.all fun
      | .entry t .. => decide (t ≤ 2)
      | _ => true

/-- Bytes of a record that carry meaning (0xff), and reserved bytes and padding (0). -/
def recMask : PairRec → List Byte
  | .setup _ _ ps => ones 4 ++ ps.flatMap fun _ => ones 17 ++ zeros 7
  | .grain _ => ones 4 ++ zeros 4
  | .data _ bs => ones 12 ++ zeros 4 ++ pad (64 * cdiv bs.length 64) (ones bs.length)
  | .entry _ _ bs => ones 1 ++ zeros 3 ++ ones 4 ++ pad 64 (ones bs.length)
  | .record bs => pad 64 (ones bs.length)
  | .charge .. => ones 1 ++ zeros 7 ++ ones 8

/-- The same of a message: VSTEP and STATUS carry meaning in an ACK alone, and PART has four bits (16 Tables 8 and 9). -/
def pairMask (m : PairMsg) : List Byte :=
  let ack (n : Nat) : List Byte := if m.pkind = 7 then ones n else zeros n
  ones 2 ++ leBytes 1 15 ++ zeros 1 ++ ones 12 ++ ack 8 ++ ack 2 ++ zeros 6 ++ m.recs.flatMap recMask

/-- Bytes spell the message, whatever stands in its reserved fields (00 R7). -/
def spells (m : PairMsg) (bs : List Byte) : Bool :=
  let k := pairMask m
  decide (bs.length = k.length ∧ List.zipWith (· &&& ·) bs k = List.zipWith (· &&& ·) (pairBytes m) k)

/-- The first whole PAIR message at the ingress that spells the message: its first transaction and its bytes. -/
def pairFound (s : State) (m : PairMsg) : Option (Txn × List Byte) :=
  s.fabric.ingress.findSome? fun t =>
    match (if t.strm = 13 ∧ t.ttype = 0x12 then collect (streamKey t) s.fabric.ingress else none) with
    | none => none
    | some bs => if spells m bs then some (t, bs) else none

/-- The chip it came from. -/
def pairSource (s : State) (m : PairMsg) : Option Nat := (pairFound s m).map fun e => e.1.schip

/-- Take it off the ingress. -/
def takePair (s : State) (m : PairMsg) : State :=
  match pairFound s m with
  | none => s
  | some (t, _) => modFabric s fun f => { f with ingress := dropMessage (streamKey t) f.ingress }

/-! ### Replies that wait for the twin, and the lapse (16 R400, R403) -/

/-- Replies of order 8 of steps up to `v` leave. -/
def releaseReplies (s : State) (p v : Nat) : State :=
  let ws := (part s p).waitReplies
  let s := modPart s p fun x => { x with waitReplies := x.waitReplies.filter fun e => decide (v < e.1) }
  (ws.filter fun e => decide (e.1 ≤ v)).foldl (fun s e => sendReady s e.2.1 e.2.2) s

/-- Pair mode ends for a primary partition: its waiting publish completes as outside pair mode and its waiting replies
leave. -/
def leavePair (s : State) (p : Nat) : State :=
  let s := modPart s p fun x => { x with paired := false, lapsing := false, syncing := false, acksDue := 0 }
  let s := publishNow s p
  let ws := (part s p).waitReplies
  ws.foldl (fun s e => sendReady s e.2.1 e.2.2) (modPart s p fun x => { x with waitReplies := [] })

/-- The twin's mirror is known to be invalid: the lapse is over. -/
def lapseDone (s : State) (p : Nat) : State := pairEvent (leavePair s p) 1 (1#16 <<< p)

/-- A message with a reserved value: discarded and counted, and its partition lapses. -/
def badMessage (s : State) (m : PairMsg) : State :=
  badPair (modPair s fun x => { x with discarded := x.discarded + 1 }) m.part

/-- A PAIR transaction came from the twin. -/
def pairSeen (s : State) : State :=
  modPair s fun x => { x with lastRecv := count s, pathLost := x.pathLost && decide (x.lastFrame + 2500 ≤ count s) }

/-- A pair message of one kind reaches the device: it is taken off the ingress; one that is not the twin's in pair mode is
discarded and counted. -/
def pairMessage (kind : Nat) (m : PairMsg) (f : State → State) (s : State) : State :=
  if s.boot.safe then s
  else
    match pairSource s m with
    | none => s
    | some chip =>
      if knownMsg m && decide (m.pkind ≠ kind) then s
      else
        let s := takePair s m
        if !(s.pair.on && decide (chip = s.pair.twin)) then
          modPair s fun x => { x with discarded := x.discarded + 1 }
        else if knownMsg m then f (pairSeen s)
        else badMessage (pairSeen s) m

/-! ### Set-up and sync (16 R396, R397) -/

/-- The SETUP message's record. -/
def setupRec (s : State) : PairRec :=
  .setup s.pair.prim s.pair.mirr ((List.range 16).map fun p =>
    let e := (part s p).entry
    (e.gbase, e.gcount, e.dbase, e.dlimit, (colsOf (part s p)).length))

def sendSetup (s : State) : State :=
  sendPair (modPair s fun x => { x with setupLast := count s }) 1 0 0 0 0 [setupRec s]

/-- PAIR_SETUP ends with a status. -/
def setupEnd (s : State) (status detail : Nat) : State :=
  match s.pair.setting with
  | none => s
  | some c => finish (modPair s fun x => { x with setting := none }) c status detail []

/-- PAIR_SETUP is complete once every partition of PRIM on both devices has begun pair mode. -/
def setupDone (s : State) : State :=
  if s.pair.twinSetup &&
      (List.range 16).all (fun p => (!s.pair.prim.getLsbD p || (part s p).paired) &&
        (!s.pair.mirr.getLsbD p || (part s p).mirrorValid)) then setupEnd s 0 0
  else s

/-- The twin's SETUP agrees with this device's configuration (R396 check 3). -/
def setupMatches (s : State) (m : PairMsg) : Bool :=
  match m.recs, setupRec s with
  | [.setup prim mirr ps], .setup _ _ own =>
    decide (prim = s.pair.mirr ∧ mirr = s.pair.prim) &&
      (List.range 16).all fun p => !(s.pair.prim ||| s.pair.mirr).getLsbD p || decide (ps[p]? = own[p]?)
  | _, _ => false

/-- Grains of a partition in increasing order of their ids. -/
def grainsHeld (s : State) (p : Nat) : List Nat := (s.tiers.ht.filter fun e => e.2.v && decide (e.2.part = p)).map fun e => e.1

/-- Free every grain of a partition and zero its drawer and region entries. -/
def emptyPart (s : State) (p : Nat) : State :=
  let e := (part s p).entry
  let s := (grainsHeld s p).foldl (fun s g =>
    match htFree s g with
    | (0, s) => s
    | (_, s) => modPart s p fun x => { x with toFree := dedup (x.toFree ++ [g]) }) s
  { s with
    drawers := s.drawers.filter fun d => !decide (e.dbase ≤ d.1 ∧ d.1 < e.dbase + e.dlimit)
    regions := s.regions.filter fun r => !decide (r.1 / 8192 = p) }

/-- A partition of MIRR becomes a mirror. -/
def becomeMirror (s : State) (p : Nat) : State :=
  modPart (emptyPart (partitionReset s p none 0x3005) p) p fun x =>
    { x with
      role := .mirror, mirrorValid := false, syncing := false, mirrorFail := 0, lastTwinStep := 0, paired := false
      claimed := false }

/-- Send the twin one grain's 2 MiB. Writes to the grain are held at the gate while it is read. -/
def syncGrainData (p : Nat) (acc : Bool × State) (g : Nat) : Bool × State :=
  let s := modTiers acc.2 fun m => { m with syncGrain := some g }
  match readWindow s (winBase + frameBytes * g) frameBytes false with
  | (0, bs) =>
    let s := sendPair s 4 p 0 0 0 [.data (winBase + frameBytes * g) bs]
    (acc.1, modTiers s fun m => { m with syncGrain := none })
  | _ => (false, modTiers s fun m => { m with syncGrain := none })

/-- ENTRY records of a partition's tables that are not zero. -/
def syncEntries (s : State) (p : Nat) : List PairRec :=
  let e := (part s p).entry
  (s.drawers.filterMap fun (i, d) =>
    if e.dbase ≤ i ∧ i < e.dbase + e.dlimit ∧ !isZero (drawerBytes d) 0 64 then
      some (.entry 0 i (drawerBytes { d with held := false })) else none) ++
  (s.regions.filterMap fun (i, r) =>
    if i / 8192 = p ∧ !isZero (regionBytes r) 0 64 then some (.entry 1 (i % 8192) (pad 64 (regionBytes r))) else none) ++
  ((part s p).budgets.filterMap fun (t, b) =>
    if isZero (budgetBytes b) 0 64 then none else some (.entry 2 t (pad 64 (budgetBytes { b with res := 0 }))))

/-- The sync of a primary partition. Where a grain cannot be read, SYNC_END is not sent (log entry 43, DEDUCED). -/
def syncPart (s : State) (p : Nat) : State :=
  let s := modPart s p fun x => { x with syncing := true, syncSentAt := count s, paired := false, acksDue := 0 }
  let s := sendPair s 11 p 0 0 0 []
  let gs := grainsHeld s p
  let s := gs.foldl (fun s g => sendPair s 2 p 0 0 0 [.grain g]) s
  let (whole, s) := gs.foldl (syncGrainData p) (true, s)
  let s := (syncEntries s p).foldl (fun s r => sendPair s 5 p 0 0 0 [r]) s
  let r := (part s p).crec
  let s := sendPair s 6 p r.cstep 0 0 [.record (crecBytes p r)]
  if whole then sendAcked s 12 p r.cstep [] else s

/-- The twin's SETUP has arrived: compare it, and begin. -/
def takeSetup (s : State) (m : PairMsg) : State :=
  if setupMatches s m then
    let s := modPair s fun x =>
      { x with on := true, twinSetup := true, early := none, failed := false, pathLost := false, lastRecv := count s
               lastFrame := count s }
    let s := ((List.range 16).filter s.pair.mirr.getLsbD).foldl becomeMirror s
    setupDone (((List.range 16).filter s.pair.prim.getLsbD).foldl syncPart s)
  else setupEnd (modPair s fun x => { x with early := none }) 0x1202 2

/-- Partitions that are paired, or being paired: a primary in a sync, and every mirror. -/
def alreadyPaired (s : State) (p : Nat) : Bool :=
  (part s p).paired || (isPrimary s p && (part s p).syncing) || (defined s p && isMirror s p)

/-- Lowest offset of a field of PAIR_SETUP that breaks check 1 of R396. A device has one twin: while pair mode is on
another TWIN is refused too (log entry 44, DEDUCED). -/
def setupBad (s : State) (c : Cmd) : Option Nat :=
  let prim := BitVec.ofNat 16 (pf c 2 2)
  let mirr := BitVec.ofNat 16 (pf c 4 2)
  let any (m : BitVec 16) (f : Nat → Bool) : Bool := (List.range 16).any fun p => m.getLsbD p && f p
  let lim := pf c 8 4
  lowest
    [(s.pair.on && decide (pf c 0 2 % 16384 ≠ s.pair.twin), 0),
     (decide (prim &&& mirr ≠ 0) || any prim (fun p => !isPrimary s p || alreadyPaired s p), 2),
     (any mirr (fun p => !defined s p || alreadyPaired s p), 4),
     (decide (lim < 10 ∨ 1000000 < lim), 8)]

/-- PAIR_SETUP. -/
def pairSetupCmd (c : Cmd) (s : State) : State :=
  let twin := pf c 0 2 % 16384
  match setupBad s c with
  | some o => finish s c 0x1202 o []
  | none =>
    if (tfind s.fabric.routes twin).isNone ∨ twin = s.fabric.chip then finish s c 0x1205 0 []
    else
      let s := modPair s fun x =>
        { x with
          setting := some c, twin := twin, prim := BitVec.ofNat 16 (pf c 2 2), mirr := BitVec.ofNat 16 (pf c 4 2)
          ackCounts := 25 * pf c 8 4, setupStart := count s, twinSetup := false }
      let s := sendSetup s
      match s.pair.early with
      | some (chip, m) => if chip = twin then takeSetup s m else s
      | none => s

/-- One PAIR_SETUP is in progress at a time: the next one waits. -/
def execPairSetup (s : State) : Host.Outcome State Fault Refusal :=
  onWf .pairSetup s fun s => if s.pair.setting.isSome then s else takeCmd 16 (opcode 0x0701) pairSetupCmd s

/-- PAIR_SETUP_MESSAGE_SEND: every 1 ms until the twin's SETUP has arrived. -/
def setupAgain (s : State) : State :=
  if s.pair.setting.isSome ∧ s.pair.twinSetup = false ∧ s.pair.setupLast + 25000 ≤ count s ∧ s.boot.safe = false then
    sendSetup s
  else s

def execPairSetupMessageSend (s : State) : Host.Outcome State Fault Refusal := onWf .pairSetupMessageSend s setupAgain

/-- PAIR_SETUP_TIMEOUT: after 1 s pair mode stays off. -/
def setupTimeout (s : State) : State :=
  if s.pair.twinSetup = false ∧ s.pair.setupStart + 25000000 ≤ count s then setupEnd s 0x5201 0 else s

def execPairSetupTimeout (s : State) : Host.Outcome State Fault Refusal := onWf .pairSetupTimeout s setupTimeout

/-- PAIR_SETUP_RECV: the twin's SETUP; one that comes before this device's PAIR_SETUP is kept for it, one that comes after
the twin's was accepted says nothing new. -/
def setupRecv (m : PairMsg) (s : State) : State :=
  if s.boot.safe then s
  else
    match pairSource s m with
    | none => s
    | some chip =>
      if knownMsg m && decide (m.pkind ≠ 1) then s
      else
        let s := takePair s m
        let s := if s.pair.on ∧ chip = s.pair.twin then pairSeen s else s
        if !knownMsg m then badMessage s m
        else if s.pair.setting.isSome ∧ s.pair.twinSetup = false then
          if chip = s.pair.twin then takeSetup s m else modPair s fun x => { x with discarded := x.discarded + 1 }
        else if s.pair.on then s
        else modPair s fun x => { x with early := some (chip, m) }

def execPairSetupRecv (m : PairMsg) (s : State) : Host.Outcome State Fault Refusal :=
  onWf (.pairSetupRecv m) s (setupRecv m)

/-- No acknowledgement of the SYNC_END of partition `p` has come within ACKLIM. -/
def syncTimeout (s : State) (p : Nat) : State :=
  let x := part s p
  if isPrimary s p ∧ x.syncing ∧ x.syncSentAt + s.pair.ackCounts ≤ count s then
    setupEnd (modPart s p fun x => { x with syncing := false }) 0x5201 0
  else s

/-- SYNC_END_ACK_TIMEOUT: of every partition whose limit has passed. -/
def execSyncEndAckTimeout (s : State) : Host.Outcome State Fault Refusal :=
  onWf .syncEndAckTimeout s fun s => (List.range 16).foldl syncTimeout s

/-! ### The mirror (16 R399 to R401) -/

/-- The mirror takes records: it is valid, or its sync runs. -/
def receiving (s : State) (p : Nat) : Bool := isMirror s p && ((part s p).mirrorValid || (part s p).syncing)

/-- An apply fails: the first status stands for the next ACK. -/
def applyFail (s : State) (p status : Nat) : State :=
  modPart s p fun x => { x with mirrorFail := if x.mirrorFail = 0 then status else x.mirrorFail }

/-- The mirror's records of one message, in order; a mirror that takes none refuses them with 0x4305. The highest step id
received is kept. -/
def applyRecs (m : PairMsg) (f : Nat → PairRec → State → Nat × State) (s : State) : State :=
  let p := m.part
  if !isMirror s p then modPair s fun x => { x with discarded := x.discarded + 1 }
  else if !receiving s p then applyFail s p 0x4305
  else
    let s := modPart s p fun x => { x with lastTwinStep := max x.lastTwinStep m.step }
    m.recs.foldl (fun s r =>
      match f p r s with
      | (0, s) => s
      | (st, s) => applyFail s p st) s

/-- Answer the primary: the last RECORD applied, the last step confirmed, the status of a failed apply. -/
def sendAck (s : State) (p : Nat) : State :=
  let x := part s p
  sendPair (modPart s p fun x => { x with mirrorFail := 0 }) 7 p x.crec.cstep x.crec.pstep x.mirrorFail []

/-- ALLOC: the placement is this device's own choice (09 R211; log entry 7, DESIGN CHOICE). -/
def applyAlloc (p : Nat) (r : PairRec) (s : State) : Nat × State :=
  match r with
  | .grain g =>
    if !ownsGrain (part s p) g then (0x4304, s)
    else
      match pick s ([0, 1, 2].flatMap fun t => (freeFrames s p t).map fun f => (t, f)) with
      | (none, s) => (0x4307, s)
      | (some (t, f), s) => htAlloc s g p t f true
  | _ => (0, s)

def execPairAllocRecv (m : PairMsg) (s : State) : Host.Outcome State Fault Refusal :=
  onWf (.pairAllocRecv m) s (pairMessage 2 m (applyRecs m applyAlloc))

/-- FREE. -/
def applyFree (p : Nat) (r : PairRec) (s : State) : Nat × State :=
  match r with
  | .grain g => if (ht s g).v ∧ (ht s g).part ≠ p then (0x4304, s) else htFree s g
  | _ => (0, s)

def execPairFreeRecv (m : PairMsg) (s : State) : Host.Outcome State Fault Refusal :=
  onWf (.pairFreeRecv m) s (pairMessage 3 m (applyRecs m applyFree))

/-- Write bytes into mirror grains, with fuel for the grains they span; writes to a grain whose writes are held wait at the
gate. -/
def mirrorBytes (p : Nat) : Nat → Nat → List Byte → State → Nat × State
  | 0, _, _, s => (0, s)
  | n + 1, off, bs, s =>
    if bs = [] then (0, s)
    else
      let k := min bs.length (frameBytes - winOff off)
      let g := winGrain off
      let st := windowStatus s off true
      if st ≠ 0 then (st, s)
      else if (ht s g).part ≠ p then (0x4304, s)
      else if gateHolds s g then
        mirrorBytes p n (off + k) (bs.drop k)
          (modTiers s fun m =>
            { m with gate := m.gate ++ [{ grain := g, transfer := none, off := winOff off, bytes := bs.take k }] })
      else
        match writeHome s g (winOff off) (bs.take k) with
        | (0, s) => mirrorBytes p n (off + k) (bs.drop k) s
        | e => e

/-- DATA. -/
def applyData (p : Nat) (r : PairRec) (s : State) : Nat × State :=
  match r with
  | .data off bs => mirrorBytes p (bs.length / frameBytes + 2) off bs s
  | _ => (0, s)

def execPairDataRecv (m : PairMsg) (s : State) : Host.Outcome State Fault Refusal :=
  onWf (.pairDataRecv m) s (pairMessage 4 m (applyRecs m applyData))

/-- ENTRY: HELD of a drawer and RES of a budget stay 0 on a mirror. -/
def applyEntry (p : Nat) (r : PairRec) (s : State) : Nat × State :=
  let e := (part s p).entry
  match r with
  | .entry 0 i bs =>
    if e.dbase ≤ i ∧ i < e.dbase + e.dlimit then (0, setDrawer s i { parseDrawer bs with held := false }) else (0x1601, s)
  | .entry 1 i bs => if i < 8192 then (0, setRegion s p i (parseRegion bs)) else (0x1202, s)
  | .entry _ i bs => if i < 256 then (0, setBudget s p i { parseBudget bs with res := 0 }) else (0x1202, s)
  | _ => (0, s)

def execPairEntryRecv (m : PairMsg) (s : State) : Host.Outcome State Fault Refusal :=
  onWf (.pairEntryRecv m) s (pairMessage 5 m (applyRecs m applyEntry))

/-- A commit record from its 64 bytes (11 Table 8). -/
def parseCrec (bs : List Byte) : CommitRec :=
  { gen := fld bs 2 2, round := fld bs 4 4, cstep := fld bs 8 8, ccount := fld bs 16 8, pstep := fld bs 24 8,
    pcount := fld bs 32 8, nmem := fld bs 40 4, nend := fld bs 44 4, nobj := fld bs 48 4,
    pair := decide (fld bs 1 1 / 128 = 1) }

/-- RECORD: the mirror's PSTEP stays, but for the record of a sync, which brings the state the mirror starts from (log
entry 41, DEDUCED). -/
def applyRecord (p : Nat) (r : PairRec) (s : State) : Nat × State :=
  match r with
  | .record bs =>
    (0, modPart s p fun x =>
      let n := parseCrec bs
      { x with crec := if x.syncing then n else { n with pstep := x.crec.pstep, pcount := x.crec.pcount } })
  | _ => (0, s)

/-- A write to a mirror grain of the partition waits at the gate. -/
def gateWaits (s : State) (p : Nat) : Bool := s.tiers.gate.any fun h => decide ((ht s h.grain).part = p) && (ht s h.grain).mir

/-- PAIR_RECORD_RECV: it waits until every write before it has completed; the ACK follows, but for the record of a sync,
which the ACK of SYNC_END answers. -/
def recordRecv (m : PairMsg) (s : State) : State :=
  if gateWaits s m.part then s
  else
    pairMessage 6 m (fun s =>
      let quiet := (part s m.part).syncing
      let mine := isMirror s m.part
      let s := applyRecs m applyRecord s
      if quiet ∨ !mine then s else sendAck s m.part) s

def execPairRecordRecv (m : PairMsg) (s : State) : Host.Outcome State Fault Refusal :=
  onWf (.pairRecordRecv m) s (recordRecv m)

/-- A charge of a confirmed step (R400, point 2). -/
def applyCharge (p : Nat) (r : PairRec) (s : State) : Nat × State :=
  match r with
  | .charge t c =>
    let b := budget (part s p) t
    (0, setBudget s p t { b with bal := satBal (b.bal - c), used := sat64 (b.used + c) })
  | _ => (0, s)

/-- PAIR_CONFIRM_RECV. -/
def confirmRecv (m : PairMsg) (s : State) : State :=
  pairMessage 8 m (fun s =>
    if !isMirror s m.part then applyRecs m applyCharge s
    else
      let ok := receiving s m.part
      let s := applyRecs m applyCharge s
      let s :=
        if ok then modPart s m.part fun x => { x with crec := { x.crec with pstep := m.step, pcount := count s } } else s
      sendAck s m.part) s

def execPairConfirmRecv (m : PairMsg) (s : State) : Host.Outcome State Fault Refusal :=
  onWf (.pairConfirmRecv m) s (confirmRecv m)

/-- PAIR_INVAL_RECV. -/
def invalRecv (m : PairMsg) (s : State) : State :=
  pairMessage 10 m (fun s =>
    if isMirror s m.part then
      sendAck (modPart s m.part fun x => { x with mirrorValid := false, syncing := false }) m.part
    else modPair s fun x => { x with discarded := x.discarded + 1 }) s

def execPairInvalRecv (m : PairMsg) (s : State) : Host.Outcome State Fault Refusal :=
  onWf (.pairInvalRecv m) s (invalRecv m)

/-- PAIR_SYNC_BEGIN_RECV. -/
def syncBeginRecv (m : PairMsg) (s : State) : State :=
  pairMessage 11 m (fun s =>
    if isMirror s m.part then
      modPart s m.part fun x => { x with syncing := true, mirrorValid := false, mirrorFail := 0 }
    else modPair s fun x => { x with discarded := x.discarded + 1 }) s

def execPairSyncBeginRecv (m : PairMsg) (s : State) : Host.Outcome State Fault Refusal :=
  onWf (.pairSyncBeginRecv m) s (syncBeginRecv m)

/-- PAIR_SYNC_END_RECV: the mirror is valid when every record was applied; like a RECORD it waits for writes held at the
gate. -/
def syncEndRecv (m : PairMsg) (s : State) : State :=
  if gateWaits s m.part then s
  else
    pairMessage 12 m (fun s =>
      if isMirror s m.part && (part s m.part).syncing then
        let s := modPart s m.part fun x => { x with syncing := false, mirrorValid := decide (x.mirrorFail = 0) }
        setupDone (sendAck s m.part)
      else modPair s fun x => { x with discarded := x.discarded + 1 }) s

def execPairSyncEndRecv (m : PairMsg) (s : State) : Host.Outcome State Fault Refusal :=
  onWf (.pairSyncEndRecv m) s (syncEndRecv m)

/-- PAIR_HEARTBEAT_RECV. -/
def execPairHeartbeatRecv (m : PairMsg) (s : State) : Host.Outcome State Fault Refusal :=
  onWf (.pairHeartbeatRecv m) s (pairMessage 9 m id)

/-! ### The primary (16 R400, R403) -/

/-- SYNC_END has been acknowledged: pair mode begins for the partition. An ACK with a status is no acknowledgement: the
command ends as when none comes. -/
def syncAcked (s : State) (p status : Nat) : State :=
  if status = 0 then
    setupDone (modPart s p fun x => { x with syncing := false, paired := true, vstep := x.crec.pstep })
  else setupEnd (modPart s p fun x => { x with syncing := false }) 0x5201 0

/-- Order 7 of step `k`: the publish completes and CONFIRM carries its charges. -/
def orderSeven (s : State) (p k : Nat) : State :=
  match (part s p).pub with
  | none => s
  | some w =>
    if w.step.id = k then
      let charges := tenantCharges w.charges
      sendAcked (publishNow s p) 8 p k charges
    else s

/-- PAIR_ACK_RECV: an ACK answers the messages of the partition in the order they were sent. -/
def ackRecv (m : PairMsg) (s : State) : State :=
  pairMessage 7 m (fun s =>
    let p := m.part
    let s := modPart s p fun x => { x with acksDue := x.acksDue - 1 }
    let x := part s p
    if isPrimary s p && x.syncing then syncAcked s p m.status
    else if !(isPrimary s p && x.paired) then modPair s fun x => { x with discarded := x.discarded + 1 }
    else if x.lapsing then (if x.acksDue = 0 then lapseDone s p else s)
    else if m.status ≠ 0 then startLapse s p
    else
      let s := orderSeven s p m.step
      let s := modPart s p fun x => { x with vstep := max x.vstep m.vstep }
      releaseReplies s p (part s p).vstep) s

def execPairAckRecv (m : PairMsg) (s : State) : Host.Outcome State Fault Refusal :=
  onWf (.pairAckRecv m) s (ackRecv m)

/-- PAIR_ACK_TIMEOUT: no ACK of the step's RECORD within ACKLIM. -/
def ackTimeout (p : Nat) (s : State) : State :=
  match (part s p).pub with
  | none => s
  | some w => if w.sentAt + s.pair.ackCounts ≤ count s ∧ s.boot.safe = false then startLapse s p else s

def execPairAckTimeout (p : Nat) (s : State) : Host.Outcome State Fault Refusal :=
  onWf (.pairAckTimeout p) s (ackTimeout p)

/-- PAIR_HEARTBEAT_SEND. -/
def heartbeatMsg (s : State) : State :=
  if s.pair.on ∧ s.pair.lastSent + 500 ≤ count s ∧ s.boot.safe = false then sendPair s 9 0 0 0 0 [] else s

def execPairHeartbeatSend (s : State) : Host.Outcome State Fault Refusal := onWf .pairHeartbeatSend s heartbeatMsg

/-! ### Heartbeat frames (16 R402, R403, R406; 18 R434) -/

/-- HEARTBEAT_FRAME_SEND: in the run phase a frame begins at each count that is a multiple of 250; HB_OUT is driven low in
safe state. -/
def beatSend (s : State) : State :=
  if s.lands.phase = 2 ∧ s.boot.safe = false ∧ count s % 250 = 0 ∧ s.pair.lastBeat ≠ count s then
    let f := beatFrame s.pair.beatSeq (pval s) (mval s)
    modPair s fun x =>
      { x with beats := x.beats ++ [f], beatSeq := (x.beatSeq + 1) % 256, lastBeat := count s }
  else s

def execHeartbeatFrameSend (s : State) : Host.Outcome State Fault Refusal := onWf .heartbeatFrameSend s beatSend

/-- Partition `p` after a valid frame: a mirror whose PVAL bit the primary has cleared is invalid, a primary whose MVAL bit
the twin has cleared lapses, a lapse ends when MVAL is clear, and a hold by two homes when the twin gives the partition
up. -/
def beatPart (oldP oldM newP newM : BitVec 16) (s : State) (p : Nat) : State :=
  let x := part s p
  if isMirror s p then
    if oldP.getLsbD p && !newP.getLsbD p then modPart s p fun x => { x with mirrorValid := false } else s
  else if x.paired && x.lapsing then (if newM.getLsbD p then s else lapseDone s p)
  else if x.paired && oldM.getLsbD p && !newM.getLsbD p then startLapse s p
  else if x.twoHomes && !newP.getLsbD p then modPart s p fun x => { x with twoHomes := false }
  else s

/-- Partitions set in both PVALs are held before order 5 (R406). -/
def findTwoHomes (s : State) (newP : BitVec 16) : State :=
  let both := (List.range 16).filter fun p => newP.getLsbD p && pvalBit s p && !(part s p).twoHomes
  if both = [] then s
  else
    let s := both.foldl (fun s p =>
      modPart (recordFault s 27 p 0xffff 0 0 0 [] none).2 p fun x => { x with twoHomes := true }) s
    pairEvent s 4 (mask16 fun p => decide (p ∈ both))

/-- HEARTBEAT_FRAME_RECV. -/
def beatRecv (f : BitVec 64) (s : State) : State :=
  if s.lands.phase ≠ 2 ∨ s.boot.safe ∨ !beatValid s f then s
  else
    let v := f.toNat
    let newP := BitVec.ofNat 16 (nfld v 32 16)
    let newM := BitVec.ofNat 16 (nfld v 16 16)
    let old := s.pair
    let s := modPair s fun x =>
      { x with
        rxSeq := some (nfld v 48 8), lastFrame := count s, twinP := newP, twinM := newM
        pathLost := x.pathLost && decide (x.lastRecv + 2500 ≤ count s) }
    if !s.pair.on then s
    else findTwoHomes ((List.range 16).foldl (beatPart old.twinP old.twinM newP newM) s) newP

def execHeartbeatFrameRecv (frame : BitVec 64) (s : State) : Host.Outcome State Fault Refusal :=
  onWf (.heartbeatFrameRecv frame) s (beatRecv frame)

/-! ### The twin's failure (16 R404, R405) -/

def beatsSilent (s : State) : Bool := decide (s.pair.lastFrame + 2500 ≤ count s)
def linksSilent (s : State) : Bool := decide (s.pair.lastRecv + 2500 ≤ count s)

/-- PAIR_PATH_LOSS: one of the two paths alone. -/
def pathLoss (s : State) : State :=
  if s.pair.on && !s.pair.failed && !s.pair.pathLost && !s.boot.safe && (beatsSilent s != linksSilent s) then
    pairEvent (modPair s fun x => { x with pathLost := true }) 2 0
  else s

def execPairPathLoss (s : State) : Host.Outcome State Fault Refusal := onWf .pairPathLoss s pathLoss

/-- A drawer after a takeover (R405): fields of steps beyond the confirmed one are dropped, HELD is clear, and a state
between open and closed is settled by TCAP. -/
def settleDrawer (k : Nat) (d : Drawer) : Drawer :=
  let d := if k < d.pStep then { d with pStep := 0 } else d
  let d := { d with held := false }
  if d.state = 2 ∨ d.state = 4 ∨ d.state = 5 then { d with state := if 0 < d.tcap then 3 else 1 } else d

def settleRegion (k : Nat) (r : Region) : Region := if k < r.pStep then { r with pStep := 0 } else r

/-- The partition of mirror `p` becomes primary and is left yielded, its next step id one above the highest received. -/
def leftYielded (s : State) (p : Nat) : State :=
  let s := modPart s p fun x =>
    { x with
      role := .primary, mirrorValid := false, syncing := false, mirrorFail := 0, paired := false, stuck := 1
      pre := .yielded, nextStep := x.lastTwinStep + 1, nextRound := (x.crec.round + 1) % 2 ^ 32 }
  saveRecord s p false

/-- Takeover of partition `p` (R405, steps 1 to 5). -/
def takeOver (s : State) (p : Nat) : State :=
  let x := part s p
  let k := x.crec.pstep
  let e := x.entry
  let s := { s with
    drawers := s.drawers.map fun d =>
      if e.dbase ≤ d.1 ∧ d.1 < e.dbase + e.dlimit then (d.1, settleDrawer k d.2) else d
    regions := s.regions.map fun r => if r.1 / 8192 = p then (r.1, settleRegion k r.2) else r }
  let g := (x.crec.gen + 1) % 65536
  let s := modPart s p fun x => { x with crec := { x.crec with cstep := k, gen := g }, gen := g }
  let s := modTiers s fun m =>
    { m with ht := m.ht.map fun h => if h.2.part = p then (h.1, { h.2 with mir := false }) else h }
  let s := (s.regions.filter fun r => decide (r.1 / 8192 = p ∧ r.2.state ≠ 0 ∧ r.2.kind = 0)).foldl (fun s r =>
    releaseGrains (setRegion s p (r.1 % 8192) Region.zero) p (grainsOf r.2.base r.2.cap)) s
  let s := modPart s p fun x =>
    { x with
      budgets := x.budgets.map fun b => (b.1, { b.2 with res := 0 })
      takeover := count s, claimed := true }
  leftYielded s p

/-- A primary partition of a twin that has failed: its waiting publish completes as outside pair mode. -/
def keepAlone (s : State) (p : Nat) : State :=
  if isPrimary s p && (part s p).paired then
    modPart (leavePair s p) p fun x => { x with claimed := !(part s p).lapsing }
  else if isPrimary s p && (part s p).syncing then modPart s p fun x => { x with syncing := false }
  else s

/-- TWIN_FAILURE: both paths have been silent for 2,500 counts. -/
def twinFailed (s : State) : State :=
  if s.pair.on && !s.pair.failed && !s.boot.safe && beatsSilent s && linksSilent s then
    let s := (recordFault s 26 0xff 0xffff 0 0 0 [] none).2
    let s := modPair s fun x => { x with failed := true }
    let s := setupEnd s 0x5201 0
    let taken := (List.range 16).filter (mvalBit s)
    let s := (List.range 16).foldl keepAlone s
    pairEvent (taken.foldl takeOver s) 3 (mask16 fun p => decide (p ∈ taken))
  else s

def execTwinFailure (s : State) : Host.Outcome State Fault Refusal := onWf .twinFailure s twinFailed

/-! ### The end of pair mode (16 R407) -/

/-- A mirror partition at PAIR_END. -/
def endMirror (s : State) (p : Nat) : State :=
  let s := partitionReset (modPart s p fun x => { x with stuck := 1 }) p none 0x3005
  leftYielded (modPart (emptyPart s p) p fun x => { x with budgets := [] }) p

/-- A partition at PAIR_END. -/
def endPart (s : State) (p : Nat) : State :=
  if defined s p && isMirror s p then endMirror s p
  else modPart (leavePair s p) p fun x => { x with claimed := false, twoHomes := false }

/-- PAIR_END: a PAIR_SETUP in progress ends with 0x5201. -/
def pairEndCmd (c : Cmd) (s : State) : State :=
  let s := setupEnd s 0x5201 0
  let s := if s.pair.on then (List.range 16).foldl endPart s else s
  finish (modPair s fun x =>
    { Pair.reset with
      lastSent := x.lastSent, lastRecv := x.lastRecv, lastBeat := x.lastBeat, beatSeq := x.beatSeq, rxSeq := x.rxSeq
      lastFrame := x.lastFrame, twinP := x.twinP, twinM := x.twinM, discarded := x.discarded, beats := x.beats
      twinReplies := x.twinReplies }) c 0 0 []

def execPairEnd (s : State) : Host.Outcome State Fault Refusal :=
  onWf .pairEnd s (takeCmd 16 (opcode 0x0703) pairEndCmd)

/-! ### Replies of the twin (14 R342) -/

/-- TWIN_REPLY_RECV: a reply or event packet of the twin on stream 14 is taken. -/
def twinReply (pkt : List Byte) (s : State) : State :=
  if s.pair.on ∧ s.boot.safe = false ∧
      (s.fabric.ingress.any fun t => decide (t.strm = 14 ∧ t.ttype = 0x11 ∧ t.schip = s.pair.twin ∧
        collect (streamKey t) s.fabric.ingress = some pkt)) then
    modPair (takeMessage s 14 pkt) fun x => { x with twinReplies := x.twinReplies ++ [pkt] }
  else s

def execTwinReplyRecv (pkt : List Byte) (s : State) : Host.Outcome State Fault Refusal :=
  onWf (.twinReplyRecv pkt) s (twinReply pkt)

end Sys2Proof.Machine
end

