-- ==== Sys2Proof/Machine/Dispatch.lean ====
section
/-! DEFINITION. One arm for each command. -/

namespace Sys2Proof.Machine

def exec (i : Instr) (s : State) : Host.Outcome State Fault Refusal :=
  match i with
  | .commandPacketArrival port pkt => Sys2Proof.Machine.execCommandPacketArrival port pkt s
  | .echo q => Sys2Proof.Machine.execEcho q s
  | .identity q => Sys2Proof.Machine.execIdentity q s
  | .telemetry q => Sys2Proof.Machine.execTelemetry q s
  | .partReset p => Sys2Proof.Machine.execPartReset p s
  | .partYield p => Sys2Proof.Machine.execPartYield p s
  | .partEvict p => Sys2Proof.Machine.execPartEvict p s
  | .partResume p => Sys2Proof.Machine.execPartResume p s
  | .acctRead p => Sys2Proof.Machine.execAcctRead p s
  | .acctReadClear p => Sys2Proof.Machine.execAcctReadClear p s
  | .seed p => Sys2Proof.Machine.execSeed p s
  | .modelInstall p pkg => Sys2Proof.Machine.execModelInstall p pkg s
  | .modelSwitch p addr prog => Sys2Proof.Machine.execModelSwitch p addr prog s
  | .modelRemove p => Sys2Proof.Machine.execModelRemove p s
  | .expertMap p => Sys2Proof.Machine.execExpertMap p s
  | .balance p => Sys2Proof.Machine.execBalance p s
  | .request p adapters => Sys2Proof.Machine.execRequest p adapters s
  | .cancel p => Sys2Proof.Machine.execCancel p s
  | .budgetSet p => Sys2Proof.Machine.execBudgetSet p s
  | .budgetAdd p => Sys2Proof.Machine.execBudgetAdd p s
  | .budgetSetWeights p => Sys2Proof.Machine.execBudgetSetWeights p s
  | .budgetRead p => Sys2Proof.Machine.execBudgetRead p s
  | .drawerCreate p => Sys2Proof.Machine.execDrawerCreate p s
  | .drawerOpen p => Sys2Proof.Machine.execDrawerOpen p s
  | .drawerClose p => Sys2Proof.Machine.execDrawerClose p s
  | .drawerCommit p => Sys2Proof.Machine.execDrawerCommit p s
  | .drawerMove p => Sys2Proof.Machine.execDrawerMove p s
  | .drawerDelete p => Sys2Proof.Machine.execDrawerDelete p s
  | .drawerRead p => Sys2Proof.Machine.execDrawerRead p s
  | .grainAlloc p => Sys2Proof.Machine.execGrainAlloc p s
  | .grainMove p => Sys2Proof.Machine.execGrainMove p s
  | .grainFree p => Sys2Proof.Machine.execGrainFree p s
  | .loadGrant p => Sys2Proof.Machine.execLoadGrant p s
  | .loadData p => Sys2Proof.Machine.execLoadData p s
  | .loadCheck p => Sys2Proof.Machine.execLoadCheck p s
  | .mirrorCmd p pkg => Sys2Proof.Machine.execMirrorCmd p pkg s
  | .bootImagePiece pkt => Sys2Proof.Machine.execBootImagePiece pkt s
  | .bootFabcfgPiece pkt => Sys2Proof.Machine.execBootFabcfgPiece pkt s
  | .bootRetirePiece pkt => Sys2Proof.Machine.execBootRetirePiece pkt s
  | .bootStart pkt => Sys2Proof.Machine.execBootStart pkt s
  | .setEndpointId port op eid => Sys2Proof.Machine.execSetEndpointId port op eid s
  | .getEndpointId port => Sys2Proof.Machine.execGetEndpointId port s
  | .getMctpVersionSupport port msgType => Sys2Proof.Machine.execGetMctpVersionSupport port msgType s
  | .getMessageTypeSupport port => Sys2Proof.Machine.execGetMessageTypeSupport port s
  | .mctpUnsupportedControl port code => Sys2Proof.Machine.execMctpUnsupportedControl port code s
  | .entdaa port addr => Sys2Proof.Machine.execEntdaa port addr s
  | .setdasa port static addr => Sys2Proof.Machine.execSetdasa port static addr s
  | .nop b => Sys2Proof.Machine.execNop b s
  | .halt b => Sys2Proof.Machine.execHalt b s
  | .sbnz b => Sys2Proof.Machine.execSbnz b s
  | .sli b => Sys2Proof.Machine.execSli b s
  | .sadd b => Sys2Proof.Machine.execSadd b s
  | .smul b => Sys2Proof.Machine.execSmul b s
  | .sld b ecc => Sys2Proof.Machine.execSld b ecc s
  | .sst b => Sys2Proof.Machine.execSst b s
  | .vext b => Sys2Proof.Machine.execVext b s
  | .vbcast b => Sys2Proof.Machine.execVbcast b s
  | .viota b => Sys2Proof.Machine.execViota b s
  | .vadd b => Sys2Proof.Machine.execVadd b s
  | .vsub b => Sys2Proof.Machine.execVsub b s
  | .vmul b => Sys2Proof.Machine.execVmul b s
  | .vfma b => Sys2Proof.Machine.execVfma b s
  | .vmax b => Sys2Proof.Machine.execVmax b s
  | .vmin b => Sys2Proof.Machine.execVmin b s
  | .vabs b => Sys2Proof.Machine.execVabs b s
  | .vneg b => Sys2Proof.Machine.execVneg b s
  | .vcmp b => Sys2Proof.Machine.execVcmp b s
  | .vsel b => Sys2Proof.Machine.execVsel b s
  | .viadd b => Sys2Proof.Machine.execViadd b s
  | .vlog b => Sys2Proof.Machine.execVlog b s
  | .vshf b => Sys2Proof.Machine.execVshf b s
  | .vcvti b => Sys2Proof.Machine.execVcvti b s
  | .mtail b => Sys2Proof.Machine.execMtail b s
  | .mop b => Sys2Proof.Machine.execMop b s
  | .mset b => Sys2Proof.Machine.execMset b s
  | .vfn b => Sys2Proof.Machine.execVfn b s
  | .epld b ecc => Sys2Proof.Machine.execEpld b ecc s
  | .eprun b ecc => Sys2Proof.Machine.execEprun b ecc s
  | .vrsum b => Sys2Proof.Machine.execVrsum b s
  | .vrmax b => Sys2Proof.Machine.execVrmax b s
  | .vrargmax b => Sys2Proof.Machine.execVrargmax b s
  | .vscan b => Sys2Proof.Machine.execVscan b s
  | .vperm b => Sys2Proof.Machine.execVperm b s
  | .vcvt b => Sys2Proof.Machine.execVcvt b s
  | .vmxq b => Sys2Proof.Machine.execVmxq b s
  | .vld b ecc => Sys2Proof.Machine.execVld b ecc s
  | .vst b => Sys2Proof.Machine.execVst b s
  | .vlds b ecc => Sys2Proof.Machine.execVlds b ecc s
  | .vsts b => Sys2Proof.Machine.execVsts b s
  | .vldx b ecc => Sys2Proof.Machine.execVldx b ecc s
  | .vstx b => Sys2Proof.Machine.execVstx b s
  | .pput b => Sys2Proof.Machine.execPput b s
  | .pwr b => Sys2Proof.Machine.execPwr b s
  | .prd b ecc => Sys2Proof.Machine.execPrd b ecc s
  | .pmark b => Sys2Proof.Machine.execPmark b s
  | .coll b => Sys2Proof.Machine.execColl b s
  | .ckpop b => Sys2Proof.Machine.execCkpop b s
  | .vepoch b => Sys2Proof.Machine.execVepoch b s
  | .nsend b => Sys2Proof.Machine.execNsend b s
  | .nrecv b => Sys2Proof.Machine.execNrecv b s
  | .txf b agree ecc who => Sys2Proof.Machine.execTxf b agree ecc who s
  | .txwait b => Sys2Proof.Machine.execTxwait b s
  | .cbwr b => Sys2Proof.Machine.execCbwr b s
  | .rtsel b ecc last acts => Sys2Proof.Machine.execRtsel b ecc last acts s
  | .rtcnt b ecc => Sys2Proof.Machine.execRtcnt b ecc s
  | .vrand b => Sys2Proof.Machine.execVrand b s
  | .cktol b => Sys2Proof.Machine.execCktol b s
  | .ckcmp b => Sys2Proof.Machine.execCkcmp b s
  | .ckdone b => Sys2Proof.Machine.execCkdone b s
  | .veServiceStage b soft bad => Sys2Proof.Machine.execVeServiceStage b soft bad s
  | .mailboxWordArrival b src => Sys2Proof.Machine.execMailboxWordArrival b src s
  | .veProgramStart b pc buffer words => Sys2Proof.Machine.execVeProgramStart b pc buffer words s
  | .routerTokenArrival t src chk => Sys2Proof.Machine.execRouterTokenArrival t src chk s
  | .routerOutputGrant t inp lbl memOk => Sys2Proof.Machine.execRouterOutputGrant t inp lbl memOk s
  | .configTokenWrite t inp => Sys2Proof.Machine.execConfigTokenWrite t inp s
  | .injectorSend p j => Sys2Proof.Machine.execInjectorSend p j s
  | .steeringFiring t slot arbP => Sys2Proof.Machine.execSteeringFiring t slot arbP s
  | .counterRunStart t slot => Sys2Proof.Machine.execCounterRunStart t slot s
  | .counterEmit t slot => Sys2Proof.Machine.execCounterEmit t slot s
  | .matrixPassStart t slot memOk => Sys2Proof.Machine.execMatrixPassStart t slot memOk s
  | .gnxtTokenConsume t memOk => Sys2Proof.Machine.execGnxtTokenConsume t memOk s
  | .beatIssue t residueOk memOk => Sys2Proof.Machine.execBeatIssue t residueOk memOk s
  | .accumulatorDrain t => Sys2Proof.Machine.execAccumulatorDrain t s
  | .weightWordAccept t => Sys2Proof.Machine.execWeightWordAccept t s
  | .expanderDecode t memOk => Sys2Proof.Machine.execExpanderDecode t memOk s
  | .moveWord t slot memOk => Sys2Proof.Machine.execMoveWord t slot memOk s
  | .contextEpochEnd t slot => Sys2Proof.Machine.execContextEpochEnd t slot s
  | .tileEpochSwitch t => Sys2Proof.Machine.execTileEpochSwitch t s
  | .operandPortDelivery b lane => Sys2Proof.Machine.execOperandPortDelivery b lane s
  | .handshakeWatchdogExpiry site => Sys2Proof.Machine.execHandshakeWatchdogExpiry site s
  | .streamFeed p agree => Sys2Proof.Machine.execStreamFeed p agree s
  | .streamStage p agree => Sys2Proof.Machine.execStreamStage p agree s
  | .streamMark p => Sys2Proof.Machine.execStreamMark p s
  | .streamDrain p agree => Sys2Proof.Machine.execStreamDrain p agree s
  | .streamConfig p agree => Sys2Proof.Machine.execStreamConfig p agree s
  | .streamEnd p => Sys2Proof.Machine.execStreamEnd p s
  | .markReleaseWrite p => Sys2Proof.Machine.execMarkReleaseWrite p s
  | .streamStallExpiry p => Sys2Proof.Machine.execStreamStallExpiry p s
  | .transferGrant tier entry => Sys2Proof.Machine.execTransferGrant tier entry s
  | .transferCompletion id status => Sys2Proof.Machine.execTransferCompletion id status s
  | .transferLate id => Sys2Proof.Machine.execTransferLate id s
  | .firstFillComplete p => Sys2Proof.Machine.execFirstFillComplete p s
  | .adapterStageComplete p tenant => Sys2Proof.Machine.execAdapterStageComplete p tenant s
  | .moveCopyStart g own => Sys2Proof.Machine.execMoveCopyStart g own s
  | .moveSwitch g status => Sys2Proof.Machine.execMoveSwitch g status s
  | .moveRelease g => Sys2Proof.Machine.execMoveRelease g s
  | .moveLimitReached g => Sys2Proof.Machine.execMoveLimitReached g s
  | .htScrub bad => Sys2Proof.Machine.execHtScrub bad s
  | .pageRetirementDone tier slot => Sys2Proof.Machine.execPageRetirementDone tier slot s
  | .channelFailure tier slot => Sys2Proof.Machine.execChannelFailure tier slot s
  | .migrationStart p layer expert target => Sys2Proof.Machine.execMigrationStart p layer expert target s
  | .migrationMapUpdate p => Sys2Proof.Machine.execMigrationMapUpdate p s
  | .migrationRelease p => Sys2Proof.Machine.execMigrationRelease p s
  | .scanSegmentDone engine status => Sys2Proof.Machine.execScanSegmentDone engine status s
  | .stepBegin p addr prog more => Sys2Proof.Machine.execStepBegin p addr prog more s
  | .publishFence p sums => Sys2Proof.Machine.execPublishFence p sums s
  | .stepCommit p toks writeFail => Sys2Proof.Machine.execStepCommit p toks writeFail s
  | .verdictWatchdogExpiry p => Sys2Proof.Machine.execVerdictWatchdogExpiry p s
  | .deadlineJudgement p => Sys2Proof.Machine.execDeadlineJudgement p s
  | .biasUpdate p layer => Sys2Proof.Machine.execBiasUpdate p layer s
  | .expertDispatchRecv m => Sys2Proof.Machine.execExpertDispatchRecv m s
  | .expertCloseRecv m => Sys2Proof.Machine.execExpertCloseRecv m s
  | .expertReturnRecv m => Sys2Proof.Machine.execExpertReturnRecv m s
  | .expertCancelRecv m => Sys2Proof.Machine.execExpertCancelRecv m s
  | .expertLayerServe p layer work => Sys2Proof.Machine.execExpertLayerServe p layer work s
  | .returnLimitExpiry p layer => Sys2Proof.Machine.execReturnLimitExpiry p layer s
  | .homeCloseLimitExpiry p layer => Sys2Proof.Machine.execHomeCloseLimitExpiry p layer s
  | .linkTrainStatePass l info => Sys2Proof.Machine.execLinkTrainStatePass l info s
  | .linkTrainLimit l => Sys2Proof.Machine.execLinkTrainLimit l s
  | .sidebandSend l => Sys2Proof.Machine.execSidebandSend l s
  | .sidebandRecv msg => Sys2Proof.Machine.execSidebandRecv msg s
  | .dataFrameRecv l lanes => Sys2Proof.Machine.execDataFrameRecv l lanes s
  | .idleFrameRecv l lanes => Sys2Proof.Machine.execIdleFrameRecv l lanes s
  | .nakFrameRecv l lanes => Sys2Proof.Machine.execNakFrameRecv l lanes s
  | .laneSwapFrameRecv l lanes => Sys2Proof.Machine.execLaneSwapFrameRecv l lanes s
  | .linkUpFrameRecv l lanes => Sys2Proof.Machine.execLinkUpFrameRecv l lanes s
  | .frameTransmit l ch => Sys2Proof.Machine.execFrameTransmit l ch s
  | .idleFrameTimer l => Sys2Proof.Machine.execIdleFrameTimer l s
  | .laneLockLoss l lane => Sys2Proof.Machine.execLaneLockLoss l lane s
  | .laneErrorInterval l lane corrected symbols => Sys2Proof.Machine.execLaneErrorInterval l lane corrected symbols s
  | .laneSwapEffect l => Sys2Proof.Machine.execLaneSwapEffect l s
  | .ackProgressTimeout l => Sys2Proof.Machine.execAckProgressTimeout l s
  | .codewordAlignmentLoss l => Sys2Proof.Machine.execCodewordAlignmentLoss l s
  | .fastRecoveryTimeout l => Sys2Proof.Machine.execFastRecoveryTimeout l s
  | .transactionForward l => Sys2Proof.Machine.execTransactionForward l s
  | .remoteRead t agree => Sys2Proof.Machine.execRemoteRead t agree s
  | .remoteWrite t agree => Sys2Proof.Machine.execRemoteWrite t agree s
  | .remoteAtomic t agree => Sys2Proof.Machine.execRemoteAtomic t agree s
  | .remoteFence t => Sys2Proof.Machine.execRemoteFence t s
  | .readRsp t => Sys2Proof.Machine.execReadRsp t s
  | .writeCpl t => Sys2Proof.Machine.execWriteCpl t s
  | .atomicRsp t => Sys2Proof.Machine.execAtomicRsp t s
  | .fenceCpl t => Sys2Proof.Machine.execFenceCpl t s
  | .loadWriteIngress t agree => Sys2Proof.Machine.execLoadWriteIngress t agree s
  | .loadForward p gid => Sys2Proof.Machine.execLoadForward p gid s
  | .loadGrantExpiry p gid => Sys2Proof.Machine.execLoadGrantExpiry p gid s
  | .iberaineStatePass info => Sys2Proof.Machine.execIberaineStatePass info s
  | .rackManagerLost m => Sys2Proof.Machine.execRackManagerLost m s
  | .supplyGood rail straps => Sys2Proof.Machine.execSupplyGood rail straps s
  | .railLoss rail => Sys2Proof.Machine.execRailLoss rail s
  | .resetNRise straps => Sys2Proof.Machine.execResetNRise straps s
  | .startupSelfTest romOk sramOk badCores => Sys2Proof.Machine.execStartupSelfTest romOk sramOk badCores s
  | .startupDomains badSegs badVes badHelper => Sys2Proof.Machine.execStartupDomains badSegs badVes badHelper s
  | .startupMemory rates bad0 bad1 caps => Sys2Proof.Machine.execStartupMemory rates bad0 bad1 caps s
  | .startupTier2 ready => Sys2Proof.Machine.execStartupTier2 ready s
  | .controlRecovery failA failB => Sys2Proof.Machine.execControlRecovery failA failB s
  | .telemetryRenewal west east blocks => Sys2Proof.Machine.execTelemetryRenewal west east blocks s
  | .bistSliceStart u => Sys2Proof.Machine.execBistSliceStart u s
  | .bistSliceEnd u pass bad => Sys2Proof.Machine.execBistSliceEnd u pass bad s
  | .bistSliceAbort u => Sys2Proof.Machine.execBistSliceAbort u s
  | .bistOverdue u => Sys2Proof.Machine.execBistOverdue u s
  | .wearGaugeRenewal points => Sys2Proof.Machine.execWearGaugeRenewal points s
  | .substitutionSchedule die row seg => Sys2Proof.Machine.execSubstitutionSchedule die row seg s
  | .forcedSubstitution die row seg => Sys2Proof.Machine.execForcedSubstitution die row seg s
  | .veSubstitution b image pc => Sys2Proof.Machine.execVeSubstitution b image pc s
  | .yieldBoundary p => Sys2Proof.Machine.execYieldBoundary p s
  | .evictQuiesceEnd p => Sys2Proof.Machine.execEvictQuiesceEnd p s
  | .evictSaveComplete p => Sys2Proof.Machine.execEvictSaveComplete p s
  | .resumeReloadComplete p => Sys2Proof.Machine.execResumeReloadComplete p s
  | .pairSetupRecv m => Sys2Proof.Machine.execPairSetupRecv m s
  | .pairAllocRecv m => Sys2Proof.Machine.execPairAllocRecv m s
  | .pairFreeRecv m => Sys2Proof.Machine.execPairFreeRecv m s
  | .pairDataRecv m => Sys2Proof.Machine.execPairDataRecv m s
  | .pairEntryRecv m => Sys2Proof.Machine.execPairEntryRecv m s
  | .pairRecordRecv m => Sys2Proof.Machine.execPairRecordRecv m s
  | .pairAckRecv m => Sys2Proof.Machine.execPairAckRecv m s
  | .pairConfirmRecv m => Sys2Proof.Machine.execPairConfirmRecv m s
  | .pairHeartbeatRecv m => Sys2Proof.Machine.execPairHeartbeatRecv m s
  | .pairInvalRecv m => Sys2Proof.Machine.execPairInvalRecv m s
  | .pairSyncBeginRecv m => Sys2Proof.Machine.execPairSyncBeginRecv m s
  | .pairSyncEndRecv m => Sys2Proof.Machine.execPairSyncEndRecv m s
  | .pairAckTimeout p => Sys2Proof.Machine.execPairAckTimeout p s
  | .heartbeatFrameRecv frame => Sys2Proof.Machine.execHeartbeatFrameRecv frame s
  | .powerSample rails demandAboveL => Sys2Proof.Machine.execPowerSample rails demandAboveL s
  | .coreVoltageStep die up answered => Sys2Proof.Machine.execCoreVoltageStep die up answered s
  | .brakeAssert held => Sys2Proof.Machine.execBrakeAssert held s
  | .thermalSample west east hbm => Sys2Proof.Machine.execThermalSample west east hbm s
  | .thermalTrip die reading => Sys2Proof.Machine.execThermalTrip die reading s
  | .orphanCapApply m => Sys2Proof.Machine.execOrphanCapApply m s
  | .timerefEdge sinceAdvance => Sys2Proof.Machine.execTimerefEdge sinceAdvance s
  | .oscillatorAdvance sinceEdge => Sys2Proof.Machine.execOscillatorAdvance sinceEdge s
  | .timerefLoss sinceEdge => Sys2Proof.Machine.execTimerefLoss sinceEdge s
  | .timerefReturn present sinceAdvance => Sys2Proof.Machine.execTimerefReturn present sinceAdvance s
  | .twinReplyRecv pkt => Sys2Proof.Machine.execTwinReplyRecv pkt s
  | .partDefine => Sys2Proof.Machine.execPartDefine s
  | .layerReplace => Sys2Proof.Machine.execLayerReplace s
  | .capSet => Sys2Proof.Machine.execCapSet s
  | .brakeCfg => Sys2Proof.Machine.execBrakeCfg s
  | .orphanCfg => Sys2Proof.Machine.execOrphanCfg s
  | .emergencyRelease => Sys2Proof.Machine.execEmergencyRelease s
  | .emergencyHold => Sys2Proof.Machine.execEmergencyHold s
  | .emergencyShed => Sys2Proof.Machine.execEmergencyShed s
  | .emergencyStop => Sys2Proof.Machine.execEmergencyStop s
  | .powerRead => Sys2Proof.Machine.execPowerRead s
  | .pairSetup => Sys2Proof.Machine.execPairSetup s
  | .pairEnd => Sys2Proof.Machine.execPairEnd s
  | .replaceCopyStart => Sys2Proof.Machine.execReplaceCopyStart s
  | .replaceCopyDone => Sys2Proof.Machine.execReplaceCopyDone s
  | .iberaineStateLimit => Sys2Proof.Machine.execIberaineStateLimit s
  | .iberaineLightRetry => Sys2Proof.Machine.execIberaineLightRetry s
  | .resetNFall => Sys2Proof.Machine.execResetNFall s
  | .trainPhaseStart => Sys2Proof.Machine.execTrainPhaseStart s
  | .startupIdentity => Sys2Proof.Machine.execStartupIdentity s
  | .startupManagement => Sys2Proof.Machine.execStartupManagement s
  | .startupIberaine => Sys2Proof.Machine.execStartupIberaine s
  | .bootExchangeHello => Sys2Proof.Machine.execBootExchangeHello s
  | .startupVerification => Sys2Proof.Machine.execStartupVerification s
  | .startupFabric => Sys2Proof.Machine.execStartupFabric s
  | .startupServiceFirmware => Sys2Proof.Machine.execStartupServiceFirmware s
  | .startupReady => Sys2Proof.Machine.execStartupReady s
  | .lockstepDivergence => Sys2Proof.Machine.execLockstepDivergence s
  | .substitutionSave => Sys2Proof.Machine.execSubstitutionSave s
  | .substitutionMapWrite => Sys2Proof.Machine.execSubstitutionMapWrite s
  | .substitutionRestoreDone => Sys2Proof.Machine.execSubstitutionRestoreDone s
  | .pairSetupMessageSend => Sys2Proof.Machine.execPairSetupMessageSend s
  | .pairSetupTimeout => Sys2Proof.Machine.execPairSetupTimeout s
  | .pairHeartbeatSend => Sys2Proof.Machine.execPairHeartbeatSend s
  | .heartbeatFrameSend => Sys2Proof.Machine.execHeartbeatFrameSend s
  | .twinFailure => Sys2Proof.Machine.execTwinFailure s
  | .capResponseElapsed => Sys2Proof.Machine.execCapResponseElapsed s
  | .shedComplete => Sys2Proof.Machine.execShedComplete s
  | .unshedComplete => Sys2Proof.Machine.execUnshedComplete s
  | .brakeRelease => Sys2Proof.Machine.execBrakeRelease s
  | .thermalLimitStep => Sys2Proof.Machine.execThermalLimitStep s
  | .accountingInterval => Sys2Proof.Machine.execAccountingInterval s
  | .pairPathLoss => Sys2Proof.Machine.execPairPathLoss s
  | .syncEndAckTimeout => Sys2Proof.Machine.execSyncEndAckTimeout s
  | .alertPulseEnd => Sys2Proof.Machine.execAlertPulseEnd s

end Sys2Proof.Machine
end

