-- ==== Sys2Proof/Safety.lean ====
section
/-! DEFINITION. What the statements call a good state, and when a command acts: the words in which claims are stated. -/

namespace Sys2Proof.Machine

/-- Every byte store is in its canonical form. -/
def Mems.wf (m : Mems) : Bool :=
  m.t0.wf && m.t1.wf && m.t2.wf && m.image.wf && m.fabcfg.wf && m.retire.wf && m.sram.wf

/-- The device acts on a command: its operands name things that exist, and the device is awake for it (log entries 2 and
35). -/
abbrev Acts (i : Instr) (s : State) : Prop := i.wf = true ∧ awake i s = true

/-- The front command of queue `q` may begin, is `c`, and no gate ends it: it is about to be interpreted by the row `i` (12
R280, R284, R286, R293 to R296; 16 R379). -/
abbrev Begins (i : Instr) (s : State) (q : Nat) (c : Cmd) : Prop :=
  Acts i s ∧ front q s = some c ∧ gate (dequeue s q c) c = none

/-- The state in which a command that has begun is interpreted: it has left its queue and runs. -/
def taken (s : State) (q : Nat) (c : Cmd) : State := run (dequeue s q c) c

/-- The stream engines of partition `p` may take the descriptor `d` of a kind next, and no condition stands before it (10
R230, R232, R233). -/
abbrev TakesDesc (s : State) (p kind : Nat) (d : BitVec 256) : Prop :=
  (part s p).stream.prog[(part s p).stream.next]? = some d ∧ dKind d = kind ∧ mayTake s p d = true ∧
    (part s p).stream.cond = 0

/-- A message of the twin in pair mode, of a known form, waits at the ingress (16 R396, R403; 14 R342). -/
abbrev FromTwin (s : State) (m : PairMsg) : Prop :=
  s.boot.safe = false ∧ pairSource s m = some s.pair.twin ∧ knownMsg m = true ∧ s.pair.on = true

/-- The state in which a message of the twin is acted on: it has left the ingress, and the twin has been heard. -/
def heard (s : State) (m : PairMsg) : State := pairSeen (takePair s m)

/-- The VE of block `b` runs a program in its space, and the instruction at pc is `w`, of opcode `opc` (07 R134, R139,
R163). -/
abbrev VeReady (s : State) (b opc : Nat) (w : W64) : Prop :=
  (ve s b).running = true ∧ fetchVe (ve s b) = w ∧ iOpc w = opc ∧
    ((ve s b).buffer = true → normalOnly opc = false ∧ (ve s b).pc.toNat ≤ 2047)

/-- A segment that may replace another of its row and die: unmapped, not found bad, reading 40 or above, not under test (16
R388, R389). -/
def segUsable (s : State) (d r c : Nat) : Bool :=
  !mapped s d r c && !segBad s d r c && decide (40 ≤ marginOf s (.segment d r c)) &&
    !(s.safety.slices.any fun x => decide (x.unit = .segment d r c))

/-- The distance of two physical numbers. -/
def distance (c g : Nat) : Nat := (c - g) + (g - c)

/-- The components of the state. -/
inductive Comp where
  | pending
  | draw
  | time
  | cs
  | out
  | boot
  | lands
  | tele
  | parts
  | tiles
  | ves
  | codebook
  | veNet
  | injectOut
  | drawers
  | regions
  | mem
  | tiers
  | fabric
  | mgmtA
  | mgmtB
  | safety
  | pair
  | power
  deriving DecidableEq, Repr

/-- The two states agree in a component. -/
def Comp.same : Comp → State → State → Prop
  | .pending, s, t => t.pending = s.pending
  | .draw, s, t => t.draw = s.draw
  | .time, s, t => t.time = s.time
  | .cs, s, t => t.cs = s.cs
  | .out, s, t => t.out = s.out
  | .boot, s, t => t.boot = s.boot
  | .lands, s, t => t.lands = s.lands
  | .tele, s, t => t.tele = s.tele
  | .parts, s, t => t.parts = s.parts
  | .tiles, s, t => t.tiles = s.tiles
  | .ves, s, t => t.ves = s.ves
  | .codebook, s, t => t.codebook = s.codebook
  | .veNet, s, t => t.veNet = s.veNet
  | .injectOut, s, t => t.injectOut = s.injectOut
  | .drawers, s, t => t.drawers = s.drawers
  | .regions, s, t => t.regions = s.regions
  | .mem, s, t => t.mem = s.mem
  | .tiers, s, t => t.tiers = s.tiers
  | .fabric, s, t => t.fabric = s.fabric
  | .mgmtA, s, t => t.mgmtA = s.mgmtA
  | .mgmtB, s, t => t.mgmtB = s.mgmtB
  | .safety, s, t => t.safety = s.safety
  | .pair, s, t => t.pair = s.pair
  | .power, s, t => t.power = s.power

/-- Two states agree in every component outside a list. -/
def SameBut (fs : List Comp) (s t : State) : Prop := ∀ c, c ∉ fs → c.same s t

/-- Components that a command of each row may change, its fault reactions, events and messages included. -/
def touches : Instr → List Comp
  | .startupIdentity => [.boot]
  | .sidebandSend _ | .sidebandRecv _ | .idleFrameRecv _ _ | .laneSwapFrameRecv _ _ | .laneSwapEffect _
  | .transactionForward _ | .iberaineStateLimit | .iberaineLightRetry => [.fabric]
  | .trainPhaseStart | .alertPulseEnd => [.lands]
  | .heartbeatFrameSend => [.pair]
  | .markReleaseWrite _ | .adapterStageComplete _ _ | .biasUpdate _ _ | .returnLimitExpiry _ _ | .loadGrantExpiry _ _ =>
    [.parts]
  | .telemetryRenewal _ _ _ => [.tele]
  | .pageRetirementDone _ _ | .channelFailure _ _ | .replaceCopyStart => [.tiers]
  | .counterEmit _ _ | .tileEpochSwitch _ => [.tiles]
  | .timerefEdge _ | .oscillatorAdvance _ => [.time]
  | .bootStart _ | .startupIberaine => [.boot, .fabric]
  | .resetNRise _ => [.boot, .lands]
  | .startupServiceFirmware => [.boot, .mem]
  | .startupTier2 _ => [.boot, .tiers]
  | .echo _ | .identity _ | .telemetry _ | .budgetRead _ | .powerRead => [.cs, .out]
  | .twinReplyRecv _ => [.fabric, .pair]
  | .entdaa _ _ | .setdasa _ _ _ => [.mgmtA, .mgmtB]
  | .bootExchangeHello => [.out, .boot]
  | .injectorSend _ _ => [.parts, .injectOut]
  | .accountingInterval => [.parts, .power]
  | .migrationRelease _ => [.parts, .tiers]
  | .mailboxWordArrival _ _ => [.ves, .veNet]
  | .startupFabric => [.boot, .lands, .fabric]
  | .bootImagePiece _ | .bootFabcfgPiece _ | .bootRetirePiece _ => [.boot, .mem, .fabric]
  | .startupManagement => [.boot, .mgmtA, .mgmtB]
  | .drawerCreate _ => [.cs, .out, .drawers]
  | .linkTrainStatePass _ _ | .linkTrainLimit _ | .nakFrameRecv _ _ | .linkUpFrameRecv _ _ | .laneLockLoss _ _
  | .laneErrorInterval _ _ _ _ | .ackProgressTimeout _ | .codewordAlignmentLoss _ | .fastRecoveryTimeout _
  | .iberaineStatePass _ => [.cs, .out, .fabric]
  | .pairSetupTimeout | .pairPathLoss => [.cs, .out, .pair]
  | .partYield _ | .partResume _ | .acctRead _ | .acctReadClear _ | .seed _ | .balance _ | .drawerCommit _
  | .homeCloseLimitExpiry _ _ => [.cs, .out, .parts]
  | .capResponseElapsed | .shedComplete => [.cs, .out, .power]
  | .wearGaugeRenewal _ => [.cs, .out, .safety]
  | .drawerRead _ | .grainMove _ | .layerReplace => [.cs, .out, .tiers]
  | .veProgramStart _ _ _ _ => [.draw, .tiles, .ves]
  | .setEndpointId _ _ _ | .getEndpointId _ | .getMctpVersionSupport _ _ | .getMessageTypeSupport _
  | .mctpUnsupportedControl _ _ => [.out, .mgmtA, .mgmtB]
  | .migrationStart _ _ _ _ | .migrationMapUpdate _ => [.parts, .mem, .tiers]
  | .substitutionRestoreDone => [.parts, .tiles, .safety]
  | .timerefLoss _ | .timerefReturn _ _ => [.time, .cs, .out]
  | .bistOverdue _ => [.cs, .out, .lands, .safety]
  | .expertMap _ => [.cs, .out, .mem, .tiers]
  | .rackManagerLost _ => [.cs, .out, .mgmtA, .mgmtB]
  | .drawerClose _ => [.cs, .out, .parts, .drawers]
  | .expertDispatchRecv _ | .expertCloseRecv _ | .expertCancelRecv _ | .expertLayerServe _ _ _ | .frameTransmit _ _
  | .idleFrameTimer _ | .remoteFence _ | .loadForward _ _ => [.cs, .out, .parts, .fabric]
  | .syncEndAckTimeout => [.cs, .out, .parts, .pair]
  | .modelInstall _ _ | .loadGrant _ | .loadData _ | .loadCheck _ => [.cs, .out, .parts, .tiers]
  | .startupReady => [.cs, .out, .boot, .tiers, .safety]
  | .coreVoltageStep _ _ _ => [.cs, .out, .lands, .safety, .power]
  | .budgetSet _ | .budgetAdd _ | .budgetSetWeights _ | .pairSetupMessageSend | .pairHeartbeatSend =>
    [.cs, .out, .parts, .fabric, .pair]
  | .modelSwitch _ _ _ | .yieldBoundary _ | .evictSaveComplete _ | .replaceCopyDone =>
    [.cs, .out, .parts, .mem, .tiers]
  | .expertReturnRecv _ => [.cs, .out, .parts, .ves, .fabric]
  | .unshedComplete => [.draw, .cs, .out, .tiers, .power]
  | .bistSliceStart _ => [.tele, .parts, .mem, .tiers, .safety]
  | .startupVerification => [.cs, .out, .boot, .mem, .tiers, .fabric]
  | .substitutionSave => [.cs, .out, .parts, .mem, .tiers, .safety]
  | .grainFree _ => [.cs, .out, .parts, .tiers, .fabric, .pair]
  | .powerSample _ _ => [.draw, .cs, .out, .lands, .safety, .power]
  | .bistSliceAbort _ => [.draw, .tele, .parts, .tiles, .ves, .safety]
  | .commandPacketArrival _ _ => [.cs, .out, .boot, .parts, .fabric, .mgmtA, .mgmtB]
  | .dataFrameRecv _ _ | .pairRecordRecv _ | .pairConfirmRecv _ | .pairHeartbeatRecv _ | .pairInvalRecv _
  | .pairSyncBeginRecv _ | .pairSyncEndRecv _ | .pairAckTimeout _ =>
    [.cs, .out, .lands, .parts, .fabric, .safety, .pair]
  | .remoteRead _ _ | .remoteWrite _ _ | .remoteAtomic _ _ | .loadWriteIngress _ _ =>
    [.cs, .out, .lands, .parts, .tiers, .fabric, .safety]
  | .drawerDelete _ => [.cs, .out, .parts, .drawers, .tiers, .fabric, .pair]
  | .grainAlloc _ => [.cs, .out, .parts, .mem, .tiers, .fabric, .pair]
  | .modelRemove _ => [.cs, .out, .parts, .regions, .tiers, .fabric, .pair]
  | .resumeReloadComplete _ => [.draw, .cs, .out, .parts, .tiles, .ves, .codebook]
  | .pairFreeRecv _ => [.cs, .out, .lands, .parts, .tiers, .fabric, .safety, .pair]
  | .cancel _ | .deadlineJudgement _ => [.cs, .out, .parts, .drawers, .regions, .tiers, .fabric, .pair]
  | .pairEntryRecv _ => [.cs, .out, .lands, .parts, .drawers, .regions, .fabric, .safety, .pair]
  | .pairDataRecv _ => [.cs, .out, .lands, .parts, .mem, .tiers, .fabric, .safety, .pair]
  | .mirrorCmd _ _ => [.cs, .out, .parts, .drawers, .regions, .mem, .tiers, .fabric, .pair]
  | .firstFillComplete _ => [.draw, .cs, .out, .parts, .regions, .mem, .tiers, .fabric, .pair]
  | .pairAllocRecv _ => [.draw, .cs, .out, .lands, .parts, .mem, .tiers, .fabric, .safety, .pair]
  | .request _ _ | .drawerOpen _ | .drawerMove _ | .moveRelease _ | .scanSegmentDone _ _ | .stepBegin _ _ _ _ =>
    [.draw, .cs, .out, .parts, .drawers, .regions, .mem, .tiers, .fabric, .pair]
  | .publishFence _ _ => [.draw, .cs, .out, .parts, .tiles, .drawers, .regions, .tiers, .fabric, .pair]
  | .transferGrant _ _ | .readRsp _ | .writeCpl _ | .atomicRsp _ | .fenceCpl _ =>
    [.draw, .cs, .out, .parts, .ves, .drawers, .regions, .tiers, .fabric, .pair]
  | .startupSelfTest _ _ _ | .startupMemory _ _ _ _ =>
    [.draw, .cs, .out, .boot, .parts, .tiles, .drawers, .regions, .tiers, .fabric, .pair]
  | .stepCommit _ _ _ => [.draw, .cs, .out, .parts, .tiles, .drawers, .regions, .mem, .tiers, .fabric, .pair]
  | .partEvict _ | .transferCompletion _ _ | .transferLate _ | .moveCopyStart _ _ | .moveSwitch _ _
  | .moveLimitReached _ => [.draw, .cs, .out, .parts, .ves, .drawers, .regions, .mem, .tiers, .fabric, .pair]
  | .pairAckRecv _ | .heartbeatFrameRecv _ | .twinFailure =>
    [.draw, .cs, .out, .lands, .parts, .drawers, .regions, .mem, .tiers, .fabric, .safety, .pair]
  | .orphanCapApply _ | .capSet | .brakeCfg | .orphanCfg | .thermalLimitStep =>
    [.draw, .cs, .out, .parts, .ves, .drawers, .regions, .mem, .tiers, .fabric, .pair, .power]
  | .substitutionSchedule _ _ _ | .substitutionMapWrite =>
    [.draw, .cs, .out, .lands, .parts, .tiles, .drawers, .regions, .mem, .tiers, .fabric, .safety, .pair]
  | .brakeAssert _ | .brakeRelease =>
    [.draw, .cs, .out, .lands, .parts, .ves, .drawers, .regions, .mem, .tiers, .fabric, .pair, .power]
  | .htScrub _ => [.draw, .cs, .out, .lands, .parts, .ves, .drawers, .regions, .mem, .tiers, .fabric, .safety, .pair]
  | .evictQuiesceEnd _ =>
    [.draw, .cs, .out, .parts, .tiles, .ves, .veNet, .injectOut, .drawers, .regions, .tiers, .fabric, .pair]
  | .thermalTrip _ _ =>
    [.draw, .cs, .out, .boot, .lands, .parts, .tiles, .drawers, .regions, .tiers, .fabric, .safety, .pair, .power]
  | .emergencyRelease | .emergencyHold | .emergencyShed | .emergencyStop =>
    [.draw, .cs, .out, .boot, .parts, .tiles, .ves, .drawers, .regions, .mem, .tiers, .fabric, .pair, .power]
  | .thermalSample _ _ _ =>
    [.draw, .cs, .out, .lands, .parts, .ves, .drawers, .regions, .mem, .tiers, .fabric, .safety, .pair, .power]
  | .partReset _ | .partDefine | .pairSetup | .pairEnd =>
    [.draw, .cs, .out, .parts, .tiles, .ves, .veNet, .injectOut, .drawers, .regions, .mem, .tiers, .fabric, .pair]
  | .controlRecovery _ _ =>
    [.draw, .cs, .out, .boot, .parts, .tiles, .ves, .veNet, .injectOut, .drawers, .regions, .mem, .tiers, .fabric,
    .pair]
  | .startupDomains _ _ _ =>
    [.draw, .cs, .out, .boot, .tele, .parts, .tiles, .ves, .drawers, .regions, .tiers, .fabric, .safety, .pair,
    .power]
  | .nop _ | .halt _ | .sbnz _ | .sli _ | .sadd _ | .smul _ | .sld _ _ | .sst _ | .vext _ | .vbcast _ | .viota _
  | .vadd _ | .vsub _ | .vmul _ | .vfma _ | .vmax _ | .vmin _ | .vabs _ | .vneg _ | .vcmp _ | .vsel _ | .viadd _
  | .vlog _ | .vshf _ | .vcvti _ | .mtail _ | .mop _ | .mset _ | .vfn _ | .epld _ _ | .eprun _ _ | .vrsum _
  | .vrmax _ | .vrargmax _ | .vscan _ | .vperm _ | .vcvt _ | .vmxq _ | .vld _ _ | .vst _ | .vlds _ _ | .vsts _
  | .vldx _ _ | .vstx _ | .pput _ | .pwr _ | .prd _ _ | .pmark _ | .coll _ | .ckpop _ | .vepoch _ | .nsend _
  | .nrecv _ | .txf _ _ _ _ | .txwait _ | .rtsel _ _ _ _ | .rtcnt _ _ | .vrand _ | .cktol _ | .ckcmp _ | .ckdone _
  | .veServiceStage _ _ _ | .routerTokenArrival _ _ _ | .routerOutputGrant _ _ _ _ | .configTokenWrite _ _
  | .steeringFiring _ _ _ | .counterRunStart _ _ | .matrixPassStart _ _ _ | .gnxtTokenConsume _ _ | .beatIssue _ _ _
  | .accumulatorDrain _ | .weightWordAccept _ | .expanderDecode _ _ | .moveWord _ _ _ | .contextEpochEnd _ _
  | .operandPortDelivery _ _ | .handshakeWatchdogExpiry _ | .streamFeed _ _ | .streamStage _ _ | .streamMark _
  | .streamDrain _ _ | .streamConfig _ _ | .streamEnd _ | .streamStallExpiry _ | .verdictWatchdogExpiry _ =>
    [.draw, .cs, .out, .lands, .parts, .tiles, .ves, .veNet, .injectOut, .drawers, .regions, .tiers, .fabric,
    .safety, .pair]
  | .lockstepDivergence =>
    [.draw, .cs, .out, .boot, .lands, .parts, .tiles, .ves, .veNet, .injectOut, .drawers, .regions, .tiers, .fabric,
    .safety, .pair]
  | .bistSliceEnd _ _ _ =>
    [.draw, .cs, .out, .boot, .lands, .tele, .parts, .tiles, .ves, .drawers, .regions, .mem, .tiers, .fabric,
    .safety, .pair]
  | .cbwr _ =>
    [.draw, .cs, .out, .lands, .parts, .tiles, .ves, .codebook, .veNet, .injectOut, .drawers, .regions, .tiers,
    .fabric, .safety, .pair]
  | .pairSetupRecv _ =>
    [.draw, .cs, .out, .lands, .parts, .tiles, .ves, .veNet, .injectOut, .drawers, .regions, .mem, .tiers, .fabric,
    .safety, .pair]
  | .forcedSubstitution _ _ _ | .veSubstitution _ _ _ =>
    [.draw, .cs, .out, .lands, .parts, .tiles, .ves, .codebook, .veNet, .injectOut, .drawers, .regions, .mem, .tiers,
    .fabric, .safety, .pair]
  | .resetNFall =>
    [.cs, .out, .boot, .lands, .tele, .parts, .tiles, .ves, .codebook, .veNet, .injectOut, .drawers, .regions, .mem,
    .tiers, .fabric, .mgmtA, .mgmtB, .safety, .pair, .power]
  | .railLoss _ =>
    [.draw, .cs, .out, .boot, .lands, .tele, .parts, .tiles, .ves, .codebook, .veNet, .injectOut, .drawers, .regions,
    .mem, .tiers, .fabric, .mgmtA, .mgmtB, .safety, .pair, .power]
  | .supplyGood _ _ =>
    [.time, .cs, .out, .boot, .lands, .tele, .parts, .tiles, .ves, .codebook, .veNet, .injectOut, .drawers, .regions,
    .mem, .tiers, .fabric, .mgmtA, .mgmtB, .safety, .pair, .power]

end Sys2Proof.Machine
end

