-- ==== Sys2Proof/Certificates/Slice0/Obligations.lean ====
section
/-! DEFINITION. The statements. Each is about the model alone; its docstring names the rules of the spec it rests on. -/

open Sys2Proof Sys2Proof.Machine

/-! ### Commands of the masters -/

/-- Reports. ECHO answers with its own parameter block, IDENTITY with the identity report over its nonce, TELEMETRY of a
defined group with that group's record, POWER_READ with the power report, ACCT_READ with the counters, which CLR
clears, and BUDGET_READ with the tenant's entry; each with status 0. Nothing but the sequencer, the replies and, for a
clear, the counters changes (12 Tables 5 and 6; 13 R313; 15 R367, R368; 17 R412). -/
def Obligations.ReportCommandsComplete : Prop :=
  (∀ s q c, Begins (.echo q) s q c → c.opc = 0x0001 →
    exec (.echo q) s = .next (finish (taken s q c) c 0 0 c.params)) ∧
  (∀ s q c, Begins (.identity q) s q c → c.opc = 0x0002 →
    exec (.identity q) s = .next (finish (taken s q c) c 0 0 (identityReport (taken s q c) (sub c.params 0 32)))) ∧
  (∀ s q c, Begins (.telemetry q) s q c → c.opc = 0x0003 → pf c 0 4 ≤ 4 →
    exec (.telemetry q) s =
      .next (finish (taken s q c) c 0 0 (teleRecord (taken s q c) c.part (pf c 0 4)))) ∧
  (∀ s c, Begins .powerRead s 16 c → c.opc = 0x0605 →
    exec .powerRead s = .next (finish (taken s 16 c) c 0 0 (powerBody (taken s 16 c)))) ∧
  (∀ s p c, Begins (.acctRead p) s p c → c.opc = 0x0106 → pf c 0 1 = 0 →
    exec (.acctRead p) s = .next (finish (taken s p c) c 0 0 (acctBytes (taken s p c) c.part))) ∧
  (∀ s p c, Begins (.acctReadClear p) s p c → c.opc = 0x0106 → pf c 0 1 = 1 → c.port = 0 →
    exec (.acctReadClear p) s =
      .next (finish
        (modPart (taken s p c) c.part fun x =>
          { x with acct := { Acct.zero with since := x.acct.now, now := x.acct.now, act := x.acct.act } })
        c 0 0 (acctBytes (taken s p c) c.part))) ∧
  (∀ s p c, Begins (.budgetRead p) s p c → c.opc = 0x0304 →
    exec (.budgetRead p) s =
      .next (finish (taken s p c) c 0 0 (budgetBytes (budget (part (taken s p c) c.part) (pf c 0 1)))))

/-- The life of a partition. PART_DEFINE of an unused partition with no reserved value makes it primary; PART_RESET runs
the partition reset; PART_YIELD of a running partition asks for a yield; PART_EVICT of one that is not evicted begins
the eviction; PART_RESUME of a yielded partition that no unusable column holds runs it again, and of an evicted one
begins the reload (13 R301, R305 to R312). -/
def Obligations.PartitionCommandsComplete : Prop :=
  (∀ s c, Begins .partDefine s 16 c → c.opc = 0x0101 → prePhase (part s (pf c 1 1 % 16)) = false →
    defined (taken s 16 c) (pf c 1 1 % 16) = false → defineRefused (taken s 16 c) c = none → pf c 4 2 ≠ 0 →
    exec .partDefine s =
      .next (finish (makePrimary (taken s 16 c) (pf c 1 1 % 16) (definedEntry c)) c 0 0 [])) ∧
  (∀ s p c, Begins (.partReset p) s p c → c.opc = 0x0102 → prePhase (part s p) = false →
    exec (.partReset p) s = .next (finish (partitionReset (taken s p c) p (some c) 0x3005) c 0 0 [])) ∧
  (∀ s p c, Begins (.partYield p) s p c → c.opc = 0x0103 → (part (taken s p c) p).pre = .running →
    prePhase (part s p) = false →
    exec (.partYield p) s =
      .next (modPart (taken s p c) p fun x => { x with pre := .yielding, yieldCmd := some c, chained := false })) ∧
  (∀ s p c, Begins (.partEvict p) s p c → c.opc = 0x0104 → prePhase (part s p) = false →
    (part (taken s p c) p).pre ≠ .evicted →
    exec (.partEvict p) s =
      .next (evictBegin (modPart (taken s p c) p fun x => { x with evictCmd := some c }) p)) ∧
  (∀ s p c, Begins (.partResume p) s p c → c.opc = 0x0105 → prePhase (part s p) = false →
    (part (taken s p c) p).pre = .yielded → (part (taken s p c) p).stuck ≠ 2 →
    exec (.partResume p) s = .next (finish (runAgain (taken s p c) p) c 0 0 [])) ∧
  (∀ s p c, Begins (.partResume p) s p c → c.opc = 0x0105 → prePhase (part s p) = false →
    (part (taken s p c) p).pre = .evicted →
    exec (.partResume p) s =
      .next (modPart (taken s p c) p fun x => { x with pre := .reloading, resumeCmd := some c }))

/-- The ends of the phases of pre-emption. At its boundary a yielding partition writes its record and is yielded; a
quiesced eviction ends the running step with its members admitted and saves; the saved partition is evicted with its
image kept; the reloaded one runs (13 Table 6, R305 to R310). -/
def Obligations.PreemptionPhasesComplete : Prop :=
  (∀ s p, Acts (.yieldBoundary p) s → (part s p).pre = .yielding → (part s p).step = none →
    exec (.yieldBoundary p) s =
      .next (finishOpt (modPart (saveRecord (dropAppended s p) p false) p fun x =>
        { x with pre := .yielded, yieldCmd := none }) (part s p).yieldCmd 0)) ∧
  (∀ s p, Acts (.evictQuiesceEnd p) s → (part s p).pre = .quiescing → stillFlying s p = false →
    ∃ t, exec (.evictQuiesceEnd p) s = .next t ∧ (part t p).pre = .saving ∧
      ∃ s', t = modPart (freezeArray (stepAbandon s' p 0 0 true) p) p fun x => { x with pre := .saving }) ∧
  (∀ s p, Acts (.evictSaveComplete p) s → (part s p).pre = .saving → (part s p).evictCmd = none →
    exec (.evictSaveComplete p) s =
      .next (modPart (countTier (saveRecord s p true) p 0 true (37355520 * (colsOf (part s p)).length)) p fun x =>
        { x with
          pre := .evicted, evictCmd := none
          image := some { tiles := (tilesOf s (part s p)).map (tileRec s), ves := (blocksOf (part s p)).map (veRec s) } })) ∧
  (∀ s p, Acts (.resumeReloadComplete p) s → (part s p).pre = .reloading →
    ∃ t, exec (.resumeReloadComplete p) s = .next (finishOpt t (part s p).resumeCmd 0) ∧
      (part t p).pre = (if (part t p).stuck = 0 then .running else .yielded) ∧ (part t p).image = none ∧
      (part t p).resumeCmd = none)

/-- Seed, models and balancing. SEED writes the partition's rounding seed; MODEL_INSTALL that no check refuses installs
the configuration that its block and its package describe; MODEL_REMOVE of an installed model that is neither active
nor a switch's target takes it away; MODEL_SWITCH of an installed model on a partition between steps gives its first
program to the engines; EXPERT_MAP writes the 16 bytes of the entry; BALANCE sets the parameters (04 R85; 08 R176,
R178; 10 R247; 12 R291). -/
def Obligations.ModelCommandsComplete : Prop :=
  (∀ s p c, Begins (.seed p) s p c → c.opc = 0x0107 →
    exec (.seed p) s =
      .next (finish (modPart (taken s p c) c.part fun x => { x with seed := BitVec.ofNat 64 (pf c 0 8) }) c 0 0 [])) ∧
  (∀ s p c pkg, Begins (.modelInstall p pkg) s p c → c.opc = 0x0201 → installReserved c (taken s p c) = none →
    isVerified s (pf c 0x20 8) = true → (part (taken s p c) c.part).active ≠ some (pf c 0 2) →
    switchTarget (taken s p c) c.part (pf c 0 2) = false →
    framesInRanges (part (taken s p c) c.part) 0 (pf c 0x14 4) (pf c 0x18 4 + pf c 0x1c 4) false = true →
    tablesInRanges (taken s p c) c.part pkg c = true →
    ∃ u, u = remark (dropModel (taken s p c) c.part (pf c 0 2)) (pf c 0x14 4) .free .plain (pf c 0x18 4 + pf c 0x1c 4) ∧
      exec (.modelInstall p pkg) s =
        .next (finish (modPart u c.part fun x =>
          { x with models := tset x.models (pf c 0 2) (newModel c pkg (count u)) }) c 0 0 [])) ∧
  (∀ s p c m, Begins (.modelRemove p) s p c → c.opc = 0x0203 → pf c 0 2 ≤ 1023 →
    tfind (part (taken s p c) c.part).models (pf c 0 2) = some m → (part (taken s p c) c.part).active ≠ some (pf c 0 2) →
    switchTarget (taken s p c) c.part (pf c 0 2) = false →
    exec (.modelRemove p) s =
      .next (finish (dropModel (freeObuf (taken s p c) c.part (pf c 0 2) m.obuf) c.part (pf c 0 2)) c 0 0 [])) ∧
  (∀ s p addr prog c m, Begins (.modelSwitch p addr prog) s p c → c.opc = 0x0202 → switchFree s p addr prog = true →
    pf c 0 2 ≤ 1023 → tfind (part (taken s p c) c.part).models (pf c 0 2) = some m →
    exec (.modelSwitch p addr prog) s =
      .next (loadProgram (modPart (lastDrain (taken s p c) c.part) c.part fun x =>
        { x with
          active := none, switching := some { mcid := pf c 0 2, cmd := c, phase := 2 }, chained := false
          filling := false }) c.part addr prog)) ∧
  (∀ s p c m, Begins (.expertMap p) s p c → c.opc = 0x0204 → (part s p).step = none →
    activeModel (part (taken s p c) c.part) = some m → nfld (pf c 2 2) 0 10 < expertsOf m (pf c 0 2) →
    let ent := entryBytes (parseX (sub c.params 8 16))
    ((parseX ent).v = true → (parseX ent).hmem < m.gsize) →
    bytesInRanges (part (taken s p c) c.part) 0 (mapOffset m (pf c 0 2) (nfld (pf c 2 2) 0 10)) 16 false = true →
    tierAccess (taken s p c) 0 (mapOffset m (pf c 0 2) (nfld (pf c 2 2) 0 10)) 16 true = 0 →
    exec (.expertMap p) s =
      .next (finish (writeTier (taken s p c) 0 (mapOffset m (pf c 0 2) (nfld (pf c 2 2) 0 10)) ent)
        c 0 0 [])) ∧
  (∀ s p c m id, Begins (.balance p) s p c → c.opc = 0x0205 → balanceReserved c = none →
    (part (taken s p c) c.part).active = some id → activeModel (part (taken s p c) c.part) = some m →
    (pf c 0 2 = 0xffff ∨ thas m.bal (pf c 0 2) = true) →
    ∃ m' : Model, m'.bal.map (fun e => e.1) = m.bal.map (fun e => e.1) ∧
      (∀ k b, (k, b) ∈ m.bal → (pf c 0 2 = k ∨ pf c 0 2 = 0xffff) → winner (taken s p c) c (6, c.part, k) = none →
        (k, setBalance (count s) (decide (pf c 2 1 = 1)) (pf c 4 2) (BitVec.ofNat 16 (pf c 6 2))
          (BitVec.ofNat 16 (pf c 8 2)) b) ∈ m'.bal) ∧
      exec (.balance p) s =
        .next (finish (modPart (taken s p c) c.part fun x => { x with models := tset x.models id m' }) c 0 0 []))

/-- Requests and budgets. An admissible REQUEST reserves its worst-case charge, takes the lowest free index and is
admitted; a CANCEL of a request that is in no running step and whose publish does not wait ends it with 0x3003; the
BUDGET commands set BAL, add to it with saturation, and set the weights, and answer with the entry (01 R13; 11 R256 to
R260). -/
def Obligations.ServingCommandsComplete : Prop :=
  (∀ s p adapters c m reg u b, Begins (.request p adapters) s p c → c.opc = 0x0301 → switchWaits s p = false →
    requestReserved c none = none → activeModel (part (taken s p c) c.part) = some m →
    requestReserved c (some m.vocab) = none →
    let v := taken s p c
    let w := takeWeights v c.part (pf c 0 1) m
    let d := if pf c 4 4 = 0xffffffff then none else some (drawerIdx v c.part (pf c 4 4))
    let lines := (pf c 8 2 + pf c 10 2) * m.tbpp
    let index := freeIndex (part v c.part)
    let objs := objectsFor v m c adapters
    let area := adapterRoom v c.part m (objs.map fun e => e.2).sum
    admitChecks v c.part m c d (pf c 4 4) ((placeFor v c.part index d lines).isSome && (decide (objs = []) || area.isSome)) = 0 →
    placeFor w c.part index d lines = some (reg, u) →
    b = budget (part w c.part) (pf c 0 1) →
    ((b.inW * pf c 8 2 + b.outW * pf c 10 2 : Nat) : Int) ≤ b.bal - b.res →
    exec (.request p adapters) s = .next (enroll u c.part m c d reg index (area.getD 0) objs)) ∧
  (∀ s p c r, Begins (.cancel p) s p c → c.opc = 0x0302 →
    (part (taken s p c) c.part).cancelDone = [] → (part (taken s p c) c.part).step = none →
    (part (taken s p c) c.part).pub = none →
    (part (taken s p c) c.part).reqs.find? (fun r => decide (r.cmd.port = pf c 0 1 ∧ r.cmd.seq = pf c 4 4)) = some r →
    exec (.cancel p) s = .next (reqEnd (addCancel (taken s p c) c.part r.index c) c.part r.index 0x3003 0)) ∧
  (∀ s p c, Begins (.budgetSet p) s p c → c.opc = 0x0303 → pf c 1 1 = 0 →
    let b := { budget (part (taken s p c) c.part) (pf c 0 1) with bal := sgn 64 (pf c 8 8) }
    exec (.budgetSet p) s =
      .next (finish (sendBudget (setBudget (taken s p c) c.part (pf c 0 1) b) c.part (pf c 0 1)) c 0 0 (budgetBytes b))) ∧
  (∀ s p c, Begins (.budgetAdd p) s p c → c.opc = 0x0303 → pf c 1 1 = 1 →
    let a := budget (part (taken s p c) c.part) (pf c 0 1)
    let b := { a with bal := satBal (a.bal + sgn 64 (pf c 8 8)) }
    exec (.budgetAdd p) s =
      .next (finish (sendBudget (setBudget (taken s p c) c.part (pf c 0 1) b) c.part (pf c 0 1)) c 0 0 (budgetBytes b))) ∧
  (∀ s p c, Begins (.budgetSetWeights p) s p c → c.opc = 0x0303 → pf c 1 1 = 2 →
    let b := { budget (part (taken s p c) c.part) (pf c 0 1) with inW := pf c 2 1, outW := pf c 3 1, wset := true }
    exec (.budgetSetWeights p) s =
      .next (finish (sendBudget (setBudget (taken s p c) c.part (pf c 0 1) b) c.part (pf c 0 1)) c 0 0 (budgetBytes b)))

/-- Drawers. CREATE of a free entry makes it closed and empty; DELETE of a closed one zeroes it and releases its grains;
OPEN, CLOSE, COMMIT and MOVE of a drawer in the state they accept set its STATE and begin their operation; READ begins
the read of the lines that the host sees, of the summary or of the tail (11 Table 6, R266 to R273). -/
def Obligations.DrawerCommandsComplete : Prop :=
  (∀ s p c, Begins (.drawerCreate p) s p c → c.opc = 0x0401 → 0 < pf c 4 4 → pf c 4 4 ≤ 16384 →
    drawerRefused (taken s p c) c.part (pf c 0 4) [0] = 0 →
    exec (.drawerCreate p) s =
      .next (finish (setDrawer (taken s p c) (drawerIdx (taken s p c) c.part (pf c 0 4))
        { Drawer.zero with state := 1, size := pf c 4 4, tenant := pf c 8 1 }) c 0 0 [])) ∧
  (∀ s p c, Begins (.drawerDelete p) s p c → c.opc = 0x0406 → isMirror (taken s p c) c.part = false →
    drawerRefused (taken s p c) c.part (pf c 0 4) [1, 6] = 0 →
    let i := drawerIdx (taken s p c) c.part (pf c 0 4)
    isMirror (setDrawer (taken s p c) i Drawer.zero) c.part = false →
    exec (.drawerDelete p) s =
      .next (finish (releaseGrains (setDrawer (taken s p c) i Drawer.zero) c.part
        (grainsOfDrawer (part (taken s p c) c.part) (drawer (taken s p c) i))) c 0 0 [])) ∧
  (∀ s p c, Begins (.drawerOpen p) s p c → c.opc = 0x0402 →
    drawerRefused (taken s p c) c.part (pf c 0 4) [1] = 0 →
    let i := drawerIdx (taken s p c) c.part (pf c 0 4)
    let d := drawer (taken s p c) i
    let v := (part (taken s p c) c.part).crec.cstep
    0 < visSlen d v →
    exec (.drawerOpen p) s =
      .next (addScan
        (addOp (setDrawerState (taken s p c) i 2) c.part (newOp c 2 i 0 0 0 (summaryGrains (taken s p c) c.part i)))
        (summaryAddr (addOp (setDrawerState (taken s p c) i 2) c.part
          (newOp c 2 i 0 0 0 (summaryGrains (taken s p c) c.part i))) (visSbase d v))
        (64 * visSlen d v) (visCheck d v).toNat true false true 0 (.open_ c.part i))) ∧
  (∀ s p c, Begins (.drawerClose p) s p c → c.opc = 0x0403 → pf c 4 1 ≤ 2 →
    hasTier (part (taken s p c) c.part) (pf c 4 1) = true →
    drawerRefused (taken s p c) c.part (pf c 0 4) [3] = 0 →
    let i := drawerIdx (taken s p c) c.part (pf c 0 4)
    (drawer (taken s p c) i).held = false →
    exec (.drawerClose p) s =
      .next (addOp (setDrawerState (taken s p c) i 4) c.part (newOp c 3 i (pf c 4 1) 2 0 []))) ∧
  (∀ s p c, Begins (.drawerCommit p) s p c → c.opc = 0x0404 →
    drawerRefused (taken s p c) c.part (pf c 0 4) [3] = 0 →
    let i := drawerIdx (taken s p c) c.part (pf c 0 4)
    let d := drawer (taken s p c) i
    d.held = false → visTlen d (visStep (part (taken s p c) c.part) false) ≤ pf c 4 4 → pf c 4 4 ≤ d.tcap →
    exec (.drawerCommit p) s = .next (addOp (taken s p c) c.part (newOp c 4 i 0 2 (pf c 4 4) []))) ∧
  (∀ s p c, Begins (.drawerMove p) s p c → c.opc = 0x0405 → pf c 4 1 ≤ 2 →
    hasTier (part (taken s p c) c.part) (pf c 4 1) = true →
    drawerRefused (taken s p c) c.part (pf c 0 4) [1] = 0 →
    let i := drawerIdx (taken s p c) c.part (pf c 0 4)
    let op := newOp c 5 i (pf c 4 1) 1 0 (summaryGrains (taken s p c) c.part i)
    exec (.drawerMove p) s =
      .next (opAdvance (addOp (setDrawerState (taken s p c) i 5) c.part op) c.part op)) ∧
  (∀ s p c, Begins (.drawerRead p) s p c → c.opc = 0x0407 → pf c 4 1 ≤ 1 → 0 < pf c 12 4 → pf c 12 4 ≤ 4096 →
    drawerRefused (taken s p c) c.part (pf c 0 4) [1, 2, 3, 6] = 0 →
    let d := drawer (taken s p c) (drawerIdx (taken s p c) c.part (pf c 0 4))
    let v := visStep (part (taken s p c) c.part) false
    let space := if pf c 4 1 = 0 then (visSbase d v, visSlen d v) else (d.tbase, visTlen d v)
    d.state ≠ 6 → pf c 8 4 + pf c 12 4 ≤ space.2 →
    exec (.drawerRead p) s =
      .next (pendRead (taken s p c) c.part c (unitOff space.1 + 64 * pf c 8 4) (64 * pf c 12 4)))

/-- Grains and loads. GRAIN_ALLOC, GRAIN_MOVE and GRAIN_FREE that the trusted monitor does not refuse run the home table
operation; LOAD_GRANT that no check refuses opens the grant; LOAD_DATA within an open grant begins its writes;
LOAD_CHECK closes its grant and begins the check of every object once the grant's writes in flight have completed;
LAYER_REPLACE of a verified source with the target's shape waits at its barrier (09 Table 7; 10 R239 to R242, R249). -/
def Obligations.MemoryCommandsComplete : Prop :=
  (∀ s p c t, Begins (.grainAlloc p) s p c → c.opc = 0x0501 → grainRefused c (taken s p c) true = none →
    htAlloc (taken s p c) (pf c 0 4) c.part (pf c 4 1) (pf c 8 4) (isMirror (taken s p c) c.part) = (0, t) →
    exec (.grainAlloc p) s = .next (finish t c 0 0 [])) ∧
  (∀ s p c t, Begins (.grainMove p) s p c → c.opc = 0x0502 → grainRefused c (taken s p c) true = none →
    htMove (taken s p c) (pf c 0 4) (pf c 4 1) (pf c 8 4) (.command c) = (0, t) → exec (.grainMove p) s = .next t) ∧
  (∀ s p c t, Begins (.grainFree p) s p c → c.opc = 0x0503 → grainRefused c (taken s p c) false = none →
    htFree (taken s p c) (pf c 0 4) = (0, t) → exec (.grainFree p) s = .next (finish t c 0 0 [])) ∧
  (∀ s p c, Begins (.loadGrant p) s p c → c.opc = 0x0504 → grantReserved c = none →
    let u := taken s p c
    let t := nfld (pf c 1 1) 0 2
    framesInRanges (part u c.part) t (pf c 4 4) (pf c 8 4) true = true →
    ((List.range (pf c 8 4)).any fun i => heldFrame u t (pf c 4 4 + i)) = false →
    (t = 0 → ∀ w ∈ windowsOf (part u c.part), meets (pf c 4 4) (pf c 8 4) w.1 w.2 = false) →
    (∀ g ∈ (part u c.part).grants, grantOpen u g = true → g.gid ≠ pf c 0 1 → g.tier = t →
      meets (pf c 4 4) (pf c 8 4) g.first g.frames = false) →
    let g : Grant :=
      { id := u.tiers.nextId, gid := pf c 0 1, tier := t, first := pf c 4 4, frames := pf c 8 4
        src := (List.range (pf c 2 1)).map fun i => nfld (pf c (16 + 2 * i) 2) 0 14
        fwd := (List.range (pf c 3 1)).map fun i => BitVec.ofNat 64 (pf c (24 + 8 * i) 8)
        expires := count u + 25000 * pf c 12 4, failed := 0, toFwd := [], opened := true }
    exec (.loadGrant p) s =
      .next (finish (markFrames (modTiers (modPart u c.part fun x =>
        { x with grants :=
            (((part u c.part).grants.filter fun h => decide (h.gid ≠ pf c 0 1) || grantBusy u c.part h).map fun h =>
              if h.gid = pf c 0 1 then { h with opened := false } else h) ++ [g] })
        fun m => { m with nextId := m.nextId + 1 }) t (pf c 4 4) .plain (pf c 8 4))
        c 0 0 [])) ∧
  (∀ s p c g, Begins (.loadData p) s p c → c.opc = 0x0505 → pf c 0 1 ≤ 15 → pf c 8 8 % 64 = 0 →
    findGrant (taken s p c) c.part (pf c 0 1) = some g → grantOpen (taken s p c) g = true →
    pf c 8 8 + (c.plen - 16) ≤ frameBytes * g.frames →
    exec (.loadData p) s =
      .next (pendWrites (taken s p c) c.part g.tier (frameBytes * g.first + pf c 8 8) (c.params.drop 16) .none
        (.load c.part g.id (some c)))) ∧
  (∀ s p c g, Begins (.loadCheck p) s p c → c.opc = 0x0506 → checkReserved c = none →
    findGrant (taken s p c) c.part (pf c 0 1) = some g →
    let offs := (List.range (pf c 1 1)).map fun i => pf c (8 + 8 * i) 8
    (∀ o ∈ offs, o + 64 ≤ frameBytes * g.frames) →
    let id := (taken s p c).tiers.nextId
    exec (.loadCheck p) s =
      .next (startChecks (modTiers (modGrant (taken s p c) c.part g.id fun g => { g with opened := false }) fun m =>
          { m with
            nextId := id + 1
            checks := m.checks ++
              [{ cmd := c, part := c.part, id := id, objs := offs.map fun o => (BitVec.ofNat 64 o, 0xffff), grant := g.id
                 waits := true }] }))) ∧
  (∀ s c h g, Begins .layerReplace s 16 c → c.opc = 0x0206 → isVerified s (pf c 0 8) = true →
    headerAt (taken s 16 c) (pf c 0 8) = (0, h) → headerAt (taken s 16 c) (pf c 8 8) = (0, g) → headerBad h = false →
    fld h 1 1 = 0 → 64 + 32 * fld h 2 1 ≤ objLen h → shape h = shape g →
    (readGlobal (taken s 16 c) (pf c 0 8) (64 + 32 * fld h 2 1)).1 = 0 →
    (readGlobal (taken s 16 c) (pf c 8 8) (64 + 32 * fld h 2 1)).1 = 0 →
    dirShape (readGlobal (taken s 16 c) (pf c 0 8) (64 + 32 * fld h 2 1)).2 (fld h 2 1) =
      dirShape (readGlobal (taken s 16 c) (pf c 8 8) (64 + 32 * fld h 2 1)).2 (fld h 2 1) →
    underMigration (taken s 16 c) (pf c 8 8) = false → s.tiers.replaces = [] →
    exec .layerReplace s =
      .next (modTiers (taken s 16 c) fun m =>
        { m with replaces := [{
            cmd := c, src := BitVec.ofNat 64 (pf c 0 8), dst := BitVec.ofNat 64 (pf c 8 8), len := objLen h, phase := 1
            retried := false, past := barrier (taken s 16 c) (pf c 8 8) (objLen h) }] }))

/-- Power and emergency. CAP_SET without a lower limit, BRAKE_CFG and ORPHAN_CFG in their ranges write their setting and
the limits follow; EMERGENCY of levels 0 to 2 writes the sender's hold, and of level 3 ends every step and command, is
answered, and brings safe state (12 R294, R295; 17 R418 to R425). -/
def Obligations.PowerCommandsComplete : Prop :=
  (∀ s c, Begins .capSet s 16 c → c.opc = 0x0601 → c.port = 0 → pf c 0 4 ≤ 2200 →
    let u := modPower (taken s 16 c) fun x => { x with capC := pf c 0 4 }
    (effCap u = 0 ∨ (effCap (taken s 16 c) ≠ 0 ∧ effCap (taken s 16 c) ≤ effCap u)) →
    exec .capSet s = .next (capFinish (relimit u) c (effCap u))) ∧
  (∀ s c, Begins .brakeCfg s 16 c → c.opc = 0x0602 → 320 ≤ pf c 0 4 → pf c 0 4 ≤ 2200 →
    exec .brakeCfg s =
      .next (finish (relimit (modPower (taken s 16 c) fun x => { x with brakeLevel := pf c 0 4 })) c 0 0 [])) ∧
  (∀ s c, Begins .orphanCfg s 16 c → c.opc = 0x0603 → 10 ≤ pf c 0 1 → pf c 0 1 ≤ 100 →
    exec .orphanCfg s = .next (finish (relimit (modPower (taken s 16 c) fun x => { x with orph := pf c 0 1 })) c 0 0 [])) ∧
  (∀ s c, Begins .emergencyRelease s 16 c → c.opc = 0x0604 → pf c 0 1 = 0 →
    exec .emergencyRelease s = .next (finish (setHold (taken s 16 c) c.port 0) c 0 0 [])) ∧
  (∀ s c, Begins .emergencyHold s 16 c → c.opc = 0x0604 → pf c 0 1 = 1 →
    exec .emergencyHold s = .next (finish (setHold (taken s 16 c) c.port 1) c 0 0 [])) ∧
  (∀ s c, Begins .emergencyShed s 16 c → c.opc = 0x0604 → pf c 0 1 = 2 →
    exec .emergencyShed s = .next (finish (setHold (taken s 16 c) c.port 2) c 0 0 [])) ∧
  (∀ s c, Begins .emergencyStop s 16 c → c.opc = 0x0604 → pf c 0 1 = 3 →
    exec .emergencyStop s =
      .next (safeState (finish (stopAll (setHold (taken s 16 c) c.port 3) c) c 0 0 []) 0x3006 0))

/-! ### Streams and transfers -/

/-- The descriptors of a stream program. A FEED within its bounds becomes active and its first frame is read; a STAGE
within the window becomes active and its first piece is read, in its turn or ahead of what stands before it; a MARK
whose release is held sets the condition and its mask; a DRAIN of a queue not yet marked in the epoch becomes active
and marks it; a CONFIG on idle injectors reads its image for them; an END with nothing active ends the step's program;
where the two copies of the range checker disagree on a descriptor's address the access is refused and recorded (10
R226 to R234; 16 R374; log entry 50). -/
def Obligations.StreamDescriptorsComplete : Prop :=
  (∀ s p d, Acts (.streamFeed p true) s → TakesDesc s p 1 d → nfld (dfld d 1 1) 0 2 ≠ 3 → 0 < dWpf d → dWpf d ≤ 4095 →
    0 < dCpw d → gChip (dSrc d) = s.fabric.chip → gTierOf (dSrc d) = 0 →
    ((List.range (feedFrames d)).all fun j => bytesInRanges (part s p) 0 (gOff (feedAddr d j)) (64 * dWpf d) true) = true →
    destOk (part s p) d = true → 0 < feedFrames d →
    exec (.streamFeed p true) s =
      .next (nextFrame (activate (failObject s p (part s p).stream.next d) p (part s p).stream.next d) p (part s p).stream.next)) ∧
  (∀ s p d, Acts (.streamStage p true) s → TakesDesc s p 2 d → nfld (dfld d 1 1) 0 2 ≠ 3 →
    (gTierOf (dSrc d) = 1 ∨ gTierOf (dSrc d) = 2) → dLen d % 64 = 0 → 0 < dLen d → gChip (dSrc d) = s.fabric.chip →
    bytesInRanges (part s p) (gTierOf (dSrc d)) (gOff (dSrc d)) (dLen d) true = true → gTierOf (dDst d) = 0 →
    bytesInRanges (part s p) 0 (gOff (dDst d)) (dLen d) false = true → inStreamWindow (part s p) (dDst d) (dLen d) = true →
    exec (.streamStage p true) s =
      .next (nextPiece (activate (failObject s p (part s p).stream.next d) p (part s p).stream.next d) p (part s p).stream.next)) ∧
  (∀ s p d i, Acts (.streamStage p true) s →
    (((part s p).stream.prog[(part s p).stream.next]?).any fun d => decide (dKind d = 2)) = false →
    earlyStage s p = some (i, d) → stageFault s p d = none → 0 < dLen d →
    exec (.streamStage p true) s = .next (nextPiece (activate (failObject s p i d) p i d) p i)) ∧
  (∀ s p d r, Acts (.streamMark p) s → TakesDesc s p 3 d → nfld (dfld d 16 1) 0 7 ≤ 64 →
    (part s p).stream.releases.find? (fun r => decide (r.1 = dfld d 4 2)) = some r →
    exec (.streamMark p) s =
      .next (modStream (passDesc s p) p fun m =>
        { m with
          releases := m.releases.filter fun r => decide (r.1 ≠ dfld d 4 2)
          usedMarks := dfld d 4 2 :: m.usedMarks, cond := nfld (dfld d 16 1) 0 7, mask := r.2, markAt := none })) ∧
  (∀ s p d, Acts (.streamDrain p true) s → TakesDesc s p 4 d → destOk (part s p) d = true →
    markedQueue s p (destBlock (dDest d)) (nfld (dDest d) 0 6) (destSlot (dDest d)) (nfld (dfld d 16 1) 0 2)
      (part s p).stream.epoch = false →
    exec (.streamDrain p true) s =
      .next (modStream (activate s p (part s p).stream.next d) p fun m =>
        { m with marked :=
            markKey (destBlock (dDest d)) (nfld (dDest d) 0 6) (destSlot (dDest d)) (nfld (dfld d 16 1) 0 2) :: m.marked })) ∧
  (∀ s p d h, Acts (.streamConfig p true) s → TakesDesc s p 5 d → gChip (dSrc d) = s.fabric.chip → gTierOf (dSrc d) ≠ 3 →
    bytesInRanges (part s p) (gTierOf (dSrc d)) (gOff (dSrc d)) 0xc0 true = true → injectorsIdle (part s p) = true →
    (∀ x ∈ s.tiers.transfers, x.purpose ≠ .config p) → headerAt s (dSrc d) = (0, h) → headerBad h = false → fld h 1 1 = 1 →
    let dir := readTier s (gTierOf (dSrc d)) (gOff (dSrc d) + 0x40) 128
    let used := (List.range 16).filter fun j => fld dir (8 * j + 4) 4 ≠ 0
    (∀ j ∈ used, j < (colsOf (part s p)).length ∧ fld dir (8 * j) 4 + 80 * fld dir (8 * j + 4) 4 ≤ objLen h) →
    bytesInRanges (part s p) (gTierOf (dSrc d)) (gOff (dSrc d)) (objLen h) true = true →
    let i : Inject :=
      { image := BitVec.ofNat 64 (dSrc d), epoch := (part s p).epoch + 1
        recs := used.map fun j => (j, imageRecords s (dSrc d) (fld dir (8 * j) 4) (fld dir (8 * j + 4) 4))
        left := (unitPieces (gOff (dSrc d)) (objLen h)).length }
    exec (.streamConfig p true) s =
      .next (pendReads (modPart (advanceEpoch (passDesc s p) p) p fun x => { x with inject := some i }) p
        (gTierOf (dSrc d)) (gOff (dSrc d)) (objLen h) .step (.config p))) ∧
  (∀ s p d k, Acts (.streamEnd p) s → TakesDesc s p 6 d → (part s p).step = some k → (part s p).stream.active = [] →
    exec (.streamEnd p) s =
      .next (modPart (modStream (passDesc s p) p fun m =>
        { m with discarded := m.discarded + m.releases.length, releases := [], usedMarks := [] }) p fun x =>
        { x with step := some { k with ended := true } })) ∧
  (∀ s p d, Acts (.streamFeed p false) s → TakesDesc s p 1 d → nfld (dfld d 1 1) 0 2 ≠ 3 → 0 < dWpf d → dWpf d ≤ 4095 →
    0 < dCpw d → exec (.streamFeed p false) s = .next (checkerFault s p (dSrc d))) ∧
  (∀ s p d, Acts (.streamStage p false) s → TakesDesc s p 2 d → stageFault s p d ≠ some .program →
    exec (.streamStage p false) s = .next (checkerFault s p (dSrc d))) ∧
  (∀ s p d, Acts (.streamDrain p false) s → TakesDesc s p 4 d →
    exec (.streamDrain p false) s = .next (checkerFault s p (dDest d))) ∧
  (∀ s p d, Acts (.streamConfig p false) s → TakesDesc s p 5 d →
    exec (.streamConfig p false) s = .next (checkerFault s p (dSrc d)))

/-- Release words, stalls and the first fill. The engine takes the oldest word written to the release register and holds
its release; a mark that has waited for the watchdog period is a fault of kind 14; a first fill whose stages are
written makes the model active and its rounds begin at 0; a staged adapter is stamped and its requests are ready (10
R233, R234, R246, R247). -/
def Obligations.StreamHappeningsComplete : Prop :=
  (∀ s p w r, Acts (.markReleaseWrite p) s → (part s p).stream.relWrites = w :: r →
    bfld w 0 16 ∉ (part s p).stream.usedMarks → (∀ e ∈ (part s p).stream.releases, e.1 ≠ bfld w 0 16) →
    exec (.markReleaseWrite p) s =
      .next (modPart s p fun x =>
        { x with stream := { x.stream with
            relWrites := r, releases := x.stream.releases ++ [(bfld w 0 16, w.extractLsb' 64 64)] } })) ∧
  (∀ s p c, Acts (.streamStallExpiry p) s → (part s p).stream.markAt = some c → c + watchdog ≤ s.time.watch →
    releaseHere (part s p).stream = false →
    exec (.streamStallExpiry p) s = .next (streamFault s p (part s p).stream.next 14 0x5104)) ∧
  (∀ s p w m, Acts (.firstFillComplete p) s → (part s p).switching = some w → tfind (part s p).models w.mcid = some m →
    (part s p).filling = true →
    (part s p).stream.prog ≠ [] →
    let fill := fillStages (frameBytes * m.wlayer) 0 (part s p).stream.prog.zipIdx
    (fill.all fun i => descTaken (part s p).stream i) = true →
    ((part s p).stream.active.any fun a => decide (a.idx ∈ fill)) = false →
    exec (.firstFillComplete p) s =
      .next (finish (placeObuf (modPart s p fun x =>
        { x with
          switching := none, active := some w.mcid, filling := false, nextRound := 0, committed := 0 })
        p m) w.cmd 0 0 [])) ∧
  (∀ s p tenant, Acts (.adapterStageComplete p tenant) s →
    (∃ a ∈ (part s p).adapters, a.tenant = tenant ∧ a.staged = false) →
    (∀ t ∈ s.tiers.transfers, t.purpose ≠ .adapter p tenant ∧ ∀ d, t.purpose ≠ .adapterRead p tenant d) →
    exec (.adapterStageComplete p tenant) s =
      .next (modPart s p fun x =>
        { x with
          adapters := x.adapters.map fun a => if a.tenant = tenant then { a with staged := true, stamp := count s } else a
          reqs := x.reqs.map fun r =>
            if r.tenant = tenant ∧ r.adapterReady = none64 then { r with adapterReady := count s } else r }))

/-- Transfers. The grant of a tier's free entry issues the transfer that R237 chooses; a completion within the limit with
status 0, 1 (after the error is counted) or an uncorrectable error completes the transfer so; one not stamped within
the limit completes late with status 0x4T02. Moves of grains. The copy begins once the writes accepted before the move
have completed and an engine is free; the switch comes below the limit count, and a copy that an access has failed
aborts the move instead; the old frame is released once no read of it is left; a move not switched at its limit is
aborted with 0x4308 (09 R213 to R217; 10 R224, R237; 09 R205 to R209). -/
def Obligations.TransfersAndMovesComplete : Prop :=
  (∀ s t e x, Acts (.transferGrant t e) s → chosen s t e = some x →
    exec (.transferGrant t e) s = .next (issueTransfer s t x e.isSome)) ∧
  (∀ s id st x c, Acts (.transferCompletion id st) s → findTransfer s id = some x → x.issued = some c →
    isOutward x = false → atGate s id = false → count s < c + limitOf x →
    let place := placeOf s x
    (st = 0 ∨ st = 1 ∨ st = memStatus place.1 1) →
    exec (.transferCompletion id st) s =
      .next (startChecks
        (if st = 0 then completeTransfer s x 0
         else if st = 1 then completeTransfer (unitError s place.1 place.2 false) x 0
         else completeTransfer (unitError s place.1 place.2 true) x st))) ∧
  (∀ s id x c, Acts (.transferLate id) s → findTransfer s id = some x → x.issued = some c → atGate s id = false →
    c + limitOf x ≤ count s →
    exec (.transferLate id) s =
      .next (startChecks
        (if isOutward x = true then finishTransfer (dropTransfer s id) x (memStatus (targetTier x) 2) []
         else completeTransfer s x (memStatus x.tier 2)))) ∧
  (∀ s g own m, Acts (.moveCopyStart g own) s →
    let u := ownMove s g own
    findMove u g = some m → m.copying = false → writeOutstanding u g = false → copyWaits u m = false → enginesBusy u < 32 →
    exec (.moveCopyStart g own) s = .next (moveCopy u m)) ∧
  (∀ s g st m, Acts (.moveSwitch g st) s → findMove s g = some m → m.copying = true → m.switched = false →
    copyWaits s m = false → count s < m.limit → copyEnd s m st = 0 →
    exec (.moveSwitch g st) s = .next (Sys2Proof.Machine.moveSwitch s m)) ∧
  (∀ s g st m, Acts (.moveSwitch g st) s → findMove s g = some m → m.copying = true → m.switched = false →
    copyWaits s m = false → count s < m.limit → copyEnd s m st ≠ 0 →
    exec (.moveSwitch g st) s = .next (moveAbort s g (copyEnd s m st))) ∧
  (∀ s g m, Acts (.moveRelease g) s → findMove s g = some m → m.switched = true →
    readOutstanding (freedDone s g) m.srcTier m.srcFrame = false →
    exec (.moveRelease g) s = .next (Sys2Proof.Machine.moveRelease (freedDone s g) m)) ∧
  (∀ s g, Acts (.moveRelease g) s → findMove s g = none → exec (.moveRelease g) s = .next (freedDone s g)) ∧
  (∀ s g m, Acts (.moveLimitReached g) s → findMove s g = some m → m.switched = false → m.limit ≤ count s →
    exec (.moveLimitReached g) s = .next (moveAbort s g 0x4308))

/-- The tiers by themselves. The scrub counts the error of each entry found uncorrectable, loses its grain, and then loses
every grain that names a frame that no one entry names; a page retirement that is done puts its unit in place, the
poison of its chunks with it; a failed channel of tier 0 or 1 is out of service and a failed device of tier 2 takes
the tier with it; a segment engine that has read its segment without error hands it in, and the job's last segment
gives its value (09 R200, R209, R212, R217; 15 R371). -/
def Obligations.TierHappeningsComplete : Prop :=
  (∀ s bad, Acts (.htScrub bad) s →
    let u := bad.foldl (fun s e =>
      let s := entryError s e.1
      if (ht s e.1).v ∧ (ht s e.1).st ≠ 3 then loseGrain s 15 e.1 e.2 else s) s
    let broken := (u.tiers.frames.map fun e => (e.1 / 4194304, e.1 % 4194304)).filter fun e => frameBroken u e.1 e.2
    exec (.htScrub bad) s =
      .next (broken.foldl (fun s e =>
        let gs := (namersOf s e.1 e.2 false ++ namersOf s e.1 e.2 true).filter fun g => decide ((ht s g).st ≠ 3)
        if gs = [] then (recordFault s 16 0xff 0xffff 0 0 0 (leBytes 8 (globalAt s e.1 (frameBytes * e.2))) none).2
        else gs.foldl (fun s g => loseGrain s 16 g true) s) u)) ∧
  (∀ s t k u mask r, Acts (.pageRetirementDone t k) s → (slot s t k).copying = (u, mask) :: r →
    let x := slot s t k
    let old := (x.poison.filter fun c => decide (c / 16 = u)).map fun c => c % 16
    exec (.pageRetirementDone t k) s =
      .next (setSlot s t k
        { x with
          copying := r, spent := x.spent + 1, unitErrors := tdel x.unitErrors u
          retired := tset x.retired u (old.foldl (fun m c => m ||| (1#16 <<< c)) (mask ||| (tfind x.retired u).getD 0))
          poison := x.poison.filter fun c => decide (c / 16 ≠ u) })) ∧
  (∀ s t k, Acts (.channelFailure t k) s → t ≠ 2 → k < tierSlots s t → (slot s t k).state = 0 → 0 < tierFrames s t →
    exec (.channelFailure t k) s = .next (setSlot s t k { slot s t k with state := 2 })) ∧
  (∀ s k, Acts (.channelFailure 2 k) s → k < s.tiers.cxl.length →
    exec (.channelFailure 2 k) s = .next (modTiers s fun m => { m with out2 := true })) ∧
  (∀ s e id seg j, Acts (.scanSegmentDone e 0) s → tfind s.tiers.engines e = some (id, seg) →
    let u := modTiers s fun m => { m with engines := tdel m.engines e }
    u.tiers.scans.find? (fun j => decide (j.id = id)) = some j →
    (readGlobal u (j.addr.toNat + segBytes * seg) (min segBytes (j.len - segBytes * seg))).1 = 0 →
    exec (.scanSegmentDone e 0) s =
      .next
        (if j.finished + 1 < segCount j then fillEngines (modJob u id fun j => { j with finished := j.finished + 1 })
         else
           let value := checkValue j.alg (jobBytes u j)
           let bad := j.cmp && decide (value ≠ j.expect.toNat)
           let v := dropJob u id
           scanServed (if bad = true then mismatchEvent v j value else v) j 0 value bad)) ∧
  (∀ s e st id seg j, Acts (.scanSegmentDone e st) s → st / 1024 = 16 → st % 256 ∈ [1, 2, 3] →
    tfind s.tiers.engines e = some (id, seg) →
    let u := modTiers s fun m => { m with engines := tdel m.engines e }
    u.tiers.scans.find? (fun j => decide (j.id = id)) = some j →
    (readGlobal u (j.addr.toNat + segBytes * seg) (min segBytes (j.len - segBytes * seg))).1 = 0 →
    exec (.scanSegmentDone e st) s = .next (scanServed (dropJob u id) j st 0 false))

/-- Loads, replacements and migrations. A load write that an open grant admits begins its writes, and one on which the two
copies of the range checker disagree is refused and recorded; the oldest write done is forwarded to each target; a
grant whose life has passed closes; a replacement whose barrier is clear begins its copy, and a finished copy is
scanned; a migration between steps writes ADDR of its map entry, and frees its old copy once no transfer from it is
left (08 R187; 10 R239 to R242, R249). -/
def Obligations.LoadHappeningsComplete : Prop :=
  (∀ s t g, Acts (.loadWriteIngress t true) s → t.ttype = 5 → firstOfStream s t = true → txnOk t = true →
    let u := modFabric s fun x => { x with ingress := x.ingress.erase t }
    admitting u t = some g →
    exec (.loadWriteIngress t true) s =
      .next (pendWrites u t.dstPart g.tier (gOff t.addr.toNat) t.data .none (.load t.dstPart g.id none))) ∧
  (∀ s t, Acts (.loadWriteIngress t false) s → t.ttype = 5 → firstOfStream s t = true → txnOk t = true →
    exec (.loadWriteIngress t false) s =
      .next (recordFault (modFabric s fun x => { x with ingress := x.ingress.erase t }) 17 t.dstPart 0xffff 0 0 0
        (leBytes 8 t.addr.toNat) none).2) ∧
  (∀ s p gid g off bs r, Acts (.loadForward p gid) s →
    (part s p).grants.find? (fun g => decide (g.gid = gid) && !g.toFwd.isEmpty) = some g → g.toFwd = (off, bs) :: r →
    exec (.loadForward p gid) s =
      .next ((g.fwd.map fun a => a.toNat + off).foldl (forwardTo p bs) (modGrant s p g.id fun g => { g with toFwd := r }))) ∧
  (∀ s p gid, Acts (.loadGrantExpiry p gid) s →
    exec (.loadGrantExpiry p gid) s =
      .next (modPart s p fun x =>
        { x with grants := x.grants.map fun g =>
            if g.gid = gid ∧ g.expires ≤ count s then { g with opened := false } else g })) ∧
  (∀ s r, Acts .replaceCopyStart s → s.tiers.replaces.find? (fun r => decide (r.phase = 1) && barrierClear s r) = some r →
    enginesBusy s < 32 → exec .replaceCopyStart s = .next (modReplace s r fun r => { r with phase := 2 })) ∧
  (∀ s r h, Acts .replaceCopyDone s → s.tiers.replaces.find? (fun r => decide (r.phase = 2)) = some r →
    let a := r.src.toNat
    let b := r.dst.toNat
    let u := modReplace s r fun r => { r with phase := 3 }
    tierAccess u (gTierOf a) (gOff a) r.len true = 0 → tierAccess u (gTierOf b) (gOff b) r.len true = 0 →
    let v := unverify (copyBytes u (gTierOf a) (gOff a) (gTierOf b) (gOff b) r.len) b
    let p := rangeOwner v (gTierOf b) (gOff b)
    let w := countTier (countTier v p (gTierOf a) false r.len) p (gTierOf b) true r.len
    headerAt w b = (0, h) →
    exec .replaceCopyDone s = .next (addScan w r.dst r.len (objCheck h) true true false 4 (.replace b))) ∧
  (∀ s p l x target id m e a t fs, Acts (.migrationStart p l x target) s → (part s p).active = some id →
    activeModel (part s p) = some m → e = mapEntry s m l x → a = e.addr.toNat → t = gTierOf target →
    fs = framesOf (gOff target) e.len →
    x < expertsOf m l → isPrimary s p = true → e.v = true → e.hmem = m.gmem → e.len ≠ 0 →
    gChip a = s.fabric.chip → gChip target = s.fabric.chip → gTierOf a < 3 → t < 3 → target % 64 = 0 →
    isVerified s a = true → (s.tiers.replaces.any fun r => decide (r.dst.toNat = a)) = false →
    ((part s p).migrations.any fun g => decide (g.src.toNat = a)) = false → enginesBusy s < 32 →
    targetFree s p t (gOff target) e.len = true →
    tierAccess s (gTierOf a) (gOff a) e.len true = 0 → tierAccess s t (gOff target) e.len true = 0 →
    ∃ u, u = modPart
        (copyBytes (markFrames s t (gOff target / frameBytes) .plain fs.length) (gTierOf a) (gOff a) t (gOff target) e.len)
        p (fun y =>
          { y with migrations := y.migrations ++
            [{ layer := l, expert := x, model := id, src := e.addr, dst := BitVec.ofNat 64 target, len := e.len, phase := 1
               fresh := fs.filter fun f => decide (frameSt s t f = .free) }] }) ∧
      exec (.migrationStart p l x target) s =
        .next (addScan u (BitVec.ofNat 64 target) e.len (objCheck (headerAt u target).2) true true false 4
          (.migration p target))) ∧
  (∀ s p g m, Acts (.migrationMapUpdate p) s → (part s p).migrations.find? (fun g => decide (g.phase = 2)) = some g →
    tfind (part s p).models g.model = some m → (part s p).step = none →
    bytesInRanges (part s p) 0 (mapOffset m g.layer g.expert) 8 false = true →
    tierAccess s 0 (mapOffset m g.layer g.expert) 8 true = 0 →
    exec (.migrationMapUpdate p) s =
      .next (modMigration (writeTier s 0 (mapOffset m g.layer g.expert) (leBytes 8 g.dst.toNat)) p g.dst.toNat fun g =>
        { g with phase := 3 })) ∧
  (∀ s p g, Acts (.migrationRelease p) s →
    (part s p).migrations.find? (fun g => decide (g.phase = 3) &&
      !(s.tiers.transfers.any (transferReads g.src.toNat g.len))) = some g →
    let a := g.src.toNat
    exec (.migrationRelease p) s =
      .next (((framesOf (gOff a) g.len).filter fun f =>
          decide (frameSt s (gTierOf a) f = .plain) && !otherObject s a (gTierOf a) f).foldl
        (fun s f => setFrame s (gTierOf a) f .free) (unverify (migrationEnd s p g.dst.toNat) a)))

/-! ### Steps -/

/-- Steps. A fenced step with every verdict passed, no publish pending and no two homes commits; a fence is stamped and
the new summaries' lengths are known; a verdict missing after the watchdog is a fault of kind 8 of its VE; without a
running step the deadlines of waiting requests are judged; a full balancing window is applied between steps (11 Table
9, R262, R276; 08 R176). -/
def Obligations.StepRowsComplete : Prop :=
  (∀ s p k m toks fails, Acts (.stepCommit p toks fails) s → (part s p).step = some k → activeModel (part s p) = some m →
    k.fenced = true → failedVerdicts k = [] → missingVerdicts s p k = [] → (part s p).pub = none →
    (part s p).twoHomes = false → closeChecked s p = true → toks.map (fun e => e.1) = sampling s p k →
    exec (.stepCommit p toks fails) s = .next (commitStep s p toks fails)) ∧
  (∀ s p sums k, Acts (.publishFence p sums) s → (part s p).step = some k → k.ended = true → k.fenced = false →
    stepWrites s p = false → failedVerdicts k = [] →
    let closes := (ridersOf s p).filter fun o => decide (o.kind = 3)
    (∀ o ∈ closes, (sums.lookup o.drawer).isSome = true) →
    exec (.publishFence p sums) s =
      .next (closes.foldl (fun s o => summaryKnown s p o ((sums.lookup o.drawer).getD 0))
        (modPart s p fun x => { x with step := some { k with fenced := true, fenceAt := s.time.watch } }))) ∧
  (∀ s p k b bs, Acts (.verdictWatchdogExpiry p) s → (part s p).step = some k → missingVerdicts s p k = b :: bs →
    k.fenced = true → k.fenceAt + watchdog ≤ s.time.watch →
    exec (.verdictWatchdogExpiry p) s = .next (veFault s b 8 [])) ∧
  (∀ s p, Acts (.deadlineJudgement p) s → (part s p).step = none →
    exec (.deadlineJudgement p) s =
      .next (endReqs s p (((part s p).reqs.filter fun r => !r.joined && isLate r.cmd (count s)).map fun r => r.index)
        0x3002 0)) ∧
  (∀ s p l id m b, Acts (.biasUpdate p l) s → (part s p).active = some id → tfind (part s p).models id = some m →
    tfind m.bal l = some b → (part s p).step = none → b.active = true → b.period ≤ b.gathered →
    exec (.biasUpdate p l) s =
      .next (modPart s p fun x =>
        let e := (m.layers.find? fun y => decide (y.layer = l)).elim 0 fun y => y.experts
        { x with models := tset x.models id { m with bal := tset m.bal l (balanceUpdate b e) } })) ∧
  (∀ s p addr prog more m t fresh, Acts (.stepBegin p addr prog more) s → activeModel (part s p) = some m →
    stepFree s p = true → memberCount s (part s p) = (t, fresh) →
    let rs := (part s p).reqs.filter (ready (part s p) t fresh)
    let riders := waitingRiders (part s p)
    (rs ≠ [] ∨ riders ≠ [] ∨ closeWaits (part s p) = true) → programFits s p addr prog = true → moreFits s p more = true →
    (part (cutProgram s p) p).stream.needConfig = false →
    let ms := assign m.ch (m.pmax - (rs.filter fun r => decide (r.done = r.i)).length) 0 rs
    ∃ k : Step, k.id = (part s p).nextStep ∧ k.round = (part s p).nextRound ∧ k.gen = (part s p).gen ∧
      k.begin = count s ∧ k.since = t ∧ k.members = ms ∧ k.npos = (ms.map fun m => m.n).sum ∧
      k.riders = riders.map (fun o => o.drawer) ∧ k.ended = false ∧ k.fenced = false ∧
      k.sel = m.bal.map (fun e => (e.1, e.2.sel)) ∧
      ∃ u, (part u p).step = some k ∧ (part u p).nextStep = (part s p).nextStep + 1 ∧
        (part u p).nextRound = ((part s p).nextRound + 1) % 2 ^ 32 ∧
        exec (.stepBegin p addr prog more) s =
          .next (emptyRound (loadMore (loadProgram (judgeLater
            (modStream (riders.foldl (fun s o => placeSummary s p o) u) p fun m => { m with needConfig := false }) p)
            p addr prog) p more) p m))

/-- Expert messages. A dispatch or a close of a round not yet served and not cancelled is kept; a cancel drops what its
source sent for its round and generation and is kept; an awaited return is delivered to the VE that dispatched, and
one of another status ends its requests; a member's missing return at the limit ends its requests with 0x5301, and
members whose close is missing at the home's limit count as having sent nothing; a layer whose members have all closed
is served (08 R177 to R186). -/
def Obligations.ExpertRowsComplete : Prop :=
  (∀ s msg m i, Acts (.expertDispatchRecv msg) s → msg.mtype = 1 → expertBad msg = false →
    let u := takeMessage s 15 (expertBytes msg)
    let p := msg.dstPart % 16
    isPrimary u p = true → activeModel (part u p) = some m → memberOf m msg.schip msg.srcPart = some i →
    tooOld (part u p) msg.round msg.layer = false → isCancelled (part u p) i msg.round msg.gen = false →
    exec (.expertDispatchRecv msg) s =
      .next (modIngress u p fun g => { g with dispatches := g.dispatches ++ [msg] })) ∧
  (∀ s msg m i, Acts (.expertCloseRecv msg) s → msg.mtype = 4 → expertBad msg = false →
    let u := takeMessage s 15 (expertBytes msg)
    let p := msg.dstPart % 16
    isPrimary u p = true → activeModel (part u p) = some m → memberOf m msg.schip msg.srcPart = some i →
    tooOld (part u p) msg.round msg.layer = false → isCancelled (part u p) i msg.round msg.gen = false →
    exec (.expertCloseRecv msg) s =
      .next (modIngress u p fun g => { g with closes := g.closes ++ [(i, msg.round, msg.gen, msg.layer, msg.nrow)] })) ∧
  (∀ s msg m i, Acts (.expertCancelRecv msg) s → msg.mtype = 3 → expertBad msg = false →
    let u := takeMessage s 15 (expertBytes msg)
    let p := msg.dstPart % 16
    isPrimary u p = true → activeModel (part u p) = some m → memberOf m msg.schip msg.srcPart = some i →
    roundBefore msg.round (roundOf (part u p)) = false → (i, msg.round, msg.gen) ∉ (part u p).ingress.cancels →
    exec (.expertCancelRecv msg) s =
      .next (modIngress u p fun g =>
        { g with
          dispatches := g.dispatches.filter fun d =>
            !decide (memberOf m d.schip d.srcPart = some i ∧ d.round = msg.round ∧ d.gen = msg.gen)
          closes := g.closes.filter fun c => decide ((c.1, c.2.1, c.2.2.1) ≠ (i, msg.round, msg.gen))
          cancels := g.cancels ++ [(i, msg.round, msg.gen)] })) ∧
  (∀ s msg m i k d, Acts (.expertReturnRecv msg) s → msg.mtype = 2 → expertBad msg = false →
    let u := takeMessage s 15 (expertBytes msg)
    let p := msg.dstPart % 16
    isPrimary u p = true → activeModel (part u p) = some m → memberOf m msg.schip msg.srcPart = some i →
    (part u p).step = some k → msg.gen = (part u p).gen → msg.round = k.round →
    k.dispatches.find? (fun d => decide (d.layer = msg.layer ∧ d.expert = msg.expert ∧ d.returned = false)) = some d →
    (k.filters.any fun f => decide (f.layer = msg.layer ∧ f.opened = true ∧ count u < f.limit)) = true →
    let v := modPart (modVe (chargeRemote u p msg) d.ve fun v =>
        { v with arrived := v.arrived ++ (returnWords msg).map fun w => (7, w) }) p fun x =>
      let hit (e : Dispatch) : Dispatch := if e = d then { e with returned := true } else e
      { x with step := some (closeDone { k with dispatches := k.dispatches.map hit } msg.layer) }
    exec (.expertReturnRecv msg) s =
      .next (if msg.status = 0 then v else markEnded v p (fun m => holdsSlot m d.slots) msg.status msg.schip)) ∧
  (∀ s p l k m, Acts (.returnLimitExpiry p l) s → (part s p).step = some k → activeModel (part s p) = some m →
    (k.filters.any fun f => decide (f.layer = l ∧ f.opened = true ∧ f.limit ≤ count s)) = true →
    exec (.returnLimitExpiry p l) s =
      .next ((k.dispatches.filter fun d => decide (d.layer = l ∧ d.returned = false)).foldl (fun s d =>
        markEnded s p (fun e => holdsSlot e d.slots) 0x5301 ((m.group[d.home]?).elim 0 fun g => g.1))
        (modPart s p fun x => { x with step := some (modFilter k l fun l => { l with opened := false }) }))) ∧
  (∀ s p l k m, Acts (.homeCloseLimitExpiry p l) s → (part s p).step = some k → activeModel (part s p) = some m →
    (k.filters.any fun f => decide (f.layer = l ∧ f.limit ≤ count s)) = true →
    (k.round, l) ∉ (part s p).ingress.served →
    let missing := (List.range m.gsize).filter fun i => !closedBy (part s p) k.round l i
    exec (.homeCloseLimitExpiry p l) s =
      .next (missing.foldl (missingEvent p l k.round)
        (modIngress s p fun g => { g with absent := g.absent ++ missing.map fun i => (i, k.round, l) }))) ∧
  (∀ s p l work k m, Acts (.expertLayerServe p l work) s → (part s p).step = some k → activeModel (part s p) = some m →
    layerReady (part s p) m k.round l = true → (k.round, l) ∉ (part s p).ingress.served →
    let ds := (List.range m.gsize).flatMap fun i =>
      (heldFrom (part s p) m k.round l i).take (closeCount (part s p) k.round l i)
    work.length = ds.length → (∀ e ∈ ds.zip work, workOk m e.1 e.2 = true) →
    exec (.expertLayerServe p l work) s =
      .next (modIngress ((ds.zip work).foldl (serveOne p m) s) p fun g =>
        { g with
          served := g.served ++ [(k.round, l)]
          dispatches := g.dispatches.filter fun d => decide (d.round ≠ k.round ∨ d.layer ≠ l)
          closes := g.closes.filter fun c => decide (c.2.1 ≠ k.round ∨ c.2.2.2.1 ≠ l)
          absent := g.absent.filter fun a => decide (a.2 ≠ (k.round, l)) }))

/-! ### Time, power and the management ports -/

/-- The local time counter. Before a declared loss an edge of TIMEREF advances the counter by one modulo 2^64 and takes it
back from the oscillator, unless it comes less than 20 ns after an advance while the oscillator bridges: then it only
takes it back; the oscillator advances the counter while it bridges, after a declared loss, and 60 ns after the last
edge, from where it bridges; the watchdogs' clock goes with the counter but while injection is held; 1 us without an
edge declares the loss, and the counter stays with the oscillator until TIMEREF has been present for 100 us; loss and
return raise event 0xe011 while RESET_N is high. Intervals, pulses and waiting caps. An accounting interval of 25,000
counts apportions the energy of the 13 rails in their order and starts the next; the alert pulse ends at its count;
lowered caps whose response time has passed complete; a shed device whose transfers of tiers 1 and 2 are over is shed,
and one that leaves it has its memory back and injects (02 R25, R26; 12 Table 12; 17 R417; log entry 70; 13 R315; 17
R419 to R421; 18 R436). -/
def Obligations.TimeAndIntervalRowsComplete : Prop :=
  (∀ s gap, Acts (.timerefEdge gap) s → s.time.lost = false → (s.time.bridging = false ∨ 20 ≤ gap) →
    exec (.timerefEdge gap) s =
      .next { s with time := { s.time with
          count := (s.time.count + 1) % 2 ^ 64, bridging := false
          watch := if s.power.gate = 65536 then s.time.watch else s.time.watch + 1 } }) ∧
  (∀ s gap, Acts (.timerefEdge gap) s → s.time.lost = false → s.time.bridging = true → gap < 20 →
    exec (.timerefEdge gap) s = .next { s with time := { s.time with bridging := false } }) ∧
  (∀ s gap, Acts (.oscillatorAdvance gap) s → (s.time.lost = true ∨ s.time.bridging = true ∨ 60 ≤ gap) →
    exec (.oscillatorAdvance gap) s =
      .next { s with time := { s.time with
          count := (s.time.count + 1) % 2 ^ 64, bridging := s.time.bridging || !s.time.lost
          watch := if s.power.gate = 65536 then s.time.watch else s.time.watch + 1 } }) ∧
  (∀ s gap, Acts (.timerefLoss gap) s → s.time.lost = false → 1000 ≤ gap →
    let u := { s with time := { s.time with lost := true, bridging := true } }
    exec (.timerefLoss gap) s =
      .next (if s.boot.resetN = true then event u [0, 1, 2] 0xe011 (leBytes 1 1 ++ zeros 7 ++ leBytes 8 s.time.count)
        else u)) ∧
  (∀ s present gap, Acts (.timerefReturn present gap) s → s.time.lost = true → 100000 ≤ present →
    let v := { s with time := { s.time with lost := false, bridging := false } }
    let u := if gap < 20 then v else
      { v with time := { v.time with
          count := (v.time.count + 1) % 2 ^ 64
          watch := if s.power.gate = 65536 then v.time.watch else v.time.watch + 1 } }
    exec (.timerefReturn present gap) s =
      .next (if s.boot.resetN = true then event u [0, 1, 2] 0xe011 (leBytes 1 2 ++ zeros 7 ++ leBytes 8 u.time.count)
        else u)) ∧
  (∀ s, Acts .accountingInterval s → s.power.intervalEnd + 25000 ≤ count s →
    ∃ u, u = (List.range 13).foldl apportion s ∧
      exec .accountingInterval s =
        .next (modPower
          { u with parts := u.parts.map fun x =>
              (x.1, { x.2 with acct := { x.2.acct with now := s.power.intervalEnd + 25000, act := [] } }) }
          fun w => { w with intervalEnd := s.power.intervalEnd + 25000 })) ∧
  (∀ s, Acts .alertPulseEnd s → s.lands.alertLow = true → s.lands.alertUntil ≤ count s →
    exec .alertPulseEnd s = .next (modLands s fun l => { l with alertLow := false })) ∧
  (∀ s, Acts .capResponseElapsed s →
    let due (e : Cmd × Nat × Nat) : Bool := decide (e.2.1 ≠ none64 ∧ e.2.1 ≤ count s)
    exec .capResponseElapsed s =
      .next ((s.power.capWait.filter due).foldl (fun s e => capFinish s e.1 e.2.2)
        (modPower s fun w => { w with capWait := w.capWait.filter fun e => !due e }))) ∧
  (∀ s, Acts .shedComplete s → s.power.shed = 3 →
    (∀ x ∈ s.tiers.transfers, x.issued.isSome = true → (x.tier = 1 ∨ x.tier = 2) → atGate s x.id = true) →
    exec .shedComplete s = .next (capsShed (setShed s 2))) ∧
  (∀ s, Acts .unshedComplete s → s.power.shed = 4 →
    exec .unshedComplete s = .next (setShed (setDark (release s) false) 0))

/-- Measurement and core voltages. A sample that the rise of core current and the limits due allow takes the rails'
readings, makes PAVG the mean of the last ten samples, and records each rail whose two monitors newly differ; then,
unless the device sheds, injection is gated to a fraction above 0 where demand exceeds L (a free value: log entry 7),
not at all where neither L nor the rise binds, and to a fraction not above the present one while the rise lasts; a
step of a core rail by 5 mV that is answered moves it, and one that three tries do not get answered leaves a record of
kind 20, and the rail moves no more. Brake, thermal ladder and orphan cap. BRAKE_N held low for 1 us asserts the brake
outside the strap phase, and its release takes it away, the limits following; a sample moves the stage by the ladder,
records networks that newly differ, and on a change sets the limit of the new stage and raises event 0xe702; 1 ms
after, while the entry condition of stage 2 holds, the thermal limit falls by 5%, and 10 ms after, once the leave
condition holds, it rises by 5%, until it binds no more; a comparator at its trip point holds injection and brings
safe state; 10 s after a rack manager's loss its orphan cap applies with event 0xe703 (17 R411, R414 to R418; log
entries 7 and 68; 17 R422 to R425). -/
def Obligations.PowerAndThermalRowsComplete : Prop :=
  (∀ s rails above, Acts (.powerSample rails above) s → rails.length = 13 → count s % 25 = 0 → s.power.sampledAt < count s →
    overRamp rails s = false → overLimit rails s = false →
    ∃ xs u, xs = (((rails.map fun e => e.1 * e.2.1).sum / 1000) :: s.power.samples).take 10 ∧
      u = ((List.range 13).filter (monitorsDiffer rails &&& ~~~s.power.monBad).getLsbD).foldl
        (fun s i => (recordFault s 20 0xff 0xffff 0 i 0 [] none).2)
        (modPower s fun w =>
          { rails.zipIdx.foldl (sampleRail ((count s - w.sampledAt) / 25)) w with
            samples := xs, pavg := xs.sum / xs.length, sampledAt := count s, monBad := monitorsDiffer rails }) ∧
      exec (.powerSample rails above) s =
        .next (if u.power.shed ≠ 0 then u
          else if above = true then modPower (draw u).2 fun w => { w with limited := true, gate := 1 + (draw u).1 % 65536 }
          else if rampOver u = true then modPower u fun w => { w with limited := false, gate := 0, ramp := none }
          else modPower (draw u).2 fun w => { w with limited := false, gate := (draw u).1 % (w.gate + 1) })) ∧
  (∀ s die up answered, Acts (.coreVoltageStep die up answered) s → s.power.avsStopped.getLsbD die = false →
    let v := if die = 0 then s.power.vcw else s.power.vce
    let new := if up = true then v + 5 else v - 5
    650 ≤ new → new ≤ 850 → (∀ c, tfind s.power.lastVolt die = some c → c + 2500 ≤ count s) →
    (up = true ∨ (s.power.limited = true ∧ worn s die = false)) →
    exec (.coreVoltageStep die up answered) s =
      .next (if answered = true then
          modPower s fun w =>
            { w with
              lastVolt := tset w.lastVolt die (count s), vcw := if die = 0 then new else w.vcw
              vce := if die = 0 then w.vce else new }
        else modPower (recordFault s 20 0xff 0xffff 0 die 0 [] none).2 fun w =>
          { w with avsStopped := w.avsStopped ||| (1#2 <<< die) })) ∧
  (∀ s held, Acts (.brakeAssert held) s → 25 ≤ held → s.lands.phase ≠ 0 →
    exec (.brakeAssert held) s = .next (relimit (modLands s fun l => { l with brake := true }))) ∧
  (∀ s, Acts .brakeRelease s →
    exec .brakeRelease s = .next (relimit (modLands s fun l => { l with brake := false }))) ∧
  (∀ s w e t, Acts (.thermalSample (w, w) (e, e) t) s → reaches [w, e] t 100 95 = true → reaches [w, e] t 105 100 = false →
    s.power.stage = 0 → s.power.entryHolds = false →
    ∃ u, u = modPower s (fun x =>
        { x with
          netBad := 0, entryHolds := true, leaveHolds := leaveStage [w, e] t 2, thermStep := count s, stage := 2
          thermOn := true, thermLimit := x.pavg }) ∧
      exec (.thermalSample (w, w) (e, e) t) s =
        .next (relimit (event u [0, 1, 2] 0xe702 ((powerBody u).take 64)))) ∧
  (∀ s w e t, Acts (.thermalSample w e t) s →
    let bad : BitVec 2 :=
      (if 80 < (w.1 - w.2).natAbs then 1 else 0) ||| (if 80 < (e.1 - e.2).natAbs then 2 else 0)
    let v := if bad &&& ~~~s.power.netBad = 0 then s else (recordFault s 21 0xff 0xffff 0 0 0 [] none).2
    let dies := [max w.1 w.2, max e.1 e.2]
    let enters := reaches dies t 100 95
    let leaves := leaveStage dies t 2
    let u := modPower v fun p =>
      { p with
        netBad := bad, entryHolds := enters, leaveHolds := leaves
        thermStep := if (enters && !p.entryHolds) || (leaves && !p.leaveHolds) then count v else p.thermStep }
    let n := nextStage dies t v.power.stage
    exec (.thermalSample w e t) s =
      .next (if n = v.power.stage then u
        else relimit (event (thermChange u v.power.stage n) [0, 1, 2] 0xe702
          ((powerBody (thermChange u v.power.stage n)).take 64)))) ∧
  (∀ s, Acts .thermalLimitStep s → s.power.thermOn = true → s.power.stage ≠ 3 →
    (s.power.entryHolds = true → count s < s.power.thermStep + 25000) → s.power.leaveHolds = true →
    s.power.thermStep + 250000 ≤ count s →
    let n := s.power.thermLimit * 105 / 100
    exec .thermalLimitStep s =
      .next (relimit (modPower s fun w =>
        { w with
          thermLimit := n, thermStep := count s
          thermOn := !(((limitParts s).filter fun e => decide (e.1 ≠ 5)).all fun e => decide (e.2 < n)) }))) ∧
  (∀ s, Acts .thermalLimitStep s → s.power.thermOn = true → s.power.stage ≠ 3 → s.power.entryHolds = true →
    s.power.thermStep + 25000 ≤ count s →
    exec .thermalLimitStep s =
      .next (relimit (modPower s fun w => { w with thermLimit := w.thermLimit * 95 / 100, thermStep := count s }))) ∧
  (∀ s die t, Acts (.thermalTrip die t) s → 16 * (if die then 115 else 110) ≤ t → s.boot.safe = false →
    ∃ n u, recordFault s 21 0xff 0xffff 0 0 0 [] none = (n, u) ∧
      exec (.thermalTrip die t) s = .next (safeState (modPower u fun w => { w with gate := 65536 }) 0x5101 n)) ∧
  (∀ s m u, Acts (.orphanCapApply m) s → (mgmtOf s m).lost = true → (mgmtOf s m).lostAt + 250000000 ≤ count s →
    (if m = 1 then s.power.orphA else s.power.orphB) = false →
    u = modPower s (fun w => if m = 1 then { w with orphA := true } else { w with orphB := true }) →
    exec (.orphanCapApply m) s =
      .next (relimit (event u [0, 3 - m] 0xe703
        (leBytes 1 m ++ leBytes 1 u.power.orph ++ zeros 2 ++ leBytes 4 (orphanCap u) ++ leBytes 8 (count s)))))

/-- The management ports. ENTDAA and SETDASA with the static address of the slot assign a dynamic address to a target that
has none; the control messages that MCTP and R347 name are answered, SET_ENDPOINT_ID after taking the id; any other is
answered as unsupported; 500 ms without a valid message a manager is lost, with event 0xe403 (14 R346 to R348; log
entry 38). -/
def Obligations.ManagementRowsComplete : Prop :=
  (∀ s port a, Acts (.entdaa port a) s → portAnswers s port = true → (mgmtOf s port).dynAddr = none →
    exec (.entdaa port a) s = .next (modMgmt s port fun x => { x with dynAddr := some a })) ∧
  (∀ s port a, Acts (.setdasa port (staticAddr s) a) s → portAnswers s port = true → (mgmtOf s port).dynAddr = none →
    exec (.setdasa port (staticAddr s) a) s = .next (modMgmt s port fun x => { x with dynAddr := some a })) ∧
  (∀ s port op eid, Acts (.setEndpointId port op eid) s → portAnswers s port = true → op ≤ 1 → eid ≠ 0 → eid ≠ 255 →
    exec (.setEndpointId port op eid) s =
      .next (send (modMgmt (managerSeen s port) port fun x => { x with eid := eid }) port
        (.mctp 1 0 (leBytes 1 0 ++ leBytes 1 eid ++ leBytes 1 0)))) ∧
  (∀ s port, Acts (.getEndpointId port) s → portAnswers s port = true →
    exec (.getEndpointId port) s =
      .next (send (managerSeen s port) port (.mctp 2 0 (leBytes 1 (mgmtOf (managerSeen s port) port).eid ++ zeros 2)))) ∧
  (∀ s port t, Acts (.getMctpVersionSupport port t) s → portAnswers s port = true → knownType t = true →
    exec (.getMctpVersionSupport port t) s =
      .next (send (managerSeen s port) port
        (.mctp 4 0 (leBytes 1 ((Config.mctpVersions t).length / 4) ++ Config.mctpVersions t)))) ∧
  (∀ s port, Acts (.getMessageTypeSupport port) s → portAnswers s port = true →
    exec (.getMessageTypeSupport port) s =
      .next (send (managerSeen s port) port (.mctp 5 0 (leBytes 1 1 ++ leBytes 1 0x7f)))) ∧
  (∀ s port code, Acts (.mctpUnsupportedControl port code) s → portAnswers s port = true → code ∉ [1, 2, 4, 5] →
    exec (.mctpUnsupportedControl port code) s = .next (send (managerSeen s port) port (.mctp code 5 []))) ∧
  (∀ s m, Acts (.rackManagerLost m) s → (mgmtOf s m).enabled = true → (mgmtOf s m).lost = false →
    (mgmtOf s m).lastMsg + 12500000 ≤ count s →
    exec (.rackManagerLost m) s =
      .next (event (setMgmt s m { mgmtOf s m with lost := true, lostAt := count s }) [0, 3 - m] 0xe403
        (leBytes 1 m ++ zeros 7 ++ leBytes 8 (mgmtOf s m).lastMsg)))

/-- The negotiation of the Iberaine port. LIGHT with light on two lanes or more passes to POWER, POWER to LANE, LANE to
RATE with its good lanes, RATE to VERSION with the width and rate chosen, and VERSION to ACTIVATE where the version is
common, else the port stays down; a state whose limit has passed goes back to LIGHT; 1 s after a version failure LIGHT
starts again. Packets. A packet of an open port whose header passes every check is accepted, the twin's out of the
message that stands at the ingress: E advances, the command takes its place, and its acknowledgement is sent (12 R281
to R285). A MIRROR_CMD's inner command is done on the mirror, and its reply header is the body (15 R359, Table 7; 12
R296; 13 R298). -/
def Obligations.HostPortRowsComplete : Prop :=
  (∀ s info, Acts (.iberaineStatePass info) s → (link s 18).st = .light → s.power.good.getLsbD 10 = true →
    s.power.good.getLsbD 11 = true → 2 ≤ (threeLanes info.lanes).length →
    exec (.iberaineStatePass info) s = .next (toState s 18 .power id)) ∧
  (∀ s info, Acts (.iberaineStatePass info) s → (link s 18).st = .lane → s.power.good.getLsbD 10 = true →
    s.power.good.getLsbD 11 = true → count s < (link s 18).since + 125000 →
    exec (.iberaineStatePass info) s =
      .next (toState s 18 .rate fun x => { x with goods := [(2, (info.good[0]?).getD 0)] })) ∧
  (∀ s info, Acts (.iberaineStatePass info) s → (link s 18).st = .power → s.power.good.getLsbD 10 = true →
    s.power.good.getLsbD 11 = true → count s < (link s 18).since + 250000 → info.pass = true →
    exec (.iberaineStatePass info) s = .next (toState s 18 .lane id)) ∧
  (∀ s info w r ls sp, Acts (.iberaineStatePass info) s → (link s 18).st = .rate → s.power.good.getLsbD 10 = true →
    s.power.good.getLsbD 11 = true → count s < (link s 18).since + 250000 →
    iberaineChoice (threeLanes (((link s 18).goods[0]?).elim 0 fun g => g.2)) (threeLanes ((info.good[1]?).getD 0)) =
      some (w, r, ls, sp) →
    exec (.iberaineStatePass info) s =
      .next (toState s 18 .version fun x => { x with width := w, rate := r, lanes := ls, spare := sp })) ∧
  (∀ s info, Acts (.iberaineStatePass info) s → (link s 18).st = .version → s.power.good.getLsbD 10 = true →
    s.power.good.getLsbD 11 = true → count s < (link s 18).since + 25000 →
    exec (.iberaineStatePass info) s = .next (if Nat.testBit info.versions 1 then enterActivate s 18 else noVersion s)) ∧
  (∀ s n, Acts .iberaineStateLimit s → iberaineLimit (link s 18).st = some n → (link s 18).since + n ≤ count s →
    exec .iberaineStateLimit s = .next (toState s 18 .light id)) ∧
  (∀ s, Acts .iberaineLightRetry s → s.fabric.versionFail = true → s.fabric.lightAt + 25000000 ≤ count s →
    exec .iberaineLightRetry s = .next (toState (modFabric s fun f => { f with versionFail := false }) 18 .light id)) ∧
  (∀ s port pkt, Acts (.commandPacketArrival port pkt) s → portOpen s port = true → (port = 1 ∨ port = 2) →
    32 ≤ pkt.length → headerCheck (managerSeen s port) port pkt = 0 →
    exec (.commandPacketArrival port pkt) s = .next (accept (managerSeen s port) (parseCmd port pkt))) ∧
  (∀ s pkt, Acts (.commandPacketArrival 0 pkt) s → portOpen s 0 = true → (s.boot.ready = true ∨ fld pkt 0 1 ≠ 0xb1) →
    32 ≤ pkt.length → headerCheck (takeMessage s 16 pkt) 0 pkt = 0 →
    exec (.commandPacketArrival 0 pkt) s = .next (accept (takeMessage s 16 pkt) (parseCmd 0 pkt))) ∧
  (∀ s pkt t, Acts (.commandPacketArrival 3 pkt) s → portOpen s 3 = true → cmdMessage s pkt = some t →
    fromTwin s t = true →
    let u := modFabric s fun b => { b with ingress := dropMessage (streamKey t) b.ingress }
    32 ≤ pkt.length → headerCheck u 3 pkt = 0 →
    exec (.commandPacketArrival 3 pkt) s = .next (accept u (parseCmd 3 pkt))) ∧
  (∀ s p pkg c st detail body t, Begins (.mirrorCmd p pkg) s p c → c.opc = 0x0702 →
    innerBegin pkg c (taken s p c) = some (st, detail, body, t) → (innerCmd c).plen + 32 = c.plen →
    exec (.mirrorCmd p pkg) s =
      .next (finish t c 0 0 (replyHeader (mkReply (innerCmd c) (rflags t false false) st (count t) detail body))))

/-! ### Command packets and remote operations -/

/-- Remote requests. A READ, WRITE or ATOMIC that is first in its stream, has no earlier open request to its 4 KiB unit,
and passes both copies of the range check is served as a local access of its destination, and one on which the two
copies disagree leaves a record of kind 17; a FENCE is answered when no earlier request of its stream is open.
Responses. A response that answers an outstanding transfer within its limit completes the transfer with its status and
data (14 R335 to R337; 14 R336, R338). -/
def Obligations.RemoteRowsComplete : Prop :=
  (∀ s t, Acts (.remoteRead t true) s → t.ttype = 1 → firstOfStream s t = true → txnOk t = true →
    sameUnitOpen s t = false → remoteAllowed (modFabric s fun f => { f with ingress := f.ingress.erase t }) t = true →
    exec (.remoteRead t true) s = .next (serveRemote (modFabric s fun f => { f with ingress := f.ingress.erase t }) t)) ∧
  (∀ s t, Acts (.remoteWrite t true) s → t.ttype = 2 → firstOfStream s t = true → txnOk t = true →
    sameUnitOpen s t = false → remoteAllowed (modFabric s fun f => { f with ingress := f.ingress.erase t }) t = true →
    exec (.remoteWrite t true) s = .next (serveRemote (modFabric s fun f => { f with ingress := f.ingress.erase t }) t)) ∧
  (∀ s t, Acts (.remoteAtomic t true) s → t.ttype = 3 → firstOfStream s t = true → txnOk t = true →
    sameUnitOpen s t = false → remoteAllowed (modFabric s fun f => { f with ingress := f.ingress.erase t }) t = true →
    exec (.remoteAtomic t true) s = .next (serveRemote (modFabric s fun f => { f with ingress := f.ingress.erase t }) t)) ∧
  (∀ s t u, Acts (.remoteFence t) s → t.ttype = 4 → firstOfStream s t = true → txnOk t = true →
    (s.fabric.remoteOpen.any fun r => decide (streamKey r = streamKey t)) = false →
    u = modFabric s (fun f => { f with ingress := f.ingress.erase t }) → defined u t.dstPart = true →
    remoteSource (part u t.dstPart) t = true →
    exec (.remoteFence t) s = .next (answerTxn u t 0 [])) ∧
  (∀ s t i, ((i = .remoteRead t false ∧ t.ttype = 1) ∨ (i = .remoteWrite t false ∧ t.ttype = 2) ∨
      (i = .remoteAtomic t false ∧ t.ttype = 3)) →
    Acts i s → firstOfStream s t = true → txnOk t = true → sameUnitOpen s t = false →
    exec i s =
      .next (recordFault (modFabric s fun f => { f with ingress := f.ingress.erase t }) 17 t.dstPart 0xffff 0 0 0
        (leBytes 8 t.addr.toNat) none).2) ∧
  (∀ s t u x, Acts (.readRsp t) s → t.ttype = 0x81 → firstOfStream s t = true → txnOk t = true →
    u = modFabric s (fun f => { f with ingress := f.ingress.erase t }) → answered u t = some x → t.len = x.len →
    exec (.readRsp t) s = .next (finishTransfer (dropTransfer u x.id) x t.status t.data)) ∧
  (∀ s t u x, Acts (.writeCpl t) s → t.ttype = 0x82 → firstOfStream s t = true → txnOk t = true →
    u = modFabric s (fun f => { f with ingress := f.ingress.erase t }) → answered u t = some x →
    exec (.writeCpl t) s = .next (finishTransfer (dropTransfer u x.id) x t.status t.data)) ∧
  (∀ s t u x, Acts (.atomicRsp t) s → t.ttype = 0x83 → firstOfStream s t = true → txnOk t = true →
    u = modFabric s (fun f => { f with ingress := f.ingress.erase t }) → answered u t = some x →
    exec (.atomicRsp t) s = .next (finishTransfer (dropTransfer u x.id) x t.status t.data)) ∧
  (∀ s t u x, Acts (.fenceCpl t) s → t.ttype = 0x84 → firstOfStream s t = true → txnOk t = true →
    u = modFabric s (fun f => { f with ingress := f.ingress.erase t }) → answered u t = some x →
    exec (.fenceCpl t) s = .next (finishTransfer (dropTransfer u x.id) x t.status t.data))

/-! ### Supplies, reset and start-up -/

/-- Supplies and reset. RESET_N rising with the supplies of the management ports good samples the straps; falling, it
resets everything but what R379 keeps; 250 counts after the sampling the train phase starts; a rail that becomes good
is so, the always-on supply starts the device afresh, and the later of it and VDD_IO18 samples the straps; a rail that
is lost loses what its units held, and once start-up has begun the device reacts to it under a fault record of kind
20: a tier's rail takes the tier out of service; without the always-on supply the device stops (17 R409, Table 2; 18
R429, R430; log entry 36). -/
def Obligations.SupplyRowsComplete : Prop :=
  (∀ s straps, Acts (.resetNRise straps) s → s.boot.resetN = false → mgmtPowered s = true →
    exec (.resetNRise straps) s = .next (sampleStraps straps (modBoot s fun b => { b with resetN := true }))) ∧
  (∀ s, Acts .resetNFall s → exec .resetNFall s = .next (inReset s)) ∧
  (∀ s, Acts .trainPhaseStart s → s.lands.phase = 0 → s.boot.resetN = true → mgmtPowered s = true →
    s.lands.sampledAt + 250 ≤ count s → exec .trainPhaseStart s = .next (modLands s fun l => { l with phase := 1 })) ∧
  (∀ s rail straps, Acts (.supplyGood rail straps) s → s.power.good.getLsbD rail = false →
    let u := modPower s fun w => { w with good := w.good ||| (1#13 <<< rail) }
    let v := if rail = 3 then
        modBoot (inReset { u with time := { count := 0, lost := false, bridging := false, watch := 0 } }) fun b =>
          { b with resetN := s.boot.resetN }
      else u
    exec (.supplyGood rail straps) s =
      .next (if (rail = 3 ∨ rail = railIO18) ∧ v.boot.resetN = true ∧ mgmtPowered v = true then sampleStraps straps v
        else v)) ∧
  (∀ s rail n u, Acts (.railLoss rail) s → s.power.good.getLsbD rail = true → rail ≠ 3 →
    let v := loseContent rail (modPower s fun w => { w with good := w.good &&& ~~~(1#13 <<< rail) })
    v.power.good.getLsbD 3 = true → v.boot.resetN = true →
    recordFault (modPower v fun w => { w with lostRails := w.lostRails ||| (1#13 <<< rail) }) 20 0xff 0xffff 0 rail 0 [] none =
      (n, u) →
    exec (.railLoss rail) s = .next (railReact rail n u)) ∧
  (∀ s rail, Acts (.railLoss rail) s → s.power.good.getLsbD rail = true → rail ≠ 3 →
    let v := loseContent rail (modPower s fun w => { w with good := w.good &&& ~~~(1#13 <<< rail) })
    (v.power.good.getLsbD 3 = false ∨ v.boot.resetN = false) → exec (.railLoss rail) s = .next v) ∧
  (∀ s, Acts (.railLoss 3) s → s.power.good.getLsbD 3 = true →
    exec (.railLoss 3) s =
      .next (modBoot (inReset (loseContent 3 (modPower s fun w => { w with good := w.good &&& ~~~(1#13 <<< 3) }))) fun b =>
        { b with resetN := s.boot.resetN })) ∧
  (∀ s n u, Acts (.railLoss 8) s → s.power.good.getLsbD 8 = true → s.power.good.getLsbD 3 = true → s.boot.resetN = true →
    recordFault (modPower s fun w => { w with good := w.good &&& ~~~(1#13 <<< 8), lostRails := w.lostRails ||| (1#13 <<< 8) })
      20 0xff 0xffff 0 8 0 [] none = (n, u) →
    exec (.railLoss 8) s = .next (modTiers u fun m => { m with out2 := true }))

/-- The phases of start-up. A phase whose needs are done, that has not ended, with the device not in safe state, ends with
its effect: A leaves the cores that pass, or brings safe state, B the keys, C the open ports, D the domains, H tier 0
and tier 1, K tier 2, E the port that is up (15 R356 to R359, Table 5). -/
def Obligations.StartupPhasesComplete : Prop :=
  (∀ s rom sram bad, Acts (.startupSelfTest rom sram bad) s → s.boot.safe = false → phaseDone s .a = false →
    let pairBad := ([0, 1].filter fun c => decide (c ∈ bad)).length
    let u := modBoot s fun b => { b with done := b.done ++ [.a] }
    exec (.startupSelfTest rom sram bad) s =
      .next (if rom = true ∧ sram = true ∧ (pairBad = 0 ∨ (pairBad = 1 ∧ 2 ∉ bad)) then
          modBoot u fun b =>
            { b with cores := 3 - pairBad - (if 2 ∈ bad then 1 else 0), spareUsed := decide (pairBad = 1 ∨ 2 ∈ bad) }
        else startFail u)) ∧
  (∀ s, Acts .startupIdentity s → s.boot.safe = false → phaseDone s .b = false → phaseDone s .a = true →
    exec .startupIdentity s = .next (modBoot s fun b => { b with done := b.done ++ [.b], keys := true })) ∧
  (∀ s, Acts .startupManagement s → s.boot.safe = false → phaseDone s .c = false → phaseDone s .b = true →
    exec .startupManagement s = .next (openPorts (modBoot s fun b => { b with done := b.done ++ [.c] }))) ∧
  (∀ s segs vs helper, Acts (.startupDomains segs vs helper) s → s.boot.safe = false → phaseDone s .d = false →
    phaseDone s .c = true → s.power.good = BitVec.allOnes 13 →
    exec (.startupDomains segs vs helper) s =
      .next (domains segs vs helper (modBoot s fun b => { b with done := b.done ++ [.d] }))) ∧
  (∀ s rates b0 b1 caps, Acts (.startupMemory rates b0 b1 caps) s → s.boot.safe = false → phaseDone s .h = false →
    phaseDone s .d = true →
    exec (.startupMemory rates b0 b1 caps) s =
      .next (memoryUp rates b0 b1 caps (modBoot s fun b => { b with done := b.done ++ [.h] }))) ∧
  (∀ s ready, Acts (.startupTier2 ready) s → s.boot.safe = false → phaseDone s .k = false → phaseDone s .d = true →
    exec (.startupTier2 ready) s = .next (tier2Up ready (modBoot s fun b => { b with done := b.done ++ [.k] }))) ∧
  (∀ s, Acts .startupIberaine s → s.boot.safe = false → phaseDone s .b = true → (link s 18).st = .down →
    exec .startupIberaine s = .next (modLink s 18 fun x => { x with st := .light, since := count s })) ∧
  (∀ s, Acts .startupIberaine s → s.boot.safe = false → phaseDone s .b = true → phaseDone s .e = false →
    (link s 18).st = .up → exec .startupIberaine s = .next (modBoot s fun b => { b with done := b.done ++ [.e] }))

/-- The boot exchange. HELLO carries the identity report; pieces go to their object's buffer; START ends phase F, and the
judgement of the objects is answered by STATUS with cause 0 and phase G when all three stand accepted; the links begin
at SIDEBAND; phase L loads the code and data of the image into the control SRAM and the SF runs; phase M forms tiers 1
and 2 and raises READY (14 R326; 15 R360 to R366). -/
def Obligations.BootRowsComplete : Prop :=
  (∀ s, Acts .bootExchangeHello s → phaseDone s .e = true → s.boot.hello = false → s.boot.ready = false →
    s.boot.safe = false →
    ∃ u, u = modBoot s (fun b => { b with hello := true }) ∧
      exec .bootExchangeHello s = .next (send u 0 (.boot 1 (identityBody s (zeros 32))))) ∧
  (∀ s pkt, Acts (.bootImagePiece pkt) s → portOpen s 0 = true → s.boot.ready = false → isBoot pkt = true →
    bootType pkt = 3 → exec (.bootImagePiece pkt) s = .next (imagePiece pkt (takeMessage s iberaineStream pkt))) ∧
  (∀ s pkt, Acts (.bootFabcfgPiece pkt) s → portOpen s 0 = true → s.boot.ready = false → isBoot pkt = true →
    bootType pkt = 4 → exec (.bootFabcfgPiece pkt) s = .next (fabcfgPiece pkt (takeMessage s iberaineStream pkt))) ∧
  (∀ s pkt, Acts (.bootRetirePiece pkt) s → portOpen s 0 = true → s.boot.ready = false → isBoot pkt = true →
    bootType pkt = 5 → exec (.bootRetirePiece pkt) s = .next (retirePiece pkt (takeMessage s iberaineStream pkt))) ∧
  (∀ s pkt, Acts (.bootStart pkt) s → portOpen s 0 = true → s.boot.ready = false → isBoot pkt = true →
    bootType pkt = 7 → exec (.bootStart pkt) s = .next (bootStartIn pkt (takeMessage s iberaineStream pkt))) ∧
  (∀ s, Acts .startupVerification s → s.boot.start = true → s.boot.safe = false → s.boot.ready = false →
    s.boot.imageOk = true → s.boot.fabOk = true → s.boot.retireOk = true → Phase.g ∉ s.boot.done →
    exec .startupVerification s =
      .next (send (modBoot s fun b => { b with start := false, done := b.done ++ [.g] }) 0 (.boot 6 (leBytes 4 0)))) ∧
  (∀ s, Acts .startupFabric s → s.boot.safe = false → phaseDone s .d = true → s.fabric.accepted = true →
    s.lands.phase = 1 → (enabledLinks s).filter (fun l => decide ((link s l).st = .down)) ≠ [] →
    exec .startupFabric s =
      .next (((enabledLinks s).filter fun l => decide ((link s l).st = .down)).foldl (fun s l =>
        modLink s l fun x => { x with st := .sideband, since := count s }) s)) ∧
  (∀ s, Acts .startupServiceFirmware s → s.boot.safe = false → phaseDone s .l = false → phaseDone s .g = true →
    phaseDone s .h = true →
    exec .startupServiceFirmware s = .next (loadFirmware (modBoot s fun b => { b with done := b.done ++ [.l] }))) ∧
  (∀ s, Acts .startupReady s → s.boot.safe = false → phaseDone s .m = false → phaseDone s .j = true →
    phaseDone s .k = true → phaseDone s .l = true →
    exec .startupReady s = .next (readyNow (modBoot s fun b => { b with done := b.done ++ [.m] })))

/-- Control recovery and telemetry. A divergence of the lockstep pair ends every step under fault kind 18 and stops both
cores; after tests of which both or one pass, the spare in place of the core that failed, every primary partition is
reset and its VEs enter buffer mode, and the SF runs on where its code is intact and is discarded where it is not;
tests that leave no pair of cores bring safe state; the renewal takes the temperatures, stage times and margins (15
R350, R351, R368). -/
def Obligations.RecoveryRowsComplete : Prop :=
  (∀ s, Acts .lockstepDivergence s → phaseDone s .a = true → s.boot.stopped = false → s.boot.safe = false →
    exec .lockstepDivergence s =
      .next (modBoot (everyStepFault s 18 0 [] none) fun b => { b with stopped := true, recovery := true })) ∧
  (∀ s a b, Acts (.controlRecovery a b) s → s.boot.stopped = true → s.boot.safe = false → ¬ (a = true ∧ b = true) →
    (a = b ∨ s.boot.spareUsed = false) →
    let u := modBoot s fun x =>
      { x with stopped := false, cores := if a = b then x.cores else x.cores - 1, spareUsed := x.spareUsed || a != b }
    let v := if u.boot.sfRunning = true ∧ sfIntact u = false then discardSf u else modBoot u fun x => { x with recovery := false }
    exec (.controlRecovery a b) s =
      .next (((List.range 16).filter (isPrimary v)).foldl (fun s p =>
        recoverVes (partitionReset s p none 0x3005) p) v)) ∧
  (∀ s a b, Acts (.controlRecovery a b) s → s.boot.stopped = true → s.boot.safe = false →
    ((a = true ∧ b = true) ∨ (a ≠ b ∧ s.boot.spareUsed = true)) →
    exec (.controlRecovery a b) s = .next (safeState s 0x5101 0)) ∧
  (∀ s w e bs, Acts (.telemetryRenewal w e bs) s →
    exec (.telemetryRenewal w e bs) s =
      .next { s with tele :=
        { s.tele with
          renewed := count s, west := w, east := e
          stagePs := bs.foldl (fun m e => tset m e.1 e.2.1) s.tele.stagePs
          temp := bs.foldl (fun m e => tset m e.1 e.2.2) s.tele.temp
          wear := (List.range 128).foldl (fun m b => tset m b (blockMargin s b)) s.tele.wear } })

/-! ### Spares -/

/-- Self-test and wear. A slice of a unit that may be tested starts, a block's records taken and its partition held; one
that passes gives its unit back, with nothing due; one that fails leaves a record of kind 23 for a block or a channel
and the unit unusable; supply or temperature out of range aborts it without a verdict; 30 minutes without a pass give
one record of kind 24; each point renewed is judged against the thresholds. Substitution. A scheduled segment's
affected partitions are held; at their boundaries, with the moving tiles' epochs ended and no token left, the records
are saved; the map is written while the replacement still stands; the records are restored at the new places and the
partitions go on; the TM forces the substitution of a unit that must go; a VE gives its place to the die's spare, at a
boundary or, where it must go, by the forced path (16 R383 to R388; log entry 40; 16 R389 to R394). -/
def Obligations.SelfTestAndSubstitutionRowsComplete : Prop :=
  (∀ s u, Acts (.bistSliceStart u) s → s.boot.ready = true → s.boot.safe = false →
    (∀ x ∈ s.safety.slices, trackOf x.unit ≠ trackOf u) → inTestRange s u = true → isolable s u = true →
    sliceTurn s u = true →
    let v := modSafety s fun f => { f with swept := (f.swept.filter fun e => decide (e.1 ≠ u)) ++ [(u, sweepNow s)] }
    exec (.bistSliceStart u) s =
      .next (match u with
        | .block b =>
          let ps := (partOfBlock v b).toList
          modSafety (setBlockSt (ps.foldl holdPart v) b 1) fun f =>
            { f with slices := f.slices ++
              [{ unit := u, parts := ps, tiles := (tilesOfBlock b).map (tileRec v), ves := [veRec v b] }] }
        | _ => modSafety v fun f => { f with slices := f.slices ++ [{ unit := u, parts := [], tiles := [], ves := [] }] })) ∧
  (∀ s u bad x, Acts (.bistSliceEnd u true bad) s → s.safety.slices.find? (fun x => decide (x.unit = u)) = some x →
    exec (.bistSliceEnd u true bad) s =
      .next (x.parts.foldl releasePart (toPool (slicePassed (sliceBack s x) u) u))) ∧
  (∀ s u bad x, Acts (.bistSliceEnd u false bad) s → s.safety.slices.find? (fun x => decide (x.unit = u)) = some x →
    let v := noRetest (sliceBack s x) u
    exec (.bistSliceEnd u false bad) s =
      .next (match u with
        | .block b =>
          let mine := bad.filter fun w => decide (sliceOf v w = u ∧ w ≠ u)
          let w := mine.foldl markBad (recordFault v 23 ((partOfBlock v b).getD 0xff) b 0 0 0 [] none).2
          if mine = [] then spareExhausted (x.parts.foldl releasePart (setBlockSt w b 2)) b
          else modSafety w fun f => { f with heldFor := f.heldFor ++ mine.flatMap fun v => x.parts.map fun p => (v, p) }
        | .tier0 k => unusable (recordFault v 23 0xff 0xffff 0 k 0 [] none).2 u
        | .tier1 k => unusable (recordFault v 23 0xff 0xffff 0 k 0 [] none).2 u
        | .tier2 k => unusable (recordFault v 23 0xff 0xffff 0 k 0 [] none).2 u
        | _ => unusable v u)) ∧
  (∀ s u x, Acts (.bistSliceAbort u) s → s.safety.slices.find? (fun x => decide (x.unit = u)) = some x →
    inTestRange s u = false →
    exec (.bistSliceAbort u) s =
      .next (modSafety (x.parts.foldl releasePart (sliceBack s x)) fun f =>
        { f with swept := f.swept.filter fun e => decide (e.1 ≠ u) })) ∧
  (∀ s u, Acts (.bistOverdue u) s → s.boot.ready = true → u ∉ s.safety.overdue → inSweep s u = true →
    ((s.safety.passes.find? fun e => decide (e.1 = u)).map fun e => e.2).getD s.safety.bistSince + 45000000000 ≤ count s →
    exec (.bistOverdue u) s =
      .next (modSafety (match u with
        | .block b => (recordFault s 24 ((partOfBlock s b).getD 0xff) b 0 0 0 [] none).2
        | _ => (recordFault s 24 0xff 0xffff 0 0 0 [] none).2) fun f => { f with overdue := f.overdue ++ [u] })) ∧
  (∀ s ps, Acts (.wearGaugeRenewal ps) s → exec (.wearGaugeRenewal ps) s = .next (ps.foldl wearPoint s)) ∧
  (∀ s d r g c ps, Acts (.substitutionSchedule d r g) s → s.boot.ready = true → s.boot.safe = false →
    s.safety.subst = none → mapped s d r g = true → replacement s d r g = some c → ps = affected s d r g c →
    ∃ x : Subst, x = { die := d, row := r, seg := g, repl := c, phase := 1, parts := ps, recs := [], forced := false } ∧
      exec (.substitutionSchedule d r g) s =
        .next (modSafety
          (ps.foldl (fun s p => modPart s p fun x => { x with holds := x.holds + 1, chained := false }) s) fun f =>
          { f with subst := some x })) ∧
  (∀ s x ts u, Acts .substitutionSave s → s.safety.subst = some x → x.phase = 1 →
    ts = movingTiles s x.die x.row x.seg x.repl → allStopped s x.parts = true →
    (∀ t ∈ ts, holdsToken (tile s t) = false ∧ epochEnded (tile s t) = true) →
    u = x.parts.foldl (fun s p => saveRecord (dropAppended s p) p ((part s p).pre = .evicted)) s →
    exec .substitutionSave s =
      .next (modSafety u fun f => { f with subst := some { x with phase := 2, recs := ts.map (tileRec u) } })) ∧
  (∀ s x, Acts .substitutionMapWrite s → s.safety.subst = some x → x.phase = 2 →
    replacement s x.die x.row x.seg = some x.repl →
    exec .substitutionMapWrite s =
      .next (modSafety (writeMap s x.die x.row x.seg x.repl) fun f => { f with subst := some { x with phase := 3 } })) ∧
  (∀ s x, Acts .substitutionRestoreDone s → s.safety.subst = some x → x.phase = 3 →
    exec .substitutionRestoreDone s =
      .next (releaseFor (modSafety (x.parts.foldl releasePart (x.recs.foldl restoreEnded s)) fun f =>
        { f with subst := none }) (.segment x.die x.row x.seg))) ∧
  (∀ s d r g c, Acts (.forcedSubstitution d r g) s → s.boot.ready = true → s.boot.safe = false → s.safety.subst = none →
    mapped s d r g = true → mustGo s (.segment d r g) = true → replacement s d r g = some c →
    (∀ p ∈ affected s d r g c, prePhase (part s p) = false) →
    let ps := (affected s d r g c).filter fun p => decide ((part s p).pre ≠ .evicted)
    let u := ps.foldl evictBegin s
    (∀ p ∈ ps, stillFlying u p = false) →
    exec (.forcedSubstitution d r g) s =
      .next (releaseFor (ps.foldl (resumeNow s) (writeMap (ps.foldl evictNow u) d r g c)) (.segment d r g))) ∧
  (∀ s b image pc, Acts (.veSubstitution b image pc) s → s.boot.ready = true → s.boot.safe = false →
    tierAccess s 0 image 262144 false = 0 → spareVeFree s (b / 64) = true → mustGo s (.ve b) = false →
    allStopped s (partOfBlock s b).toList = true →
    (∀ t ∈ tilesOfBlock b, holdsToken (tile s t) = false ∧ epochEnded (tile s t) = true) →
    let v := (partOfBlock s b).toList.foldl (fun s p => saveRecord (dropAppended s p) p ((part s p).pre = .evicted)) s
    exec (.veSubstitution b image pc) s =
      .next (releaseFor (modSafety (setVe (enterBuffer v b) b (spareIn (readTier v 0 image 262144) pc)) fun f =>
        { f with
          spareVe := f.spareVe &&& ~~~(1#2 <<< (b / 64)), badVes := f.badVes.filter fun n => decide (n ≠ b)
          wear := f.wear.filter fun e => decide (e.1 ≠ .ve b) }) (.ve b))) ∧
  (∀ s b image pc, Acts (.veSubstitution b image pc) s → s.boot.ready = true → s.boot.safe = false →
    tierAccess s 0 image 262144 false = 0 → spareVeFree s (b / 64) = true → mustGo s (.ve b) = true →
    (∀ p ∈ partOfBlock s b, prePhase (part s p) = false) →
    let ps := (partOfBlock s b).toList.filter fun p => decide ((part s p).pre ≠ .evicted)
    let u := ps.foldl evictBegin s
    (∀ p ∈ ps, stillFlying u p = false) →
    exec (.veSubstitution b image pc) s =
      .next (releaseFor (modVe (ps.foldl (resumeNow s) (spareConnect (ps.foldl evictNow u) b image pc)) b fun x =>
        { x with buffer := false, running := true, pc := BitVec.ofNat 15 pc }) (.ve b)))

/-! ### Links -/

/-- Training. A state that passes within its limit goes on: SIDEBAND with the partner's message, DETECT with the lanes
found to LOCK, LOCK to EQUALISE at the highest rate both allow, EQUALISE to QUALIFY, QUALIFY to the next rate or with
what it found to SELECT, and SELECT with its choice to ACTIVATE, or without one it fails; the limit of a state fails
the link; the sideband message is sent at once and then each 1 ms in SIDEBAND, and a message of the expected partner
is taken (14 R319, R320; 18 R433). -/
def Obligations.TrainingRowsComplete : Prop :=
  (∀ s l info, Acts (.linkTrainStatePass l info) s → l ≠ 18 → (link s l).st = .sideband →
    count s < (link s l).since + 1250000 → (link s l).sideOk = true →
    exec (.linkTrainStatePass l info) s = .next (toState s l .detect id)) ∧
  (∀ s l info, Acts (.linkTrainStatePass l info) s → l ≠ 18 → (link s l).st = .detect →
    count s < (link s l).since + 25000 → trainable (link s l) info.lanes ≠ [] →
    exec (.linkTrainStatePass l info) s =
      .next (toState s l .lock fun x => { x with lanes := trainable (link s l) info.lanes })) ∧
  (∀ s l info, Acts (.linkTrainStatePass l info) s → l ≠ 18 → (link s l).st = .lock →
    count s < (link s l).since + 50000 → info.pass = true →
    exec (.linkTrainStatePass l info) s =
      .next (toState s l .equalise fun x => { x with rateIdx := firstRate s l x, goods := [] })) ∧
  (∀ s l info, Acts (.linkTrainStatePass l info) s → l ≠ 18 → (link s l).st = .equalise →
    count s < (link s l).since + 250000 → info.pass = true →
    exec (.linkTrainStatePass l info) s = .next (toState s l .qualify id)) ∧
  (∀ s l info found gs, Acts (.linkTrainStatePass l info) s → l ≠ 18 → (link s l).st = .qualify →
    count s < (link s l).since + 250000 →
    found = (link s l).lanes.foldl (fun (b : BitVec 5) n => b ||| ((info.good[0]?).getD 0 &&& (1#5 <<< n))) 0 →
    gs = (link s l).goods ++ [((link s l).rateIdx, found)] →
    exec (.linkTrainStatePass l info) s =
      .next (if 4 ≤ (maskLanes found).length ∨ 2 ≤ (link s l).rateIdx then toState s l .select fun x => { x with goods := gs }
        else toState s l .equalise fun x => { x with goods := gs, rateIdx := x.rateIdx + 1 })) ∧
  (∀ s l info, Acts (.linkTrainStatePass l info) s → l ≠ 18 → (link s l).st = .select →
    exec (.linkTrainStatePass l info) s =
      .next (match choose (link s l).goods (link s l) with
        | none => trainFail s l
        | some (w, r, ls, sp) =>
          enterActivate (setLink s l { link s l with width := w, rate := r, lanes := ls, spare := sp }) l)) ∧
  (∀ s l n, Acts (.linkTrainLimit l) s → l ≠ 18 → trainLimit (link s l).st = some n → (link s l).since + n ≤ count s →
    exec (.linkTrainLimit l) s = .next (trainFail s l)) ∧
  (∀ s l e, Acts (.sidebandSend l) s → s.fabric.ents[l]? = some e → (link s l).st = .sideband → s.lands.phase = 1 →
    ((link s l).lastSent < (link s l).since ∨ (link s l).lastSent + 25000 ≤ count s) →
    exec (.sidebandSend l) s =
      .next (modFabric (setLink s l { link s l with lastSent := count s }) fun f =>
        { f with sideSent := f.sideSent ++ [sideBytes s l e] })) ∧
  (∀ s m l e, Acts (.sidebandRecv m) s → s.lands.phase = 1 → sideBad s m = false → l = fld m 4 1 % 32 →
    s.fabric.ents[l]? = some e → (link s l).st = .sideband → fld m 6 2 % 16384 = e.pchip → fld m 5 1 % 32 = e.plink →
    exec (.sidebandRecv m) s =
      .next (modLink s l fun x =>
        { x with sideOk := true, partnerLanes := BitVec.ofNat 5 (fld m 8 1), partnerRate := fld m 9 1 % 4 }))

/-- Frames of a link that is up. The codeword on the active lanes is decoded; the data frame expected is accepted after
its acknowledgement is taken, one that does not decode is refused by a NAK; an idle frame brings acknowledgement and
credits, in ACTIVATE too; a NAK replays; the channel whose turn it is sends its next frame as a codeword with the next
sequence number, kept for replay, for one credit; with nothing to send an idle frame goes out; the oldest frame in
transit that may goes on (14 R318, R319, R324, R325, R328, R331, R333). -/
def Obligations.FrameRowsComplete : Prop :=
  (∀ s l lanes f u, Acts (.dataFrameRecv l lanes) s → isUp s l = true → received (link s l) lanes = some f → fType f = 1 →
    frameValid l f = true → u = takeAck s l (fAseq f) → fSeq f = (link u l).expSeq →
    exec (.dataFrameRecv l lanes) s = .next (acceptFrame u l f)) ∧
  (∀ s l lanes, Acts (.dataFrameRecv l lanes) s → isUp s l = true → received (link s l) lanes = none →
    exec (.dataFrameRecv l lanes) s = .next (discardFrame s l)) ∧
  (∀ s l lanes f, Acts (.idleFrameRecv l lanes) s → (isUp s l = true ∨ (link s l).st = .activate) →
    received (link s l) lanes = some f → fType f = 0 →
    exec (.idleFrameRecv l lanes) s = .next (takeCred (takeAck s l (fAseq f)) l (fCred f))) ∧
  (∀ s l lanes f, Acts (.nakFrameRecv l lanes) s → isUp s l = true → received (link s l) lanes = some f → fType f = 2 →
    exec (.nakFrameRecv l lanes) s =
      .next (nakRecv l (fCtl f % 4096) (takeCred (takeAck s l (fAseq f)) l (fCred f)))) ∧
  (∀ s l ch u x y v p r, Acts (.frameTransmit l ch) s → u = frameOut s → x = link u l → x.st = .up →
    sendTurn x = some ch → x.replay.length < 512 → tget [] x.txq ch = (v :: p) :: r → y = credTaken x (credByte x) →
    exec (.frameTransmit l ch) s =
      .next (setLink u l
        { y with
          txq := tset x.txq ch r, nextSeq := (x.nextSeq + 1) % 4096
          replay := x.replay ++ [(x.nextSeq, v :: BitVec.ofNat 8 (credByte x) :: p)], lastTurn := ch
          credits := tset x.credits ch (tget 0 x.credits ch - 1)
          wire := y.wire ++
            [spread y.width (fecEncode (dataFrame x (x.nextSeq, v :: BitVec.ofNat 8 (credByte x) :: p)))]
          lastSent := count u, progressAt := if x.replay = [] then count u else x.progressAt })) ∧
  (∀ s l, Acts (.idleFrameTimer l) s →
    (isUp (frameOut s) l = true ∧ sendTurn (link (frameOut s) l) = none ∨ (link (frameOut s) l).st = .activate) →
    exec (.idleFrameTimer l) s = .next (sendPlain (frameOut s) l 0 0)) ∧
  (∀ s l e, Acts (.transactionForward l) s → nextForward s l = some e →
    exec (.transactionForward l) s = .next (forwardFrame s e))

/-- Lanes and links that go down. An active lane that loses lock or exceeds its error limit is retired; a lane-swap frame
is answered, and the swap takes effect once both sides have acknowledged it; a link-up frame within its limit brings
up a link in ACTIVATE or in recovery; no progress of acknowledgements for 10 us and a loss of alignment take it down;
200 us after, the link leaves its port (14 R321, R322). -/
def Obligations.LaneRowsComplete : Prop :=
  (∀ s l lane, Acts (.laneLockLoss l lane) s → isUp s l = true →
    exec (.laneLockLoss l lane) s = .next (retireLane s l lane)) ∧
  (∀ s l lane k n, Acts (.laneErrorInterval l lane k n) s → isUp s l = true → lane ∈ (link s l).lanes → n < 1000000 * k →
    exec (.laneErrorInterval l lane k n) s =
      .next (retireLane (modLink s l fun x => { x with corrected := sat 32 (x.corrected + k) }) l lane)) ∧
  (∀ s l lanes f, Acts (.laneSwapFrameRecv l lanes) s → isUp s l = true → received (link s l) lanes = some f → fType f = 3 →
    exec (.laneSwapFrameRecv l lanes) s =
      .next (swapRecv l (fCtl f) (takeCred (takeAck s l (fAseq f)) l (fCred f)))) ∧
  (∀ s l r sp, Acts (.laneSwapEffect l) s → isUp s l = true → (link s l).swap = some (r, sp, true, true) →
    ∃ x, x = { link s l with
        lanes := (List.range 5).filter fun n => decide (n = sp ∨ (n ∈ (link s l).lanes ∧ n ≠ r)), swap := none
        rotates := false, spare := if (link s l).rotates then r else 5
        retiredLanes := if (link s l).rotates then (link s l).retiredLanes else dedup ((link s l).retiredLanes ++ [r]) } ∧
      exec (.laneSwapEffect l) s = .next (setLink s l x)) ∧
  (∀ s l lanes f, Acts (.linkUpFrameRecv l lanes) s → received (link s l) lanes = some f → fType f = 4 →
    ((link s l).st = .activate ∧ count s < (link s l).since + 25000 ∨
      (link s l).st = .recovery ∧ count s < (link s l).downAt + 5000 ∧ 0 < (link s l).width) →
    exec (.linkUpFrameRecv l lanes) s = .next (linkUpNow s l (fCtl f % 4096))) ∧
  (∀ s l, Acts (.ackProgressTimeout l) s → isUp s l = true → (link s l).replay ≠ [] →
    (link s l).progressAt + 250 ≤ count s → exec (.ackProgressTimeout l) s = .next (linkDown s l 4)) ∧
  (∀ s l, Acts (.codewordAlignmentLoss l) s → isUp s l = true →
    exec (.codewordAlignmentLoss l) s = .next (linkDown s l 5)) ∧
  (∀ s l, Acts (.fastRecoveryTimeout l) s → (link s l).st = .recovery → (link s l).downAt + 5000 ≤ count s →
    exec (.fastRecoveryTimeout l) s = .next (leavePort s l))

/-! ### The mirrored pair -/

/-- Set-up and end. PAIR_SETUP with no check broken and a route to the twin takes the configuration and sends SETUP, again
each 1 ms; 1 s after, without the twin's SETUP, it ends with 0x5201; a SETUP of the twin that agrees begins pair mode,
and one that comes before the command is kept for it; a SYNC_END not answered within ACKLIM ends the command; PAIR_END
leaves pair mode (16 R396, R397, R407). -/
def Obligations.PairSetupRowsComplete : Prop :=
  (∀ s c, Begins .pairSetup s 16 c → c.opc = 0x0701 → s.pair.setting = none →
    exec .pairSetup s = .next (pairSetupCmd c (taken s 16 c))) ∧
  (∀ s c, setupBad s c = none → (tfind s.fabric.routes (pf c 0 2 % 16384)).isSome = true → pf c 0 2 % 16384 ≠ s.fabric.chip →
    s.pair.early = none →
    pairSetupCmd c s =
      sendSetup (modPair s fun x =>
        { x with
          setting := some c, twin := pf c 0 2 % 16384, prim := BitVec.ofNat 16 (pf c 2 2)
          mirr := BitVec.ofNat 16 (pf c 4 2), ackCounts := 25 * pf c 8 4, setupStart := count s, twinSetup := false })) ∧
  (∀ s, Acts .pairSetupMessageSend s → s.pair.setting.isSome = true → s.pair.twinSetup = false →
    s.pair.setupLast + 25000 ≤ count s → s.boot.safe = false → exec .pairSetupMessageSend s = .next (sendSetup s)) ∧
  (∀ s c, Acts .pairSetupTimeout s → s.pair.setting = some c → s.pair.twinSetup = false →
    s.pair.setupStart + 25000000 ≤ count s →
    exec .pairSetupTimeout s = .next (finish (modPair s fun x => { x with setting := none }) c 0x5201 0 [])) ∧
  (∀ s m chip u, Acts (.pairSetupRecv m) s → s.boot.safe = false → pairSource s m = some chip → knownMsg m = true →
    m.pkind = 1 → u = (if s.pair.on = true ∧ chip = s.pair.twin then pairSeen (takePair s m) else takePair s m) →
    exec (.pairSetupRecv m) s =
      .next (if s.pair.setting.isSome = true ∧ s.pair.twinSetup = false then
          if chip = s.pair.twin then takeSetup u m else modPair u fun x => { x with discarded := x.discarded + 1 }
        else if s.pair.on = true then u
        else modPair u fun x => { x with early := some (chip, m) })) ∧
  (∀ s, Acts .syncEndAckTimeout s → exec .syncEndAckTimeout s = .next ((List.range 16).foldl syncTimeout s)) ∧
  (∀ s c, Begins .pairEnd s 16 c → c.opc = 0x0703 → exec .pairEnd s = .next (pairEndCmd c (taken s 16 c)))

/-- What a mirror takes. While it receives, every record of ALLOC, FREE, DATA or ENTRY is applied in order, and the first
that fails leaves its status for the next ACK; RECORD applies and is acknowledged outside a sync; CONFIRM charges,
advances PSTEP and is acknowledged; INVAL makes the mirror invalid and is acknowledged; SYNC_BEGIN begins a sync, and
SYNC_END ends it with the mirror valid when nothing failed; a message for a partition that mirrors nothing is
discarded (16 R397 to R401). -/
def Obligations.MirrorRowsComplete : Prop :=
  (∀ s m, Acts (.pairAllocRecv m) s → FromTwin s m → m.pkind = 2 →
    exec (.pairAllocRecv m) s = .next (applyRecs m applyAlloc (heard s m))) ∧
  (∀ s m, Acts (.pairFreeRecv m) s → FromTwin s m → m.pkind = 3 →
    exec (.pairFreeRecv m) s = .next (applyRecs m applyFree (heard s m))) ∧
  (∀ s m, Acts (.pairDataRecv m) s → FromTwin s m → m.pkind = 4 →
    exec (.pairDataRecv m) s = .next (applyRecs m applyData (heard s m))) ∧
  (∀ s m, Acts (.pairEntryRecv m) s → FromTwin s m → m.pkind = 5 →
    exec (.pairEntryRecv m) s = .next (applyRecs m applyEntry (heard s m))) ∧
  (∀ (s : State) (m : PairMsg) (f : Nat → PairRec → State → Nat × State) (r : PairRec) (rs : List PairRec),
      receiving s m.part = true → m.recs = r :: rs →
    applyRecs m f s =
      (rs.foldl (fun s r => match f m.part r s with
        | (0, s) => s
        | (st, s) => applyFail s m.part st)
        (match f m.part r (modPart s m.part fun x => { x with lastTwinStep := max x.lastTwinStep m.step }) with
        | (0, s) => s
        | (st, s) => applyFail s m.part st))) ∧
  (∀ (s : State) (m : PairMsg) (f : Nat → PairRec → State → Nat × State),
      isMirror s m.part = true → receiving s m.part = false →
    applyRecs m f s = applyFail s m.part 0x4305) ∧
  (∀ s m, Acts (.pairRecordRecv m) s → gateWaits s m.part = false → FromTwin s m → m.pkind = 6 →
    exec (.pairRecordRecv m) s =
      .next (if (part (heard s m) m.part).syncing = true ∨ isMirror (heard s m) m.part = false then
          applyRecs m applyRecord (heard s m)
        else sendAck (applyRecs m applyRecord (heard s m)) m.part)) ∧
  (∀ s m u, Acts (.pairConfirmRecv m) s → FromTwin s m → m.pkind = 8 → isMirror (heard s m) m.part = true →
    u = applyRecs m applyCharge (heard s m) →
    exec (.pairConfirmRecv m) s =
      .next (sendAck (if receiving (heard s m) m.part = true then
          modPart u m.part fun x => { x with crec := { x.crec with pstep := m.step, pcount := count u } }
        else u) m.part)) ∧
  (∀ s m, Acts (.pairInvalRecv m) s → FromTwin s m → m.pkind = 10 →
    exec (.pairInvalRecv m) s =
      .next (if isMirror (heard s m) m.part = true then
          sendAck (modPart (heard s m) m.part fun x => { x with mirrorValid := false, syncing := false }) m.part
        else modPair (heard s m) fun x => { x with discarded := x.discarded + 1 })) ∧
  (∀ s m, Acts (.pairSyncBeginRecv m) s → FromTwin s m → m.pkind = 11 →
    exec (.pairSyncBeginRecv m) s =
      .next (if isMirror (heard s m) m.part = true then
          modPart (heard s m) m.part fun x => { x with syncing := true, mirrorValid := false, mirrorFail := 0 }
        else modPair (heard s m) fun x => { x with discarded := x.discarded + 1 })) ∧
  (∀ s m, Acts (.pairSyncEndRecv m) s → gateWaits s m.part = false → FromTwin s m → m.pkind = 12 →
    exec (.pairSyncEndRecv m) s =
      .next (if isMirror (heard s m) m.part = true ∧ (part (heard s m) m.part).syncing = true then
          setupDone (sendAck (modPart (heard s m) m.part fun x =>
            { x with syncing := false, mirrorValid := decide (x.mirrorFail = 0) }) m.part)
        else modPair (heard s m) fun x => { x with discarded := x.discarded + 1 })) ∧
  (∀ s m, Acts (.pairHeartbeatRecv m) s → FromTwin s m → m.pkind = 9 →
    exec (.pairHeartbeatRecv m) s = .next (heard s m))

/-- The primary, heartbeats and the twin's failure. An ACK that answers SYNC_END with status 0 begins pair mode; in it an
ACK completes the publish of its step and frees the replies up to its VSTEP, or with a status lapses the partition; no
ACK of a RECORD within ACKLIM lapses the partition; heartbeat messages go out each 20 us and heartbeat frames at each
multiple of 250 counts; a valid frame gives its SEQ and masks, and in pair mode each partition goes by them; the loss
of one path alone is an event; both silent for 2,500 counts, the twin has failed and the valid mirrors are taken over;
the twin's replies are kept (14 R342; 16 R400 to R406; 18 R434). -/
def Obligations.PrimaryRowsComplete : Prop :=
  (∀ s m u, Acts (.pairAckRecv m) s → FromTwin s m → m.pkind = 7 → m.status = 0 →
    u = modPart (heard s m) m.part (fun x => { x with acksDue := x.acksDue - 1 }) → isPrimary u m.part = true →
    (part u m.part).syncing = true →
    exec (.pairAckRecv m) s =
      .next (setupDone (modPart u m.part fun x => { x with syncing := false, paired := true, vstep := x.crec.pstep }))) ∧
  (∀ s m u, Acts (.pairAckRecv m) s → FromTwin s m → m.pkind = 7 →
    u = modPart (heard s m) m.part (fun x => { x with acksDue := x.acksDue - 1 }) →
    isPrimary u m.part = true → (part u m.part).syncing = false → (part u m.part).paired = true →
    exec (.pairAckRecv m) s =
      .next (if (part u m.part).lapsing = true then (if (part u m.part).acksDue = 0 then lapseDone u m.part else u)
        else if m.status ≠ 0 then startLapse u m.part
        else
          let v := modPart (orderSeven u m.part m.step) m.part fun x => { x with vstep := max x.vstep m.vstep }
          releaseReplies v m.part (part v m.part).vstep)) ∧
  (∀ s p w, Acts (.pairAckTimeout p) s → (part s p).pub = some w → w.sentAt + s.pair.ackCounts ≤ count s →
    s.boot.safe = false → exec (.pairAckTimeout p) s = .next (startLapse s p)) ∧
  (∀ s, Acts .pairHeartbeatSend s → s.pair.on = true → s.pair.lastSent + 500 ≤ count s → s.boot.safe = false →
    exec .pairHeartbeatSend s = .next (sendPair s 9 0 0 0 0 [])) ∧
  (∀ s, Acts .heartbeatFrameSend s → s.lands.phase = 2 → s.boot.safe = false → count s % 250 = 0 →
    s.pair.lastBeat ≠ count s →
    exec .heartbeatFrameSend s =
      .next (modPair s fun x =>
        { x with
          beats := x.beats ++ [beatFrame x.beatSeq (pval s) (mval s)], beatSeq := (x.beatSeq + 1) % 256
          lastBeat := count s })) ∧
  (∀ s f u, Acts (.heartbeatFrameRecv f) s → s.lands.phase = 2 → s.boot.safe = false → beatValid s f = true →
    u = modPair s (fun x =>
        { x with
          rxSeq := some (nfld f.toNat 48 8), lastFrame := count s, twinP := BitVec.ofNat 16 (nfld f.toNat 32 16),
          twinM := BitVec.ofNat 16 (nfld f.toNat 16 16),
          pathLost := x.pathLost && decide (x.lastRecv + 2500 ≤ count s) }) →
    exec (.heartbeatFrameRecv f) s =
      .next (if s.pair.on = false then u
        else findTwoHomes ((List.range 16).foldl (beatPart s.pair.twinP s.pair.twinM (BitVec.ofNat 16 (nfld f.toNat 32 16))
          (BitVec.ofNat 16 (nfld f.toNat 16 16))) u) (BitVec.ofNat 16 (nfld f.toNat 32 16)))) ∧
  (∀ s, Acts .pairPathLoss s → s.pair.on = true → s.pair.failed = false → s.pair.pathLost = false → s.boot.safe = false →
    beatsSilent s ≠ linksSilent s →
    exec .pairPathLoss s = .next (pairEvent (modPair s fun x => { x with pathLost := true }) 2 0)) ∧
  (∀ s u, Acts .twinFailure s → s.pair.on = true → s.pair.failed = false → s.boot.safe = false → beatsSilent s = true →
    linksSilent s = true →
    u = setupEnd (modPair (recordFault s 26 0xff 0xffff 0 0 0 [] none).2 fun x => { x with failed := true }) 0x5201 0 →
    exec .twinFailure s =
      .next (pairEvent (((List.range 16).filter (mvalBit u)).foldl takeOver ((List.range 16).foldl keepAlone u)) 3
        (mask16 fun p => decide (p ∈ (List.range 16).filter (mvalBit u))))) ∧
  (∀ s pkt, Acts (.twinReplyRecv pkt) s → s.pair.on = true → s.boot.safe = false →
    (s.fabric.ingress.any fun t => decide (t.strm = 14 ∧ t.ttype = 0x11 ∧ t.schip = s.pair.twin ∧
      collect (streamKey t) s.fabric.ingress = some pkt)) = true →
    exec (.twinReplyRecv pkt) s =
      .next (modPair (takeMessage s 14 pkt) fun x => { x with twinReplies := x.twinReplies ++ [pkt] }))

/-! ### Vector engines -/

/-- Control and scalar instructions. Each issues: NOP with no effect, HALT ending the program, SBNZ branching by IMM when
sA is not 0, SLI, SADD, SMUL and VEXT writing sD. Masks. VCMP writes the active bits of mD by its relation; MTAIL sets
the lanes below sA + IMM; MOP and MSET write mD (07 R137 to R139, Table 4; 07 R138, Table 4). -/
def Obligations.ScalarAndMaskRowsComplete : Prop :=
  (∀ s b w x, Acts (.nop b) s → VeReady s b 0x00 w → x = ve s b →
    exec (.nop b) s = .next (issued (setVe s b x) b)) ∧
  (∀ s b w x, Acts (.halt b) s → VeReady s b 0x01 w → x = ve s b →
    exec (.halt b) s = .next (issued (setVe s b ({ x with running := false })) b)) ∧
  (∀ s b w x, Acts (.sbnz b) s → VeReady s b 0x02 w → x = ve s b → iA w ≤ 15 →
    exec (.sbnz b) s = .next (issued (setVe s b (if sr x (iA w) ≠ 0 then
      { x with pc := x.pc + BitVec.ofNat 15 (iImm w) - 1 } else x)) b)) ∧
  (∀ s b w x, Acts (.sli b) s → VeReady s b 0x03 w → x = ve s b → iD w ≤ 15 →
    exec (.sli b) s = .next (issued (setVe s b (setSr x (iD w) (iImmW w))) b)) ∧
  (∀ s b w x, Acts (.sadd b) s → VeReady s b 0x04 w → x = ve s b → iD w ≤ 15 → iA w ≤ 15 → iB w ≤ 15 →
    exec (.sadd b) s = .next (issued (setVe s b (setSr x (iD w) (sr x (iA w) + sr x (iB w) + iImmW w))) b)) ∧
  (∀ s b w x, Acts (.smul b) s → VeReady s b 0x05 w → x = ve s b → iD w ≤ 15 → iA w ≤ 15 → iB w ≤ 15 →
    exec (.smul b) s = .next (issued (setVe s b (setSr x (iD w) (sr x (iA w) * sr x (iB w)))) b)) ∧
  (∀ s b w x, Acts (.vext b) s → VeReady s b 0x08 w → x = ve s b → iD w ≤ 15 →
    exec (.vext b) s = .next (issued (setVe s b (setSr x (iD w) (lane64 (vr x (iA w)) (nfld (iImm w) 0 6)))) b)) ∧
  (∀ s b w x, Acts (.vcmp b) s → VeReady s b 0x18 w → x = ve s b → iD w ≤ 7 → nfld (iImm w) 0 3 ≤ 4 →
    exec (.vcmp b) s = .next (issued (setVe s b (setMr x (iD w) (maskOf fun i => if activeLane x w i then relHolds
      (nfld (iImm w) 0 3) (lane64 (vr x (iA w)) i) (lane64 (vr x (iB w)) i) else if iZ w then false else (mr x (iD
      w)).getLsbD i))) b)) ∧
  (∀ s b w x, Acts (.mtail b) s → VeReady s b 0x20 w → x = ve s b → iD w ≤ 7 → iA w ≤ 15 →
    exec (.mtail b) s = .next (issued (setVe s b (setMr x (iD w) (maskOf fun i => decide (i < (sr x (iA w) + iImmW
      w).toNat)))) b)) ∧
  (∀ s b w x, Acts (.mop b) s → VeReady s b 0x21 w → x = ve s b → iD w ≤ 7 → iA w ≤ 7 → iB w ≤ 7 →
    exec (.mop b) s = .next (issued (setVe s b (setMr x (iD w) (logOp (nfld (iImm w) 0 2) (mr x (iA w)) (mr x (iB
      w))))) b)) ∧
  (∀ s b w x, Acts (.mset b) s → VeReady s b 0x22 w → x = ve s b → iD w ≤ 7 → iA w ≤ 15 → iB w ≤ 15 →
    exec (.mset b) s = .next (issued (setVe s b (setMr x (iD w) ((sr x (iB w)).append (sr x (iA w))))) b))

/-- Lane-wise instructions. Active lanes of vD take the result of Table 4; the others keep their value, or become +0 when
Z = 1 (07 R138, R141, Table 4). -/
def Obligations.LaneRowsOfVeComplete : Prop :=
  (∀ s b w x, Acts (.vbcast b) s → VeReady s b 0x09 w → x = ve s b → iA w ≤ 15 →
    exec (.vbcast b) s = .next (issued (setVe s b (setVr x (iD w) (masked x w fun _ => sr x (iA w)))) b)) ∧
  (∀ s b w x, Acts (.viota b) s → VeReady s b 0x0a w → x = ve s b →
    exec (.viota b) s = .next (issued (setVe s b (setVr x (iD w) (masked x w fun i => BitVec.ofNat 32 i))) b)) ∧
  (∀ s b w x, Acts (.vadd b) s → VeReady s b 0x10 w → x = ve s b →
    exec (.vadd b) s = .next (issued (setVe s b (setVr x (iD w) (masked x w fun i => fadd (lane64 (vr x (iA w)) i)
      (lane64 (vr x (iB w)) i)))) b)) ∧
  (∀ s b w x, Acts (.vsub b) s → VeReady s b 0x11 w → x = ve s b →
    exec (.vsub b) s = .next (issued (setVe s b (setVr x (iD w) (masked x w fun i => fsub (lane64 (vr x (iA w)) i)
      (lane64 (vr x (iB w)) i)))) b)) ∧
  (∀ s b w x, Acts (.vmul b) s → VeReady s b 0x12 w → x = ve s b →
    exec (.vmul b) s = .next (issued (setVe s b (setVr x (iD w) (masked x w fun i => fmul (lane64 (vr x (iA w)) i)
      (lane64 (vr x (iB w)) i)))) b)) ∧
  (∀ s b w x, Acts (.vfma b) s → VeReady s b 0x13 w → x = ve s b →
    exec (.vfma b) s = .next (issued (setVe s b (setVr x (iD w) (masked x w fun i => ffma (lane64 (vr x (iA w)) i)
      (lane64 (vr x (iB w)) i) (lane64 (vr x (iC w)) i)))) b)) ∧
  (∀ s b w x, Acts (.vmax b) s → VeReady s b 0x14 w → x = ve s b →
    exec (.vmax b) s = .next (issued (setVe s b (setVr x (iD w) (masked x w fun i => fmax (lane64 (vr x (iA w)) i)
      (lane64 (vr x (iB w)) i)))) b)) ∧
  (∀ s b w x, Acts (.vmin b) s → VeReady s b 0x15 w → x = ve s b →
    exec (.vmin b) s = .next (issued (setVe s b (setVr x (iD w) (masked x w fun i => fmin (lane64 (vr x (iA w)) i)
      (lane64 (vr x (iB w)) i)))) b)) ∧
  (∀ s b w x, Acts (.vabs b) s → VeReady s b 0x16 w → x = ve s b →
    exec (.vabs b) s = .next (issued (setVe s b (setVr x (iD w) (masked x w fun i => fabs (lane64 (vr x (iA w))
      i)))) b)) ∧
  (∀ s b w x, Acts (.vneg b) s → VeReady s b 0x17 w → x = ve s b →
    exec (.vneg b) s = .next (issued (setVe s b (setVr x (iD w) (masked x w fun i => fneg (lane64 (vr x (iA w))
      i)))) b)) ∧
  (∀ s b w x, Acts (.vsel b) s → VeReady s b 0x19 w → x = ve s b →
    exec (.vsel b) s = .next (issued (setVe s b (setVr x (iD w) (masked x w fun i => if (mr x (nfld (iImm w) 0
      3)).getLsbD i then lane64 (vr x (iA w)) i else lane64 (vr x (iB w)) i))) b)) ∧
  (∀ s b w x, Acts (.viadd b) s → VeReady s b 0x1a w → x = ve s b →
    exec (.viadd b) s = .next (issued (setVe s b (setVr x (iD w) (masked x w fun i => lane64 (vr x (iA w)) i +
      lane64 (vr x (iB w)) i))) b)) ∧
  (∀ s b w x, Acts (.vlog b) s → VeReady s b 0x1b w → x = ve s b →
    exec (.vlog b) s = .next (issued (setVe s b (setVr x (iD w) (masked x w fun i => logOp (nfld (iImm w) 0 2)
      (lane64 (vr x (iA w)) i) (lane64 (vr x (iB w)) i)))) b)) ∧
  (∀ s b w x, Acts (.vshf b) s → VeReady s b 0x1c w → x = ve s b →
    exec (.vshf b) s = .next (issued (setVe s b (setVr x (iD w) (masked x w fun i => shiftBy (sgn 6 (nfld (iImm w)
      0 6)) (lane64 (vr x (iA w)) i)))) b)) ∧
  (∀ s b w x, Acts (.vcvti b) s → VeReady s b 0x1d w → x = ve s b →
    exec (.vcvti b) s = .next (issued (setVe s b (setVr x (iD w) (masked x w fun i => convInt (decide (nfld (iImm
      w) 0 1 = 1)) (lane64 (vr x (iA w)) i)))) b))

/-- Functions, reductions, generators and conversions. VFN applies the function that IMM names; the reductions are over
the active lanes; VPERM gathers lanes of vA by vB; VRAND steps the generators of active lanes; VEPOCH advances EPV
with fresh generators; VCVT and VMXQ convert (07 R141, R145, R153, R155, Tables 4 and 6). -/
def Obligations.FunctionRowsComplete : Prop :=
  (∀ s b w x, Acts (.vfn b) s → VeReady s b 0x28 w → x = ve s b → nfld (iImm w) 0 4 ≤ 13 →
    exec (.vfn b) s = .next (issued (setVe s b (setVr x (iD w) (masked x w fun i => veFunc (nfld (iImm w) 0 4)
      (lane64 (vr x (iA w)) i)))) b)) ∧
  (∀ s b w x, Acts (.vrsum b) s → VeReady s b 0x30 w → x = ve s b →
    exec (.vrsum b) s = .next (issued (setVe s b (setVr x (iD w) (masked x w fun _ => treeSum x w))) b)) ∧
  (∀ s b w x, Acts (.vrmax b) s → VeReady s b 0x31 w → x = ve s b →
    exec (.vrmax b) s = .next (issued (setVe s b (setVr x (iD w) (masked x w fun _ => laneMax x w))) b)) ∧
  (∀ s b w x, Acts (.vrargmax b) s → VeReady s b 0x32 w → x = ve s b →
    exec (.vrargmax b) s = .next (issued (setVe s b (setVr x (iD w) (masked x w fun _ => laneArgMax x w))) b)) ∧
  (∀ s b w x, Acts (.vscan b) s → VeReady s b 0x33 w → x = ve s b →
    exec (.vscan b) s = .next (issued (setVe s b (setVr x (iD w) (masked x w fun i => ((prefixSums x w).lookup
      i).getD 0))) b)) ∧
  (∀ s b w x, Acts (.vperm b) s → VeReady s b 0x34 w → x = ve s b →
    exec (.vperm b) s = .next (issued (setVe s b (setVr x (iD w) (masked x w fun i => lane64 (vr x (iA w))
      ((lane64 (vr x (iB w)) i).toNat % 64)))) b)) ∧
  (∀ s b w x, Acts (.vrand b) s → VeReady s b 0x5a w → x = ve s b →
    exec (.vrand b) s = .next (issued (setVe s b (rand w x)) b)) ∧
  (∀ s b w x p, Acts (.vepoch b) s → VeReady s b 0x4e w → x = ve s b → p = partOfBlock s b →
    exec (.vepoch b) s = .next (issued (setVe s b (nextEpv (p.elim 0 fun p => (part s p).seed) b x)) b)) ∧
  (∀ s b w x, Acts (.vcvt b) s → VeReady s b 0x38 w → x = ve s b →
    nfld (iImm w) 0 5 ∈ [0x00, 0x01, 0x09, 0x0a, 0x0b, 0x0c] →
    exec (.vcvt b) s = .next (issued (setVe s b ((convert w x).getD x)) b)) ∧
  (∀ s b w x, Acts (.vmxq b) s → VeReady s b 0x39 w → x = ve s b → 2 ≤ nfld (iImm w) 0 5 → nfld (iImm w) 0 5 ≤ 8 →
    exec (.vmxq b) s = .next (issued (setVe s b ((quantise w x).getD x)) b))

/-- The operand space. Loads and stores of a scalar at sA + IMM and of the active lanes, contiguous, by stride or
gathered, within the space of the present mode; EPLD fills its slot with a program without reserved value; EPRUN runs
its vectors (07 R142, R143, R151, R152). -/
def Obligations.OperandRowsComplete : Prop :=
  (∀ s b w x, Acts (.sld b .ok) s → VeReady s b 0x06 w → x = ve s b → iD w ≤ 15 → iA w ≤ 15 →
    inSpace x [baseAddr x w] = true →
    exec (.sld b .ok) s = .next (issued (setVe s b (setSr x (iD w) (veWord x (baseAddr x w)))) b)) ∧
  (∀ s b w x, Acts (.sst b) s → VeReady s b 0x07 w → x = ve s b → iD w ≤ 15 → iA w ≤ 15 →
    inSpace x [baseAddr x w] = true →
    exec (.sst b) s = .next (issued (setVe s b (setVeWord x (baseAddr x w) (sr x (iD w)))) b)) ∧
  (∀ s b w x, Acts (.vld b .ok) s → VeReady s b 0x40 w → x = ve s b → iA w ≤ 15 →
    inSpace x ((activeLanes x w).map (addrNext x w)) = true →
    exec (.vld b .ok) s = .next (issued (setVe s b (setVr x (iD w) (masked x w fun i => veWord x (addrNext x w
      i)))) b)) ∧
  (∀ s b w x, Acts (.vst b) s → VeReady s b 0x41 w → x = ve s b → iA w ≤ 15 →
    inSpace x ((activeLanes x w).map (addrNext x w)) = true →
    exec (.vst b) s = .next (issued (setVe s b ((activeLanes x w).foldl (fun y i => setVeWord y (addrNext x w i)
      (lane64 (vr x (iD w)) i)) x)) b)) ∧
  (∀ s b w x, Acts (.vlds b .ok) s → VeReady s b 0x42 w → x = ve s b → iA w ≤ 15 → iB w ≤ 15 →
    inSpace x ((activeLanes x w).map (addrStride x w)) = true →
    exec (.vlds b .ok) s = .next (issued (setVe s b (setVr x (iD w) (masked x w fun i => veWord x (addrStride x w
      i)))) b)) ∧
  (∀ s b w x, Acts (.vsts b) s → VeReady s b 0x43 w → x = ve s b → iA w ≤ 15 → iB w ≤ 15 →
    inSpace x ((activeLanes x w).map (addrStride x w)) = true →
    exec (.vsts b) s = .next (issued (setVe s b ((activeLanes x w).foldl (fun y i => setVeWord y (addrStride x w
      i) (lane64 (vr x (iD w)) i)) x)) b)) ∧
  (∀ s b w x, Acts (.vldx b .ok) s → VeReady s b 0x44 w → x = ve s b → iA w ≤ 15 →
    inSpace x ((activeLanes x w).map (addrIndex x w)) = true →
    exec (.vldx b .ok) s = .next (issued (setVe s b (setVr x (iD w) (masked x w fun i => veWord x (addrIndex x w
      i)))) b)) ∧
  (∀ s b w x, Acts (.vstx b) s → VeReady s b 0x45 w → x = ve s b → iA w ≤ 15 →
    inSpace x ((activeLanes x w).map (addrIndex x w)) = true →
    exec (.vstx b) s = .next (issued (setVe s b ((activeLanes x w).foldl (fun y i => setVeWord y (addrIndex x w i)
      (lane64 (vr x (iD w)) i)) x)) b)) ∧
  (∀ s b w x a n ws, Acts (.epld b .ok) s → VeReady s b 0x29 w → x = ve s b → iA w ≤ 15 → a = (sr x (iA w)).toNat →
    n = slotLen (cacheWords x a 1) → ws = cacheWords x a (5 + n) → 0 < n → n ≤ 48 → slotInputs ws ≠ 0 →
    (ws.drop 5).all elemOk = true →
    exec (.epld b .ok) s = .next (issued (setVe s b ({ x with slots := tset x.slots (nfld (iImm w) 0 2) ws })) b)) ∧
  (∀ s b w x ws n bases, Acts (.eprun b .ok) s → VeReady s b 0x2a w → x = ve s b → iD w ≤ 15 → iA w ≤ 15 →
    iB w ≤ 15 → iC w ≤ 15 → ws = tget [] x.slots (nfld (iImm w) 0 2) → n = nfld (iImm w) 2 16 →
    bases = ([sr x (iA w), sr x (iB w), sr x (iC w)].take (slotInputs ws)).map (·.toNat) →
    exec (.eprun b .ok) s = .next (issued (setVe s b ((List.range n).foldl (fun y j => runVector ws (bases.map fun
      a => a + 64 * j) ((sr x (iD w)).toNat + 64 * j) (if j + 1 = n then activeLanes x w else List.range 64) y) x))
      b))

/-- The operand port, the collector and the check path. PPUT and PMARK put their items on the lane of their tile's column
when their queue has had no marker in the epoch, PWR writes scratchpad lines behind them; PRD, COLL and CKPOP take
what the tile holds once the port has nothing for it (07 R144 to R147, R157). -/
def Obligations.PortRowsComplete : Prop :=
  (∀ s b w x a is, Acts (.pput b) s → VeReady s b 0x48 w → x = ve s b → iA w ≤ 15 → iB w ≤ 15 →
    nfld (iImm w) 2 2 ≤ 1 → a = (sr x (iA w)).toNat → portMarked s b a = false →
    is = (List.range (quartersOf w)).map (fun q => PortItem.mk (portTile a) (some (4 * portSlot a + portRole a)) 0
    (veChan x (quarter (vr x (iD w)) q) (nfld (iImm w) 2 2) ((sr x (iB w)).toNat + q) (portSlot a))) →
    exec (.pput b) s = .next (issued (setVe s b (toPort x (portTile a) is)) b)) ∧
  (∀ s b w x a is, Acts (.pwr b) s → VeReady s b 0x49 w → x = ve s b → iA w ≤ 15 → a = (sr x (iA w)).toNat →
    is = (List.range (quartersOf w)).map (fun q => PortItem.mk (nfld a 0 6) none ((nfld a 6 10 + q) % 1024) (veChan
    x (quarter (vr x (iD w)) q) 0 0 0)) →
    exec (.pwr b) s = .next (issued (setVe s b (toPort x (nfld a 0 6) is)) b)) ∧
  (∀ s b w x a ls, Acts (.prd b .ok) s → VeReady s b 0x4a w → x = ve s b → iA w ≤ 15 → a = (sr x (iA w)).toNat →
    portHolds x (nfld a 0 6) = false →
    ls = (List.range (quartersOf w)).map (fun q => scratchAt (tile s (tileIn b (nfld a 0 6))) (nfld a 6 10 + q)) →
    exec (.prd b .ok) s = .next (issued (setVe s b (setVr x (iD w) (withQuarters (vr x (iD w)) ls))) b)) ∧
  (∀ s b w x a i y, Acts (.pmark b) s → VeReady s b 0x4b w → x = ve s b → iA w ≤ 15 → a = (sr x (iA w)).toNat →
    portMarked s b a = false →
    i = PortItem.mk (portTile a) (some (4 * portSlot a + portRole a)) 0 (veChan x 0 2 0 (portSlot a)) →
    y = toPort x (portTile a) [i] →
    exec (.pmark b) s = .next (issued (setVe s b
      ({ y with marked := queueKey (portTile a) (portSlot a) (portRole a) :: y.marked })) b)) ∧
  (∀ s b w x y y' t e r ds mark sb, Acts (.coll b) s → VeReady s b 0x4c w → x = ve s b → iA w ≤ 15 → iB w ≤ 15 →
    t = tileIn b (baseAddr x w % 64) → portHolds x (baseAddr x w % 64) = false → y = tile s t → y.coll = e :: r →
    collTake y.coll = some (ds, mark) →
    sb = ds.length + (if mark then 8 else 0) + 16 * (e.label % 8) + 128 * (e.role % 4) + 65536 * e.word.loop.toNat
    → y' = { y with coll := y.coll.drop (ds.length + if mark then 1 else 0) } →
    exec (.coll b) s = .next (issued (setVe (setTile s t y') b (setSr (setVr x (iD w) (withQuarters (vr x (iD w))
      (ds.map fun c => c.word.payload))) (iB w) (BitVec.ofNat 32 sb))) b)) ∧
  (∀ s b w x y y' t l r, Acts (.ckpop b) s → VeReady s b 0x4d w → x = ve s b → iA w ≤ 15 →
    t = tileIn b (baseAddr x w % 64) → portHolds x (baseAddr x w % 64) = false → y = tile s t →
    y.checkFifo = l :: r → y' = { y with checkFifo := r } →
    exec (.ckpop b) s = .next (issued (setVe (setTile s t y') b (setVr x (iD w) (withQuarters VReg.zero [l]))) b))

/-- The VE network, the codebook and the tiers. NSEND to a block of the same partition puts its words on the network;
NRECV takes the words of a mailbox that holds some; CBWR writes 32 entries of a slot that no active context names; TXF
of an access within its ranges, with room, posts its pieces, of nothing goes on, and where the two range checkers
disagree stops the VE; TXWAIT with nothing outstanding gives the first failing status (07 R148 to R150; 16 R374). -/
def Obligations.NetworkRowsComplete : Prop :=
  (∀ s b w x dst ns, Acts (.nsend b) s → VeReady s b 0x50 w → x = ve s b → iA w ≤ 15 →
    dst = nfld (sr x (iA w)).toNat 0 7 → (partOfBlock s b).isSome = true → partOfBlock s dst = partOfBlock s b →
    ns = (List.range (quartersOf w)).map (fun q => NetWord.mk b dst (nfld (iImm w) 2 3) (veChan x (quarter (vr x
    (iD w)) q) 0 0 0)) →
    exec (.nsend b) s = .next (issued { s with veNet := s.veNet ++ ns } b)) ∧
  (∀ s b w x y m ws, Acts (.nrecv b) s → VeReady s b 0x51 w → x = ve s b → m = nfld (iImm w) 2 3 →
    ws = (tget [] x.mail m).take (quartersOf w) → ws ≠ [] →
    y = { x with mail := tset x.mail m ((tget [] x.mail m).drop ws.length) } →
    exec (.nrecv b) s = .next (issued (setVe s b (setVr y (iD w) (withQuarters (vr x (iD w)) (ws.map fun c =>
      c.payload)))) b)) ∧
  (∀ s b w x slot base v, Acts (.cbwr b) s → VeReady s b 0x54 w → x = ve s b → iA w ≤ 15 →
    slot = nfld (iImm w) 0 1 → (∀ i, i < 64 → namesCodebook (tile s (tileIn b i)) slot = false) →
    base = 8192 * b + 4096 * slot + (sr x (iA w)).toNat % 4096 / 32 * 32 → v = vr x (iD w) →
    exec (.cbwr b) s = .next (issued { s with
      codebook := (List.range 32).foldl (fun m j => tset m (base + j) ((lane64 v (2 * j + 1)).append (lane64 v (2 * j))))
        s.codebook } b)) ∧
  (∀ s b who w x p n wr a id sa, Acts (.txf b true .ok who) s → VeReady s b 0x52 w → x = ve s b → iA w ≤ 15 → iB w ≤ 15 →
    iC w ≤ 15 → partOfBlock s b = some p → n = nfld (iImm w) 0 16 →
    sa = (if x.buffer then (sr x (iA w)).toNat else (sr x (iA w)).toNat % 65536) →
    (x.buffer = true → sa + 16 * n ≤ 4096) →
    wr = decide (nfld (iImm w) 16 1 = 1) → a = ((sr x (iC w)).append (sr x (iB w))).toNat → 0 < n →
    txfRefused s p a (64 * n) wr = none → x.txOut.length < 16 →
    (List.range 17).find? (fun i => decide (i ∉ x.txOut)) = some id →
    exec (.txf b true .ok who) s = .next (issued (txfPieces s b p sa id a (64 * n) wr who) b)) ∧
  (∀ s b who w x p, Acts (.txf b true .ok who) s → VeReady s b 0x52 w → x = ve s b → iA w ≤ 15 → iB w ≤ 15 → iC w ≤ 15 →
    partOfBlock s b = some p → nfld (iImm w) 0 16 = 0 →
    exec (.txf b true .ok who) s = .next (issued s b)) ∧
  (∀ s b ecc who a, Acts (.txf b false ecc who) s → txfJudged s b = some a →
    exec (.txf b false ecc who) s =
      .next (veFault (modVe s b fun x => { x with running := false, waitSince := none }) b 17 (leBytes 8 a))) ∧
  (∀ s b w x, Acts (.txwait b) s → VeReady s b 0x53 w → x = ve s b → iD w ≤ 15 → x.txOut = [] →
    exec (.txwait b) s = .next (issued (setVe s b (setSr { x with txFail := 0 } (iD w) (BitVec.ofNat 32
      x.txFail))) b))

/-- Result checks and routing. CKTOL writes the tolerance of each active lane; CKCMP with no lane failing goes on, and
with a failing lane marks the verdict, raises a fault of kind 10 and goes on; CKDONE gives the verdict to the step
that it names, and the next one starts afresh; RTSEL selects by the biases of the step's table and places the experts
of its positions, which the step keeps; RTCNT counts them (07 R154, R159 to R161; 08 R165 to R175). -/
def Obligations.CheckRowsComplete : Prop :=
  (∀ s b w x, Acts (.cktol b) s → VeReady s b 0x60 w → x = ve s b → iA w ≤ 15 → ofmtOk (nfld (iImm w) 0 5) = true →
    (nfld (iImm w) 5 5 = 0x1f ∨ (wfmtOk (nfld (iImm w) 5 5) = true ∧ afmtOk (nfld (iImm w) 10 5) = true ∧ isPacked
    (nfld (iImm w) 5 5) = false)) →
    exec (.cktol b) s = .next (issued (setVe s b (setVr x (iD w) (tolVec w x))) b)) ∧
  (∀ s b w x, Acts (.ckcmp b) s → VeReady s b 0x61 w → x = ve s b → failing w x = [] →
    exec (.ckcmp b) s = .next (issued s b)) ∧
  (∀ s b w x y i r, Acts (.ckcmp b) s → VeReady s b 0x61 w → x = ve s b → failing w x = i :: r →
    partOfBlock s b = none → y = { x with ckFailed := true } →
    exec (.ckcmp b) s = .next (issued (veFault (setVe s b y) b 10 (checkData w x (i :: r))) b)) ∧
  (∀ s b w x, Acts (.ckdone b) s → VeReady s b 0x62 w → x = ve s b → partOfBlock s b = none →
    exec (.ckdone b) s = .next (issued (setVe s b ({ x with ckFailed := false })) b)) ∧
  (∀ s b w x p k k' z, Acts (.ckdone b) s → VeReady s b 0x62 w → x = ve s b → partOfBlock s b = some p →
    (part s p).step = some k → k.id % 65536 = nfld (iImm w) 0 16 →
    k' = { k with verdicts := tset k.verdicts b (!x.ckFailed && tget true k.verdicts b) } →
    z = { part s p with step := some k' } →
    exec (.ckdone b) s = .next (issued (setPart (setVe s b { x with ckFailed := false }) p z) b)) ∧
  (∀ s b w last acts x y ps p t, Acts (.rtsel b .ok last acts) s → VeReady s b 0x58 w → x = ve s b → iA w ≤ 15 →
    ps = rtBlock x w → rtOk ps = true → y = rtSelect ps (placeBias (stepTable s b (rtField ps 6)) ps x) →
    partOfBlock s b = some p →
    t = applyFailed (modPart (setVe s b y) p fun z => { z with step := z.step.map (keepPicks ps b y) }) p →
    exec (.rtsel b .ok last acts) s =
      .next (issued (if last = true then dispatchLayer p b (rtField ps 6) acts t else t) b)) ∧
  (∀ s b w x a y, Acts (.rtcnt b .ok) s → VeReady s b 0x59 w → x = ve s b → iA w ≤ 15 → partOfBlock s b = none →
    a = (sr x (iA w)).toNat → y = x.lastRt.e1.foldl (fun x e => bump x (a + 2 * e)) x →
    exec (.rtcnt b .ok) s = .next (issued (setVe s b (x.lastRt.e2.foldl (fun x e => bump x (a + 2 * e + 1)) y)) b)) ∧
  (∀ s b w x p k k' a r y z dm, Acts (.rtcnt b .ok) s → VeReady s b 0x59 w → x = ve s b → iA w ≤ 15 →
    partOfBlock s b = some p → (part s p).step = some k → a = (sr x (iA w)).toNat → r = x.lastRt →
    y = r.e2.foldl (fun x e => bump x (a + 2 * e + 1)) (r.e1.foldl (fun x e => bump x (a + 2 * e)) x) →
    dm = (r.e1 ++ r.e2).foldl (fun d e => tset d (1024 * r.layer + e) (tget 0 d (1024 * r.layer + e) + 1)) k.demand
    → k' = { k with demand := dm } → z = { part s p with step := some k' } →
    exec (.rtcnt b .ok) s = .next (issued (setPart (setVe s b y) p z) b))

/-- The VE around its instructions. A read that meets a corrected error counts it in normal service, and one that meets an
uncorrectable error, or a parity error in buffer mode, stops the VE in buffer mode; a reserved value stops the program
at the instruction; an instruction that waits does not move. The service stage takes in the words arrived and counts
corrected errors; a word from the network arrives in a mailbox with room; a halted VE whose operand cache is
initialised, by now or by the load, starts a program in normal service with free registers; one in buffer mode starts
code there (07 R134, R137, R140, R142, R148, R162 to R164). -/
def Obligations.VeServiceRowsComplete : Prop :=
  (∀ (s : State) (b opc : Nat) (ecc : Ecc) (reads : W64 → State → Bool)
      (f : W64 → State → Except State (Option State)) (w : W64) (t : State), VeReady s b opc w → f w s = .ok (some t) → reads w s = true →
    veRead b opc ecc reads f s =
      if ecc = .bad ∨ (ecc = .corrected ∧ (ve s b).buffer = true) then veStorageFault s b
      else if ecc = .corrected then modVe (issued t b) b fun x => { x with softErrors := x.softErrors + 1 }
      else issued t b) ∧
  (∀ (s : State) (b opc : Nat) (ecc : Ecc) (reads : W64 → State → Bool)
      (f : W64 → State → Except State (Option State)) (w : W64) (t : State), VeReady s b opc w → f w s = .error t →
    veRead b opc ecc reads f s = veProgramFault t b w) ∧
  (∀ (s : State) (b opc : Nat) (ecc : Ecc) (reads : W64 → State → Bool)
      (f : W64 → State → Except State (Option State)) (w : W64), VeReady s b opc w → f w s = .ok none →
    veRead b opc ecc reads f s = modVe s b fun x => { x with waitSince := some (x.waitSince.getD s.time.watch) }) ∧
  (∀ s b soft bad, Acts (.veServiceStage b soft bad) s →
    exec (.veServiceStage b soft bad) s =
      let t := modVe s b fun x => { fillMail x with softErrors := x.softErrors + soft }
      .next (if bad = true then veStorageFault t b else t)) ∧
  (∀ s b src n, Acts (.mailboxWordArrival b src) s →
    s.veNet.find? (fun n => decide (n.src = src ∧ n.dst = b)) = some n →
    (tget [] (ve s b).mail n.box).length + ((ve s b).arrived.filter fun a => decide (a.1 = n.box)).length < 8 →
    exec (.mailboxWordArrival b src) s =
      .next (modVe { s with veNet := s.veNet.erase n } b fun x => { x with arrived := x.arrived ++ [(n.box, n.word)] })) ∧
  (∀ s b pc ws u, Acts (.veProgramStart b pc false ws) s → (ve s b).running = false →
    ((ve s b).cacheInit = true ∨ loadsAll ws = true) →
    u = (if (ve s b).buffer = true then
        { s with tiles := s.tiles.map fun e => if blockOf e.1 = b then (e.1, { e.2 with coll := [] }) else e }
      else s) →
    exec (.veProgramStart b pc false ws) s =
      .next (modVe { u with draw := s.draw + 1 } b fun x =>
        { loadVe { forgetRegs s.draw x with buffer := false } ws with
          cacheInit := true, running := true, pc := BitVec.ofNat 15 pc, waitSince := none })) ∧
  (∀ s b pc ws, Acts (.veProgramStart b pc true ws) s → (ve s b).running = false → (ve s b).buffer = true →
    exec (.veProgramStart b pc true ws) s =
      .next (modVe { s with draw := s.draw + 1 } b fun x =>
        { loadVe (forgetRegs s.draw x) ws with running := true, pc := BitVec.ofNat 15 pc, waitSince := none }))

/-! ### The array -/

/-- Matrix contexts. A pass whose turn it is starts with problem 0; a further problem waits for its token; a word of queue
W is taken when it may be, and forwarded under WFWD; the expander decodes sixteen weights into the half being filled
or into a new one; activations and banks are filled as they arrive, and a beat that is ready issues, and counts where
its residue differs under a fault of kind 9; a finished bank is stored, converted, or its next word sent; a quiet
context with every queue marked ends, and one whose pass can no longer end raises a fault of kind 7 (03 R39, R54 to
R66; 05 R105, R112, R113; 06 R122, R127, R128; 16 R374). -/
def Obligations.MatrixRowsComplete : Prop :=
  (∀ s t slot memOk x c y l st, Acts (.matrixPassStart t slot memOk) s → (mNprob (ctxOf x slot) = 0 ∨ memOk = true) →
    x = tile s t → c = ctxOf x slot → cClass c = 1 →
    live x slot = true → x.pass = none → drainStuck x slot (startNeeds x slot) = false →
    nextReady x.lastA (passReady x) = some slot → y = moved (if gated x slot then qPop x slot 3 else x) slot →
    l = (if mAsrc c = 1 then 0 else (qTok x slot 0).elim 0 fun w => w.loop) →
    st = decide (mAsrc c = 1 ∨ (qTok x slot 0).isSome = true) →
    exec (.matrixPassStart t slot memOk) s =
      .next (setTile s t (setPass { y with lastA := slot }
        (enterProblem x c 0 (Pass.fresh slot (max (mNprob c) 1) l st))))) ∧
  (∀ s t x p, Acts (.gnxtTokenConsume t true) s → x = tile s t → x.pass = some p → live x p.slot = true →
    drainStuck x p.slot (passNeeds x (ctxOf x p.slot) p) = false → p.waitGnxt = true → (qTok x p.slot 3).isSome = true →
    exec (.gnxtTokenConsume t true) s =
      .next (setTile s t (moved (setPass (qPop x p.slot 3) (enterProblem x (ctxOf x p.slot) (p.d + 1) p)) p.slot))) ∧
  (∀ s t x c p q w y, Acts (.weightWordAccept t) s → x = tile s t → x.pass = some p → live x p.slot = true →
    c = ctxOf x p.slot → drainStuck x p.slot (passNeeds x c p) = false → qTok x p.slot 1 = some w →
    mayAccept x c p = true → q = loopStamp x p →
    y = (if mWfwd c then sendOut (qPop x q.slot 1) 1 (outWord x q.slot w.payload 0 q.loop) else qPop x q.slot 1) →
    exec (.weightWordAccept t) s =
      .next (setTile s t (moved (setPass y { q with frame := q.frame ++ [w.payload] }) q.slot))) ∧
  (∀ s t memOk x c p ws g sc hs fin q, Acts (.expanderDecode t memOk) s → x = tile s t → x.pass = some p →
    live x p.slot = true → c = ctxOf x p.slot → drainStuck x p.slot (passNeeds x c p) = false →
    unitWords (cWfmt c) ≤ p.frame.length → (halfOpen c p = true ∨ halfFree c p = true) → (cWfmt c ≠ 0x12 ∨ memOk = true) →
    decodeRun s (blockOf t) c (frameNat p.frame) p.decoded 16 x.gen1 = (ws, g) →
    sc = scalesFor s (blockOf t) c (frameNat p.frame) p.decoded →
    hs = (if halfOpen c p = true then
        match p.halves.getLast? with
        | some h => p.halves.dropLast ++ [{ h with weights := h.weights ++ ws, scales := h.scales ++ sc }]
        | none => p.halves
      else p.halves ++ [Half.mk (p.ktStarted % decodedTiles c p.nkt) ws sc]) →
    fin = decide (8 * unitK (cWfmt c) ≤ p.decoded + 16) →
    q = { p with
      halves := hs.filter (fun h => decide (h.kt < p.nkt) || !halfFull c h),
      ktStarted := if halfOpen c p = true then p.ktStarted else p.ktStarted + 1,
      frame := if fin = true then [] else p.frame, decoded := if fin = true then 0 else p.decoded + 16 } →
    exec (.expanderDecode t memOk) s = .next (setTile s t (moved (setPass { x with gen1 := g } q) p.slot))) ∧
  (∀ s t x c p y p' y' q h q' r z f, Acts (.beatIssue t true true) s → x = tile s t → x.pass = some p → live x p.slot = true →
    c = ctxOf x p.slot → drainStuck x p.slot (passNeeds x c p) = false → p.spent = false → p.waitGnxt = false →
    stageIn c x p = (y, p') → loadNext s.draw c y p' = (y', q) → beatReady y' c q = true → expanderIdle c q = true →
    q.halves.head? = some h → q' = checkBeat (s.draw + 512) y' c h q →
    r = bankSet y' (q'.rg % 2) (bankLines (beatAcc y' c q h)) → loopAdvance c r q' = (z, f) →
    exec (.beatIssue t true true) s =
      .next (countBeat (setTile { s with draw := s.draw + 1024 } t (moved (setPass z f) p.slot)) t)) ∧
  (∀ s t x c p y p' y' q h, Acts (.beatIssue t false true) s → x = tile s t → x.pass = some p → live x p.slot = true →
    c = ctxOf x p.slot → drainStuck x p.slot (passNeeds x c p) = false → p.spent = false → p.waitGnxt = false →
    stageIn c x p = (y, p') → loadNext s.draw c y p' = (y', q) → beatReady y' c q = true → expanderIdle c q = true →
    q.halves.head? = some h →
    exec (.beatIssue t false true) s = .next (countBeat (tileFault (setTile s t (setPass y' q)) t 9 (cCfg c) []) t)) ∧
  (∀ s t x c p y p' y' q res, Acts (.beatIssue t res true) s → x = tile s t → x.pass = some p → live x p.slot = true →
    c = ctxOf x p.slot → drainStuck x p.slot (passNeeds x c p) = false → p.spent = false → p.waitGnxt = false →
    stageIn c x p = (y, p') → loadNext s.draw c y p' = (y', q) → (beatReady y' c q = false ∨ expanderIdle c q = false) →
    q ≠ p →
    exec (.beatIssue t res true) s =
      .next (setTile { s with draw := s.draw + 512 } t (moved (setPass y' q) p.slot))) ∧
  (∀ s t x p l r, Acts (.accumulatorDrain t) s → x = tile s t → x.pass = some p → live x p.slot = true →
    drainStuck x p.slot (passNeeds x (ctxOf x p.slot) p) = false → p.outw = l :: r → outRoom x 0 p.slot = true →
    exec (.accumulatorDrain t) s =
      .next (setTile s t (moved (setPass (sendOut x 0 (outWord x p.slot l 0 p.loop))
        { p with outw := r, finished := if r = [] then p.finished.tail else p.finished }) p.slot))) ∧
  (∀ s t x p bank line r, Acts (.accumulatorDrain t) s → x = tile s t → x.pass = some p → live x p.slot = true →
    drainStuck x p.slot (passNeeds x (ctxOf x p.slot) p) = false → p.outw = [] → p.finished = (bank, line, false) :: r →
    exec (.accumulatorDrain t) s =
      .next (setTile s t (moved (setPass (scratchSet x line (bankLines (bankGet x bank))) { p with finished := r }) p.slot))) ∧
  (∀ s t x p bank line r c ls g y y' q, Acts (.accumulatorDrain t) s → x = tile s t → x.pass = some p →
    live x p.slot = true → c = ctxOf x p.slot → drainStuck x p.slot (passNeeds x c p) = false → p.outw = [] →
    p.finished = (bank, line, true) :: r → drainLines c (bankGet x bank) x.gen0 = (ls, g) → y = { x with gen0 := g } →
    y' = (if mOdst c = 0 then y else scratchSet y line ls) →
    q = (if mOdst c = 1 then { p with finished := r } else { p with outw := ls }) →
    exec (.accumulatorDrain t) s = .next (setTile s t (moved (setPass y' q) p.slot))) ∧
  (∀ s t slot x, Acts (.contextEpochEnd t slot) s → x = tile s t → live x slot = true →
    drainStuck x slot (contextNeeds x slot) = false → quiet x slot = true → allMarked x slot = true →
    (markOuts x slot).all (fun o => outRoom x o slot) = true →
    exec (.contextEpochEnd t slot) s = .next (setTile s t (endContext slot x))) ∧
  (∀ s t slot x, Acts (.contextEpochEnd t slot) s → x = tile s t → live x slot = true →
    drainStuck x slot (contextNeeds x slot) = true →
    exec (.contextEpochEnd t slot) s = .next (contextFault s t slot 7 []))

/-- Steering, counters and moves. A firing whose turn it is consumes its tokens and sends, a fork one copy after another,
and one whose tokens mispair raises a fault of kind 6; a counter starts its next run at the switch or on a trigger; a
run sends its next token; a move copies its next line from the scratchpad or queue A to the scratchpad or local out 0
(05 R98 to R105; 06 R122). -/
def Obligations.SteeringRowsComplete : Prop :=
  (∀ s t slot arb x c act val loop ta tp a p y sends y' snd z, Acts (.steeringFiring t slot arb) s → x = tile s t →
    c = ctxOf x slot → cClass c = 3 → live x slot = true → (slotRun x slot).fork = none →
    (slotRun x slot).second = none → drainStuck x slot (steerNeeds x slot) = false → steerTurn x slot = true →
    firingOf x slot arb = some ((act, val, loop), ta, tp) → sOp c ≠ 2 →
    a = (if ta then qTok x slot 0 else none) → p = (if tp then qTok x slot 2 else none) →
    (sLchk c = true → ∀ w ∈ a.toList ++ p.toList, w.loop.toNat = loop) →
    y = (if sCsrc c then x else qPop x slot 3) → y' = (if ta then qPop y slot 0 else y) →
    z = (if tp then qPop y' slot 2 else y') →
    firingSends (sOp c) act (a.map (forward x slot)) (p.map (forward x slot)) = (sends, snd) →
    (∀ e ∈ sends, outRoom x e.1 slot = true) →
    exec (.steeringFiring t slot arb) s =
      .next (setTile s t (match snd with
        | none => leaveUnit slot (sends.foldl (fun y e => sendOut y e.1 e.2) z)
        | some w => modRun (moved (holdUnit slot (sends.foldl (fun y e => sendOut y e.1 e.2) z)) slot) slot fun r =>
            { r with second := some w }))) ∧
  (∀ s t slot arb x c act val loop ta tp w y y' z, Acts (.steeringFiring t slot arb) s → x = tile s t →
    c = ctxOf x slot → cClass c = 3 → live x slot = true → (slotRun x slot).fork = none →
    (slotRun x slot).second = none → drainStuck x slot (steerNeeds x slot) = false → steerTurn x slot = true →
    firingOf x slot arb = some ((act, val, loop), ta, tp) → sOp c = 2 →
    firingTokens x slot ta tp = (some w, z) → mispaired c loop (usedLoops (some w) z) = false →
    y = (if sCsrc c then x else qPop x slot 3) → y' = (if ta then qPop y slot 0 else y) →
    exec (.steeringFiring t slot arb) s =
      .next (let u := if tp = true then qPop y' slot 2 else y'
        if forkOuts act = [] ∨ val = 0 then setTile s t (leaveUnit slot u) else forkCopy (setTile s t u) t slot 0 val w act)) ∧
  (∀ s t slot arb x c act val loop ta tp a p, Acts (.steeringFiring t slot arb) s → x = tile s t →
    c = ctxOf x slot → cClass c = 3 → live x slot = true → (slotRun x slot).fork = none →
    (slotRun x slot).second = none → drainStuck x slot (steerNeeds x slot) = false → steerTurn x slot = true →
    firingOf x slot arb = some ((act, val, loop), ta, tp) → firingTokens x slot ta tp = (a, p) →
    mispaired c loop (usedLoops a p) = true →
    exec (.steeringFiring t slot arb) s =
      .next (contextFault s t slot 6 (leBytes 2 loop ++ (usedLoops a p).flatMap (leBytes 2)))) ∧
  (∀ s t slot arb x j n w act, Acts (.steeringFiring t slot arb) s → x = tile s t → cClass (ctxOf x slot) = 3 →
    live x slot = true → (slotRun x slot).fork = some (j, n, w, act) → steerTurn x slot = true →
    exec (.steeringFiring t slot arb) s = .next (forkCopy s t slot j n w act)) ∧
  (∀ s t slot arb x w, Acts (.steeringFiring t slot arb) s → x = tile s t → cClass (ctxOf x slot) = 3 →
    live x slot = true → (slotRun x slot).fork = none → (slotRun x slot).second = some w → steerTurn x slot = true →
    outRoom x 0 slot = true →
    exec (.steeringFiring t slot arb) s =
      .next (setTile s t (leaveUnit slot (modRun (sendOut x 0 w) slot fun r => { r with second := none })))) ∧
  (∀ s t slot x c, Acts (.counterRunStart t slot) s → x = tile s t → c = ctxOf x slot → cClass c = 4 →
    live x slot = true → (slotRun x slot).ctr = none → kTrig c = false → (slotRun x slot).runs < kRuns c →
    exec (.counterRunStart t slot) s =
      .next (setTile s t (modRun (moved x slot) slot fun r =>
        { r with ctr := runOf c (kNiter c) r.runs, runs := r.runs + 1 }))) ∧
  (∀ s t slot x c w n, Acts (.counterRunStart t slot) s → x = tile s t → c = ctxOf x slot → cClass c = 4 →
    live x slot = true → (slotRun x slot).ctr = none → kTrig c = true → drainStuck x slot [3] = false →
    qTok x slot 3 = some w → n = (if kNsrc c then bfld w.payload 16 16 else kNiter c) →
    exec (.counterRunStart t slot) s =
      .next (setTile s t (modRun (moved (qPop x slot 3) slot) slot fun r =>
        { r with ctr := runOf c n r.runs, runs := r.runs + 1 }))) ∧
  (∀ s t slot x r o w rest, Acts (.counterEmit t slot) s → x = tile s t → cClass (ctxOf x slot) = 4 →
    live x slot = true → (slotRun x slot).ctr = some r → steerTurn x slot = true →
    runToken x slot r = ((o, w), rest) → outRoom x o slot = true →
    exec (.counterEmit t slot) s =
      .next (setTile s t (leaveUnit slot (modRun (sendOut x o w) slot fun r => { r with ctr := rest })))) ∧
  (∀ s t slot memOk x c i loop line y1 y2 y3 y4, Acts (.moveWord t slot memOk) s → x = tile s t → c = ctxOf x slot →
    (vSrc c ≠ 1 ∨ memOk = true) →
    cClass c = 2 → live x slot = true → drainStuck x slot (moveNeeds x slot) = false →
    nextReady x.lastM (moveReady x) = some slot →
    (i, loop) = (slotRun x slot).mv.getD (0, if vSrc c = 1 then 0 else (qTok x slot 0).elim 0 fun w => w.loop) →
    line = (if vSrc c = 1 then scratchAt x (vSbase c + i) else (qTok x slot 0).elim 0 fun w => w.payload) →
    y1 = (if (slotRun x slot).mv.isNone && gated x slot then qPop x slot 3 else x) →
    y2 = (if vSrc c = 1 then y1 else qPop y1 slot 0) →
    y3 = (if vDst c = 0 then y2 else { y2 with scratch := tset y2.scratch ((vDbase c + i) % 1024) line }) →
    y4 = (if vDst c = 1 then y3 else sendOut y3 0 (outWord x slot line 0 loop)) →
    ∃ z, z = modRun (moved y4 slot) slot (fun r => { r with mv := if i + 1 < vCount c then some (i + 1, loop) else none }) ∧
      exec (.moveWord t slot memOk) s = .next (setTile s t { z with lastM := slot }))

/-- Routers and configuration. The head of an input queue whose turn it is leaves for a neighbour, or is delivered to a
queue of its tile or to its collector, and one without a route is held under a fault of kind 3; a configuration token
for another tile goes on; a word from a neighbour, a local output or the injector enters its input when there is room,
one that fits joins its label's queue, and one of a wrong epoch or with an uncorrectable error is held under a fault;
a configuration word of the next epoch at its target is written to its pending place; an injector whose tiles have
switched sends its next record; a tile that meets every condition switches its epoch (03 R42 to R48; 05 R93, R94,
R107, R111, R114 to R118; 10 R223). -/
def Obligations.RouterRowsComplete : Prop :=
  (∀ s t inp lbl out w r x, Acts (.routerOutputGrant t inp lbl true) s → x = tile s t → lbl ≠ 8 →
    wants x t inp lbl = some out → turnOf s t inp lbl out = true → canTake s t inp lbl out = true →
    inQueue x inp lbl = w :: r → out < 8 →
    exec (.routerOutputGrant t inp lbl true) s =
      .next (sendHop (setTile s t (passMark s.time.watch inp lbl w { x with inq := tset x.inq (8 * inp + lbl) r })) t inp
        out 0 { w with ctx := BitVec.ofNat 3 (rLabel x.rwA inp lbl) })) ∧
  (∀ s t inp lbl out w r x l y, Acts (.routerOutputGrant t inp lbl true) s → x = tile s t → lbl ≠ 8 →
    wants x t inp lbl = some out → turnOf s t inp lbl out = true → canTake s t inp lbl out = true →
    inQueue x inp lbl = w :: r → 8 ≤ out → out < 12 → l = rLabel x.rwA inp lbl →
    y = passMark s.time.watch inp lbl w { x with inq := tset x.inq (8 * inp + lbl) r } → toCollector y l = false →
    exec (.routerOutputGrant t inp lbl true) s =
      .next (setTile s t (granted t inp out (qPush y l (out - 8) { w with ctx := BitVec.ofNat 3 l })))) ∧
  (∀ s t inp lbl out w r x l y, Acts (.routerOutputGrant t inp lbl true) s → x = tile s t → lbl ≠ 8 →
    wants x t inp lbl = some out → turnOf s t inp lbl out = true → canTake s t inp lbl out = true →
    inQueue x inp lbl = w :: r → 8 ≤ out → out < 12 → l = rLabel x.rwA inp lbl →
    y = passMark s.time.watch inp lbl w { x with inq := tset x.inq (8 * inp + lbl) r } → toCollector y l = true →
    exec (.routerOutputGrant t inp lbl true) s =
      .next (setTile s t (granted t inp out
        { y with coll := y.coll ++ [{ word := { w with ctx := BitVec.ofNat 3 l }, label := l, role := out - 8 }] }))) ∧
  (∀ s t inp out w r x, Acts (.routerOutputGrant t inp 8 true) s → x = tile s t → wants x t inp 8 = some out →
    turnOf s t inp 8 out = true → canTake s t inp 8 out = true → tget [] x.cfgq inp = w :: r →
    exec (.routerOutputGrant t inp 8 true) s =
      .next (sendHop (setTile s t { x with cfgq := tset x.cfgq inp r }) t inp out 0 w)) ∧
  (∀ s t inp lbl out w r x, Acts (.routerOutputGrant t inp lbl true) s → x = tile s t → lbl ≠ 8 →
    wants x t inp lbl = some out → turnOf s t inp lbl out = true → canTake s t inp lbl out = true →
    inQueue x inp lbl = w :: r → 12 ≤ out → thas x.held inp = false →
    exec (.routerOutputGrant t inp lbl true) s =
      .next (tileFault (setTile s t (refresh t
        { x with inq := tset x.inq (8 * inp + lbl) r, held := tset x.held inp w })) t 3 0
        (leBytes 1 inp ++ leBytes 1 lbl ++ tagBytes w))) ∧
  (∀ s t src u out inp chk w y ws, Acts (.routerTokenArrival t src chk) s → src < 8 →
    out = (src + 2) % 4 + (if src < 4 then 0 else 4) → inp = (if src < 4 then src else 4) →
    away t (src % 4) (if src < 4 then 1 else 8) = some u → (partOfTile s t).isSome = true →
    partOfTile s t = partOfTile s u → y = tile s u → (tget [] y.latch out).find? (canEnter (tile s t) inp) = some w →
    ws = (tget [] y.latch out).erase w →
    exec (.routerTokenArrival t src chk) s =
      .next (enter t inp chk w
        (setTile s u { y with latch := if ws = [] then tdel y.latch out else tset y.latch out ws }))) ∧
  (∀ s t src chk x k w, Acts (.routerTokenArrival t src chk) s → x = tile s t → 8 ≤ src → src < 10 →
    nextReady (tget 7 x.lastO (src - 8)) (fun k => (loutWord x (src - 8) k).isSome) = some k →
    loutWord x (src - 8) k = some w →
    exec (.routerTokenArrival t src chk) s =
      .next (enter t (src - 3) chk w
        (setTile s t { x with
          lout := tset x.lout (src - 8) ((tget [] x.lout (src - 8)).erase w), lastO := tset x.lastO (src - 8) k }))) ∧
  (∀ s t chk w, Acts (.routerTokenArrival t 10 chk) s → tfind s.injectOut (t / 64 / 8) = some w → t % 64 = 0 →
    t / 64 = cfgTarget w / 64 → canEnter (tile s t) 0 w = true →
    exec (.routerTokenArrival t 10 chk) s = .next (enter t 0 chk w { s with injectOut := tdel s.injectOut (t / 64 / 8) })) ∧
  (∀ (s : State) (t inp : Nat) (w : Chan) (x : Tile),
    x = tile s t → epochFits x t inp w.ctx.toNat w = true → w.kind.toNat ≠ 3 →
    (w.epoch = x.epoch → rOut x.rwA inp w.ctx.toNat < 12) →
    enter t inp .ok w s = setTile s t (refresh t
      { x with
        inq := tset x.inq (8 * inp + w.ctx.toNat) (inQueue x inp w.ctx.toNat ++ [w])
        heldSince := if w.epoch = x.epoch then x.heldSince else some (x.heldSince.getD s.time.watch) })) ∧
  (∀ (s : State) (t inp : Nat) (w : Chan) (x : Tile),
    x = tile s t → epochFits x t inp w.ctx.toNat w = true → w.kind.toNat = 3 →
    enter t inp .ok w s = setTile s t (refresh t { x with cfgq := tset x.cfgq inp (tget [] x.cfgq inp ++ [w]) })) ∧
  (∀ (s : State) (t inp : Nat) (w : Chan) (x : Tile) (chk : Ecc),
    chk ≠ .bad → x = tile s t → epochFits x t inp w.ctx.toNat w = false →
    enter t inp chk w s =
      let u := if chk = .corrected then modVe s (blockOf t) fun v => { v with softErrors := v.softErrors + 1 } else s
      tileFault (holdAt u t inp w) t 2 0 (strayData x t inp w.ctx.toNat w)) ∧
  (∀ s t inp w, enter t inp .bad w s = tileFault (holdAt s t inp w) t 1 0 (tagBytes w)) ∧
  (∀ s t inp x w r y, Acts (.configTokenWrite t inp) s → x = tile s t → tget [] x.cfgq inp = w :: r →
    cfgTarget w = t → thas x.held (heldKey inp w) = false → w.epoch = x.epoch + 1 → cfgType w = 1 → cEpoch w.payload = w.epoch.toNat →
    y = refresh t { x with cfgq := tset x.cfgq inp r } →
    exec (.configTokenWrite t inp) s = .next (setTile (setTile s t y) t { y with rwP := some w.payload })) ∧
  (∀ s t inp x w r y, Acts (.configTokenWrite t inp) s → x = tile s t → tget [] x.cfgq inp = w :: r →
    cfgTarget w = t → thas x.held (heldKey inp w) = false → w.epoch = x.epoch + 1 → cfgType w = 0 → cEpoch w.payload = w.epoch.toNat →
    contextOk w.payload = true → y = refresh t { x with cfgq := tset x.cfgq inp r } →
    exec (.configTokenWrite t inp) s =
      .next (setTile (setTile s t y) t { y with ctxP := tset y.ctxP w.ctx.toNat w.payload })) ∧
  (∀ s p j x i c tgt slot w r word i', Acts (.injectorSend p j) s → x = part s p → x.inject = some i →
    (colsOf x)[j]? = some c → tget [] i.recs j = (tgt, slot, w) :: r → i.left = 0 → halted x = false → s.power.gate ≠ 65536 →
    thas s.injectOut c = false → tilesReady s x i.epoch = true →
    word = Chan.mk (withEpoch w i.epoch) (BitVec.ofNat 16 (8192 * (tgt / 8192) + 512 * c + tgt % 512)) 3 i.epoch
      (BitVec.ofNat 3 slot) →
    i' = { i with recs := tset i.recs j r } →
    exec (.injectorSend p j) s =
      .next (modPart { s with injectOut := tset s.injectOut c word } p fun x => { x with inject := some i' })) ∧
  (∀ s t, Acts (.tileEpochSwitch t) s → maySwitch (tile s t) = true →
    exec (.tileEpochSwitch t) s =
      .next (modTile s t (switchTile ((partOfTile s t).elim 0 fun p => (part s p).seed) t)))

/-- Delivery and watchdogs. The next item of a VE's port goes to its tile, to the scratchpad or to a queue with room, and
the streams of the partition follow; the watch of a tile, a VE or a context that has been stopped for the watchdog
period raises a fault of kind 8 and begins anew (05 R119; 06 R121; 07 R145; 16 Table 3). -/
def Obligations.DeliveryRowsComplete : Prop :=
  (∀ s b lane i r u, Acts (.operandPortDelivery b lane) s → s.power.gate ≠ 65536 → tget [] (ve s b).lanes lane = i :: r →
    u = modVe s b (fun x => { x with lanes := tset x.lanes lane r }) → i.dest = none →
    exec (.operandPortDelivery b lane) s =
      .next (modTile u (tileIn b i.tile) fun x => { x with scratch := tset x.scratch i.line i.word.payload })) ∧
  (∀ s b lane i r k, Acts (.operandPortDelivery b lane) s → s.power.gate ≠ 65536 →
    tget [] (ve s b).lanes lane = i :: r → i.dest = some k →
    exec (.operandPortDelivery b lane) s =
      .next (deliver s (tileIn b i.tile) (k / 4) (k % 4) i.word fun u =>
        modVe u b fun x => { x with lanes := tset x.lanes lane (tget [] x.lanes lane).tail })) ∧
  (∀ (s : State) (t slot role : Nat) (w : Chan) (took : State → State),
    w.epoch = (tile s t).epoch → roomIn (ctxQueue (tile s t) slot role) = true →
    deliver s t slot role w took = modTile (took s) t fun x => qPush x slot role w) ∧
  (∀ s b lane p a, Acts (.operandPortDelivery b lane) s → s.power.gate ≠ 65536 → tget [] (ve s b).lanes lane = [] →
    partOfBlock s b = some p → (part s p).stream.active.find? (deliverable s p b lane) = some a →
    exec (.operandPortDelivery b lane) s = .next (deliverStream p a s)) ∧
  (∀ s t x, Acts (.handshakeWatchdogExpiry (.tileSwitch t)) s → x = tile s t →
    (overdue s x.firstMark = true ∨ overdue s x.heldSince = true) →
    exec (.handshakeWatchdogExpiry (.tileSwitch t)) s =
      .next (tileFault (setTile s t { x with
        firstMark := x.firstMark.map fun _ => s.time.watch, heldSince := x.heldSince.map fun _ => s.time.watch }) t 8 0
        (leBytes 2 t ++ leBytes 7 (~~~x.passed).toNat))) ∧
  (∀ s b, Acts (.handshakeWatchdogExpiry (.ve b)) s → overdue s (ve s b).waitSince = true →
    exec (.handshakeWatchdogExpiry (.ve b)) s =
      .next (veFault (setVe s b { ve s b with waitSince := some s.time.watch }) b 8 (leBytes 2 (ve s b).pc.toNat))) ∧
  (∀ s t slot, Acts (.handshakeWatchdogExpiry (.context t slot)) s →
    overdue s (slotRun (tile s t) slot).waitSince = true →
    exec (.handshakeWatchdogExpiry (.context t slot)) s =
      .next (tileFault (setTile s t (modRun (tile s t) slot fun r => { r with waitSince := some s.time.watch })) t 8
        (cCfg (ctxOf (tile s t) slot)) (leBytes 1 slot)))

/-! ### The machine -/

/-- A step takes the command at the front of the queue and runs it on the state with the queue's rest; on an empty queue
the block idles (the model's choice, log entry 1). -/
def Obligations.StepRunsFront : Prop :=
  (∀ s c rest, s.pending = c :: rest → step s = exec c { s with pending := rest }) ∧
  (∀ s, s.pending = [] → step s = .next s)

/-- Every command answers a next state, in every state; one that the device does not act on changes nothing (the model's
choices, log entries 2 and 35). -/
def Obligations.EveryCommandCompletes : Prop :=
  ∀ i s, (∃ t, exec i s = .next t) ∧ (¬ Acts i s → exec i s = .next s)

/-- Values that the spec gives at reset. Every expected sequence number is 0; no command waits or runs; no partition is
defined and every rounding seed is 0; every VE is in buffer mode and stopped; every tile is in epoch 0; every drawer,
region and home table entry reads free; pair mode is off; no start-up phase is done (12 R281; 13 R299; 04 R85; 07
R162; 11 R265; 15 R355; 16 R396). -/
def Obligations.ResetValues : Prop :=
  State.reset.pending = [] ∧ State.reset.cs.running = [] ∧
  (∀ port, tget 0 State.reset.cs.expect port = 0) ∧ (∀ q, tget [] State.reset.cs.queues q = []) ∧
  (∀ p, defined State.reset p = false ∧ (part State.reset p).seed = 0) ∧
  (∀ b, (ve State.reset b).buffer = true ∧ (ve State.reset b).running = false) ∧
  (∀ t, (tile State.reset t).epoch = 0) ∧ (∀ d, (drawer State.reset d).state = 0) ∧
  (∀ g, (ht State.reset g).v = false) ∧ State.reset.pair.on = false ∧ State.reset.boot.done = [] ∧
  State.reset.boot.ready = false

/-- The memory of the reset state is in canonical form. -/
def Obligations.ResetMemoryCanonical : Prop := State.reset.mem.wf = true

/-- Every step keeps the canonical form of every byte store: from any state whose stores hold strictly rising addresses
and no byte 0, a step that answers a next state leaves them so. -/
def Obligations.MemoryStaysCanonical : Prop :=
  ∀ s t, s.mem.wf = true → step s = .next t → t.mem.wf = true

/-- The frame of every command: each component of the state that a row does not list is unchanged, whatever the operands
and whether the command has its effect, reports a fault or is refused. No row changes the queue, and only the rows of
time and of the supplies change the local count. -/
def Obligations.CommandsKeepTheRest : Prop :=   ∀ i s t, exec i s = .next t → SameBut (touches i) s t

/-- What the stores of memory change. Writing bytes at a tier offset, zeroing a frame and copying bytes change the named
bytes of the named tier alone: every other byte of that tier reads as before, and so does every byte of the other
tiers and of the device's own memories (09 R189, R200, Tables 7 and 8). -/
def Obligations.StoresNameTheirBytes : Prop :=
  (∀ s o bs a tier, s.mem.wf = true → tier ≤ 2 →
    mget (tierMem (writeTier s tier o bs) tier) a =
      (if o ≤ a ∧ a < o + bs.length then bs.getD (a - o) 0 else mget (tierMem s tier) a)) ∧
  (∀ s f a tier, s.mem.wf = true → tier ≤ 2 →
    mget (tierMem (zeroFrame s tier f) tier) a =
      (if frameBytes * f ≤ a ∧ a < frameBytes * f + frameBytes then 0 else mget (tierMem s tier) a)) ∧
  (∀ s o o' len a tier tier', s.mem.wf = true → tier ≤ 2 → tier' ≤ 2 →
    mget (tierMem (copyBytes s tier o tier' o' len) tier') a =
      (if o' ≤ a ∧ a < o' + len then mget (tierMem s tier) (a - o' + o) else mget (tierMem s tier') a)) ∧
  (∀ s o bs f o' len tier tier' other, tier ≤ 2 → tier' ≤ 2 → other ≤ 2 → other ≠ tier →
    tierMem (writeTier s tier o bs) other = tierMem s other ∧ tierMem (zeroFrame s tier f) other = tierMem s other ∧
      tierMem (copyBytes s tier' o' tier o len) other = tierMem s other) ∧
  (∀ s o bs f o' len tier tier' u, u ∈ [writeTier s tier o bs, zeroFrame s tier f, copyBytes s tier' o' tier o len] →
    u.mem.image = s.mem.image ∧ u.mem.fabcfg = s.mem.fabcfg ∧ u.mem.retire = s.mem.retire ∧ u.mem.sram = s.mem.sram)

/-! ### Rules of the spec, each whole -/

/-- The epoch check comes before the routing check: a token whose epoch its input does not accept is held there and
reported once, as a stray epoch, whatever the entry that would route it holds (05 R118). -/
def Obligations.StrayBeforeUnrouted : Prop :=
  ∀ s t inp w, epochFits (tile s t) t inp w.ctx.toNat w = false →
    enter t inp .ok w s =
      tileFault (holdAt s t inp w) t 2 0
        (leBytes 2 t ++ leBytes 1 inp ++ leBytes 1 w.ctx.toNat ++ leBytes 1 w.kind.toNat ++ leBytes 1 w.epoch.toNat ++
          leBytes 1 (tile s t).epoch.toNat ++ leBytes 1 (if passedBit (tile s t) inp w.ctx.toNat then 1 else 0))

/-- The place of an accumulator. Number (r, n) of a bank reads the 32 bits from bit 32 x (i mod 16) of register 16 + i /
16 in bank 0 and 24 + i / 16 in bank 1, where i = 8r + n; and the 128 words put into a bank stand so (03 R40). -/
def Obligations.AccumulatorPlaces : Prop :=
  ∀ (x : Tile) (bank r n : Nat) (ws : List W32), bank ≤ 1 → r ≤ 15 → n ≤ 7 → ws.length = 128 →
    (bankGet x bank)[8 * r + n]? =
      some ((regAt x ((if bank = 0 then 16 else 24) + (8 * r + n) / 16)).extractLsb' (32 * ((8 * r + n) % 16)) 32) ∧
    (regAt (bankSet x bank (bankLines ws)) ((if bank = 0 then 16 else 24) + (8 * r + n) / 16)).extractLsb'
      (32 * ((8 * r + n) % 16)) 32 = ws.getD (8 * r + n) 0

/-- The rounding seed. It is zero after reset, SEED sets it, and the switch of a tile to its next epoch E loads the tile's
two generators from the halves of its partition's seed, mixed with (16t + E) x 0x9e3779b9, with 1 in place of 0 (04
R85). -/
def Obligations.RoundingSeedReachesGenerators : Prop :=
  (∀ p, (part State.reset p).seed = 0) ∧
  (∀ s p c, Begins (.seed p) s p c → c.opc = 0x0107 →
    exec (.seed p) s =
      .next (finish (modPart (taken s p c) c.part fun x => { x with seed := BitVec.ofNat 64 (pf c 0 8) }) c 0 0 [])) ∧
  (∀ s t p m, Acts (.tileEpochSwitch t) s → maySwitch (tile s t) = true → partOfTile s t = some p →
    m = BitVec.ofNat 32 ((16 * t + ((tile s t).epoch + 1).toNat) * 0x9e3779b9) →
    ∃ u, exec (.tileEpochSwitch t) s = .next u ∧ (tile u t).epoch = (tile s t).epoch + 1 ∧
      (tile u t).gen0 = (if (part s p).seed.extractLsb' 0 32 ^^^ m = 0 then 1
        else (part s p).seed.extractLsb' 0 32 ^^^ m) ∧
      (tile u t).gen1 = (if (part s p).seed.extractLsb' 32 32 ^^^ m = 0 then 1
        else (part s p).seed.extractLsb' 32 32 ^^^ m))

/-- Isolation events. Each adds 1 to the partition's ISOL counter, saturating. The first of a window of 25,000 counts is
sent to the control node, with code 0xe301 and the body of Table 5, which carries the count reached; a further one in
that window is counted and not sent (13 R304; that the windows are those of the accounting is the model's reading, log
entry 45). -/
def Obligations.IsolationOncePerWindow : Prop :=
  ∀ s p kind schip spart addr u, u = isolation s p kind schip spart addr →
    (part u p).acct.isol = min ((part s p).acct.isol + 1) (2 ^ 64 - 1) ∧
    ((part s p).lastIsol ≠ none64 ∧ (part s p).lastIsol / 25000 = count s / 25000 → u.out = s.out ∧ u.cs = s.cs) ∧
    ((part s p).lastIsol = none64 ∨ (part s p).lastIsol / 25000 ≠ count s / 25000 →
      (∃ v, u = event v [0] 0xe301
        (leBytes 1 p ++ leBytes 1 kind ++ leBytes 2 schip ++ leBytes 1 spart ++ zeros 3 ++ leBytes 8 addr ++
          leBytes 8 (part u p).acct.isol ++ zeros 8) ∧ v.out = s.out ∧ v.cs = s.cs) ∧
      (part u p).lastIsol = count s)

/-- The fused minimum. Loading the service firmware raises it to the image's SVN when the image has RAISE set, its SVN
exceeds the minimum and one of the 64 increments is left, and else leaves it; the phase starts the firmware only after
that. The minimum outlives reset, and an image below it is refused with cause 3 (15 R364). -/
def Obligations.SecurityMinimumRaised : Prop :=
  (∀ s, Acts .startupServiceFirmware s → s.boot.safe = false → phaseDone s .l = false → phaseDone s .g = true →
    phaseDone s .h = true →
    ∃ u, exec .startupServiceFirmware s = .next u ∧ u.boot.sfRunning = true ∧
    (imgF s 1 1 % 2 = 1 ∧ s.boot.svnMin < s.boot.svn ∧ s.boot.raises < 64 →
      u.boot.svnMin = s.boot.svn ∧ u.boot.raises = s.boot.raises + 1) ∧
    (¬ (imgF s 1 1 % 2 = 1 ∧ s.boot.svnMin < s.boot.svn ∧ s.boot.raises < 64) →
      u.boot.svnMin = s.boot.svnMin ∧ u.boot.raises = s.boot.raises)) ∧
  (∀ s, (inReset s).boot.svnMin = s.boot.svnMin ∧ (inReset s).boot.raises = s.boot.raises) ∧
  (∀ s, covers s.boot.imageGot 0x140 = true → imgHeaderBad s = false →
    covers s.boot.imageGot (0x140 + imgCode s + imgData s) = true → imgF s 4 4 < s.boot.svnMin → imageCause s = 3)

/-- Integer elements. INT8 and INT4 codes are two's complement integers without a scale; an MXINT8 code is one of 8 bits
times 2^-6, code 0x80 reading as -2, and no conversion writes that code (04 R69). -/
def Obligations.IntegerElements : Prop :=
  (∀ w, operandNum 0x09 w = numInt (BitVec.ofNat 8 w).toInt) ∧ (∀ w, operandNum 0x0a w = numInt (BitVec.ofNat 4 w).toInt) ∧
  isMx 0x09 = false ∧ isMx 0x0a = false ∧
  (∀ w, operandNum 0x08 w =
    .fin (decide ((BitVec.ofNat 8 w).toInt < 0)) (BitVec.ofNat 8 w).toInt.natAbs (-6)) ∧
  operandNum 0x08 0x80 = .fin true 128 (-6) ∧
  (∀ scale mode r x, mxElem 0x08 scale mode r x < 256 ∧ mxElem 0x08 scale mode r x ≠ 0x80)

/-- A transaction of the device's own sources whose destination chip is this chip is delivered here, and one that a link
brings is too; neither changes a link but for the credits that its frames return (a pair message out of its order,
which lapses its partition, apart). The frames of one for another chip are put, one by one, behind those that wait to
be forwarded. A transaction takes a live link of a live port of its chip's route entry (14 R318, R328). -/
def Obligations.DeliveryByChip : Prop :=
  (∀ s t, s.fabric.accepted = true → t.dchip = s.fabric.chip →
    ∃ u, issueTxn s t = (0, u) ∧ u = ingress (modFabric s fun f => { f with sent := f.sent ++ [t] }) t ∧
      u.fabric.links = s.fabric.links ∧ u.fabric.fwd = s.fabric.fwd ∧ u.fabric.waiting = s.fabric.waiting) ∧
  (∀ s l ch bs, l ≠ 18 → (parseTxn bs).dchip = s.fabric.chip →
    ¬ ((parseTxn bs).ttype = 0x12 ∧ follows s (parseTxn bs) = false) →
    (∀ k, (link (arrived s l ch bs) k).txq = (link s k).txq) ∧ (arrived s l ch bs).fabric.fwd = s.fabric.fwd ∧
      (arrived s l ch bs).fabric.waiting = s.fabric.waiting) ∧
  (∀ s l f, l ≠ 18 → fSot f = true → 32 ≤ (fPayload f).length → (parseTxn (fPayload f)).dchip ≠ s.fabric.chip →
    foreignTxn s l f = some { parseTxn (fPayload f) with data := [] }) ∧
  (∀ s l f, l ≠ 18 → fSot f = false → foreignTxn s l f = tfind s.fabric.fwdIn (fwdKey l (fVc f))) ∧
  (∀ s l f t, (queueFrame s l f t).fabric.fwd = s.fabric.fwd ++
      [{ link := l, chan := fVc f, txn := t, first := fSot f, last := fEot f, payload := fPayload f, owed := true }] ∧
    ∀ k, (link (queueFrame s l f t) k).txq = (link s k).txq) ∧
  (∀ s phase t u k, route s phase t = some u → linkFor s t ≠ some k → (link u k).txq = (link s k).txq) ∧
  (∀ s t l, linkFor s t = some l →
    ∃ p ports e, tfind s.fabric.routes t.dchip = some ports ∧ ports.getLsbD p = true ∧ s.fabric.ents[l]? = some e ∧
      e.en = true ∧ e.port = p ∧ inPort s l = true)

/-- The replacement of a column segment is a usable unmapped segment of its row and die, none of which is nearer and,
among equally near ones, none has a lower number; there is none only when no segment is usable. The new map of an
ordered map holds its segments less the one that leaves and with the replacement, in order; logical columns outside
the two keep their segment, and each between them takes the next one toward the replacement. A partition is affected
when it holds the block column of a logical column whose segment changes (16 R389). -/
def Obligations.ReplacementSegment : Prop :=
  (∀ s d r g c, replacement s d r g = some c →
    c < 66 ∧ segUsable s d r c = true ∧
    ∀ k, k < 66 → segUsable s d r k = true → distance c g < distance k g ∨ (distance c g = distance k g ∧ c ≤ k)) ∧
  (∀ s d r g, replacement s d r g = none → ∀ k, k < 66 → segUsable s d r k = false) ∧
  (∀ (m : List Nat) (g c : Nat), m.Pairwise (· < ·) → (∀ k ∈ m, k < 66) → g ∈ m → c ∉ m → c < 66 →
    (newMap m g c).Pairwise (· < ·) ∧ (∀ k, k ∈ newMap m g c ↔ k = c ∨ (k ∈ m ∧ k ≠ g)) ∧
    (newMap m g c).length = m.length ∧
    ∀ (i x : Nat), m[i]? = some x →
      ((x < g ∧ x < c) ∨ (g < x ∧ c < x) → (newMap m g c)[i]? = some x) ∧
      (g ≤ x ∧ x < c → (newMap m g c)[i]? = (newMap m g c).find? fun k => decide (x < k)) ∧
      (c < x ∧ x ≤ g → (newMap m g c)[i]? = ((newMap m g c).filter fun k => decide (k < x)).getLast?)) ∧
  (∀ s d r g c p, p ∈ affected s d r g c ↔
    ∃ i, i < 64 ∧ (mapOf s d r)[i]? ≠ (newMap (mapOf s d r) g c)[i]? ∧ partOfCol s (8 * d + i / 8) = some p)

/-- The choice of experts. The biased score of an expert is one FP32 addition of its score and its bias. The first choice
is an expert below E that no other outranks, the lowest of those; the second, under top-2, is the same among the
others, and differs from the first (08 R166, R167). -/
def Obligations.ExpertChoice : Prop :=
  ∀ (x : Ve) (ps : List W32) (j : Nat) (b : Nat → W32) (n e1 e2 : Nat),
    (∀ e, b e = fadd (rtScore x ps j e) (rtBias x ps e)) → n = rtExperts ps → (e1, e2) = choices x ps j →
    e1 < n ∧ (∀ e, e < n → ranks (b e) (b e1) = false ∧ (e < e1 → ranks (b e1) (b e) = true)) ∧
    (rtK2 ps = true → 2 ≤ n → e2 < n ∧ e2 ≠ e1 ∧
      ∀ e, e < n → e ≠ e1 → ranks (b e) (b e2) = false ∧ (e < e2 → ranks (b e2) (b e) = true))

/-- Sequence numbers. Every E is 0 after RESET_N. A packet with SEQ = E that passes the header checks sets the port's E to
SEQ + 1 modulo 2^32 and no other; one that passes every check before and has SEQ ≠ E is rejected with 0x1103, and the
DETAIL of that reply is E; an ECHO with RESYNC is never rejected so, and sets E when accepted; a rejected header
leaves every E; and a reply that ends an accepted command leaves every E (12 R281). -/
def Obligations.SequenceNumbers : Prop :=
  (∀ port, tget 0 State.reset.cs.expect port = 0) ∧ (∀ s port, tget 0 (inReset s).cs.expect port = 0) ∧
  (∀ s port pkt, headerCheck s port pkt ∈ [0, 0x2001, 0x1103] →
    (headerCheck s port pkt = 0x1103 ↔ nfld (fld pkt 1 1) 2 1 = 0 ∧ fld pkt 8 4 ≠ tget 0 s.cs.expect port)) ∧
  (∀ s port pkt k,
    tget 0 (accept s (parseCmd port pkt)).cs.expect k =
      if k = port then (fld pkt 8 4 + 1) % 2 ^ 32 else tget 0 s.cs.expect k) ∧
  (∀ s port pkt status, (nack s port pkt status).cs.expect = s.cs.expect) ∧
  (∀ s port pkt, ∃ r, nack s port pkt 0x1103 = send s port (.reply r) ∧ r.status = 0x1103 ∧
    r.detail = tget 0 s.cs.expect port) ∧
  (∀ s c status detail body, (finish s c status detail body).cs.expect = s.cs.expect) ∧
  (∀ s port pkt, portOpen s port = true → port ≤ 2 → 32 ≤ pkt.length →
    ¬ (port = 0 ∧ s.boot.ready = false ∧ fld pkt 0 1 = 0xb1) →
    commandArrival port pkt s =
      (fun u => if headerCheck u port pkt = 0 then accept u (parseCmd port pkt) else nack u port pkt (headerCheck u port pkt))
        (if port = 0 then takeMessage s 16 pkt else managerSeen s port)) ∧
  (∀ s pkt t, portOpen s 3 = true → cmdMessage s pkt = some t → fromTwin s t = true → 32 ≤ pkt.length →
    commandArrival 3 pkt s =
      (fun u => if headerCheck u 3 pkt = 0 then accept u (parseCmd 3 pkt) else nack u 3 pkt (headerCheck u 3 pkt))
        (modFabric s fun b => { b with ingress := dropMessage (streamKey t) b.ingress }))
end

