-- ==== Sys2Proof/Laws/Columns.lean ====
section
/-! SUPPORT. Columns: the nearest spare segment, and the new map of a row as an ordered list (16 R389). -/

set_option linter.unusedSimpArgs false
set_option linter.unusedVariables false

namespace Sys2Proof.Machine

theorem best_spec (dist : Nat → Nat) (l : List Nat) (x : Nat) (hx : ∀ k ∈ l, x < k) (hl : l.Pairwise (· < ·)) :
    ∃ c, l.foldl (fun b c => match b with
      | none => some c
      | some x => if dist c < dist x then some c else some x) (some x) = some c ∧ c ∈ x :: l ∧
      ∀ k ∈ x :: l, dist c < dist k ∨ (dist c = dist k ∧ c ≤ k) := by
  induction l generalizing x with
  | nil => exact ⟨x, rfl, by simp, by simp⟩
  | cons a l ih =>
    rw [List.pairwise_cons] at hl
    simp only [List.foldl_cons]
    by_cases h : dist a < dist x
    · rw [if_pos h]
      obtain ⟨c, e, m, p⟩ := ih a hl.1 hl.2
      refine ⟨c, e, List.mem_cons_of_mem _ m, ?_⟩
      intro k hk
      rcases List.mem_cons.mp hk with rfl | hk
      · have := p a (by simp); left; omega
      · exact p k hk
    · rw [if_neg h]
      obtain ⟨c, e, m, p⟩ := ih x (fun k hk => hx k (by simp [hk])) hl.2
      refine ⟨c, e, ?_, ?_⟩
      · rcases List.mem_cons.mp m with rfl | m <;> simp [*]
      · intro k hk
        have px := p x (by simp)
        have := hx a (by simp)
        rcases List.mem_cons.mp hk with rfl | hk
        · exact px
        · rcases List.mem_cons.mp hk with rfl | hk
          · omega
          · exact p k (by simp [hk])

theorem sorted_get {l : List Nat} (hl : l.Pairwise (· < ·)) {x : Nat} (hx : x ∈ l) :
    l[l.countP (fun k => decide (k < x))]? = some x := by
  induction l with
  | nil => cases hx
  | cons a r ih =>
    rw [List.pairwise_cons] at hl
    rcases List.mem_cons.mp hx with rfl | h
    · have : r.countP (fun k => decide (k < x)) = 0 := by
        rw [List.countP_eq_zero]; intro k hk; have := hl.1 k hk; simp; omega
      simp [List.countP_cons, this]
    · have := hl.1 x h
      simp [List.countP_cons, this, ih hl.2 h]

theorem sorted_idx {l : List Nat} (hl : l.Pairwise (· < ·)) {x i : Nat} (h : l[i]? = some x) :
    l.countP (fun k => decide (k < x)) = i := by
  induction l generalizing i with
  | nil => simp at h
  | cons a r ih =>
    rw [List.pairwise_cons] at hl
    cases i with
    | zero =>
      simp at h; subst h
      have : r.countP (fun k => decide (k < a)) = 0 := by
        rw [List.countP_eq_zero]; intro k hk; have := hl.1 k hk; simp; omega
      simp [List.countP_cons, this]
    | succ i =>
      simp at h
      have := hl.1 x (List.mem_of_getElem? h)
      simp [List.countP_cons, this, ih hl.2 h]

theorem sorted_find {l : List Nat} (hl : l.Pairwise (· < ·)) (x : Nat) :
    l.find? (fun k => decide (x < k)) = l[l.countP (fun k => decide (k ≤ x))]? := by
  induction l with
  | nil => rfl
  | cons a r ih =>
    rw [List.pairwise_cons] at hl
    by_cases h : x < a
    · have : r.countP (fun k => decide (k ≤ x)) = 0 := by
        rw [List.countP_eq_zero]; intro k hk; have := hl.1 k hk; simp; omega
      simp [List.find?_cons, h, List.countP_cons, this, show ¬ a ≤ x by omega]
    · simp [List.find?_cons, h, List.countP_cons, show a ≤ x by omega, ih hl.2]

theorem sorted_last {l : List Nat} (hl : l.Pairwise (· < ·)) (x i : Nat) (h : l.countP (fun k => decide (k < x)) = i + 1) :
    (l.filter fun k => decide (k < x)).getLast? = l[i]? := by
  induction l generalizing i with
  | nil => simp at h
  | cons a r ih =>
    rw [List.pairwise_cons] at hl
    by_cases ha : a < x
    · rw [List.countP_cons_of_pos (by simpa using ha)] at h
      rw [List.filter_cons_of_pos (by simpa using ha)]
      cases i with
      | zero =>
        have : r.filter (fun k => decide (k < x)) = [] := by
          rw [List.countP_eq_length_filter] at h; exact List.eq_nil_of_length_eq_zero (by omega)
        simp [this]
      | succ i =>
        have hn : r.filter (fun k => decide (k < x)) ≠ [] := by
          intro e; rw [List.countP_eq_length_filter, e] at h; simp at h
        rw [List.getLast?_cons_of_ne_nil hn]
        simpa using ih hl.2 i (by omega)
    · have : r.countP (fun k => decide (k < x)) = 0 := by
        rw [List.countP_eq_zero]; intro k hk; have := hl.1 k hk; simp; omega
      rw [List.countP_cons_of_neg (by simpa using ha), this] at h
      omega

theorem newMap_facts (m : List Nat) (g c : Nat) (hm : m.Pairwise (· < ·)) (hb : ∀ k ∈ m, k < 66) (hg : g ∈ m) (hc : c ∉ m)
    (hc6 : c < 66) : (newMap m g c).Pairwise (· < ·) ∧ (∀ k, k ∈ newMap m g c ↔ k = c ∨ (k ∈ m ∧ k ≠ g)) ∧
      (newMap m g c).Perm (c :: m.erase g) := by
  have s : (newMap m g c).Pairwise (· < ·) := List.Pairwise.filter _ List.pairwise_lt_range
  have mem : ∀ k, k ∈ newMap m g c ↔ k = c ∨ (k ∈ m ∧ k ≠ g) := by
    intro k
    unfold newMap
    rw [List.mem_filter, List.mem_range, decide_eq_true_eq]
    constructor
    · exact fun h => h.2
    · intro h; refine ⟨?_, h⟩; rcases h with rfl | h
      · exact hc6
      · exact hb k h.1
  refine ⟨s, mem, ?_⟩
  have n1 : (newMap m g c).Nodup := s.imp (fun h => Nat.ne_of_lt h)
  have nm : m.Nodup := hm.imp (fun h => Nat.ne_of_lt h)
  have n2 : (c :: m.erase g).Nodup := by
    rw [List.nodup_cons]
    exact ⟨fun h => hc (List.mem_of_mem_erase h), nm.erase g⟩
  rw [List.perm_ext_iff_of_nodup n1 n2]
  intro k
  rw [mem, List.mem_cons, nm.mem_erase_iff]
  tauto

theorem newMap_count (m : List Nat) (g c : Nat) (hm : m.Pairwise (· < ·)) (hb : ∀ k ∈ m, k < 66) (hg : g ∈ m) (hc : c ∉ m)
    (hc6 : c < 66) (p : Nat → Bool) :
    (newMap m g c).countP p + (if p g then 1 else 0) = m.countP p + (if p c then 1 else 0) := by
  rw [(newMap_facts m g c hm hb hg hc hc6).2.2.countP_eq, (List.perm_cons_erase hg).countP_eq p]
  simp only [List.countP_cons]
  omega

end Sys2Proof.Machine
end

