-- ==== Sys2Proof/Laws/Commands.lean ====
section
/-! SUPPORT. What running a row comes to: a row that acts answers a next state, and a queue row whose command begins runs
its meaning on the state that has taken the command. -/

namespace Sys2Proof.Machine

theorem onWf_acts {i : Instr} {s : State} (h : Acts i s) (f : State → State) : onWf i s f = .next (f s) := by
  simp [onWf, h.1, h.2]

theorem onWf_idle {i : Instr} {s : State} (h : ¬ Acts i s) (f : State → State) : onWf i s f = .next s := by
  have : (i.wf && awake i s) = false := by simpa [Acts] using h
  simp [onWf, this]

theorem takeCmd_begins {i : Instr} {s : State} {q : Nat} {c : Cmd} (h : Begins i s q c) {mine : Cmd → Bool}
    (hm : mine c = true) (f : Cmd → State → State) : takeCmd q mine f s = f c (taken s q c) := by
  simp [takeCmd, h.2.1, hm, beginCmd, h.2.2, taken]

theorem takeCmd_other {s : State} {q : Nat} {c : Cmd} (h : front q s = some c) {mine : Cmd → Bool} (hm : mine c = false)
    (f : Cmd → State → State) : takeCmd q mine f s = s := by simp [takeCmd, h, hm]

theorem takeCmd_none {s : State} {q : Nat} (h : front q s = none) (mine : Cmd → Bool) (f : Cmd → State → State) :
    takeCmd q mine f s = s := by simp [takeCmd, h]

/-- A queue row whose command begins: the whole outcome. -/
theorem row_begins {i : Instr} {s : State} {q : Nat} {c : Cmd} (h : Begins i s q c) {mine : Cmd → Bool}
    (hm : mine c = true) (f : Cmd → State → State) :
    onWf i s (takeCmd q mine f) = .next (f c (taken s q c)) := by
  rw [onWf_acts h.1, takeCmd_begins h hm]

end Sys2Proof.Machine
end

