-- ==== Sys2Proof/Laws/Memory.lean ====
section
/-! SUPPORT. Memory: every operation keeps the canonical form (addresses strictly rising, no byte equal to what an unlisted
address reads as), a byte reads back as written, and a write leaves every other byte alone. -/

namespace Sys2Proof.Machine

theorem wfFrom_le {m : Memory} {lo lo' : Nat} (h : Memory.wfFrom lo m = true) (l : lo' ≤ lo) :
    Memory.wfFrom lo' m = true := by
  cases m with
  | nil => rfl
  | cons c r => simp only [Memory.wfFrom, Bool.and_eq_true, decide_eq_true_eq] at *; exact ⟨⟨by omega, h.1.2⟩, h.2⟩

/-- Below the lowest address a memory reads 0. -/
theorem mget_below {m : Memory} {lo a : Nat} (h : Memory.wfFrom lo m = true) (l : a < lo) : mget m a = 0#8 := by
  cases m with
  | nil => rfl
  | cons c r => simp [Memory.wfFrom] at h; simp [mget, tget]; omega

theorem mget_cons (i : Nat) (w : Byte) (r : Memory) (b : Nat) :
    mget ((i, w) :: r) b = if b < i then 0#8 else if b = i then w else mget r b := rfl

theorem wfFrom_mput {m : Memory} {lo a : Nat} (v : Byte) (h : Memory.wfFrom lo m = true) (l : lo ≤ a) :
    Memory.wfFrom lo (mput m a v) = true := by
  induction m generalizing lo with
  | nil => by_cases e : v = 0#8 <;> simp [mput, Memory.wfFrom, e, l]
  | cons c r ih =>
    obtain ⟨i, w⟩ := c
    simp [Memory.wfFrom] at h
    by_cases h1 : a < i
    · by_cases e : v = 0#8
      · simp [mput, h1, e, Memory.wfFrom, h]
      · simp [mput, h1, e, Memory.wfFrom, h, l]
    · by_cases h2 : a = i
      · by_cases e : v = 0#8
        · simp [mput, h2, e]; exact wfFrom_le h.2 (by omega)
        · simp [mput, h2, e, Memory.wfFrom, h]
      · simp [mput, h1, h2, Memory.wfFrom, h]
        exact ih h.2 (by omega)

theorem mget_mput {m : Memory} {lo a : Nat} (v : Byte) (h : Memory.wfFrom lo m = true) (b : Nat) :
    mget (mput m a v) b = if b = a then v else mget m b := by
  induction m generalizing lo with
  | nil =>
    by_cases e : v = 0#8
    · simp [mput, e, mget, tget]
    · by_cases h1 : b = a
      · simp [mput, e, mget, tget, h1]
      · simp [mput, e, mget, tget, h1]
  | cons c r ih =>
    obtain ⟨i, w⟩ := c
    simp [Memory.wfFrom] at h
    by_cases h1 : a < i
    · by_cases e : v = 0#8
      · simp only [mput, h1, e, if_true]
        by_cases h2 : b = a
        · simp [mget_cons, h2, h1]
        · simp [h2]
      · simp only [mput, h1, e, if_true, if_false, mget_cons]
        by_cases h2 : b < a
        · simp [h2, Nat.ne_of_lt h2, Nat.lt_trans h2 h1]
        · by_cases h3 : b = a <;> simp [h2, h3]
    · by_cases h2 : a = i
      · subst h2
        by_cases e : v = 0#8
        · simp only [mput, e, Nat.lt_irrefl, if_false, if_true]
          by_cases h3 : b = a
          · simp [h3]; exact mget_below h.2 (by omega)
          · by_cases h4 : b < a
            · simp [h3, mget_cons, h4]; exact mget_below h.2 (by omega)
            · simp [h3, mget_cons, h4]
        · by_cases h3 : b = a
          · simp [mput, e, mget_cons, h3]
          · simp [mput, e, mget_cons, h3]
      · simp only [mput, h1, h2, if_false, mget_cons, ih h.2]
        by_cases h3 : b = a
        · subst h3; simp [h1, h2]
        · simp [h3]

theorem wf_mput {m : Memory} (a : Nat) (v : Byte) (h : m.wf = true) : (mput m a v).wf = true :=
  wfFrom_mput v h (Nat.zero_le a)

theorem mget_mput_wf {m : Memory} (h : m.wf = true) (a : Nat) (v : Byte) (b : Nat) :
    mget (mput m a v) b = if b = a then v else mget m b := mget_mput v h b

theorem wf_mwrite {m : Memory} (a : Nat) (bs : List Byte) (h : m.wf = true) : (mwrite m a bs).wf = true := by
  induction bs generalizing m a with
  | nil => exact h
  | cons b bs ih => exact ih (a + 1) (wf_mput a b h)

/-- A byte after a write: inside the written run the byte written there, elsewhere what stood there. -/
theorem mget_mwrite {m : Memory} (h : m.wf = true) (a : Nat) (bs : List Byte) (b : Nat) :
    mget (mwrite m a bs) b = if a ≤ b ∧ b < a + bs.length then bs[b - a]?.getD 0 else mget m b := by
  induction bs generalizing m a with
  | nil => simp [mwrite]
  | cons v bs ih =>
    rw [mwrite, ih (wf_mput a v h), mget_mput_wf h]
    by_cases h1 : b = a
    · subst h1; simp
    · by_cases h2 : a + 1 ≤ b ∧ b < a + 1 + bs.length
      · have : b - a = (b - (a + 1)) + 1 := by omega
        rw [if_pos h2, if_pos (by simp; omega), this]; simp
      · rw [if_neg h2, if_neg h1, if_neg (by simp; omega)]

theorem wfFrom_filter {m : Memory} {lo : Nat} (f : Nat × Byte → Bool) (h : Memory.wfFrom lo m = true) :
    Memory.wfFrom lo (m.filter f) = true := by
  induction m generalizing lo with
  | nil => rfl
  | cons c r ih =>
    simp [Memory.wfFrom] at h
    by_cases e : f c = true
    · simp [e, Memory.wfFrom, h]; exact ih h.2
    · simp [e]; exact wfFrom_le (ih h.2) (by omega)

theorem wf_mzero {m : Memory} (a n : Nat) (h : m.wf = true) : (mzero m a n).wf = true := wfFrom_filter _ h

theorem mget_filter {m : Memory} {lo : Nat} (h : Memory.wfFrom lo m = true) (f : Nat → Bool) (b : Nat) :
    mget (m.filter fun c => f c.1) b = if f b then mget m b else 0#8 := by
  induction m generalizing lo with
  | nil => simp [mget, tget]
  | cons c r ih =>
    obtain ⟨i, w⟩ := c
    simp [Memory.wfFrom] at h
    have hr := ih h.2
    by_cases e : f i = true
    · simp only [List.filter_cons, e, if_true, mget_cons, hr]
      by_cases h1 : b < i
      · simp [h1]
      · by_cases h2 : b = i
        · simp [h2, e]
        · simp [h1, h2]
    · simp only [List.filter_cons, e, mget_cons]
      by_cases h1 : b < i
      · simp [h1, hr]; intro; exact mget_below h.2 (by omega)
      · by_cases h2 : b = i
        · subst h2; simp [e, hr]
        · simp [h1, h2, hr]

/-- A byte after a run was zeroed. -/
theorem mget_mzero {m : Memory} (h : m.wf = true) (a n b : Nat) :
    mget (mzero m a n) b = if a ≤ b ∧ b < a + n then 0#8 else mget m b := by
  unfold mzero
  rw [mget_filter h (fun i => !(decide (a ≤ i) && decide (i < a + n))) b]
  by_cases e : a ≤ b ∧ b < a + n
  · simp [e]
  · by_cases h1 : a ≤ b <;> by_cases h2 : b < a + n <;> simp_all

theorem wf_foldl_mput {l : List (Nat × Byte)} (g : Nat × Byte → Nat) {m : Memory} (h : m.wf = true) :
    (l.foldl (fun m c => mput m (g c) c.2) m).wf = true := by
  induction l generalizing m with
  | nil => exact h
  | cons c r ih => exact ih (wf_mput _ _ h)

theorem wf_mcopy (src : Memory) (a : Nat) {dst : Memory} (b n : Nat) (h : dst.wf = true) : (mcopy src a dst b n).wf = true :=
  wf_foldl_mput (fun c => c.1 - a + b) (wf_mzero b n h)

/-! ### The tiers -/

theorem memsWf_iff (m : Mems) :
    m.wf = true ↔ m.t0.wf = true ∧ m.t1.wf = true ∧ m.t2.wf = true ∧ m.image.wf = true ∧ m.fabcfg.wf = true ∧
      m.retire.wf = true ∧ m.sram.wf = true := by
  simp [Mems.wf, and_assoc]

theorem tierMem_wf {s : State} (h : s.mem.wf = true) (t : Nat) : (tierMem s t).wf = true := by
  rw [memsWf_iff] at h; unfold tierMem; split
  · exact h.1
  · split
    · exact h.2.1
    · exact h.2.2.1

theorem setTierMem_wf {s : State} (h : s.mem.wf = true) (t : Nat) {m : Memory} (hm : m.wf = true) :
    (setTierMem s t m).mem.wf = true := by
  rw [memsWf_iff] at *; unfold setTierMem; split
  · exact ⟨hm, h.2⟩
  · split
    · exact ⟨h.1, hm, h.2.2⟩
    · exact ⟨h.1, h.2.1, hm, h.2.2.2⟩

end Sys2Proof.Machine
end

