-- ==== Sys2Proof/Laws/Frames.lean ====
section
/-! SUPPORT. What a shared operation or a row can change: for any property `P` of states that survives changes of the
components that an operation touches, the operation keeps `P`. The masks list the components,
    bit 0 the first field of State.
Taking `P` to be agreement with the state before gives the operation's frame (`agrees_of_sat`). -/

open Sys2Proof
namespace Sys2Proof.Machine

/-- Number of a component: its place among the fields of State. -/
def Comp.idx : Comp → Nat
  | .pending => 0
  | .draw => 1
  | .time => 2
  | .cs => 3
  | .out => 4
  | .boot => 5
  | .lands => 6
  | .tele => 7
  | .parts => 8
  | .tiles => 9
  | .ves => 10
  | .codebook => 11
  | .veNet => 12
  | .injectOut => 13
  | .drawers => 14
  | .regions => 15
  | .mem => 16
  | .tiers => 17
  | .fabric => 18
  | .mgmtA => 19
  | .mgmtB => 20
  | .safety => 21
  | .pair => 22
  | .power => 23
/-- `t` agrees with `s` in every component whose bit of `K` is clear (bits in the order of the fields of State), and its
memory keeps the canonical form. -/
def Agrees (K : Nat) (s t : State) : Prop :=
  (∀ c : Comp, K.testBit c.idx = false → c.same s t) ∧ (s.mem.wf = true → t.mem.wf = true)
/-- `P` survives every change of the components that `K` names, memory in its form. -/
def Clo (K : Nat) (P : State → Prop) : Prop := ∀ s t, Agrees K s t → P s → P t
/-- `P` holds of `s`. -/
def Sat (P : State → Prop) (s : State) : Prop := P s
/-- `P` holds of the state with these components. -/
def SatK (P : State → Prop) (a0 : List Instr) (a1 : Nat) (a2 : Time) (a3 : Seqr) (a4 : Out) (a5 : Boot) (a6 : Lands)
    (a7 : Tele) (a8 : Tab Part) (a9 : Tab Tile) (a10 : Tab Ve) (a11 : Tab W64) (a12 : List NetWord) (a13 : Tab Chan)
    (a14 : Tab Drawer) (a15 : Tab Region) (a16 : Mems) (a17 : Tiers) (a18 : Fabric) (a19 : Mgmt) (a20 : Mgmt)
    (a21 : Safety) (a22 : Pair) (a23 : Power) : Prop :=
  P (State.mk a0 a1 a2 a3 a4 a5 a6 a7 a8 a9 a10 a11 a12 a13 a14 a15 a16 a17 a18 a19 a20 a21 a22 a23)

theorem testBit_land {J K i : Nat} (h : J &&& K = J) (hj : K.testBit i = false) : J.testBit i = false := by
  rw [← h, Nat.testBit_and, hj, Bool.and_false]

theorem Agrees.mono {J K : Nat} {s t : State} (h : J &&& K = J) (ha : Agrees J s t) : Agrees K s t :=
  ⟨fun c e => ha.1 c (testBit_land h e), ha.2⟩

theorem Clo.mono {J K : Nat} {P : State → Prop} (hK : Clo K P) (h : J &&& K = J) : Clo J P :=
  fun s t ha => hK s t (ha.mono h)
/-- `P` holds of what an instruction of a VE answers. -/
def SatE (P : State → Prop) (r : Except State (Option State)) : Prop :=
  match r with
  | .error t => Sat P t
  | .ok none => True
  | .ok (some t) => Sat P t
/-- `P` holds of the state answered, if any. -/
def SatO (P : State → Prop) (r : Option State) : Prop :=
  match r with
  | none => True
  | some t => Sat P t
/-- `P` holds of the next state. -/
def SatN (P : State → Prop) (r : Host.Outcome State Fault Refusal) : Prop :=
  match r with
  | .next t => Sat P t
  | _ => True

variable {P : State → Prop}
/-- Changing one component that `K` names, memory in its form, keeps `P`. -/

theorem clo_one {K i : Nat} (hK : Clo K P) (h : K.testBit i = true) {s t : State}
    (hc : ∀ c : Comp, c.idx ≠ i → c.same s t) (hw : s.mem.wf = true → t.mem.wf = true) (hs : P s) : P t :=
  hK s t ⟨fun c e => hc c fun k => Bool.noConfusion ((k ▸ h).symm.trans e), hw⟩ hs

theorem clo_pending {K : Nat} (hK : Clo K P)
    (h : K.testBit 0 = true) {a0 a1 a2 a3 a4 a5 a6 a7 a8 a9 a10 a11 a12 a13 a14 a15 a16 a17 a18 a19 a20 a21 a22 a23 b}
    (hs : SatK P a0 a1 a2 a3 a4 a5 a6 a7 a8 a9 a10 a11 a12 a13 a14 a15 a16 a17 a18 a19 a20 a21 a22 a23) :
    SatK P b a1 a2 a3 a4 a5 a6 a7 a8 a9 a10 a11 a12 a13 a14 a15 a16 a17 a18 a19 a20 a21 a22 a23 :=
  clo_one (s := State.mk a0 a1 a2 a3 a4 a5 a6 a7 a8 a9 a10 a11 a12 a13 a14 a15 a16 a17 a18 a19 a20 a21 a22 a23)
    (t := State.mk b a1 a2 a3 a4 a5 a6 a7 a8 a9 a10 a11 a12 a13 a14 a15 a16 a17 a18 a19 a20 a21 a22 a23) hK h
    (fun c e => by cases c <;> first | exact absurd rfl e | rfl) id hs

theorem clo_draw {K : Nat} (hK : Clo K P)
    (h : K.testBit 1 = true) {a0 a1 a2 a3 a4 a5 a6 a7 a8 a9 a10 a11 a12 a13 a14 a15 a16 a17 a18 a19 a20 a21 a22 a23 b}
    (hs : SatK P a0 a1 a2 a3 a4 a5 a6 a7 a8 a9 a10 a11 a12 a13 a14 a15 a16 a17 a18 a19 a20 a21 a22 a23) :
    SatK P a0 b a2 a3 a4 a5 a6 a7 a8 a9 a10 a11 a12 a13 a14 a15 a16 a17 a18 a19 a20 a21 a22 a23 :=
  clo_one (s := State.mk a0 a1 a2 a3 a4 a5 a6 a7 a8 a9 a10 a11 a12 a13 a14 a15 a16 a17 a18 a19 a20 a21 a22 a23)
    (t := State.mk a0 b a2 a3 a4 a5 a6 a7 a8 a9 a10 a11 a12 a13 a14 a15 a16 a17 a18 a19 a20 a21 a22 a23) hK h
    (fun c e => by cases c <;> first | exact absurd rfl e | rfl) id hs

theorem clo_time {K : Nat} (hK : Clo K P)
    (h : K.testBit 2 = true) {a0 a1 a2 a3 a4 a5 a6 a7 a8 a9 a10 a11 a12 a13 a14 a15 a16 a17 a18 a19 a20 a21 a22 a23 b}
    (hs : SatK P a0 a1 a2 a3 a4 a5 a6 a7 a8 a9 a10 a11 a12 a13 a14 a15 a16 a17 a18 a19 a20 a21 a22 a23) :
    SatK P a0 a1 b a3 a4 a5 a6 a7 a8 a9 a10 a11 a12 a13 a14 a15 a16 a17 a18 a19 a20 a21 a22 a23 :=
  clo_one (s := State.mk a0 a1 a2 a3 a4 a5 a6 a7 a8 a9 a10 a11 a12 a13 a14 a15 a16 a17 a18 a19 a20 a21 a22 a23)
    (t := State.mk a0 a1 b a3 a4 a5 a6 a7 a8 a9 a10 a11 a12 a13 a14 a15 a16 a17 a18 a19 a20 a21 a22 a23) hK h
    (fun c e => by cases c <;> first | exact absurd rfl e | rfl) id hs

theorem clo_cs {K : Nat} (hK : Clo K P)
    (h : K.testBit 3 = true) {a0 a1 a2 a3 a4 a5 a6 a7 a8 a9 a10 a11 a12 a13 a14 a15 a16 a17 a18 a19 a20 a21 a22 a23 b}
    (hs : SatK P a0 a1 a2 a3 a4 a5 a6 a7 a8 a9 a10 a11 a12 a13 a14 a15 a16 a17 a18 a19 a20 a21 a22 a23) :
    SatK P a0 a1 a2 b a4 a5 a6 a7 a8 a9 a10 a11 a12 a13 a14 a15 a16 a17 a18 a19 a20 a21 a22 a23 :=
  clo_one (s := State.mk a0 a1 a2 a3 a4 a5 a6 a7 a8 a9 a10 a11 a12 a13 a14 a15 a16 a17 a18 a19 a20 a21 a22 a23)
    (t := State.mk a0 a1 a2 b a4 a5 a6 a7 a8 a9 a10 a11 a12 a13 a14 a15 a16 a17 a18 a19 a20 a21 a22 a23) hK h
    (fun c e => by cases c <;> first | exact absurd rfl e | rfl) id hs

theorem clo_out {K : Nat} (hK : Clo K P)
    (h : K.testBit 4 = true) {a0 a1 a2 a3 a4 a5 a6 a7 a8 a9 a10 a11 a12 a13 a14 a15 a16 a17 a18 a19 a20 a21 a22 a23 b}
    (hs : SatK P a0 a1 a2 a3 a4 a5 a6 a7 a8 a9 a10 a11 a12 a13 a14 a15 a16 a17 a18 a19 a20 a21 a22 a23) :
    SatK P a0 a1 a2 a3 b a5 a6 a7 a8 a9 a10 a11 a12 a13 a14 a15 a16 a17 a18 a19 a20 a21 a22 a23 :=
  clo_one (s := State.mk a0 a1 a2 a3 a4 a5 a6 a7 a8 a9 a10 a11 a12 a13 a14 a15 a16 a17 a18 a19 a20 a21 a22 a23)
    (t := State.mk a0 a1 a2 a3 b a5 a6 a7 a8 a9 a10 a11 a12 a13 a14 a15 a16 a17 a18 a19 a20 a21 a22 a23) hK h
    (fun c e => by cases c <;> first | exact absurd rfl e | rfl) id hs

theorem clo_boot {K : Nat} (hK : Clo K P)
    (h : K.testBit 5 = true) {a0 a1 a2 a3 a4 a5 a6 a7 a8 a9 a10 a11 a12 a13 a14 a15 a16 a17 a18 a19 a20 a21 a22 a23 b}
    (hs : SatK P a0 a1 a2 a3 a4 a5 a6 a7 a8 a9 a10 a11 a12 a13 a14 a15 a16 a17 a18 a19 a20 a21 a22 a23) :
    SatK P a0 a1 a2 a3 a4 b a6 a7 a8 a9 a10 a11 a12 a13 a14 a15 a16 a17 a18 a19 a20 a21 a22 a23 :=
  clo_one (s := State.mk a0 a1 a2 a3 a4 a5 a6 a7 a8 a9 a10 a11 a12 a13 a14 a15 a16 a17 a18 a19 a20 a21 a22 a23)
    (t := State.mk a0 a1 a2 a3 a4 b a6 a7 a8 a9 a10 a11 a12 a13 a14 a15 a16 a17 a18 a19 a20 a21 a22 a23) hK h
    (fun c e => by cases c <;> first | exact absurd rfl e | rfl) id hs

theorem clo_lands {K : Nat} (hK : Clo K P)
    (h : K.testBit 6 = true) {a0 a1 a2 a3 a4 a5 a6 a7 a8 a9 a10 a11 a12 a13 a14 a15 a16 a17 a18 a19 a20 a21 a22 a23 b}
    (hs : SatK P a0 a1 a2 a3 a4 a5 a6 a7 a8 a9 a10 a11 a12 a13 a14 a15 a16 a17 a18 a19 a20 a21 a22 a23) :
    SatK P a0 a1 a2 a3 a4 a5 b a7 a8 a9 a10 a11 a12 a13 a14 a15 a16 a17 a18 a19 a20 a21 a22 a23 :=
  clo_one (s := State.mk a0 a1 a2 a3 a4 a5 a6 a7 a8 a9 a10 a11 a12 a13 a14 a15 a16 a17 a18 a19 a20 a21 a22 a23)
    (t := State.mk a0 a1 a2 a3 a4 a5 b a7 a8 a9 a10 a11 a12 a13 a14 a15 a16 a17 a18 a19 a20 a21 a22 a23) hK h
    (fun c e => by cases c <;> first | exact absurd rfl e | rfl) id hs

theorem clo_tele {K : Nat} (hK : Clo K P)
    (h : K.testBit 7 = true) {a0 a1 a2 a3 a4 a5 a6 a7 a8 a9 a10 a11 a12 a13 a14 a15 a16 a17 a18 a19 a20 a21 a22 a23 b}
    (hs : SatK P a0 a1 a2 a3 a4 a5 a6 a7 a8 a9 a10 a11 a12 a13 a14 a15 a16 a17 a18 a19 a20 a21 a22 a23) :
    SatK P a0 a1 a2 a3 a4 a5 a6 b a8 a9 a10 a11 a12 a13 a14 a15 a16 a17 a18 a19 a20 a21 a22 a23 :=
  clo_one (s := State.mk a0 a1 a2 a3 a4 a5 a6 a7 a8 a9 a10 a11 a12 a13 a14 a15 a16 a17 a18 a19 a20 a21 a22 a23)
    (t := State.mk a0 a1 a2 a3 a4 a5 a6 b a8 a9 a10 a11 a12 a13 a14 a15 a16 a17 a18 a19 a20 a21 a22 a23) hK h
    (fun c e => by cases c <;> first | exact absurd rfl e | rfl) id hs

theorem clo_parts {K : Nat} (hK : Clo K P)
    (h : K.testBit 8 = true) {a0 a1 a2 a3 a4 a5 a6 a7 a8 a9 a10 a11 a12 a13 a14 a15 a16 a17 a18 a19 a20 a21 a22 a23 b}
    (hs : SatK P a0 a1 a2 a3 a4 a5 a6 a7 a8 a9 a10 a11 a12 a13 a14 a15 a16 a17 a18 a19 a20 a21 a22 a23) :
    SatK P a0 a1 a2 a3 a4 a5 a6 a7 b a9 a10 a11 a12 a13 a14 a15 a16 a17 a18 a19 a20 a21 a22 a23 :=
  clo_one (s := State.mk a0 a1 a2 a3 a4 a5 a6 a7 a8 a9 a10 a11 a12 a13 a14 a15 a16 a17 a18 a19 a20 a21 a22 a23)
    (t := State.mk a0 a1 a2 a3 a4 a5 a6 a7 b a9 a10 a11 a12 a13 a14 a15 a16 a17 a18 a19 a20 a21 a22 a23) hK h
    (fun c e => by cases c <;> first | exact absurd rfl e | rfl) id hs

theorem clo_tiles {K : Nat} (hK : Clo K P)
    (h : K.testBit 9 = true) {a0 a1 a2 a3 a4 a5 a6 a7 a8 a9 a10 a11 a12 a13 a14 a15 a16 a17 a18 a19 a20 a21 a22 a23 b}
    (hs : SatK P a0 a1 a2 a3 a4 a5 a6 a7 a8 a9 a10 a11 a12 a13 a14 a15 a16 a17 a18 a19 a20 a21 a22 a23) :
    SatK P a0 a1 a2 a3 a4 a5 a6 a7 a8 b a10 a11 a12 a13 a14 a15 a16 a17 a18 a19 a20 a21 a22 a23 :=
  clo_one (s := State.mk a0 a1 a2 a3 a4 a5 a6 a7 a8 a9 a10 a11 a12 a13 a14 a15 a16 a17 a18 a19 a20 a21 a22 a23)
    (t := State.mk a0 a1 a2 a3 a4 a5 a6 a7 a8 b a10 a11 a12 a13 a14 a15 a16 a17 a18 a19 a20 a21 a22 a23) hK h
    (fun c e => by cases c <;> first | exact absurd rfl e | rfl) id hs

theorem clo_ves {K : Nat} (hK : Clo K P)
    (h : K.testBit 10 = true) {a0 a1 a2 a3 a4 a5 a6 a7 a8 a9 a10 a11 a12 a13 a14 a15 a16 a17 a18 a19 a20 a21 a22 a23 b}
    (hs : SatK P a0 a1 a2 a3 a4 a5 a6 a7 a8 a9 a10 a11 a12 a13 a14 a15 a16 a17 a18 a19 a20 a21 a22 a23) :
    SatK P a0 a1 a2 a3 a4 a5 a6 a7 a8 a9 b a11 a12 a13 a14 a15 a16 a17 a18 a19 a20 a21 a22 a23 :=
  clo_one (s := State.mk a0 a1 a2 a3 a4 a5 a6 a7 a8 a9 a10 a11 a12 a13 a14 a15 a16 a17 a18 a19 a20 a21 a22 a23)
    (t := State.mk a0 a1 a2 a3 a4 a5 a6 a7 a8 a9 b a11 a12 a13 a14 a15 a16 a17 a18 a19 a20 a21 a22 a23) hK h
    (fun c e => by cases c <;> first | exact absurd rfl e | rfl) id hs

theorem clo_codebook {K : Nat} (hK : Clo K P)
    (h : K.testBit 11 = true) {a0 a1 a2 a3 a4 a5 a6 a7 a8 a9 a10 a11 a12 a13 a14 a15 a16 a17 a18 a19 a20 a21 a22 a23 b}
    (hs : SatK P a0 a1 a2 a3 a4 a5 a6 a7 a8 a9 a10 a11 a12 a13 a14 a15 a16 a17 a18 a19 a20 a21 a22 a23) :
    SatK P a0 a1 a2 a3 a4 a5 a6 a7 a8 a9 a10 b a12 a13 a14 a15 a16 a17 a18 a19 a20 a21 a22 a23 :=
  clo_one (s := State.mk a0 a1 a2 a3 a4 a5 a6 a7 a8 a9 a10 a11 a12 a13 a14 a15 a16 a17 a18 a19 a20 a21 a22 a23)
    (t := State.mk a0 a1 a2 a3 a4 a5 a6 a7 a8 a9 a10 b a12 a13 a14 a15 a16 a17 a18 a19 a20 a21 a22 a23) hK h
    (fun c e => by cases c <;> first | exact absurd rfl e | rfl) id hs

theorem clo_veNet {K : Nat} (hK : Clo K P)
    (h : K.testBit 12 = true) {a0 a1 a2 a3 a4 a5 a6 a7 a8 a9 a10 a11 a12 a13 a14 a15 a16 a17 a18 a19 a20 a21 a22 a23 b}
    (hs : SatK P a0 a1 a2 a3 a4 a5 a6 a7 a8 a9 a10 a11 a12 a13 a14 a15 a16 a17 a18 a19 a20 a21 a22 a23) :
    SatK P a0 a1 a2 a3 a4 a5 a6 a7 a8 a9 a10 a11 b a13 a14 a15 a16 a17 a18 a19 a20 a21 a22 a23 :=
  clo_one (s := State.mk a0 a1 a2 a3 a4 a5 a6 a7 a8 a9 a10 a11 a12 a13 a14 a15 a16 a17 a18 a19 a20 a21 a22 a23)
    (t := State.mk a0 a1 a2 a3 a4 a5 a6 a7 a8 a9 a10 a11 b a13 a14 a15 a16 a17 a18 a19 a20 a21 a22 a23) hK h
    (fun c e => by cases c <;> first | exact absurd rfl e | rfl) id hs

theorem clo_injectOut {K : Nat} (hK : Clo K P)
    (h : K.testBit 13 = true) {a0 a1 a2 a3 a4 a5 a6 a7 a8 a9 a10 a11 a12 a13 a14 a15 a16 a17 a18 a19 a20 a21 a22 a23 b}
    (hs : SatK P a0 a1 a2 a3 a4 a5 a6 a7 a8 a9 a10 a11 a12 a13 a14 a15 a16 a17 a18 a19 a20 a21 a22 a23) :
    SatK P a0 a1 a2 a3 a4 a5 a6 a7 a8 a9 a10 a11 a12 b a14 a15 a16 a17 a18 a19 a20 a21 a22 a23 :=
  clo_one (s := State.mk a0 a1 a2 a3 a4 a5 a6 a7 a8 a9 a10 a11 a12 a13 a14 a15 a16 a17 a18 a19 a20 a21 a22 a23)
    (t := State.mk a0 a1 a2 a3 a4 a5 a6 a7 a8 a9 a10 a11 a12 b a14 a15 a16 a17 a18 a19 a20 a21 a22 a23) hK h
    (fun c e => by cases c <;> first | exact absurd rfl e | rfl) id hs

theorem clo_drawers {K : Nat} (hK : Clo K P)
    (h : K.testBit 14 = true) {a0 a1 a2 a3 a4 a5 a6 a7 a8 a9 a10 a11 a12 a13 a14 a15 a16 a17 a18 a19 a20 a21 a22 a23 b}
    (hs : SatK P a0 a1 a2 a3 a4 a5 a6 a7 a8 a9 a10 a11 a12 a13 a14 a15 a16 a17 a18 a19 a20 a21 a22 a23) :
    SatK P a0 a1 a2 a3 a4 a5 a6 a7 a8 a9 a10 a11 a12 a13 b a15 a16 a17 a18 a19 a20 a21 a22 a23 :=
  clo_one (s := State.mk a0 a1 a2 a3 a4 a5 a6 a7 a8 a9 a10 a11 a12 a13 a14 a15 a16 a17 a18 a19 a20 a21 a22 a23)
    (t := State.mk a0 a1 a2 a3 a4 a5 a6 a7 a8 a9 a10 a11 a12 a13 b a15 a16 a17 a18 a19 a20 a21 a22 a23) hK h
    (fun c e => by cases c <;> first | exact absurd rfl e | rfl) id hs

theorem clo_regions {K : Nat} (hK : Clo K P)
    (h : K.testBit 15 = true) {a0 a1 a2 a3 a4 a5 a6 a7 a8 a9 a10 a11 a12 a13 a14 a15 a16 a17 a18 a19 a20 a21 a22 a23 b}
    (hs : SatK P a0 a1 a2 a3 a4 a5 a6 a7 a8 a9 a10 a11 a12 a13 a14 a15 a16 a17 a18 a19 a20 a21 a22 a23) :
    SatK P a0 a1 a2 a3 a4 a5 a6 a7 a8 a9 a10 a11 a12 a13 a14 b a16 a17 a18 a19 a20 a21 a22 a23 :=
  clo_one (s := State.mk a0 a1 a2 a3 a4 a5 a6 a7 a8 a9 a10 a11 a12 a13 a14 a15 a16 a17 a18 a19 a20 a21 a22 a23)
    (t := State.mk a0 a1 a2 a3 a4 a5 a6 a7 a8 a9 a10 a11 a12 a13 a14 b a16 a17 a18 a19 a20 a21 a22 a23) hK h
    (fun c e => by cases c <;> first | exact absurd rfl e | rfl) id hs

theorem clo_mem {K : Nat} (hK : Clo K P)
    (h : K.testBit 16 = true) {a0 a1 a2 a3 a4 a5 a6 a7 a8 a9 a10 a11 a12 a13 a14 a15 a16 a17 a18 a19 a20 a21 a22 a23 b} (hw : a16.wf = true →
    b.wf = true)
    (hs : SatK P a0 a1 a2 a3 a4 a5 a6 a7 a8 a9 a10 a11 a12 a13 a14 a15 a16 a17 a18 a19 a20 a21 a22 a23) :
    SatK P a0 a1 a2 a3 a4 a5 a6 a7 a8 a9 a10 a11 a12 a13 a14 a15 b a17 a18 a19 a20 a21 a22 a23 :=
  clo_one (s := State.mk a0 a1 a2 a3 a4 a5 a6 a7 a8 a9 a10 a11 a12 a13 a14 a15 a16 a17 a18 a19 a20 a21 a22 a23)
    (t := State.mk a0 a1 a2 a3 a4 a5 a6 a7 a8 a9 a10 a11 a12 a13 a14 a15 b a17 a18 a19 a20 a21 a22 a23) hK h
    (fun c e => by cases c <;> first | exact absurd rfl e | rfl) hw hs

theorem clo_tiers {K : Nat} (hK : Clo K P)
    (h : K.testBit 17 = true) {a0 a1 a2 a3 a4 a5 a6 a7 a8 a9 a10 a11 a12 a13 a14 a15 a16 a17 a18 a19 a20 a21 a22 a23 b}
    (hs : SatK P a0 a1 a2 a3 a4 a5 a6 a7 a8 a9 a10 a11 a12 a13 a14 a15 a16 a17 a18 a19 a20 a21 a22 a23) :
    SatK P a0 a1 a2 a3 a4 a5 a6 a7 a8 a9 a10 a11 a12 a13 a14 a15 a16 b a18 a19 a20 a21 a22 a23 :=
  clo_one (s := State.mk a0 a1 a2 a3 a4 a5 a6 a7 a8 a9 a10 a11 a12 a13 a14 a15 a16 a17 a18 a19 a20 a21 a22 a23)
    (t := State.mk a0 a1 a2 a3 a4 a5 a6 a7 a8 a9 a10 a11 a12 a13 a14 a15 a16 b a18 a19 a20 a21 a22 a23) hK h
    (fun c e => by cases c <;> first | exact absurd rfl e | rfl) id hs

theorem clo_fabric {K : Nat} (hK : Clo K P)
    (h : K.testBit 18 = true) {a0 a1 a2 a3 a4 a5 a6 a7 a8 a9 a10 a11 a12 a13 a14 a15 a16 a17 a18 a19 a20 a21 a22 a23 b}
    (hs : SatK P a0 a1 a2 a3 a4 a5 a6 a7 a8 a9 a10 a11 a12 a13 a14 a15 a16 a17 a18 a19 a20 a21 a22 a23) :
    SatK P a0 a1 a2 a3 a4 a5 a6 a7 a8 a9 a10 a11 a12 a13 a14 a15 a16 a17 b a19 a20 a21 a22 a23 :=
  clo_one (s := State.mk a0 a1 a2 a3 a4 a5 a6 a7 a8 a9 a10 a11 a12 a13 a14 a15 a16 a17 a18 a19 a20 a21 a22 a23)
    (t := State.mk a0 a1 a2 a3 a4 a5 a6 a7 a8 a9 a10 a11 a12 a13 a14 a15 a16 a17 b a19 a20 a21 a22 a23) hK h
    (fun c e => by cases c <;> first | exact absurd rfl e | rfl) id hs

theorem clo_mgmtA {K : Nat} (hK : Clo K P)
    (h : K.testBit 19 = true) {a0 a1 a2 a3 a4 a5 a6 a7 a8 a9 a10 a11 a12 a13 a14 a15 a16 a17 a18 a19 a20 a21 a22 a23 b}
    (hs : SatK P a0 a1 a2 a3 a4 a5 a6 a7 a8 a9 a10 a11 a12 a13 a14 a15 a16 a17 a18 a19 a20 a21 a22 a23) :
    SatK P a0 a1 a2 a3 a4 a5 a6 a7 a8 a9 a10 a11 a12 a13 a14 a15 a16 a17 a18 b a20 a21 a22 a23 :=
  clo_one (s := State.mk a0 a1 a2 a3 a4 a5 a6 a7 a8 a9 a10 a11 a12 a13 a14 a15 a16 a17 a18 a19 a20 a21 a22 a23)
    (t := State.mk a0 a1 a2 a3 a4 a5 a6 a7 a8 a9 a10 a11 a12 a13 a14 a15 a16 a17 a18 b a20 a21 a22 a23) hK h
    (fun c e => by cases c <;> first | exact absurd rfl e | rfl) id hs

theorem clo_mgmtB {K : Nat} (hK : Clo K P)
    (h : K.testBit 20 = true) {a0 a1 a2 a3 a4 a5 a6 a7 a8 a9 a10 a11 a12 a13 a14 a15 a16 a17 a18 a19 a20 a21 a22 a23 b}
    (hs : SatK P a0 a1 a2 a3 a4 a5 a6 a7 a8 a9 a10 a11 a12 a13 a14 a15 a16 a17 a18 a19 a20 a21 a22 a23) :
    SatK P a0 a1 a2 a3 a4 a5 a6 a7 a8 a9 a10 a11 a12 a13 a14 a15 a16 a17 a18 a19 b a21 a22 a23 :=
  clo_one (s := State.mk a0 a1 a2 a3 a4 a5 a6 a7 a8 a9 a10 a11 a12 a13 a14 a15 a16 a17 a18 a19 a20 a21 a22 a23)
    (t := State.mk a0 a1 a2 a3 a4 a5 a6 a7 a8 a9 a10 a11 a12 a13 a14 a15 a16 a17 a18 a19 b a21 a22 a23) hK h
    (fun c e => by cases c <;> first | exact absurd rfl e | rfl) id hs

theorem clo_safety {K : Nat} (hK : Clo K P)
    (h : K.testBit 21 = true) {a0 a1 a2 a3 a4 a5 a6 a7 a8 a9 a10 a11 a12 a13 a14 a15 a16 a17 a18 a19 a20 a21 a22 a23 b}
    (hs : SatK P a0 a1 a2 a3 a4 a5 a6 a7 a8 a9 a10 a11 a12 a13 a14 a15 a16 a17 a18 a19 a20 a21 a22 a23) :
    SatK P a0 a1 a2 a3 a4 a5 a6 a7 a8 a9 a10 a11 a12 a13 a14 a15 a16 a17 a18 a19 a20 b a22 a23 :=
  clo_one (s := State.mk a0 a1 a2 a3 a4 a5 a6 a7 a8 a9 a10 a11 a12 a13 a14 a15 a16 a17 a18 a19 a20 a21 a22 a23)
    (t := State.mk a0 a1 a2 a3 a4 a5 a6 a7 a8 a9 a10 a11 a12 a13 a14 a15 a16 a17 a18 a19 a20 b a22 a23) hK h
    (fun c e => by cases c <;> first | exact absurd rfl e | rfl) id hs

theorem clo_pair {K : Nat} (hK : Clo K P)
    (h : K.testBit 22 = true) {a0 a1 a2 a3 a4 a5 a6 a7 a8 a9 a10 a11 a12 a13 a14 a15 a16 a17 a18 a19 a20 a21 a22 a23 b}
    (hs : SatK P a0 a1 a2 a3 a4 a5 a6 a7 a8 a9 a10 a11 a12 a13 a14 a15 a16 a17 a18 a19 a20 a21 a22 a23) :
    SatK P a0 a1 a2 a3 a4 a5 a6 a7 a8 a9 a10 a11 a12 a13 a14 a15 a16 a17 a18 a19 a20 a21 b a23 :=
  clo_one (s := State.mk a0 a1 a2 a3 a4 a5 a6 a7 a8 a9 a10 a11 a12 a13 a14 a15 a16 a17 a18 a19 a20 a21 a22 a23)
    (t := State.mk a0 a1 a2 a3 a4 a5 a6 a7 a8 a9 a10 a11 a12 a13 a14 a15 a16 a17 a18 a19 a20 a21 b a23) hK h
    (fun c e => by cases c <;> first | exact absurd rfl e | rfl) id hs

theorem clo_power {K : Nat} (hK : Clo K P)
    (h : K.testBit 23 = true) {a0 a1 a2 a3 a4 a5 a6 a7 a8 a9 a10 a11 a12 a13 a14 a15 a16 a17 a18 a19 a20 a21 a22 a23 b}
    (hs : SatK P a0 a1 a2 a3 a4 a5 a6 a7 a8 a9 a10 a11 a12 a13 a14 a15 a16 a17 a18 a19 a20 a21 a22 a23) :
    SatK P a0 a1 a2 a3 a4 a5 a6 a7 a8 a9 a10 a11 a12 a13 a14 a15 a16 a17 a18 a19 a20 a21 a22 b :=
  clo_one (s := State.mk a0 a1 a2 a3 a4 a5 a6 a7 a8 a9 a10 a11 a12 a13 a14 a15 a16 a17 a18 a19 a20 a21 a22 a23)
    (t := State.mk a0 a1 a2 a3 a4 a5 a6 a7 a8 a9 a10 a11 a12 a13 a14 a15 a16 a17 a18 a19 a20 a21 a22 b) hK h
    (fun c e => by cases c <;> first | exact absurd rfl e | rfl) id hs

theorem Sat_mk (a0 a1 a2 a3 a4 a5 a6 a7 a8 a9 a10 a11 a12 a13 a14 a15 a16 a17 a18 a19 a20 a21 a22 a23) :
    Sat P (State.mk a0 a1 a2 a3 a4 a5 a6 a7 a8 a9 a10 a11 a12 a13 a14 a15 a16 a17 a18 a19 a20 a21 a22 a23) = SatK P a0 a1 a2 a3 a4 a5 a6 a7 a8 a9 a10 a11 a12 a13 a14 a15 a16 a17 a18 a19 a20 a21 a22 a23 := rfl

theorem Sat_fold {s : State} (h : Sat P s) :
    SatK P s.pending s.draw s.time s.cs s.out s.boot s.lands s.tele s.parts s.tiles s.ves s.codebook s.veNet s.injectOut s.drawers s.regions s.mem s.tiers s.fabric s.mgmtA s.mgmtB s.safety s.pair s.power := h

theorem SatE_error (t) : SatE P (.error t) = Sat P t := rfl

theorem SatE_none : SatE P (.ok none) = True := rfl

theorem SatE_some (t) : SatE P (.ok (some t)) = Sat P t := rfl

theorem SatO_none : SatO P none = True := rfl

theorem SatO_some (t) : SatO P (some t) = Sat P t := rfl

theorem SatN_next (t) : SatN P (.next t) = Sat P t := rfl

theorem Sat_foldl {α : Type} {g : State → α → State} {s : State} (h : ∀ s x, Sat P s → Sat P (g s x)) (hs : Sat P s)
    (xs : List α) : Sat P (xs.foldl g s) := by
  induction xs generalizing s with
  | nil => exact hs
  | cons x xs ih => exact ih (h s x hs)

theorem Sat_foldr {α : Type} {g : α → State → State} {s : State} (h : ∀ s x, Sat P s → Sat P (g x s)) (hs : Sat P s)
    (xs : List α) : Sat P (xs.foldr g s) := by
  induction xs with
  | nil => exact hs
  | cons x xs ih => exact h _ _ ih

theorem Sat_elim {α : Type} {a : State} {g : α → State} (ha : Sat P a) (h : ∀ x, Sat P (g x)) (o : Option α) :
    Sat P (o.elim a g) := by cases o <;> simp [ha, h]

theorem Sat_foldl2 {α β : Type} {g : β × State → α → β × State} {s : β × State} (h : ∀ s x, Sat P s.2 →
    Sat P (g s x).2) (hs : Sat P s.2)
    (xs : List α) : Sat P (xs.foldl g s).2 := by
  induction xs generalizing s with
  | nil => exact hs
  | cons x xs ih => exact ih (h s x hs)
/-- `P` holds of the state of the pair answered, if any. -/
def SatO2 {α : Type} (P : State → Prop) (r : Option (α × State)) : Prop := ∀ t, r = some t → Sat P t.2

theorem some2_sat {α : Type} {r : Option (α × State)} {a : α} {t : State} (e : r = some (a, t)) (h : SatO2 P r) :
    Sat P t := h _ e

theorem SatO2_none {α : Type} : SatO2 P (none : Option (α × State)) := fun _ h => by cases h

theorem SatO2_some {α : Type} {a : α × State} (h : Sat P a.2) : SatO2 P (some a) := fun _ e => by cases e; exact h

theorem SatO2_map {α β : Type} {r : Option β} {f : β → α × State} (h : ∀ x, r = some x → Sat P (f x).2) :
    SatO2 P (r.map f) := by
  intro t e; rw [Option.map_eq_some_iff] at e; obtain ⟨u, hu, rfl⟩ := e; exact h u hu

theorem SatO_map2 {β : Type} {r : Option (β × State)} {f : β × State → State} (hr : SatO2 P r) (h : ∀ x, Sat P x.2 →
    Sat P (f x)) :
    SatO P (r.map f) := by
  cases r with
  | none => trivial
  | some x => exact h _ (hr _ rfl)

theorem SatO_map {r : Option State} {f : State → State} (hr : SatO P r) (h : ∀ x, Sat P x → Sat P (f x)) :
    SatO P (r.map f) := by
  cases r with
  | none => trivial
  | some x => exact h _ hr

theorem SatO2_mapO {β : Type} {r : Option State} {f : State → β × State} (hr : SatO P r) (h : ∀ x, Sat P x →
    Sat P (f x).2) :
    SatO2 P (r.map f) := by
  cases r with
  | none => exact SatO2_none
  | some x => exact SatO2_some (h _ hr)

theorem SatO2_map2 {α β : Type} {r : Option (α × State)} {f : α × State → β × State} (hr : SatO2 P r) (h : ∀ x,
    Sat P x.2 → Sat P (f x).2) :
    SatO2 P (r.map f) := by
  cases r with
  | none => exact SatO2_none
  | some x => exact SatO2_some (h _ (hr _ rfl))

theorem Sat_ite {c : Prop} [Decidable c] {a b : State} (ha : Sat P a) (hb : Sat P b) : Sat P (if c then a else b)
    := by
  by_cases h : c
  · rw [if_pos h]; exact ha
  · rw [if_neg h]; exact hb

theorem SatE_ite {c : Prop} [Decidable c] {a b} (ha : SatE P a) (hb : SatE P b) : SatE P (if c then a else b) := by
  by_cases h : c
  · rw [if_pos h]; exact ha
  · rw [if_neg h]; exact hb

theorem Sat2_ite {α : Type} {c : Prop} [Decidable c] {a b : α × State} (ha : Sat P a.2) (hb : Sat P b.2) :
    Sat P (if c then a else b).2 := by
  by_cases h : c
  · rw [if_pos h]; exact ha
  · rw [if_neg h]; exact hb

theorem Sat_getD {r : Option State} {a : State} (hr : SatO P r) (ha : Sat P a) : Sat P (r.getD a) := by
  cases r with
  | none => exact ha
  | some x => exact hr

theorem Sat_id {s : State} (h : Sat P s) : Sat P (id s) := h

theorem wf_nil : Memory.wf [] = true := rfl

theorem reset_wf : State.reset.mem.wf = true := by decide

theorem snd_sat {α : Type} {r : α × State} {a : α} {t : State} (e : r = (a, t)) (h : Sat P r.2) :
    Sat P t := by subst e; exact h

theorem snd2_sat {α β : Type} {r : α × β × State} {a : α} {b : β} {t : State} (e : r = (a, b, t)) (h : Sat P r.2.2)
    : Sat P t := by subst e; exact h

theorem some_sat {r : Option State} {t : State} (e : r = some t) (h : SatO P r) : Sat P t := by subst e; exact h

theorem some_ite {α : Type} {c : Prop} [Decidable c] {a b : Option α} {Q : α → Prop} (ha : ∀ t, a = some t → Q t)
    (hb : ∀ t, b = some t → Q t) : ∀ t, (if c then a else b) = some t → Q t := by
  intro t e
  split at e
  · exact ha t e
  · exact hb t e

theorem some_ans {a : Answer} (h : Sat P a.2.2.2) : ∀ t, some a = some t → Sat P t.2.2.2 := by
  intro t e
  cases e
  exact h

/-! ### From masks to components -/


def compMask : List Comp → Nat
  | [] => 0
  | c :: r => 2 ^ c.idx ||| compMask r

theorem Comp.idx_inj {c d : Comp} (h : c.idx = d.idx) : c = d := by
  cases c <;> cases d <;> first | rfl | exact absurd h (by decide)

theorem testBit_compMask {c : Comp} {fs : List Comp} (h : c ∉ fs) : (compMask fs).testBit c.idx = false := by
  induction fs with
  | nil => exact Nat.zero_testBit _
  | cons d r ih =>
    simp only [List.mem_cons, not_or] at h
    rw [compMask, Nat.testBit_or, ih h.2, Bool.or_false, Nat.testBit_two_pow]
    exact decide_eq_false fun e => h.1 (Comp.idx_inj e.symm)

/-- Agreement outside a mask is agreement outside the components it stands for. -/

theorem sameBut_of_agrees {K : Nat} {fs : List Comp} {s t : State} (hm : compMask fs = K) (h : Agrees K s t) :
    SameBut fs s t := by
  subst hm
  exact fun c e => h.1 c (testBit_compMask e)

theorem Comp.same_trans {c : Comp} {s t u : State} (h : c.same s t) (g : c.same t u) : c.same s u := by
  cases c <;> exact Eq.trans g h

theorem Agrees.refl (K : Nat) (s : State) : Agrees K s s :=
  ⟨fun c _ => by cases c <;> exact Eq.refl _, id⟩

theorem Agrees.trans {K : Nat} {s t u : State} (h : Agrees K s t) (g : Agrees K t u) : Agrees K s u :=
  ⟨fun c e => Comp.same_trans (h.1 c e) (g.1 c e), fun e => g.2 (h.2 e)⟩

/-- A row that keeps every property closed under changes of the components of `K` changes no other component. -/

theorem agrees_of_sat {K : Nat} {s t : State} {r : Host.Outcome State Fault Refusal}
    (h : ∀ P, Clo K P → Sat P s → SatN P r) (e : r = .next t) : Agrees K s t := by
  subst e
  exact h (Agrees K s) (fun _ _ g k => Agrees.trans k g) (Agrees.refl K s)

/-- As `agrees_of_sat`, for an operation. -/

theorem agrees_of_op {K : Nat} {s t : State} (h : ∀ P, Clo K P → Sat P s → Sat P t) : Agrees K s t :=
  h (Agrees K s) (fun _ _ g k => Agrees.trans k g) (Agrees.refl K s)

end Sys2Proof.Machine
end

