-- ==== Sys2Proof/Laws/FramesMemory.lean ====
section
/-! SUPPORT. What the shared operations and the rows keep: memory, moves, scans of the tiers and the sequencer (Laws/Frames.lean says how to read a lemma). -/

set_option linter.unusedSimpArgs false

open Sys2Proof

namespace Sys2Proof.Machine

variable {P : State → Prop}

/-! ### Ops -/

theorem setPart_sat (s : State) (p : Nat) (x : Part) (hK : Clo 0x100 P) (hs0 : Sat P s) : Sat P (setPart s p x) := by
  unfold setPart; (try dsimp only)
  repeat' (first | with_reducible assumption | ((with_reducible refine Clo.mono hK ?_); rfl)
                 | (simp only [Sat_mk]; refine clo_parts hK rfl (Sat_fold ?_)))

theorem modPart_sat (s : State) (p : Nat) (f : Part → Part) (hK : Clo 0x100 P) (hs0 : Sat P s) :
    Sat P (modPart s p f) := by
  unfold modPart; (try dsimp only)
  repeat' (first | with_reducible assumption | ((with_reducible refine Clo.mono hK ?_); rfl)
                 | with_reducible intro _ | with_reducible apply setPart_sat)

theorem setTile_sat (s : State) (t : Nat) (x : Tile) (hK : Clo 0x200 P) (hs0 : Sat P s) : Sat P (setTile s t x) := by
  unfold setTile; (try dsimp only)
  repeat' (first | with_reducible assumption | ((with_reducible refine Clo.mono hK ?_); rfl)
                 | (simp only [Sat_mk]; refine clo_tiles hK rfl (Sat_fold ?_)))

theorem modTile_sat (s : State) (t : Nat) (f : Tile → Tile) (hK : Clo 0x200 P) (hs0 : Sat P s) :
    Sat P (modTile s t f) := by
  unfold modTile; (try dsimp only)
  repeat' (first | with_reducible assumption | ((with_reducible refine Clo.mono hK ?_); rfl)
                 | with_reducible intro _ | with_reducible apply setTile_sat)

theorem setVe_sat (s : State) (b : Nat) (x : Ve) (hK : Clo 0x400 P) (hs0 : Sat P s) : Sat P (setVe s b x) := by
  unfold setVe; (try dsimp only)
  repeat' (first | with_reducible assumption | ((with_reducible refine Clo.mono hK ?_); rfl)
                 | (simp only [Sat_mk]; refine clo_ves hK rfl (Sat_fold ?_)))

theorem modVe_sat (s : State) (b : Nat) (f : Ve → Ve) (hK : Clo 0x400 P) (hs0 : Sat P s) : Sat P (modVe s b f) := by
  unfold modVe; (try dsimp only)
  repeat' (first | with_reducible assumption | ((with_reducible refine Clo.mono hK ?_); rfl)
                 | with_reducible intro _ | with_reducible apply setVe_sat)

theorem setLink_sat (s : State) (l : Nat) (x : Link) (hK : Clo 0x40000 P) (hs0 : Sat P s) : Sat P (setLink s l x)
    := by
  unfold setLink; (try dsimp only)
  repeat' (first | with_reducible assumption | ((with_reducible refine Clo.mono hK ?_); rfl)
                 | (simp only [Sat_mk]; refine clo_fabric hK rfl (Sat_fold ?_)))

theorem modLink_sat (s : State) (l : Nat) (f : Link → Link) (hK : Clo 0x40000 P) (hs0 : Sat P s) :
    Sat P (modLink s l f) := by
  unfold modLink; (try dsimp only)
  repeat' (first | with_reducible assumption | ((with_reducible refine Clo.mono hK ?_); rfl)
                 | with_reducible intro _ | with_reducible apply setLink_sat)

theorem setDrawer_sat (s : State) (i : Nat) (x : Drawer) (hK : Clo 0x4000 P) (hs0 : Sat P s) :
    Sat P (setDrawer s i x) := by
  unfold setDrawer; (try dsimp only)
  repeat' (first | with_reducible assumption | ((with_reducible refine Clo.mono hK ?_); rfl)
                 | (simp only [Sat_mk]; refine clo_drawers hK rfl (Sat_fold ?_)))

theorem setRegion_sat (s : State) (p i : Nat) (x : Region) (hK : Clo 0x8000 P) (hs0 : Sat P s) :
    Sat P (setRegion s p i x) := by
  unfold setRegion; (try dsimp only)
  repeat' (first | with_reducible assumption | ((with_reducible refine Clo.mono hK ?_); rfl)
                 | (simp only [Sat_mk]; refine clo_regions hK rfl (Sat_fold ?_)))

theorem setHt_sat (s : State) (g : Nat) (e : HtEntry) (hK : Clo 0x20000 P) (hs0 : Sat P s) : Sat P (setHt s g e) := by
  unfold setHt; (try dsimp only)
  repeat' (first | with_reducible assumption | ((with_reducible refine Clo.mono hK ?_); rfl)
                 | (simp only [Sat_mk]; refine clo_tiers hK rfl (Sat_fold ?_)))

theorem setFrame_sat (s : State) (t f : Nat) (x : FrameState) (hK : Clo 0x20000 P) (hs0 : Sat P s) :
    Sat P (setFrame s t f x) := by
  unfold setFrame; (try dsimp only)
  repeat' (first | with_reducible assumption | ((with_reducible refine Clo.mono hK ?_); rfl)
                 | (simp only [Sat_mk]; refine clo_tiers hK rfl (Sat_fold ?_)))

theorem modTiers_sat (s : State) (f : Tiers → Tiers) (hK : Clo 0x20000 P) (hs0 : Sat P s) : Sat P (modTiers s f) := by
  unfold modTiers; (try dsimp only)
  repeat' (first | with_reducible assumption | ((with_reducible refine Clo.mono hK ?_); rfl)
                 | with_reducible intro _ | (simp only [Sat_mk]; refine clo_tiers hK rfl (Sat_fold ?_)))

theorem modFabric_sat (s : State) (f : Fabric → Fabric) (hK : Clo 0x40000 P) (hs0 : Sat P s) : Sat P (modFabric s f)
    := by
  unfold modFabric; (try dsimp only)
  repeat' (first | with_reducible assumption | ((with_reducible refine Clo.mono hK ?_); rfl)
                 | with_reducible intro _ | (simp only [Sat_mk]; refine clo_fabric hK rfl (Sat_fold ?_)))

theorem modPower_sat (s : State) (f : Power → Power) (hK : Clo 0x800000 P) (hs0 : Sat P s) : Sat P (modPower s f)
    := by
  unfold modPower; (try dsimp only)
  repeat' (first | with_reducible assumption | ((with_reducible refine Clo.mono hK ?_); rfl)
                 | with_reducible intro _ | (simp only [Sat_mk]; refine clo_power hK rfl (Sat_fold ?_)))

theorem modSafety_sat (s : State) (f : Safety → Safety) (hK : Clo 0x200000 P) (hs0 : Sat P s) :
    Sat P (modSafety s f) := by
  unfold modSafety; (try dsimp only)
  repeat' (first | with_reducible assumption | ((with_reducible refine Clo.mono hK ?_); rfl)
                 | with_reducible intro _ | (simp only [Sat_mk]; refine clo_safety hK rfl (Sat_fold ?_)))

theorem modPair_sat (s : State) (f : Pair → Pair) (hK : Clo 0x400000 P) (hs0 : Sat P s) : Sat P (modPair s f) := by
  unfold modPair; (try dsimp only)
  repeat' (first | with_reducible assumption | ((with_reducible refine Clo.mono hK ?_); rfl)
                 | with_reducible intro _ | (simp only [Sat_mk]; refine clo_pair hK rfl (Sat_fold ?_)))

theorem modBoot_sat (s : State) (f : Boot → Boot) (hK : Clo 0x20 P) (hs0 : Sat P s) : Sat P (modBoot s f) := by
  unfold modBoot; (try dsimp only)
  repeat' (first | with_reducible assumption | ((with_reducible refine Clo.mono hK ?_); rfl)
                 | with_reducible intro _ | (simp only [Sat_mk]; refine clo_boot hK rfl (Sat_fold ?_)))

theorem modLands_sat (s : State) (f : Lands → Lands) (hK : Clo 0x40 P) (hs0 : Sat P s) : Sat P (modLands s f) := by
  unfold modLands; (try dsimp only)
  repeat' (first | with_reducible assumption | ((with_reducible refine Clo.mono hK ?_); rfl)
                 | with_reducible intro _ | (simp only [Sat_mk]; refine clo_lands hK rfl (Sat_fold ?_)))

theorem modCs_sat (s : State) (f : Seqr → Seqr) (hK : Clo 0x8 P) (hs0 : Sat P s) : Sat P (modCs s f) := by
  unfold modCs; (try dsimp only)
  repeat' (first | with_reducible assumption | ((with_reducible refine Clo.mono hK ?_); rfl)
                 | with_reducible intro _ | (simp only [Sat_mk]; refine clo_cs hK rfl (Sat_fold ?_)))

theorem setSlot_sat (s : State) (t k : Nat) (x : Slot) (hK : Clo 0x20000 P) (hs0 : Sat P s) :
    Sat P (setSlot s t k x) := by
  unfold setSlot; (try dsimp only)
  repeat' (first | with_reducible assumption | ((with_reducible refine Clo.mono hK ?_); rfl)
                 | with_reducible intro _ | with_reducible apply modTiers_sat)

theorem setTierMem_sat (s : State) (t : Nat) (m : Memory) (hm : s.mem.wf = true → m.wf = true) (hK : Clo 0x10000 P)
    (hs0 : Sat P s) : Sat P (setTierMem s t m) := by
  unfold setTierMem
  repeat' split
  all_goals
    simp only [Sat_mk]
    refine clo_mem hK rfl ?_ (Sat_fold hs0)
    intro h; have := hm h
    simp only [Mems.wf, Bool.and_eq_true] at h ⊢
    simp_all

theorem onWf_sat {i : Instr} {s : State} {f : State → State} (hf : Sat P s → Sat P (f s)) (hs : Sat P s) :
    SatN P (onWf i s f) := by
  unfold onWf; simp only [SatN_next]; split
  · exact hf hs
  · exact hs

theorem send_sat (s : State) (m : Nat) (k : Packet) (hK : Clo 0x10 P) (hs0 : Sat P s) : Sat P (send s m k) := by
  unfold send; (try dsimp only)
  repeat' (first | with_reducible assumption | ((with_reducible refine Clo.mono hK ?_); rfl)
                 | with_reducible intro _ | with_reducible apply Sat_ite | split
                 | (simp only [Sat_mk]; refine clo_out hK rfl (Sat_fold ?_)) | with_reducible apply SatO_map
                 | with_reducible apply SatO_map2 | with_reducible apply SatO2_mapO
                 | with_reducible apply SatO2_map2)

theorem eventTo_sat (code : Nat) (body : List Byte) (s : State) (m : Nat) (hK : Clo 0x18 P) (hs0 : Sat P s) :
    Sat P (eventTo code body s m) := by
  unfold eventTo; (try dsimp only)
  repeat' (first | with_reducible assumption | ((with_reducible refine Clo.mono hK ?_); rfl)
                 | with_reducible intro _ | with_reducible apply modCs_sat | with_reducible apply send_sat
                 | (refine snd_sat (by with_reducible assumption) ?_)
                 | (refine some_sat (by with_reducible assumption) ?_)
                 | (refine some2_sat (by with_reducible assumption) ?_) | dsimp only)

theorem event_sat (s : State) (ms : List Nat) (code : Nat) (body : List Byte) (hK : Clo 0x18 P) (hs0 : Sat P s) :
    Sat P (event s ms code body) := by
  unfold event; (try dsimp only)
  repeat' (first | with_reducible assumption | ((with_reducible refine Clo.mono hK ?_); rfl)
                 | with_reducible apply Sat_foldl | with_reducible intro _ | with_reducible apply eventTo_sat)

theorem interim_sat (s : State) (c : Cmd) (status detail : Nat) (hK : Clo 0x10 P) (hs0 : Sat P s) :
    Sat P (interim s c status detail) := by
  unfold interim; (try dsimp only)
  repeat' (first | with_reducible assumption | ((with_reducible refine Clo.mono hK ?_); rfl)
                 | with_reducible apply send_sat | with_reducible apply Sat_ite | split)

theorem unrun_sat (s : State) (c : Cmd) (hK : Clo 0x8 P) (hs0 : Sat P s) : Sat P (unrun s c) := by
  unfold unrun; (try dsimp only)
  repeat' (first | with_reducible assumption | ((with_reducible refine Clo.mono hK ?_); rfl)
                 | with_reducible intro _ | with_reducible apply modCs_sat)

theorem run_sat (s : State) (c : Cmd) (hK : Clo 0x8 P) (hs0 : Sat P s) : Sat P (run s c) := by
  unfold run; (try dsimp only)
  repeat' (first | with_reducible assumption | ((with_reducible refine Clo.mono hK ?_); rfl)
                 | with_reducible intro _ | with_reducible apply modCs_sat)

theorem finishAt_sat (s : State) (c : Cmd) (status ccount detail : Nat) (body : List Byte) (hK : Clo 0x18 P) (hs0 :
    Sat P s) : Sat P (finishAt s c status ccount detail body) := by
  unfold finishAt; (try dsimp only)
  repeat' (first | with_reducible assumption | ((with_reducible refine Clo.mono hK ?_); rfl)
                 | with_reducible apply send_sat | with_reducible apply unrun_sat)

theorem finish_sat (s : State) (c : Cmd) (status detail : Nat) (body : List Byte) (hK : Clo 0x18 P) (hs0 : Sat P s)
    : Sat P (finish s c status detail body) := by
  unfold finish; (try dsimp only)
  repeat' (first | with_reducible assumption | ((with_reducible refine Clo.mono hK ?_); rfl)
                 | with_reducible apply finishAt_sat)

theorem refuse_sat (s : State) (c : Cmd) (status detail : Nat) (hK : Clo 0x18 P) (hs0 : Sat P s) :
    Sat P (refuse s c status detail) := by
  unfold refuse; (try dsimp only)
  repeat' (first | with_reducible assumption | ((with_reducible refine Clo.mono hK ?_); rfl)
                 | with_reducible apply finish_sat | with_reducible apply finishAt_sat
                 | with_reducible apply Sat_ite | split)

theorem isolation_sat (s : State) (p kind schip spart addr : Nat) (hK : Clo 0x118 P) (hs0 : Sat P s) :
    Sat P (isolation s p kind schip spart addr) := by
  unfold isolation; (try dsimp only)
  repeat' (first | with_reducible assumption | ((with_reducible refine Clo.mono hK ?_); rfl)
                 | with_reducible intro _ | with_reducible apply event_sat | with_reducible apply modPart_sat
                 | with_reducible apply setPart_sat | with_reducible apply Sat_ite | split
                 | (refine snd_sat (by with_reducible assumption) ?_)
                 | (refine some_sat (by with_reducible assumption) ?_)
                 | (refine some2_sat (by with_reducible assumption) ?_) | dsimp only)

theorem draw_sat (s : State) (hK : Clo 0x2 P) (hs0 : Sat P s) : Sat P (draw s).2 := by
  unfold draw; (try dsimp only)
  repeat' (first | with_reducible assumption | ((with_reducible refine Clo.mono hK ?_); rfl)
                 | (simp only [Sat_mk]; refine clo_draw hK rfl (Sat_fold ?_)))

theorem pick_sat (s : State) (xs : List α) (hK : Clo 0x2 P) (hs0 : Sat P s) : Sat P (pick s xs).2 := by
  unfold pick; (try dsimp only)
  repeat' (first | with_reducible assumption | ((with_reducible refine Clo.mono hK ?_); rfl)
                 | with_reducible apply draw_sat | split
                 | (simp only [Sat_mk]; refine clo_draw hK rfl (Sat_fold ?_))
                 | (refine snd_sat (by with_reducible assumption) ?_)
                 | (refine some_sat (by with_reducible assumption) ?_)
                 | (refine some2_sat (by with_reducible assumption) ?_) | dsimp only)

theorem sendReady_sat (s : State) (port : Nat) (r : Reply) (hK : Clo 0x10 P) (hs0 : Sat P s) :
    Sat P (sendReady s port r) := by
  unfold sendReady; (try dsimp only)
  repeat' (first | with_reducible assumption | ((with_reducible refine Clo.mono hK ?_); rfl)
                 | with_reducible apply send_sat)

/-! ### Access -/

theorem setPoison_sat (s : State) (t o : Nat) (on : Bool) (hK : Clo 0x20000 P) (hs0 : Sat P s) :
    Sat P (setPoison s t o on) := by
  unfold setPoison; (try dsimp only)
  repeat' (first | with_reducible assumption | ((with_reducible refine Clo.mono hK ?_); rfl)
                 | with_reducible intro _ | with_reducible apply setSlot_sat | with_reducible apply Sat_ite | split
                 | (refine snd_sat (by with_reducible assumption) ?_)
                 | (refine some_sat (by with_reducible assumption) ?_)
                 | (refine some2_sat (by with_reducible assumption) ?_) | dsimp only)

theorem clearPoison_sat (s : State) (t o len : Nat) (hK : Clo 0x20000 P) (hs0 : Sat P s) :
    Sat P (clearPoison s t o len) := by
  unfold clearPoison; (try dsimp only)
  repeat' (first | with_reducible assumption | ((with_reducible refine Clo.mono hK ?_); rfl)
                 | with_reducible intro _ | with_reducible apply Sat_foldl | with_reducible apply setPoison_sat)

theorem tierEvent_sat (s : State) (kind t status p k g addr : Nat) (hK : Clo 0x18 P) (hs0 : Sat P s) :
    Sat P (tierEvent s kind t status p k g addr) := by
  unfold tierEvent; (try dsimp only)
  repeat' (first | with_reducible assumption | ((with_reducible refine Clo.mono hK ?_); rfl)
                 | with_reducible apply event_sat)

theorem retireUnit_sat (s : State) (t k unit : Nat) (mask : BitVec 16) (hK : Clo 0x20018 P) (hs0 : Sat P s) :
    Sat P (retireUnit s t k unit mask) := by
  unfold retireUnit; (try dsimp only)
  repeat' (first | with_reducible assumption | ((with_reducible refine Clo.mono hK ?_); rfl)
                 | with_reducible intro _ | with_reducible apply setSlot_sat | with_reducible apply tierEvent_sat
                 | with_reducible apply Sat_ite | split | (refine snd_sat (by with_reducible assumption) ?_)
                 | (refine some_sat (by with_reducible assumption) ?_)
                 | (refine some2_sat (by with_reducible assumption) ?_) | with_reducible apply SatO_map
                 | with_reducible apply SatO_map2 | with_reducible apply SatO2_mapO
                 | with_reducible apply SatO2_map2 | dsimp only)

theorem errorAt_sat (s : State) (t k a : Nat) (bad : Bool) (hK : Clo 0x20018 P) (hs0 : Sat P s) :
    Sat P (errorAt s t k a bad) := by
  unfold errorAt; (try dsimp only)
  repeat' (first | with_reducible assumption | ((with_reducible refine Clo.mono hK ?_); rfl)
                 | with_reducible apply retireUnit_sat | with_reducible apply setSlot_sat
                 | with_reducible apply Sat_ite | split | (refine snd_sat (by with_reducible assumption) ?_)
                 | (refine some_sat (by with_reducible assumption) ?_)
                 | (refine some2_sat (by with_reducible assumption) ?_) | dsimp only)

theorem unitError_sat (s : State) (t o : Nat) (bad : Bool) (hK : Clo 0x20018 P) (hs0 : Sat P s) :
    Sat P (unitError s t o bad) := by
  unfold unitError; (try dsimp only)
  repeat' (first | with_reducible assumption | ((with_reducible refine Clo.mono hK ?_); rfl)
                 | with_reducible apply errorAt_sat | (refine snd_sat (by with_reducible assumption) ?_)
                 | (refine some_sat (by with_reducible assumption) ?_)
                 | (refine some2_sat (by with_reducible assumption) ?_) | dsimp only)

theorem unverifyRun_sat (s : State) (t o len : Nat) (hK : Clo 0x20000 P) (hs0 : Sat P s) :
    Sat P (unverifyRun s t o len) := by
  unfold unverifyRun; (try dsimp only)
  repeat' (first | with_reducible assumption | ((with_reducible refine Clo.mono hK ?_); rfl)
                 | with_reducible intro _ | with_reducible apply modTiers_sat | with_reducible apply Sat_ite
                 | split)

theorem writeTier_sat (s : State) (t o : Nat) (bs : List Byte) (hK : Clo 0x30000 P) (hs0 : Sat P s) :
    Sat P (writeTier s t o bs) := by
  unfold writeTier; (try dsimp only)
  repeat' (first | with_reducible assumption | ((with_reducible refine Clo.mono hK ?_); rfl)
                 | with_reducible intro _ | with_reducible apply Sat_foldl | with_reducible apply Sat_foldr
                 | with_reducible apply Sat_elim | with_reducible apply clearPoison_sat
                 | with_reducible apply setTierMem_sat | with_reducible apply unverifyRun_sat
                 | with_reducible apply Sat_getD | with_reducible apply Sat_id | with_reducible apply Sat_ite
                 | with_reducible apply SatE_ite | with_reducible apply Sat2_ite | split
                 | (simp only [SatE_error, SatE_none, SatE_some, SatO_none, SatO_some, SatN_next])
                 | with_reducible exact trivial | (refine snd_sat (by with_reducible assumption) ?_)
                 | (refine some_sat (by with_reducible assumption) ?_)
                 | (refine some2_sat (by with_reducible assumption) ?_) | with_reducible exact SatO2_none
                 | with_reducible apply SatO2_some | with_reducible apply SatO_map | with_reducible apply SatO_map2
                 | with_reducible apply SatO2_mapO | with_reducible apply SatO2_map2
                 | (refine snd2_sat (by with_reducible assumption) ?_) | with_reducible apply Sat_foldl2
                 | dsimp only
                 | (simp only [memsWf_iff] at *; simp_all only [wf_mwrite, wf_mzero, wf_nil, and_self, true_and, and_true]; done)
                 | exact wf_mwrite _ _ (tierMem_wf (by assumption) _)
                 | exact wf_mzero _ _ (tierMem_wf (by assumption) _)
                 | exact wf_mcopy _ _ _ _ (tierMem_wf (by assumption) _) | exact reset_wf)

theorem zeroFrame_sat (s : State) (t f : Nat) (hK : Clo 0x30000 P) (hs0 : Sat P s) : Sat P (zeroFrame s t f) := by
  unfold zeroFrame; (try dsimp only)
  repeat' (first | with_reducible assumption | ((with_reducible refine Clo.mono hK ?_); rfl)
                 | with_reducible intro _ | with_reducible apply Sat_foldl | with_reducible apply Sat_foldr
                 | with_reducible apply Sat_elim | with_reducible apply clearPoison_sat
                 | with_reducible apply setTierMem_sat | with_reducible apply Sat_getD | with_reducible apply Sat_id
                 | with_reducible apply Sat_ite | with_reducible apply SatE_ite | with_reducible apply Sat2_ite
                 | split | (simp only [SatE_error, SatE_none, SatE_some, SatO_none, SatO_some, SatN_next])
                 | with_reducible exact trivial | (refine snd_sat (by with_reducible assumption) ?_)
                 | (refine some_sat (by with_reducible assumption) ?_)
                 | (refine some2_sat (by with_reducible assumption) ?_) | with_reducible exact SatO2_none
                 | with_reducible apply SatO2_some | with_reducible apply SatO_map | with_reducible apply SatO_map2
                 | with_reducible apply SatO2_mapO | with_reducible apply SatO2_map2
                 | (refine snd2_sat (by with_reducible assumption) ?_) | with_reducible apply Sat_foldl2
                 | dsimp only
                 | (simp only [memsWf_iff] at *; simp_all only [wf_mwrite, wf_mzero, wf_nil, and_self, true_and, and_true]; done)
                 | exact wf_mwrite _ _ (tierMem_wf (by assumption) _)
                 | exact wf_mzero _ _ (tierMem_wf (by assumption) _)
                 | exact wf_mcopy _ _ _ _ (tierMem_wf (by assumption) _) | exact reset_wf)

theorem copyBytes_sat (s : State) (t o t' o' len : Nat) (hK : Clo 0x30000 P) (hs0 : Sat P s) :
    Sat P (copyBytes s t o t' o' len) := by
  unfold copyBytes; (try dsimp only)
  repeat' (first | with_reducible assumption | ((with_reducible refine Clo.mono hK ?_); rfl)
                 | with_reducible intro _ | with_reducible apply Sat_foldl | with_reducible apply clearPoison_sat
                 | with_reducible apply setPoison_sat | with_reducible apply setTierMem_sat
                 | (refine snd_sat (by with_reducible assumption) ?_)
                 | (refine some_sat (by with_reducible assumption) ?_)
                 | (refine some2_sat (by with_reducible assumption) ?_) | dsimp only
                 | (simp only [memsWf_iff] at *; simp_all only [wf_mwrite, wf_mzero, wf_nil, and_self, true_and, and_true]; done)
                 | exact wf_mwrite _ _ (tierMem_wf (by assumption) _)
                 | exact wf_mzero _ _ (tierMem_wf (by assumption) _)
                 | exact wf_mcopy _ _ _ _ (tierMem_wf (by assumption) _) | exact reset_wf)

theorem countTier_sat (s : State) (p t : Nat) (write : Bool) (n : Nat) (hK : Clo 0x100 P) (hs0 : Sat P s) :
    Sat P (countTier s p t write n) := by
  unfold countTier; (try dsimp only)
  repeat' (first | with_reducible assumption | ((with_reducible refine Clo.mono hK ?_); rfl)
                 | with_reducible intro _ | with_reducible apply modPart_sat
                 | (refine snd_sat (by with_reducible assumption) ?_)
                 | (refine some_sat (by with_reducible assumption) ?_)
                 | (refine some2_sat (by with_reducible assumption) ?_) | dsimp only)

theorem countStepTier_sat (s : State) (p t : Nat) (write : Bool) (n : Nat) (hK : Clo 0x100 P) (hs0 : Sat P s) :
    Sat P (countStepTier s p t write n) := by
  unfold countStepTier; (try dsimp only)
  repeat' (first | with_reducible assumption | ((with_reducible refine Clo.mono hK ?_); rfl)
                 | with_reducible intro _ | with_reducible apply countTier_sat | with_reducible apply modPart_sat
                 | split | (refine snd_sat (by with_reducible assumption) ?_)
                 | (refine some_sat (by with_reducible assumption) ?_)
                 | (refine some2_sat (by with_reducible assumption) ?_) | dsimp only)

/-! ### Weave -/

theorem countFabric_sat (s : State) (p : Nat) (outside sent : Bool) (n : Nat) (hK : Clo 0x100 P) (hs0 : Sat P s) :
    Sat P (countFabric s p outside sent n) := by
  unfold countFabric; (try dsimp only)
  repeat' (first | with_reducible assumption | ((with_reducible refine Clo.mono hK ?_); rfl)
                 | with_reducible intro _ | with_reducible apply modPart_sat | with_reducible apply Sat_ite | split
                 | (refine snd_sat (by with_reducible assumption) ?_)
                 | (refine some_sat (by with_reducible assumption) ?_)
                 | (refine some2_sat (by with_reducible assumption) ?_) | dsimp only)

theorem onLink_sat (s : State) (l phase : Nat) (t : Txn) (hK : Clo 0x40000 P) (hs0 : Sat P s) :
    Sat P (onLink s l phase t) := by
  unfold onLink; (try dsimp only)
  repeat' (first | with_reducible assumption | ((with_reducible refine Clo.mono hK ?_); rfl)
                 | with_reducible intro _ | with_reducible apply modFabric_sat | with_reducible apply setLink_sat
                 | (refine snd_sat (by with_reducible assumption) ?_)
                 | (refine some_sat (by with_reducible assumption) ?_)
                 | (refine some2_sat (by with_reducible assumption) ?_) | dsimp only)

theorem noRoute_sat (s : State) (t : Txn) (hK : Clo 0x40018 P) (hs0 : Sat P s) : Sat P (noRoute s t) := by
  unfold noRoute; (try dsimp only)
  repeat' (first | with_reducible assumption | ((with_reducible refine Clo.mono hK ?_); rfl)
                 | with_reducible intro _ | with_reducible apply event_sat | with_reducible apply modFabric_sat
                 | with_reducible apply Sat_ite | split | (refine snd_sat (by with_reducible assumption) ?_)
                 | (refine some_sat (by with_reducible assumption) ?_)
                 | (refine some2_sat (by with_reducible assumption) ?_) | dsimp only)

theorem ingress_sat (s : State) (t : Txn) (hK : Clo 0x40000 P) (hs0 : Sat P s) : Sat P (ingress s t) := by
  unfold ingress; (try dsimp only)
  repeat' (first | with_reducible assumption | ((with_reducible refine Clo.mono hK ?_); rfl)
                 | with_reducible intro _ | with_reducible apply modFabric_sat | with_reducible apply Sat_ite
                 | split)

theorem takeMessage_sat (s : State) (strm : Nat) (bs : List Byte) (hK : Clo 0x40000 P) (hs0 : Sat P s) :
    Sat P (takeMessage s strm bs) := by
  unfold takeMessage; (try dsimp only)
  repeat' (first | with_reducible assumption | ((with_reducible refine Clo.mono hK ?_); rfl)
                 | with_reducible intro _ | with_reducible apply ingress_sat | with_reducible apply modFabric_sat
                 | split | (refine snd_sat (by with_reducible assumption) ?_)
                 | (refine some_sat (by with_reducible assumption) ?_)
                 | (refine some2_sat (by with_reducible assumption) ?_) | dsimp only)

theorem route_sat (s : State) (phase : Nat) (t : Txn) (hK : Clo 0x40000 P) (hs0 : Sat P s) :
    SatO P (route s phase t) := by
  unfold route; (try dsimp only)
  repeat' (first | with_reducible assumption | ((with_reducible refine Clo.mono hK ?_); rfl)
                 | with_reducible intro _ | with_reducible apply modFabric_sat | with_reducible apply onLink_sat
                 | split | (simp only [SatO_none, SatO_some]) | with_reducible exact trivial
                 | (refine snd_sat (by with_reducible assumption) ?_)
                 | (refine some_sat (by with_reducible assumption) ?_)
                 | (refine some2_sat (by with_reducible assumption) ?_) | dsimp only)

theorem issueTxn_sat (s : State) (t : Txn) (hK : Clo 0x40118 P) (hs0 : Sat P s) : Sat P (issueTxn s t).2 := by
  unfold issueTxn; (try dsimp only)
  repeat' (first | with_reducible assumption | ((with_reducible refine Clo.mono hK ?_); rfl)
                 | with_reducible intro _ | with_reducible apply Sat_foldl | with_reducible apply Sat_foldr
                 | with_reducible apply Sat_elim | with_reducible apply countFabric_sat
                 | with_reducible apply ingress_sat | with_reducible apply modFabric_sat
                 | with_reducible apply noRoute_sat | with_reducible apply route_sat | with_reducible apply Sat_getD
                 | with_reducible apply Sat_id | with_reducible apply Sat_ite | with_reducible apply SatE_ite
                 | with_reducible apply Sat2_ite | split
                 | (simp only [SatE_error, SatE_none, SatE_some, SatO_none, SatO_some, SatN_next])
                 | with_reducible exact trivial | (refine snd_sat (by with_reducible assumption) ?_)
                 | (refine some_sat (by with_reducible assumption) ?_)
                 | (refine some2_sat (by with_reducible assumption) ?_) | with_reducible exact SatO2_none
                 | with_reducible apply SatO2_some | with_reducible apply SatO_map | with_reducible apply SatO_map2
                 | with_reducible apply SatO2_mapO | with_reducible apply SatO2_map2
                 | (refine snd2_sat (by with_reducible assumption) ?_) | with_reducible apply Sat_foldl2
                 | dsimp only)

theorem sendMessage_sat (s : State) (ttype strm dchip srcPart dstPart : Nat) (bs : List Byte) (hK : Clo 0x40118 P)
    (hs0 : Sat P s) : Sat P (sendMessage s ttype strm dchip srcPart dstPart bs) := by
  unfold sendMessage; (try dsimp only)
  repeat' (first | with_reducible assumption | ((with_reducible refine Clo.mono hK ?_); rfl)
                 | with_reducible intro _ | with_reducible apply Sat_foldl | with_reducible apply issueTxn_sat
                 | with_reducible apply modFabric_sat | with_reducible apply Sat_id
                 | (refine snd_sat (by with_reducible assumption) ?_)
                 | (refine some_sat (by with_reducible assumption) ?_)
                 | (refine some2_sat (by with_reducible assumption) ?_) | dsimp only)

theorem sendExpert_sat (s : State) (chip : Nat) (m : ExpertMsg) (hK : Clo 0x40118 P) (hs0 : Sat P s) :
    Sat P (sendExpert s chip m) := by
  unfold sendExpert; (try dsimp only)
  repeat' (first | with_reducible assumption | ((with_reducible refine Clo.mono hK ?_); rfl)
                 | with_reducible intro _ | with_reducible apply modFabric_sat
                 | with_reducible apply sendMessage_sat)

theorem sendPair_sat (s : State) (kind p step vstep status : Nat) (recs : List PairRec) (hK : Clo 0x440118 P) (hs0 :
    Sat P s) : Sat P (sendPair s kind p step vstep status recs) := by
  unfold sendPair; (try dsimp only)
  repeat' (first | with_reducible assumption | ((with_reducible refine Clo.mono hK ?_); rfl)
                 | with_reducible intro _ | with_reducible apply modFabric_sat | with_reducible apply modPair_sat
                 | with_reducible apply sendMessage_sat | (refine snd_sat (by with_reducible assumption) ?_)
                 | (refine some_sat (by with_reducible assumption) ?_)
                 | (refine some2_sat (by with_reducible assumption) ?_) | dsimp only)

theorem sendAcked_sat (s : State) (kind p step : Nat) (recs : List PairRec) (hK : Clo 0x440118 P) (hs0 : Sat P s) :
    Sat P (sendAcked s kind p step recs) := by
  unfold sendAcked; (try dsimp only)
  repeat' (first | with_reducible assumption | ((with_reducible refine Clo.mono hK ?_); rfl)
                 | with_reducible intro _ | with_reducible apply modPart_sat | with_reducible apply sendPair_sat)

/-! ### Home -/

theorem htAlloc_sat (s : State) (g p t f : Nat) (mir : Bool) (hK : Clo 0x470118 P) (hs0 : Sat P s) :
    Sat P (htAlloc s g p t f mir).2 := by
  unfold htAlloc; (try dsimp only)
  repeat' (first | with_reducible assumption | ((with_reducible refine Clo.mono hK ?_); rfl)
                 | with_reducible apply sendPair_sat | with_reducible apply setFrame_sat
                 | with_reducible apply setHt_sat | with_reducible apply zeroFrame_sat
                 | with_reducible apply Sat_ite | with_reducible apply Sat2_ite | split
                 | (refine snd_sat (by with_reducible assumption) ?_)
                 | (refine some_sat (by with_reducible assumption) ?_)
                 | (refine some2_sat (by with_reducible assumption) ?_) | dsimp only)

theorem htFree_sat (s : State) (g : Nat) (hK : Clo 0x460118 P) (hs0 : Sat P s) : Sat P (htFree s g).2 := by
  unfold htFree; (try dsimp only)
  repeat' (first | with_reducible assumption | ((with_reducible refine Clo.mono hK ?_); rfl)
                 | with_reducible intro _ | with_reducible apply modTiers_sat | with_reducible apply sendPair_sat
                 | with_reducible apply setFrame_sat | with_reducible apply setHt_sat | with_reducible apply Sat_ite
                 | with_reducible apply Sat2_ite | split | (refine snd_sat (by with_reducible assumption) ?_)
                 | (refine some_sat (by with_reducible assumption) ?_)
                 | (refine some2_sat (by with_reducible assumption) ?_) | dsimp only)

theorem writeHome_sat (s : State) (g o : Nat) (bs : List Byte) (hK : Clo 0x30000 P) (hs0 : Sat P s) :
    Sat P (writeHome s g o bs).2 := by
  unfold writeHome; (try dsimp only)
  repeat' (first | with_reducible assumption | ((with_reducible refine Clo.mono hK ?_); rfl)
                 | with_reducible apply writeTier_sat | with_reducible apply Sat_ite | with_reducible apply Sat2_ite
                 | split | (refine snd_sat (by with_reducible assumption) ?_)
                 | (refine some_sat (by with_reducible assumption) ?_)
                 | (refine some2_sat (by with_reducible assumption) ?_) | dsimp only)

theorem allocRun_sat (s : State) (p : Nat) (z2 : List Nat) (hK : Clo 0x47011a P) (hs0 : Sat P s) :
    SatO P (allocRun s p z2) := by
  induction z2 generalizing s p with
  | nil => unfold allocRun; repeat' (first | with_reducible assumption
                                           | ((with_reducible refine Clo.mono hK ?_); rfl)
                                           | with_reducible apply htAlloc_sat | with_reducible apply pick_sat
                                           | split | (simp only [SatO_none, SatO_some])
                                           | with_reducible exact trivial
                                           | (refine snd_sat (by with_reducible assumption) ?_)
                                           | (refine some_sat (by with_reducible assumption) ?_)
                                           | (refine some2_sat (by with_reducible assumption) ?_) | dsimp only)
  | cons _ _ ih => unfold allocRun; repeat' (first | with_reducible apply ih | with_reducible assumption
                                                   | ((with_reducible refine Clo.mono hK ?_); rfl)
                                                   | with_reducible apply htAlloc_sat
                                                   | with_reducible apply pick_sat | split
                                                   | (simp only [SatO_none, SatO_some])
                                                   | with_reducible exact trivial
                                                   | (refine snd_sat (by with_reducible assumption) ?_)
                                                   | (refine some_sat (by with_reducible assumption) ?_)
                                                   | (refine some2_sat (by with_reducible assumption) ?_)
                                                   | dsimp only)

theorem placeRun_sat (s : State) (p lines : Nat) (hK : Clo 0x47011a P) (hs0 : Sat P s) :
    SatO2 P (placeRun s p lines) := by
  intro t h
  unfold placeRun at h
  split at h
  · cases h; exact hs0
  · dsimp only at h
    split at h
    · cases h
    · rename_i g s' e
      rw [Option.map_eq_some_iff] at h
      obtain ⟨u, hu, rfl⟩ := h
      exact some_sat hu (allocRun_sat _ _ _ (Clo.mono hK rfl) (snd_sat e (pick_sat _ _ (Clo.mono hK rfl) hs0)))

theorem releaseGrains_sat (s : State) (p : Nat) (gs : List Nat) (hK : Clo 0x460118 P) (hs0 : Sat P s) :
    Sat P (releaseGrains s p gs) := by
  unfold releaseGrains; (try dsimp only)
  repeat' (first | with_reducible assumption | ((with_reducible refine Clo.mono hK ?_); rfl)
                 | with_reducible intro _ | with_reducible apply Sat_foldl | with_reducible apply htFree_sat
                 | with_reducible apply modPart_sat | with_reducible apply Sat_ite | split
                 | (refine snd_sat (by with_reducible assumption) ?_)
                 | (refine some_sat (by with_reducible assumption) ?_)
                 | (refine some2_sat (by with_reducible assumption) ?_) | dsimp only)

/-! ### Sequencer -/

theorem managerSeen_sat (s : State) (m : Nat) (hK : Clo 0x180000 P) (hs0 : Sat P s) : Sat P (managerSeen s m) := by
  unfold managerSeen; (try dsimp only)
  repeat' (first | with_reducible assumption | ((with_reducible refine Clo.mono hK ?_); rfl)
                 | with_reducible apply Sat_ite | split
                 | (simp only [Sat_mk]; refine clo_mgmtA hK rfl (clo_mgmtB hK rfl (Sat_fold ?_))))

theorem accept_sat (s : State) (c : Cmd) (hK : Clo 0x18 P) (hs0 : Sat P s) : Sat P (accept s c) := by
  unfold accept; (try dsimp only)
  repeat' (first | with_reducible assumption | ((with_reducible refine Clo.mono hK ?_); rfl)
                 | with_reducible intro _ | with_reducible apply interim_sat | with_reducible apply modCs_sat
                 | (refine snd_sat (by with_reducible assumption) ?_)
                 | (refine some_sat (by with_reducible assumption) ?_)
                 | (refine some2_sat (by with_reducible assumption) ?_) | dsimp only)

theorem nack_sat (s : State) (port : Nat) (pkt : List Byte) (status : Nat) (hK : Clo 0x10 P) (hs0 : Sat P s) :
    Sat P (nack s port pkt status) := by
  unfold nack; (try dsimp only)
  repeat' (first | with_reducible assumption | ((with_reducible refine Clo.mono hK ?_); rfl)
                 | with_reducible apply send_sat | with_reducible apply Sat_ite | split
                 | (refine snd_sat (by with_reducible assumption) ?_)
                 | (refine some_sat (by with_reducible assumption) ?_)
                 | (refine some2_sat (by with_reducible assumption) ?_) | dsimp only)

theorem packetIn_sat (port : Nat) (pkt : List Byte) (s : State) (hK : Clo 0x18 P) (hs0 : Sat P s) :
    Sat P (packetIn port pkt s) := by
  unfold packetIn; (try dsimp only)
  repeat' (first | with_reducible assumption | ((with_reducible refine Clo.mono hK ?_); rfl)
                 | with_reducible intro _ | with_reducible apply accept_sat | with_reducible apply modCs_sat
                 | with_reducible apply nack_sat | with_reducible apply Sat_ite | split
                 | (refine snd_sat (by with_reducible assumption) ?_)
                 | (refine some_sat (by with_reducible assumption) ?_)
                 | (refine some2_sat (by with_reducible assumption) ?_) | dsimp only)

theorem commandArrival_sat (port : Nat) (pkt : List Byte) (s : State) (hK : Clo 0x1c0138 P) (hs0 : Sat P s) :
    Sat P (commandArrival port pkt s) := by
  unfold commandArrival; (try dsimp only)
  repeat' (first | with_reducible assumption | ((with_reducible refine Clo.mono hK ?_); rfl)
                 | with_reducible intro _ | with_reducible apply ingress_sat | with_reducible apply isolation_sat
                 | with_reducible apply managerSeen_sat | with_reducible apply modBoot_sat
                 | with_reducible apply modFabric_sat | with_reducible apply packetIn_sat
                 | with_reducible apply takeMessage_sat | with_reducible apply Sat_ite | split
                 | (refine snd_sat (by with_reducible assumption) ?_)
                 | (refine some_sat (by with_reducible assumption) ?_)
                 | (refine some2_sat (by with_reducible assumption) ?_) | dsimp only)

theorem execCommandPacketArrival_sat (port : Nat) (pkt : List Byte) (s : State) (hK : Clo 0x1c0138 P) (hs0 :
    Sat P s) : SatN P (execCommandPacketArrival port pkt s) := by
  unfold execCommandPacketArrival; (try dsimp only)
  repeat' (first | with_reducible assumption | ((with_reducible refine Clo.mono hK ?_); rfl)
                 | with_reducible intro _ | with_reducible apply commandArrival_sat | with_reducible apply onWf_sat
                 | (simp only [SatN_next]))

theorem dequeue_sat (s : State) (q : Nat) (c : Cmd) (hK : Clo 0x8 P) (hs0 : Sat P s) : Sat P (dequeue s q c) := by
  unfold dequeue; (try dsimp only)
  repeat' (first | with_reducible assumption | ((with_reducible refine Clo.mono hK ?_); rfl)
                 | with_reducible intro _ | with_reducible apply modCs_sat)

theorem beginCmd_sat (q : Nat) (c : Cmd) (f : Cmd → State → State) (s : State) (hK : Clo 0x18 P) (hf : ∀ x0 x1,
    Sat P x1 → Sat P (f x0 x1)) (hs0 : Sat P s) : Sat P (beginCmd q c f s) := by
  unfold beginCmd; (try dsimp only)
  repeat' (first | with_reducible assumption | ((with_reducible refine Clo.mono hK ?_); rfl)
                 | with_reducible intro _ | with_reducible apply dequeue_sat | with_reducible apply refuse_sat
                 | with_reducible apply run_sat | with_reducible apply hf | split
                 | (refine snd_sat (by with_reducible assumption) ?_)
                 | (refine some_sat (by with_reducible assumption) ?_)
                 | (refine some2_sat (by with_reducible assumption) ?_) | dsimp only)

theorem takeCmd_sat (q : Nat) (mine : Cmd → Bool) (f : Cmd → State → State) (s : State) (hK : Clo 0x18 P)
    (hf : ∀ x0 x1, Sat P x1 → Sat P (f x0 x1)) (hs0 : Sat P s) : Sat P (takeCmd q mine f s) := by
  unfold takeCmd; (try dsimp only)
  repeat' (first | with_reducible assumption | ((with_reducible refine Clo.mono hK ?_); rfl)
                 | with_reducible intro _ | with_reducible apply beginCmd_sat | with_reducible apply hf
                 | with_reducible apply Sat_ite | split | (refine snd_sat (by with_reducible assumption) ?_)
                 | (refine some_sat (by with_reducible assumption) ?_)
                 | (refine some2_sat (by with_reducible assumption) ?_) | dsimp only)

/-! ### Requests -/

theorem setBudget_sat (s : State) (p t : Nat) (b : Budget) (hK : Clo 0x100 P) (hs0 : Sat P s) :
    Sat P (setBudget s p t b) := by
  unfold setBudget; (try dsimp only)
  repeat' (first | with_reducible assumption | ((with_reducible refine Clo.mono hK ?_); rfl)
                 | with_reducible intro _ | with_reducible apply modPart_sat)

theorem sendEntry_sat (s : State) (p table index : Nat) (bs : List Byte) (hK : Clo 0x440118 P) (hs0 : Sat P s) :
    Sat P (sendEntry s p table index bs) := by
  unfold sendEntry; (try dsimp only)
  repeat' (first | with_reducible assumption | ((with_reducible refine Clo.mono hK ?_); rfl)
                 | with_reducible intro _ | with_reducible apply sendPair_sat | with_reducible apply Sat_getD
                 | with_reducible apply Sat_id | with_reducible apply Sat_ite | split
                 | with_reducible apply SatO_map | with_reducible apply SatO_map2 | with_reducible apply SatO2_mapO
                 | with_reducible apply SatO2_map2)

theorem reqReply_sat (s : State) (p : Nat) (r : Req) (status detail k : Nat) (hK : Clo 0x118 P) (hs0 : Sat P s) :
    Sat P (reqReply s p r status detail k) := by
  unfold reqReply; (try dsimp only)
  repeat' (first | with_reducible assumption | ((with_reducible refine Clo.mono hK ?_); rfl)
                 | with_reducible intro _ | with_reducible apply modPart_sat | with_reducible apply send_sat
                 | with_reducible apply unrun_sat | with_reducible apply Sat_ite | split
                 | (refine snd_sat (by with_reducible assumption) ?_)
                 | (refine some_sat (by with_reducible assumption) ?_)
                 | (refine some2_sat (by with_reducible assumption) ?_) | dsimp only)

theorem modReq_sat (s : State) (p i : Nat) (f : Req → Req) (hK : Clo 0x100 P) (hs0 : Sat P s) :
    Sat P (modReq s p i f) := by
  unfold modReq; (try dsimp only)
  repeat' (first | with_reducible assumption | ((with_reducible refine Clo.mono hK ?_); rfl)
                 | with_reducible intro _ | with_reducible apply modPart_sat | with_reducible apply Sat_ite | split
                 | with_reducible apply SatO_map | with_reducible apply SatO_map2 | with_reducible apply SatO2_mapO
                 | with_reducible apply SatO2_map2)

theorem discardTransfers_sat (s : State) (mine : Purpose → Bool) (hK : Clo 0x20000 P) (hs0 : Sat P s) :
    Sat P (discardTransfers s mine) := by
  unfold discardTransfers; (try dsimp only)
  repeat' (first | with_reducible assumption | ((with_reducible refine Clo.mono hK ?_); rfl)
                 | with_reducible intro _ | with_reducible apply modTiers_sat | with_reducible apply Sat_ite | split
                 | (refine snd_sat (by with_reducible assumption) ?_)
                 | (refine some_sat (by with_reducible assumption) ?_)
                 | (refine some2_sat (by with_reducible assumption) ?_) | dsimp only)

theorem dropNeed_sat (s : State) (p i : Nat) (hK : Clo 0x20000 P) (hs0 : Sat P s) : Sat P (dropNeed s p i) := by
  unfold dropNeed; (try dsimp only)
  repeat' (first | with_reducible assumption | ((with_reducible refine Clo.mono hK ?_); rfl)
                 | with_reducible intro _ | with_reducible apply modTiers_sat | with_reducible apply Sat_ite | split
                 | with_reducible apply SatO_map | with_reducible apply SatO_map2 | with_reducible apply SatO2_mapO
                 | with_reducible apply SatO2_map2)

theorem reqEndIn_sat (s : State) (p i status detail k : Nat) (hK : Clo 0x46c118 P) (hs0 : Sat P s) :
    Sat P (reqEndIn s p i status detail k) := by
  unfold reqEndIn; (try dsimp only)
  repeat' (first | with_reducible assumption | ((with_reducible refine Clo.mono hK ?_); rfl)
                 | with_reducible intro _ | with_reducible apply Sat_foldl
                 | with_reducible apply discardTransfers_sat | with_reducible apply dropNeed_sat
                 | with_reducible apply finish_sat | with_reducible apply modPart_sat
                 | with_reducible apply releaseGrains_sat | with_reducible apply reqReply_sat
                 | with_reducible apply setBudget_sat | with_reducible apply setDrawer_sat
                 | with_reducible apply setRegion_sat | split | (refine snd_sat (by with_reducible assumption) ?_)
                 | (refine some_sat (by with_reducible assumption) ?_)
                 | (refine some2_sat (by with_reducible assumption) ?_) | with_reducible apply SatO_map
                 | with_reducible apply SatO_map2 | with_reducible apply SatO2_mapO
                 | with_reducible apply SatO2_map2 | dsimp only)

theorem reqEnd_sat (s : State) (p i status detail : Nat) (hK : Clo 0x46c118 P) (hs0 : Sat P s) :
    Sat P (reqEnd s p i status detail) := by
  unfold reqEnd; (try dsimp only)
  repeat' (first | with_reducible assumption | ((with_reducible refine Clo.mono hK ?_); rfl)
                 | with_reducible apply reqEndIn_sat)

theorem endReqs_sat (s : State) (p : Nat) (is : List Nat) (status detail : Nat) (hK : Clo 0x46c118 P) (hs0 :
    Sat P s) : Sat P (endReqs s p is status detail) := by
  unfold endReqs; (try dsimp only)
  repeat' (first | with_reducible assumption | ((with_reducible refine Clo.mono hK ?_); rfl)
                 | with_reducible intro _ | with_reducible apply Sat_foldl | with_reducible apply reqEnd_sat)

theorem markEnded_sat (s : State) (p : Nat) (sel : Member → Bool) (status detail : Nat) (hK : Clo 0x100 P) (hs0 :
    Sat P s) : Sat P (markEnded s p sel status detail) := by
  unfold markEnded; (try dsimp only)
  repeat' (first | with_reducible assumption | ((with_reducible refine Clo.mono hK ?_); rfl)
                 | with_reducible intro _ | with_reducible apply modPart_sat | with_reducible apply Sat_ite | split
                 | (refine snd_sat (by with_reducible assumption) ?_)
                 | (refine some_sat (by with_reducible assumption) ?_)
                 | (refine some2_sat (by with_reducible assumption) ?_) | with_reducible apply SatO_map
                 | with_reducible apply SatO_map2 | with_reducible apply SatO2_mapO
                 | with_reducible apply SatO2_map2 | dsimp only)

theorem applyFailed_sat (s : State) (p : Nat) (hK : Clo 0x100 P) (hs0 : Sat P s) : Sat P (applyFailed s p) := by
  unfold applyFailed; (try dsimp only)
  repeat' (first | with_reducible assumption | ((with_reducible refine Clo.mono hK ?_); rfl)
                 | with_reducible intro _ | with_reducible apply Sat_foldl | with_reducible apply markEnded_sat
                 | split | (refine snd_sat (by with_reducible assumption) ?_)
                 | (refine some_sat (by with_reducible assumption) ?_)
                 | (refine some2_sat (by with_reducible assumption) ?_) | dsimp only)

theorem switchFail_sat (s : State) (p status detail : Nat) (hK : Clo 0x118 P) (hs0 : Sat P s) :
    Sat P (switchFail s p status detail) := by
  unfold switchFail; (try dsimp only)
  repeat' (first | with_reducible assumption | ((with_reducible refine Clo.mono hK ?_); rfl)
                 | with_reducible intro _ | with_reducible apply finish_sat | with_reducible apply modPart_sat
                 | split | (refine snd_sat (by with_reducible assumption) ?_)
                 | (refine some_sat (by with_reducible assumption) ?_)
                 | (refine some2_sat (by with_reducible assumption) ?_) | dsimp only)

theorem endNeed_sat (s : State) (p : Nat) (need : Need) (status detail : Nat) (hK : Clo 0x46c118 P) (hs0 : Sat P s)
    : Sat P (endNeed s p need status detail) := by
  unfold endNeed; (try dsimp only)
  repeat' (first | with_reducible assumption | ((with_reducible refine Clo.mono hK ?_); rfl)
                 | with_reducible intro _ | with_reducible apply applyFailed_sat
                 | with_reducible apply markEnded_sat | with_reducible apply modPart_sat
                 | with_reducible apply reqEnd_sat | with_reducible apply switchFail_sat
                 | with_reducible apply Sat_ite | split | (refine snd_sat (by with_reducible assumption) ?_)
                 | (refine some_sat (by with_reducible assumption) ?_)
                 | (refine some2_sat (by with_reducible assumption) ?_) | with_reducible apply SatO_map
                 | with_reducible apply SatO_map2 | with_reducible apply SatO2_mapO
                 | with_reducible apply SatO2_map2 | dsimp only)

/-! ### Transfers -/

theorem pend_sat (s : State) (x : Transfer) (hK : Clo 0x20000 P) (hs0 : Sat P s) : Sat P (pend s x) := by
  unfold pend; (try dsimp only)
  repeat' (first | with_reducible assumption | ((with_reducible refine Clo.mono hK ?_); rfl)
                 | with_reducible intro _ | with_reducible apply modTiers_sat | with_reducible apply Sat_id)

theorem pendReads_sat (s : State) (p tier o len : Nat) (need : Need) (w : Purpose) (hK : Clo 0x20000 P) (hs0 :
    Sat P s) : Sat P (pendReads s p tier o len need w) := by
  unfold pendReads; (try dsimp only)
  repeat' (first | with_reducible assumption | ((with_reducible refine Clo.mono hK ?_); rfl)
                 | with_reducible intro _ | with_reducible apply Sat_foldl | with_reducible apply pend_sat)

theorem pendWrites_sat (s : State) (p tier o : Nat) (bs : List Byte) (need : Need) (w : Purpose)
    (hK : Clo 0x20000 P) (hs0 : Sat P s) : Sat P (pendWrites s p tier o bs need w) := by
  unfold pendWrites; (try dsimp only)
  repeat' (first | with_reducible assumption | ((with_reducible refine Clo.mono hK ?_); rfl)
                 | with_reducible intro _ | with_reducible apply Sat_foldl | with_reducible apply pend_sat)

theorem dropTransfer_sat (s : State) (id : Nat) (hK : Clo 0x20000 P) (hs0 : Sat P s) : Sat P (dropTransfer s id) := by
  unfold dropTransfer; (try dsimp only)
  repeat' (first | with_reducible assumption | ((with_reducible refine Clo.mono hK ?_); rfl)
                 | with_reducible intro _ | with_reducible apply modTiers_sat | with_reducible apply Sat_id)

theorem modTransfer_sat (s : State) (id : Nat) (f : Transfer → Transfer) (hK : Clo 0x20000 P) (hs0 : Sat P s) :
    Sat P (modTransfer s id f) := by
  unfold modTransfer; (try dsimp only)
  repeat' (first | with_reducible assumption | ((with_reducible refine Clo.mono hK ?_); rfl)
                 | with_reducible intro _ | with_reducible apply modTiers_sat | with_reducible apply Sat_id
                 | with_reducible apply Sat_ite | split | with_reducible apply SatO_map
                 | with_reducible apply SatO_map2 | with_reducible apply SatO2_mapO
                 | with_reducible apply SatO2_map2)

theorem modStream_sat (s : State) (p : Nat) (f : Stream → Stream) (hK : Clo 0x100 P) (hs0 : Sat P s) :
    Sat P (modStream s p f) := by
  unfold modStream; (try dsimp only)
  repeat' (first | with_reducible assumption | ((with_reducible refine Clo.mono hK ?_); rfl)
                 | with_reducible intro _ | with_reducible apply modPart_sat)

theorem modActive_sat (s : State) (p idx : Nat) (f : Active → Active) (hK : Clo 0x100 P) (hs0 : Sat P s) :
    Sat P (modActive s p idx f) := by
  unfold modActive; (try dsimp only)
  repeat' (first | with_reducible assumption | ((with_reducible refine Clo.mono hK ?_); rfl)
                 | with_reducible intro _ | with_reducible apply modStream_sat | with_reducible apply Sat_id
                 | with_reducible apply Sat_ite | split | with_reducible apply SatO_map
                 | with_reducible apply SatO_map2 | with_reducible apply SatO2_mapO
                 | with_reducible apply SatO2_map2)

theorem dropActive_sat (s : State) (p idx : Nat) (hK : Clo 0x100 P) (hs0 : Sat P s) : Sat P (dropActive s p idx) := by
  unfold dropActive; (try dsimp only)
  repeat' (first | with_reducible assumption | ((with_reducible refine Clo.mono hK ?_); rfl)
                 | with_reducible intro _ | with_reducible apply modStream_sat | with_reducible apply Sat_id)

theorem nextFrame_sat (s : State) (p idx : Nat) (hK : Clo 0x20100 P) (hs0 : Sat P s) : Sat P (nextFrame s p idx) := by
  unfold nextFrame; (try dsimp only)
  repeat' (first | with_reducible assumption | ((with_reducible refine Clo.mono hK ?_); rfl)
                 | with_reducible intro _ | with_reducible apply modActive_sat | with_reducible apply modStream_sat
                 | with_reducible apply pendReads_sat | with_reducible apply Sat_id | with_reducible apply Sat_ite
                 | split | (refine snd_sat (by with_reducible assumption) ?_)
                 | (refine some_sat (by with_reducible assumption) ?_)
                 | (refine some2_sat (by with_reducible assumption) ?_) | dsimp only)

theorem nextPiece_sat (s : State) (p idx : Nat) (hK : Clo 0x20100 P) (hs0 : Sat P s) : Sat P (nextPiece s p idx) := by
  unfold nextPiece; (try dsimp only)
  repeat' (first | with_reducible assumption | ((with_reducible refine Clo.mono hK ?_); rfl)
                 | with_reducible intro _ | with_reducible apply modActive_sat | with_reducible apply pendReads_sat
                 | with_reducible apply Sat_id | split | (refine snd_sat (by with_reducible assumption) ?_)
                 | (refine some_sat (by with_reducible assumption) ?_)
                 | (refine some2_sat (by with_reducible assumption) ?_) | dsimp only)

theorem freeBytes_sat (s : State) (n : Nat) (hK : Clo 0x2 P) (hs0 : Sat P s) : Sat P (freeBytes s n).2 := by
  unfold freeBytes; (try dsimp only)
  repeat' (first | with_reducible assumption | ((with_reducible refine Clo.mono hK ?_); rfl)
                 | with_reducible intro _ | with_reducible apply draw_sat
                 | (simp only [Sat_mk]; refine clo_draw hK rfl (Sat_fold ?_)) | with_reducible apply SatO_map
                 | with_reducible apply SatO_map2 | with_reducible apply SatO2_mapO
                 | with_reducible apply SatO2_map2)

theorem txDone_sat (s : State) (b n status : Nat) (hK : Clo 0x400 P) (hs0 : Sat P s) : Sat P (txDone s b n status)
    := by
  unfold txDone; (try dsimp only)
  repeat' (first | with_reducible assumption | ((with_reducible refine Clo.mono hK ?_); rfl)
                 | with_reducible intro _ | with_reducible apply modVe_sat | with_reducible apply Sat_ite | split
                 | (refine snd_sat (by with_reducible assumption) ?_)
                 | (refine some_sat (by with_reducible assumption) ?_)
                 | (refine some2_sat (by with_reducible assumption) ?_) | dsimp only)

theorem answerTxn_sat (s : State) (t : Txn) (status : Nat) (data : List Byte) (hK : Clo 0x40118 P) (hs0 : Sat P s) :
    Sat P (answerTxn s t status data) := by
  unfold answerTxn; (try dsimp only)
  repeat' (first | with_reducible assumption | ((with_reducible refine Clo.mono hK ?_); rfl)
                 | with_reducible intro _ | with_reducible apply issueTxn_sat | with_reducible apply modFabric_sat
                 | (refine snd_sat (by with_reducible assumption) ?_)
                 | (refine some_sat (by with_reducible assumption) ?_)
                 | (refine some2_sat (by with_reducible assumption) ?_) | dsimp only)

theorem mirrorWrite_sat (s : State) (p off : Nat) (bs : List Byte) (hK : Clo 0x440118 P) (hs0 : Sat P s) :
    Sat P (mirrorWrite s p off bs) := by
  unfold mirrorWrite; (try dsimp only)
  repeat' (first | with_reducible assumption | ((with_reducible refine Clo.mono hK ?_); rfl)
                 | with_reducible intro _ | with_reducible apply Sat_elim | with_reducible apply sendPair_sat
                 | with_reducible apply Sat_id | with_reducible apply Sat_ite | split)

theorem loadDone_sat (s : State) (cmd : Option Cmd) (hK : Clo 0x18 P) (hs0 : Sat P s) : Sat P (loadDone s cmd) := by
  unfold loadDone; (try dsimp only)
  repeat' (first | with_reducible assumption | ((with_reducible refine Clo.mono hK ?_); rfl)
                 | with_reducible intro _ | with_reducible apply finish_sat | with_reducible apply Sat_ite | split
                 | (refine snd_sat (by with_reducible assumption) ?_)
                 | (refine some_sat (by with_reducible assumption) ?_)
                 | (refine some2_sat (by with_reducible assumption) ?_) | dsimp only)

theorem feedPiece_sat (s : State) (p idx addr : Nat) (bs : List Byte) (hK : Clo 0x100 P) (hs0 : Sat P s) :
    Sat P (feedPiece s p idx addr bs) := by
  unfold feedPiece; (try dsimp only)
  repeat' (first | with_reducible assumption | ((with_reducible refine Clo.mono hK ?_); rfl)
                 | with_reducible intro _ | with_reducible apply modActive_sat | with_reducible apply Sat_id
                 | with_reducible apply Sat_ite | split | (refine snd_sat (by with_reducible assumption) ?_)
                 | (refine some_sat (by with_reducible assumption) ?_)
                 | (refine some2_sat (by with_reducible assumption) ?_) | dsimp only)

theorem pieceDone_sat (s : State) (p idx : Nat) (hK : Clo 0x20100 P) (hs0 : Sat P s) : Sat P (pieceDone s p idx) := by
  unfold pieceDone; (try dsimp only)
  repeat' (first | with_reducible assumption | ((with_reducible refine Clo.mono hK ?_); rfl)
                 | with_reducible intro _ | with_reducible apply dropActive_sat | with_reducible apply modActive_sat
                 | with_reducible apply nextPiece_sat | with_reducible apply Sat_id | with_reducible apply Sat_ite
                 | split | (refine snd_sat (by with_reducible assumption) ?_)
                 | (refine some_sat (by with_reducible assumption) ?_)
                 | (refine some2_sat (by with_reducible assumption) ?_) | dsimp only)

theorem adapterFailed_sat (s : State) (p tenant status detail : Nat) (hK : Clo 0x46c118 P) (hs0 : Sat P s) :
    Sat P (adapterFailed s p tenant status detail) := by
  unfold adapterFailed; (try dsimp only)
  repeat' (first | with_reducible assumption | ((with_reducible refine Clo.mono hK ?_); rfl)
                 | with_reducible intro _ | with_reducible apply endReqs_sat
                 | (refine snd_sat (by with_reducible assumption) ?_)
                 | (refine some_sat (by with_reducible assumption) ?_)
                 | (refine some2_sat (by with_reducible assumption) ?_) | with_reducible apply SatO_map
                 | with_reducible apply SatO_map2 | with_reducible apply SatO2_mapO
                 | with_reducible apply SatO2_map2 | dsimp only)

theorem drawerPiece_sat (s : State) (c : Cmd) (addr status detail : Nat) (bs : List Byte) (hK : Clo 0x20018 P)
    (hs0 : Sat P s) : Sat P (drawerPiece s c addr status detail bs) := by
  unfold drawerPiece; (try dsimp only)
  repeat' (first | with_reducible assumption | ((with_reducible refine Clo.mono hK ?_); rfl)
                 | with_reducible intro _ | with_reducible apply finish_sat | with_reducible apply modTiers_sat
                 | with_reducible apply Sat_ite | split | (refine snd_sat (by with_reducible assumption) ?_)
                 | (refine some_sat (by with_reducible assumption) ?_)
                 | (refine some2_sat (by with_reducible assumption) ?_) | with_reducible apply SatO_map
                 | with_reducible apply SatO_map2 | with_reducible apply SatO2_mapO
                 | with_reducible apply SatO2_map2 | dsimp only)

theorem configPiece_sat (s : State) (p status : Nat) (hK : Clo 0x100 P) (hs0 : Sat P s) :
    Sat P (configPiece s p status) := by
  unfold configPiece; (try dsimp only)
  repeat' (first | with_reducible assumption | ((with_reducible refine Clo.mono hK ?_); rfl)
                 | with_reducible intro _ | with_reducible apply modPart_sat | with_reducible apply Sat_ite | split
                 | with_reducible apply SatO_map | with_reducible apply SatO_map2 | with_reducible apply SatO2_mapO
                 | with_reducible apply SatO2_map2)

theorem finishTransfer_sat (s : State) (x : Transfer) (status : Nat) (data : List Byte) (hK : Clo 0x46c51a P) (hs0 :
    Sat P s) : Sat P (finishTransfer s x status data) := by
  unfold finishTransfer; (try dsimp only)
  repeat' (first | with_reducible assumption | ((with_reducible refine Clo.mono hK ?_); rfl)
                 | with_reducible intro _ | with_reducible apply adapterFailed_sat
                 | with_reducible apply answerTxn_sat | with_reducible apply configPiece_sat
                 | with_reducible apply drawerPiece_sat | with_reducible apply endNeed_sat
                 | with_reducible apply feedPiece_sat | with_reducible apply finish_sat
                 | with_reducible apply freeBytes_sat | with_reducible apply loadDone_sat
                 | with_reducible apply modActive_sat | with_reducible apply modPart_sat
                 | with_reducible apply modTiers_sat | with_reducible apply modVe_sat
                 | with_reducible apply pendWrites_sat | with_reducible apply pieceDone_sat
                 | with_reducible apply txDone_sat | with_reducible apply Sat_id | with_reducible apply Sat_ite
                 | split | (refine snd_sat (by with_reducible assumption) ?_)
                 | (refine some_sat (by with_reducible assumption) ?_)
                 | (refine some2_sat (by with_reducible assumption) ?_) | with_reducible apply SatO_map
                 | with_reducible apply SatO_map2 | with_reducible apply SatO2_mapO
                 | with_reducible apply SatO2_map2 | dsimp only)

theorem applyWrite_sat (s : State) (x : Transfer) (t o : Nat) (hK : Clo 0x30000 P) (hs0 : Sat P s) :
    Sat P (applyWrite s x t o).2 := by
  unfold applyWrite; (try dsimp only)
  repeat' (first | with_reducible assumption | ((with_reducible refine Clo.mono hK ?_); rfl)
                 | with_reducible apply writeTier_sat | with_reducible apply Sat_ite | with_reducible apply Sat2_ite
                 | split | (refine snd_sat (by with_reducible assumption) ?_)
                 | (refine some_sat (by with_reducible assumption) ?_)
                 | (refine some2_sat (by with_reducible assumption) ?_) | dsimp only)

theorem completeTransfer_sat (s : State) (x : Transfer) (status : Nat) (hK : Clo 0x47c51a P) (hs0 : Sat P s) :
    Sat P (completeTransfer s x status) := by
  unfold completeTransfer; (try dsimp only)
  repeat' (first | with_reducible assumption | ((with_reducible refine Clo.mono hK ?_); rfl)
                 | with_reducible apply applyWrite_sat | with_reducible apply countStepTier_sat
                 | with_reducible apply countTier_sat | with_reducible apply dropTransfer_sat
                 | with_reducible apply finishTransfer_sat | with_reducible apply freeBytes_sat
                 | with_reducible apply mirrorWrite_sat | with_reducible apply writeTier_sat
                 | with_reducible apply Sat_id | with_reducible apply Sat_ite | split
                 | (refine snd_sat (by with_reducible assumption) ?_)
                 | (refine some_sat (by with_reducible assumption) ?_)
                 | (refine some2_sat (by with_reducible assumption) ?_) | dsimp only)

theorem releaseGate_sat (s : State) (g : Nat) (hK : Clo 0x47c51a P) (hs0 : Sat P s) : Sat P (releaseGate s g) := by
  unfold releaseGate; (try dsimp only)
  repeat' (first | with_reducible assumption | ((with_reducible refine Clo.mono hK ?_); rfl)
                 | with_reducible intro _ | with_reducible apply Sat_foldl
                 | with_reducible apply completeTransfer_sat | with_reducible apply modTiers_sat
                 | with_reducible apply writeHome_sat | with_reducible apply Sat_id | split
                 | (refine snd_sat (by with_reducible assumption) ?_)
                 | (refine some_sat (by with_reducible assumption) ?_)
                 | (refine some2_sat (by with_reducible assumption) ?_) | dsimp only)

theorem issueTransfer_sat (s : State) (t : Nat) (x : Transfer) (reserved : Bool) (hK : Clo 0x46c51a P) (hs0 :
    Sat P s) : Sat P (issueTransfer s t x reserved) := by
  unfold issueTransfer; (try dsimp only)
  repeat' (first | with_reducible assumption | ((with_reducible refine Clo.mono hK ?_); rfl)
                 | with_reducible intro _ | with_reducible apply dropTransfer_sat
                 | with_reducible apply finishTransfer_sat | with_reducible apply modTiers_sat
                 | with_reducible apply modTransfer_sat | with_reducible apply Sat_id | with_reducible apply Sat_ite
                 | split | (refine snd_sat (by with_reducible assumption) ?_)
                 | (refine some_sat (by with_reducible assumption) ?_)
                 | (refine some2_sat (by with_reducible assumption) ?_) | dsimp only)

/-! ### Moves -/

theorem htMove_sat (s : State) (g t f : Nat) (w : MoveFor) (hK : Clo 0x20000 P) (hs0 : Sat P s) :
    Sat P (htMove s g t f w).2 := by
  unfold htMove; (try dsimp only)
  repeat' (first | with_reducible assumption | ((with_reducible refine Clo.mono hK ?_); rfl)
                 | with_reducible intro _ | with_reducible apply modTiers_sat | with_reducible apply setFrame_sat
                 | with_reducible apply setHt_sat | with_reducible apply Sat_ite | with_reducible apply Sat2_ite
                 | split | (refine snd_sat (by with_reducible assumption) ?_)
                 | (refine some_sat (by with_reducible assumption) ?_)
                 | (refine some2_sat (by with_reducible assumption) ?_) | dsimp only)

theorem modMove_sat (s : State) (g : Nat) (f : Move → Move) (hK : Clo 0x20000 P) (hs0 : Sat P s) :
    Sat P (modMove s g f) := by
  unfold modMove; (try dsimp only)
  repeat' (first | with_reducible assumption | ((with_reducible refine Clo.mono hK ?_); rfl)
                 | with_reducible intro _ | with_reducible apply modTiers_sat | with_reducible apply Sat_ite | split
                 | with_reducible apply SatO_map | with_reducible apply SatO_map2 | with_reducible apply SatO2_mapO
                 | with_reducible apply SatO2_map2)

theorem dropMove_sat (s : State) (g : Nat) (hK : Clo 0x20000 P) (hs0 : Sat P s) : Sat P (dropMove s g) := by
  unfold dropMove; (try dsimp only)
  repeat' (first | with_reducible assumption | ((with_reducible refine Clo.mono hK ?_); rfl)
                 | with_reducible intro _ | with_reducible apply modTiers_sat)

theorem setOp_sat (s : State) (p : Nat) (op : DrawerOp) (hK : Clo 0x100 P) (hs0 : Sat P s) : Sat P (setOp s p op)
    := by
  unfold setOp; (try dsimp only)
  repeat' (first | with_reducible assumption | ((with_reducible refine Clo.mono hK ?_); rfl)
                 | with_reducible intro _ | with_reducible apply modPart_sat | with_reducible apply Sat_ite | split
                 | with_reducible apply SatO_map | with_reducible apply SatO_map2 | with_reducible apply SatO2_mapO
                 | with_reducible apply SatO2_map2)

theorem dropOp_sat (s : State) (p : Nat) (op : DrawerOp) (hK : Clo 0x100 P) (hs0 : Sat P s) : Sat P (dropOp s p op)
    := by
  unfold dropOp; (try dsimp only)
  repeat' (first | with_reducible assumption | ((with_reducible refine Clo.mono hK ?_); rfl)
                 | with_reducible intro _ | with_reducible apply modPart_sat)

theorem setDrawerState_sat (s : State) (d st : Nat) (hK : Clo 0x4000 P) (hs0 : Sat P s) :
    Sat P (setDrawerState s d st) := by
  unfold setDrawerState; (try dsimp only)
  repeat' (first | with_reducible assumption | ((with_reducible refine Clo.mono hK ?_); rfl)
                 | with_reducible apply setDrawer_sat)

theorem openFail_sat (s : State) (p : Nat) (op : DrawerOp) (status detail : Nat) (hK : Clo 0x46c118 P) (hs0 :
    Sat P s) : Sat P (openFail s p op status detail) := by
  unfold openFail; (try dsimp only)
  repeat' (first | with_reducible assumption | ((with_reducible refine Clo.mono hK ?_); rfl)
                 | with_reducible apply dropOp_sat | with_reducible apply endReqs_sat
                 | with_reducible apply finish_sat | with_reducible apply setDrawerState_sat
                 | with_reducible apply Sat_ite | split | (refine snd_sat (by with_reducible assumption) ?_)
                 | (refine some_sat (by with_reducible assumption) ?_)
                 | (refine some2_sat (by with_reducible assumption) ?_) | dsimp only)

theorem openTail_sat (s : State) (p : Nat) (op : DrawerOp) (hK : Clo 0x47c11a P) (hs0 : Sat P s) :
    Sat P (openTail s p op) := by
  unfold openTail; dsimp only
  repeat' (first | with_reducible assumption | ((with_reducible refine Clo.mono hK ?_); rfl)
                 | with_reducible apply openFail_sat | with_reducible apply setDrawer_sat
                 | with_reducible apply modPart_sat | with_reducible apply finish_sat
                 | with_reducible apply dropOp_sat | with_reducible apply draw_sat | split)
  all_goals
    rename_i e
    split at e
    · rename_i e2
      simp only [Option.some.injEq, Prod.mk.injEq] at e
      obtain ⟨_, _, rfl⟩ := e
      exact placeRun_sat _ _ _ (Clo.mono hK rfl) (draw_sat _ (Clo.mono hK rfl) hs0) _ e2
    · rw [Option.map_eq_some_iff] at e
      obtain ⟨u, hu, e⟩ := e
      simp only [Prod.mk.injEq] at e
      obtain ⟨_, _, rfl⟩ := e
      exact placeRun_sat _ _ _ (Clo.mono hK rfl) (draw_sat _ (Clo.mono hK rfl) hs0) _ hu

theorem startMoves_sat (s : State) (p d tier : Nat) (z4 : List Nat) (hK : Clo 0x20002 P) (hs0 : Sat P s) :
    Sat P (startMoves s p d tier z4).2 := by
  induction z4 generalizing s p d tier with
  | nil => unfold startMoves; repeat' (first | with_reducible assumption
                                             | ((with_reducible refine Clo.mono hK ?_); rfl)
                                             | with_reducible apply htMove_sat | with_reducible apply pick_sat
                                             | with_reducible apply Sat_ite | with_reducible apply Sat2_ite | split
                                             | (refine snd_sat (by with_reducible assumption) ?_)
                                             | (refine some_sat (by with_reducible assumption) ?_)
                                             | (refine some2_sat (by with_reducible assumption) ?_) | dsimp only)
  | cons _ _ ih => unfold startMoves; repeat' (first | with_reducible apply ih | with_reducible assumption
                                                     | ((with_reducible refine Clo.mono hK ?_); rfl)
                                                     | with_reducible apply htMove_sat
                                                     | with_reducible apply pick_sat | with_reducible apply Sat_ite
                                                     | with_reducible apply Sat2_ite | split
                                                     | (refine snd_sat (by with_reducible assumption) ?_)
                                                     | (refine some_sat (by with_reducible assumption) ?_)
                                                     | (refine some2_sat (by with_reducible assumption) ?_)
                                                     | dsimp only)

theorem opMoved_sat (s : State) (p : Nat) (op : DrawerOp) (hK : Clo 0x47c11a P) (hs0 : Sat P s) :
    Sat P (opMoved s p op) := by
  unfold opMoved; (try dsimp only)
  repeat' (first | with_reducible assumption | ((with_reducible refine Clo.mono hK ?_); rfl)
                 | with_reducible apply dropOp_sat | with_reducible apply finishAt_sat
                 | with_reducible apply openTail_sat | with_reducible apply setDrawerState_sat
                 | with_reducible apply Sat_ite | split | (refine snd_sat (by with_reducible assumption) ?_)
                 | (refine some_sat (by with_reducible assumption) ?_)
                 | (refine some2_sat (by with_reducible assumption) ?_) | dsimp only)

theorem opFail_sat (s : State) (p : Nat) (op : DrawerOp) (status g : Nat) (hK : Clo 0x47c11a P) (hs0 : Sat P s) :
    Sat P (opFail s p op status g) := by
  unfold opFail; (try dsimp only)
  repeat' (first | with_reducible assumption | ((with_reducible refine Clo.mono hK ?_); rfl)
                 | with_reducible intro _ | with_reducible apply dropOp_sat | with_reducible apply finish_sat
                 | with_reducible apply opMoved_sat | with_reducible apply openFail_sat
                 | with_reducible apply setDrawerState_sat | with_reducible apply setOp_sat
                 | with_reducible apply Sat_ite | split | (refine snd_sat (by with_reducible assumption) ?_)
                 | (refine some_sat (by with_reducible assumption) ?_)
                 | (refine some2_sat (by with_reducible assumption) ?_) | dsimp only)

theorem opAdvance_sat (s : State) (p : Nat) (op : DrawerOp) (hK : Clo 0x47c11a P) (hs0 : Sat P s) :
    Sat P (opAdvance s p op) := by
  unfold opAdvance; (try dsimp only)
  repeat' (first | with_reducible assumption | ((with_reducible refine Clo.mono hK ?_); rfl)
                 | with_reducible intro _ | with_reducible apply opFail_sat | with_reducible apply opMoved_sat
                 | with_reducible apply setOp_sat | with_reducible apply startMoves_sat
                 | with_reducible apply Sat_ite | split | (refine snd_sat (by with_reducible assumption) ?_)
                 | (refine some_sat (by with_reducible assumption) ?_)
                 | (refine some2_sat (by with_reducible assumption) ?_) | dsimp only)

theorem opsOn_sat (s : State) (g : Nat) (hK : Clo 0x47c11a P) (hs0 : Sat P s) : Sat P (opsOn s g) := by
  unfold opsOn; (try dsimp only)
  repeat' (first | with_reducible assumption | ((with_reducible refine Clo.mono hK ?_); rfl)
                 | with_reducible intro _ | with_reducible apply Sat_foldl | with_reducible apply opAdvance_sat
                 | with_reducible apply Sat_ite | split | (refine snd_sat (by with_reducible assumption) ?_)
                 | (refine some_sat (by with_reducible assumption) ?_)
                 | (refine some2_sat (by with_reducible assumption) ?_) | with_reducible apply SatO_map
                 | with_reducible apply SatO_map2 | with_reducible apply SatO2_mapO
                 | with_reducible apply SatO2_map2 | dsimp only)

theorem freeWaiting_sat (s : State) (p : Nat) (hK : Clo 0x460118 P) (hs0 : Sat P s) : Sat P (freeWaiting s p) := by
  unfold freeWaiting; (try dsimp only)
  repeat' (first | with_reducible assumption | ((with_reducible refine Clo.mono hK ?_); rfl)
                 | with_reducible intro _ | with_reducible apply modPart_sat
                 | with_reducible apply releaseGrains_sat | with_reducible apply Sat_ite | split
                 | (refine snd_sat (by with_reducible assumption) ?_)
                 | (refine some_sat (by with_reducible assumption) ?_)
                 | (refine some2_sat (by with_reducible assumption) ?_) | dsimp only)

theorem moveEnded_sat (s : State) (m : Move) (status : Nat) (hK : Clo 0x47c11a P) (hs0 : Sat P s) :
    Sat P (moveEnded s m status) := by
  unfold moveEnded; (try dsimp only)
  repeat' (first | with_reducible assumption | ((with_reducible refine Clo.mono hK ?_); rfl)
                 | with_reducible intro _ | with_reducible apply finish_sat | with_reducible apply freeWaiting_sat
                 | with_reducible apply opFail_sat | with_reducible apply opsOn_sat | split
                 | (refine snd_sat (by with_reducible assumption) ?_)
                 | (refine some_sat (by with_reducible assumption) ?_)
                 | (refine some2_sat (by with_reducible assumption) ?_) | dsimp only)

theorem moveAbort_sat (s : State) (g status : Nat) (hK : Clo 0x47c51a P) (hs0 : Sat P s) :
    Sat P (moveAbort s g status) := by
  unfold moveAbort; (try dsimp only)
  repeat' (first | with_reducible assumption | ((with_reducible refine Clo.mono hK ?_); rfl)
                 | with_reducible apply dropMove_sat | with_reducible apply moveEnded_sat
                 | with_reducible apply releaseGate_sat | with_reducible apply setFrame_sat
                 | with_reducible apply setHt_sat | with_reducible apply tierEvent_sat
                 | with_reducible apply Sat_ite | split | (refine snd_sat (by with_reducible assumption) ?_)
                 | (refine some_sat (by with_reducible assumption) ?_)
                 | (refine some2_sat (by with_reducible assumption) ?_) | dsimp only)

theorem moveLost_sat (s : State) (g : Nat) (hK : Clo 0x47c51a P) (hs0 : Sat P s) : Sat P (moveLost s g) := by
  unfold moveLost; (try dsimp only)
  repeat' (first | with_reducible assumption | ((with_reducible refine Clo.mono hK ?_); rfl)
                 | with_reducible apply dropMove_sat | with_reducible apply moveEnded_sat
                 | with_reducible apply releaseGate_sat | with_reducible apply Sat_ite | split
                 | (refine snd_sat (by with_reducible assumption) ?_)
                 | (refine some_sat (by with_reducible assumption) ?_)
                 | (refine some2_sat (by with_reducible assumption) ?_) | dsimp only)

theorem abortMoves_sat (s : State) (p status : Nat) (hK : Clo 0x47c51a P) (hs0 : Sat P s) :
    Sat P (abortMoves s p status) := by
  unfold abortMoves; (try dsimp only)
  repeat' (first | with_reducible assumption | ((with_reducible refine Clo.mono hK ?_); rfl)
                 | with_reducible intro _ | with_reducible apply Sat_foldl | with_reducible apply moveAbort_sat)

theorem moveCopy_sat (s : State) (m : Move) (hK : Clo 0x47c51a P) (hs0 : Sat P s) : Sat P (moveCopy s m) := by
  unfold moveCopy; (try dsimp only)
  repeat' (first | with_reducible assumption | ((with_reducible refine Clo.mono hK ?_); rfl)
                 | with_reducible intro _ | with_reducible apply modMove_sat | with_reducible apply moveAbort_sat
                 | with_reducible apply Sat_ite | split | (refine snd_sat (by with_reducible assumption) ?_)
                 | (refine some_sat (by with_reducible assumption) ?_)
                 | (refine some2_sat (by with_reducible assumption) ?_) | dsimp only)

theorem copyGrain_sat (s : State) (m : Move) (hK : Clo 0x30000 P) (hs0 : Sat P s) : Sat P (copyGrain s m) := by
  unfold copyGrain; (try dsimp only)
  repeat' (first | with_reducible assumption | ((with_reducible refine Clo.mono hK ?_); rfl)
                 | with_reducible apply copyBytes_sat)

theorem noteSwitch_sat (s : State) (g tier : Nat) (hK : Clo 0x100 P) (hs0 : Sat P s) : Sat P (noteSwitch s g tier)
    := by
  unfold noteSwitch; (try dsimp only)
  repeat' (first | with_reducible assumption | ((with_reducible refine Clo.mono hK ?_); rfl)
                 | with_reducible intro _ | with_reducible apply Sat_ite | split
                 | (simp only [Sat_mk]; refine clo_parts hK rfl (Sat_fold ?_))
                 | (refine snd_sat (by with_reducible assumption) ?_)
                 | (refine some_sat (by with_reducible assumption) ?_)
                 | (refine some2_sat (by with_reducible assumption) ?_) | with_reducible apply SatO_map
                 | with_reducible apply SatO_map2 | with_reducible apply SatO2_mapO
                 | with_reducible apply SatO2_map2 | dsimp only)

theorem moveSwitch_sat (s : State) (m : Move) (hK : Clo 0x47c51a P) (hs0 : Sat P s) : Sat P (moveSwitch s m) := by
  unfold moveSwitch; (try dsimp only)
  repeat' (first | with_reducible assumption | ((with_reducible refine Clo.mono hK ?_); rfl)
                 | with_reducible intro _ | with_reducible apply copyGrain_sat | with_reducible apply countTier_sat
                 | with_reducible apply finish_sat | with_reducible apply modMove_sat
                 | with_reducible apply noteSwitch_sat | with_reducible apply opsOn_sat
                 | with_reducible apply releaseGate_sat | with_reducible apply setFrame_sat
                 | with_reducible apply setHt_sat | split | (refine snd_sat (by with_reducible assumption) ?_)
                 | (refine some_sat (by with_reducible assumption) ?_)
                 | (refine some2_sat (by with_reducible assumption) ?_) | dsimp only)

theorem moveRelease_sat (s : State) (m : Move) (hK : Clo 0x47c11a P) (hs0 : Sat P s) : Sat P (moveRelease s m) := by
  unfold moveRelease; (try dsimp only)
  repeat' (first | with_reducible assumption | ((with_reducible refine Clo.mono hK ?_); rfl)
                 | with_reducible apply dropMove_sat | with_reducible apply freeWaiting_sat
                 | with_reducible apply opsOn_sat | with_reducible apply setFrame_sat
                 | with_reducible apply setHt_sat | (refine snd_sat (by with_reducible assumption) ?_)
                 | (refine some_sat (by with_reducible assumption) ?_)
                 | (refine some2_sat (by with_reducible assumption) ?_) | dsimp only)

end Sys2Proof.Machine
end

