-- ==== Sys2Proof/Laws/FramesVector.lean ====
section
/-! SUPPORT. What the shared operations and the rows keep: faults, the vector engines and time (Laws/Frames.lean says how to read a lemma). -/

set_option linter.unusedSimpArgs false

open Sys2Proof

namespace Sys2Proof.Machine

variable {P : State → Prop}

/-! ### Faults -/

theorem markBad_sat (s : State) (u : BistUnit) (hK : Clo 0x200000 P) (hs0 : Sat P s) : Sat P (markBad s u) := by
  unfold markBad; (try dsimp only)
  repeat' (first | with_reducible assumption | ((with_reducible refine Clo.mono hK ?_); rfl)
                 | with_reducible intro _ | with_reducible apply modSafety_sat | split
                 | (refine snd_sat (by with_reducible assumption) ?_)
                 | (refine some_sat (by with_reducible assumption) ?_)
                 | (refine some2_sat (by with_reducible assumption) ?_) | dsimp only)

theorem retestUnit_sat (s : State) (u : BistUnit) (hK : Clo 0x200000 P) (hs0 : Sat P s) : Sat P (retestUnit s u) := by
  unfold retestUnit; (try dsimp only)
  repeat' (first | with_reducible assumption | ((with_reducible refine Clo.mono hK ?_); rfl)
                 | with_reducible intro _ | with_reducible apply Sat_elim | with_reducible apply markBad_sat
                 | with_reducible apply modSafety_sat | with_reducible apply Sat_ite | split
                 | (refine snd_sat (by with_reducible assumption) ?_)
                 | (refine some_sat (by with_reducible assumption) ?_)
                 | (refine some2_sat (by with_reducible assumption) ?_) | dsimp only)

theorem alert_sat (s : State) (hK : Clo 0x40 P) (hs0 : Sat P s) : Sat P (alert s) := by
  unfold alert; (try dsimp only)
  repeat' (first | with_reducible assumption | ((with_reducible refine Clo.mono hK ?_); rfl)
                 | with_reducible intro _ | with_reducible apply modLands_sat)

theorem recordFault_sat (s : State) (kind p block step unit cfgid : Nat) (data : List Byte) (u : Option BistUnit)
    (hK : Clo 0x200058 P) (hs0 : Sat P s) : Sat P (recordFault s kind p block step unit cfgid data u).2 := by
  unfold recordFault; (try dsimp only)
  repeat' (first | with_reducible assumption | ((with_reducible refine Clo.mono hK ?_); rfl)
                 | with_reducible intro _ | with_reducible apply alert_sat | with_reducible apply event_sat
                 | with_reducible apply modSafety_sat | with_reducible apply retestUnit_sat
                 | with_reducible apply Sat_ite | with_reducible apply Sat2_ite | split
                 | (refine snd_sat (by with_reducible assumption) ?_)
                 | (refine some_sat (by with_reducible assumption) ?_)
                 | (refine some2_sat (by with_reducible assumption) ?_) | dsimp only)

theorem forgetTiles_sat (s : State) (p : Nat) (hK : Clo 0x202 P) (hs0 : Sat P s) : Sat P (forgetTiles s p) := by
  unfold forgetTiles; (try dsimp only)
  repeat' (first | with_reducible assumption | ((with_reducible refine Clo.mono hK ?_); rfl)
                 | with_reducible intro _ | with_reducible apply draw_sat | with_reducible apply Sat_ite | split
                 | (simp only [Sat_mk]; refine clo_draw hK rfl (clo_tiles hK rfl (Sat_fold ?_)))
                 | (refine snd_sat (by with_reducible assumption) ?_)
                 | (refine some_sat (by with_reducible assumption) ?_)
                 | (refine some2_sat (by with_reducible assumption) ?_) | with_reducible apply SatO_map
                 | with_reducible apply SatO_map2 | with_reducible apply SatO2_mapO
                 | with_reducible apply SatO2_map2 | dsimp only)

theorem lastDrain_sat (s : State) (p : Nat) (hK : Clo 0x20100 P) (hs0 : Sat P s) : Sat P (lastDrain s p) := by
  unfold lastDrain; (try dsimp only)
  repeat' (first | with_reducible assumption | ((with_reducible refine Clo.mono hK ?_); rfl)
                 | with_reducible intro _ | with_reducible apply discardTransfers_sat
                 | with_reducible apply modPart_sat | with_reducible apply Sat_ite | split)

theorem arrayReset_sat (s : State) (p : Nat) (hK : Clo 0x23702 P) (hs0 : Sat P s) : Sat P (arrayReset s p) := by
  unfold arrayReset; (try dsimp only)
  repeat' (first | with_reducible assumption | ((with_reducible refine Clo.mono hK ?_); rfl)
                 | with_reducible intro _ | with_reducible apply Sat_foldl
                 | with_reducible apply discardTransfers_sat | with_reducible apply draw_sat
                 | with_reducible apply forgetTiles_sat | with_reducible apply lastDrain_sat
                 | with_reducible apply modPart_sat | with_reducible apply Sat_ite | split
                 | (simp only [Sat_mk]; refine clo_draw hK rfl (clo_tiles hK rfl (clo_ves hK rfl (clo_veNet hK rfl (clo_injectOut hK rfl (Sat_fold ?_))))))
                 | (refine snd_sat (by with_reducible assumption) ?_)
                 | (refine some_sat (by with_reducible assumption) ?_)
                 | (refine some2_sat (by with_reducible assumption) ?_) | with_reducible apply SatO_map
                 | with_reducible apply SatO_map2 | with_reducible apply SatO2_mapO
                 | with_reducible apply SatO2_map2 | dsimp only)

theorem expertCancel_sat (s : State) (p : Nat) (k : Step) (hK : Clo 0x40118 P) (hs0 : Sat P s) :
    Sat P (expertCancel s p k) := by
  unfold expertCancel; (try dsimp only)
  repeat' (first | with_reducible assumption | ((with_reducible refine Clo.mono hK ?_); rfl)
                 | with_reducible intro _ | with_reducible apply Sat_foldl | with_reducible apply sendExpert_sat
                 | with_reducible apply Sat_id | with_reducible apply Sat_ite | split
                 | (refine snd_sat (by with_reducible assumption) ?_)
                 | (refine some_sat (by with_reducible assumption) ?_)
                 | (refine some2_sat (by with_reducible assumption) ?_) | dsimp only)

theorem riderBack_sat (s : State) (p : Nat) (op : DrawerOp) (status detail : Nat) (waits : Bool)
    (hK : Clo 0x464118 P) (hs0 : Sat P s) : Sat P (riderBack s p op status detail waits) := by
  unfold riderBack; (try dsimp only)
  repeat' (first | with_reducible assumption | ((with_reducible refine Clo.mono hK ?_); rfl)
                 | with_reducible apply dropOp_sat | with_reducible apply finish_sat
                 | with_reducible apply releaseGrains_sat | with_reducible apply setDrawerState_sat
                 | with_reducible apply setOp_sat | with_reducible apply Sat_ite | split
                 | (refine snd_sat (by with_reducible assumption) ?_)
                 | (refine some_sat (by with_reducible assumption) ?_)
                 | (refine some2_sat (by with_reducible assumption) ?_) | dsimp only)

theorem stepAbandon_sat (s : State) (p status detail : Nat) (evict : Bool) (hK : Clo 0x46c31a P) (hs0 : Sat P s) :
    Sat P (stepAbandon s p status detail evict) := by
  unfold stepAbandon; (try dsimp only)
  repeat' (first | with_reducible assumption | ((with_reducible refine Clo.mono hK ?_); rfl)
                 | with_reducible intro _ | with_reducible apply Sat_foldl | with_reducible apply expertCancel_sat
                 | with_reducible apply forgetTiles_sat | with_reducible apply lastDrain_sat
                 | with_reducible apply modPart_sat | with_reducible apply reqEnd_sat
                 | with_reducible apply riderBack_sat | with_reducible apply Sat_ite | split
                 | (refine snd_sat (by with_reducible assumption) ?_)
                 | (refine some_sat (by with_reducible assumption) ?_)
                 | (refine some2_sat (by with_reducible assumption) ?_) | dsimp only)

theorem stepFault_sat (s : State) (p status detail : Nat) (hK : Clo 0x46f71a P) (hs0 : Sat P s) :
    Sat P (stepFault s p status detail) := by
  unfold stepFault; (try dsimp only)
  repeat' (first | with_reducible assumption | ((with_reducible refine Clo.mono hK ?_); rfl)
                 | with_reducible intro _ | with_reducible apply arrayReset_sat | with_reducible apply modStream_sat
                 | with_reducible apply stepAbandon_sat | split | (refine snd_sat (by with_reducible assumption) ?_)
                 | (refine some_sat (by with_reducible assumption) ?_)
                 | (refine some2_sat (by with_reducible assumption) ?_) | dsimp only)

theorem tileFault_sat (s : State) (t kind cfgid : Nat) (data : List Byte) (hK : Clo 0x66f75a P) (hs0 : Sat P s) :
    Sat P (tileFault s t kind cfgid data) := by
  unfold tileFault; (try dsimp only)
  repeat' (first | with_reducible assumption | ((with_reducible refine Clo.mono hK ?_); rfl)
                 | with_reducible apply recordFault_sat | with_reducible apply stepFault_sat | split
                 | (refine snd_sat (by with_reducible assumption) ?_)
                 | (refine some_sat (by with_reducible assumption) ?_)
                 | (refine some2_sat (by with_reducible assumption) ?_) | dsimp only)

theorem veFault_sat (s : State) (b kind : Nat) (data : List Byte) (hK : Clo 0x66f75a P) (hs0 : Sat P s) :
    Sat P (veFault s b kind data) := by
  unfold veFault; (try dsimp only)
  repeat' (first | with_reducible assumption | ((with_reducible refine Clo.mono hK ?_); rfl)
                 | with_reducible apply recordFault_sat | with_reducible apply stepFault_sat | split
                 | (refine snd_sat (by with_reducible assumption) ?_)
                 | (refine some_sat (by with_reducible assumption) ?_)
                 | (refine some2_sat (by with_reducible assumption) ?_) | dsimp only)

theorem everyStepFault_sat (s : State) (kind unit : Nat) (data : List Byte) (u : Option BistUnit)
    (hK : Clo 0x66f75a P) (hs0 : Sat P s) : Sat P (everyStepFault s kind unit data u) := by
  unfold everyStepFault; (try dsimp only)
  repeat' (first | with_reducible assumption | ((with_reducible refine Clo.mono hK ?_); rfl)
                 | with_reducible intro _ | with_reducible apply Sat_foldl | with_reducible apply recordFault_sat
                 | with_reducible apply stepFault_sat | (refine snd_sat (by with_reducible assumption) ?_)
                 | (refine some_sat (by with_reducible assumption) ?_)
                 | (refine some2_sat (by with_reducible assumption) ?_) | dsimp only)

theorem dropLink_sat (s : State) (l : Nat) (hK : Clo 0x40000 P) (hs0 : Sat P s) : Sat P (dropLink s l) := by
  unfold dropLink; (try dsimp only)
  repeat' (first | with_reducible assumption | ((with_reducible refine Clo.mono hK ?_); rfl)
                 | with_reducible intro _ | with_reducible apply modFabric_sat | with_reducible apply setLink_sat
                 | (refine snd_sat (by with_reducible assumption) ?_)
                 | (refine some_sat (by with_reducible assumption) ?_)
                 | (refine some2_sat (by with_reducible assumption) ?_) | with_reducible apply SatO_map
                 | with_reducible apply SatO_map2 | with_reducible apply SatO2_mapO
                 | with_reducible apply SatO2_map2 | dsimp only)

theorem safeState_sat (s : State) (status detail : Nat) (hK : Clo 0x46c33a P) (hs0 : Sat P s) :
    Sat P (safeState s status detail) := by
  unfold safeState; (try dsimp only)
  repeat' (first | with_reducible assumption | ((with_reducible refine Clo.mono hK ?_); rfl)
                 | with_reducible intro _ | with_reducible apply Sat_foldl | with_reducible apply dropLink_sat
                 | with_reducible apply modBoot_sat | with_reducible apply modTiers_sat
                 | with_reducible apply stepAbandon_sat | (refine snd_sat (by with_reducible assumption) ?_)
                 | (refine some_sat (by with_reducible assumption) ?_)
                 | (refine some2_sat (by with_reducible assumption) ?_) | dsimp only)

/-! ### Vector -/

theorem dropTxf_sat (s : State) (b : Nat) (hK : Clo 0x20400 P) (hs0 : Sat P s) : Sat P (dropTxf s b) := by
  unfold dropTxf; (try dsimp only)
  repeat' (first | with_reducible assumption | ((with_reducible refine Clo.mono hK ?_); rfl)
                 | with_reducible intro _ | with_reducible apply discardTransfers_sat
                 | with_reducible apply modVe_sat)

theorem enterBuffer_sat (s : State) (b : Nat) (hK : Clo 0x20600 P) (hs0 : Sat P s) : Sat P (enterBuffer s b) := by
  unfold enterBuffer; (try dsimp only)
  repeat' (first | with_reducible assumption | ((with_reducible refine Clo.mono hK ?_); rfl)
                 | with_reducible intro _ | with_reducible apply dropTxf_sat | with_reducible apply modVe_sat
                 | with_reducible apply Sat_ite | split
                 | (simp only [Sat_mk]; refine clo_tiles hK rfl (Sat_fold ?_))
                 | (refine snd_sat (by with_reducible assumption) ?_)
                 | (refine some_sat (by with_reducible assumption) ?_)
                 | (refine some2_sat (by with_reducible assumption) ?_) | with_reducible apply SatO_map
                 | with_reducible apply SatO_map2 | with_reducible apply SatO2_mapO
                 | with_reducible apply SatO2_map2 | dsimp only)

theorem veProgramFault_sat (s : State) (b : Nat) (w : W64) (hK : Clo 0x66f75a P) (hs0 : Sat P s) :
    Sat P (veProgramFault s b w) := by
  unfold veProgramFault; (try dsimp only)
  repeat' (first | with_reducible assumption | ((with_reducible refine Clo.mono hK ?_); rfl)
                 | with_reducible intro _ | with_reducible apply modVe_sat | with_reducible apply veFault_sat
                 | (refine snd_sat (by with_reducible assumption) ?_)
                 | (refine some_sat (by with_reducible assumption) ?_)
                 | (refine some2_sat (by with_reducible assumption) ?_) | dsimp only)

theorem veStorageFault_sat (s : State) (b : Nat) (hK : Clo 0x66f75a P) (hs0 : Sat P s) : Sat P (veStorageFault s b)
    := by
  unfold veStorageFault; (try dsimp only)
  repeat' (first | with_reducible assumption | ((with_reducible refine Clo.mono hK ?_); rfl)
                 | with_reducible apply enterBuffer_sat | with_reducible apply freeBytes_sat
                 | with_reducible apply veFault_sat | (refine snd_sat (by with_reducible assumption) ?_)
                 | (refine some_sat (by with_reducible assumption) ?_)
                 | (refine some2_sat (by with_reducible assumption) ?_) | dsimp only)

theorem countIssue_sat (s : State) (b : Nat) (hK : Clo 0x100 P) (hs0 : Sat P s) : Sat P (countIssue s b) := by
  unfold countIssue; (try dsimp only)
  repeat' (first | with_reducible assumption | ((with_reducible refine Clo.mono hK ?_); rfl)
                 | with_reducible intro _ | with_reducible apply modPart_sat | split
                 | (refine snd_sat (by with_reducible assumption) ?_)
                 | (refine some_sat (by with_reducible assumption) ?_)
                 | (refine some2_sat (by with_reducible assumption) ?_) | dsimp only)

theorem issued_sat (s : State) (b : Nat) (hK : Clo 0x500 P) (hs0 : Sat P s) : Sat P (issued s b) := by
  unfold issued; (try dsimp only)
  repeat' (first | with_reducible assumption | ((with_reducible refine Clo.mono hK ?_); rfl)
                 | with_reducible intro _ | with_reducible apply countIssue_sat | with_reducible apply modVe_sat)

theorem veRead_sat (b opc : Nat) (ecc : Ecc) (reads : W64 → State → Bool) (f : W64 → State →
    Except State (Option State)) (s : State)
    (hf : ∀ w s, Sat P s → SatE P (f w s)) (hK : Clo 0x66f75a P) (hs0 : Sat P s) : Sat P (veRead b opc ecc reads f s) := by
  have h := hf (fetchVe (ve s b)) s hs0
  unfold veRead; dsimp only
  generalize f (fetchVe (ve s b)) s = r at h ⊢
  split
  · exact hs0
  split
  · exact veProgramFault_sat _ _ _ (Clo.mono hK rfl) hs0
  rcases r with t | (_ | t)
  · exact veProgramFault_sat _ _ _ (Clo.mono hK rfl) h
  · exact modVe_sat _ _ _ (Clo.mono hK rfl) hs0
  · dsimp only
    replace h : Sat P t := h
    repeat' (first | with_reducible assumption | ((with_reducible refine Clo.mono hK ?_); rfl)
                   | with_reducible apply modVe_sat | with_reducible apply issued_sat
                   | with_reducible apply veStorageFault_sat | split)

theorem veIssue_sat (b opc : Nat) (f : W64 → State → Except State (Option State)) (s : State)
    (hf : ∀ w s, Sat P s → SatE P (f w s)) (hK : Clo 0x66f75a P) (hs0 : Sat P s) : Sat P (veIssue b opc f s) := veRead_sat _ _ _ _ _ _ hf (Clo.mono hK rfl) hs0

theorem regOp_sat (b : Nat) (f : W64 → Ve → Option Ve) (w : W64) (s : State) (hK : Clo 0x400 P) (hs0 : Sat P s) :
    SatE P (regOp b f w s) := by
  unfold regOp; (try dsimp only)
  repeat' (first | with_reducible assumption | ((with_reducible refine Clo.mono hK ?_); rfl)
                 | with_reducible intro _ | with_reducible apply setVe_sat | split
                 | (simp only [SatE_error, SatE_none, SatE_some]) | with_reducible exact trivial
                 | (refine snd_sat (by with_reducible assumption) ?_)
                 | (refine some_sat (by with_reducible assumption) ?_)
                 | (refine some2_sat (by with_reducible assumption) ?_) | dsimp only)

theorem vecOp_sat (b : Nat) (f : W64 → Ve → VReg) (z2 : W64) (z3 : State) (hK : Clo 0x400 P) (hs0 : Sat P z3) :
    SatE P (vecOp b f z2 z3) := by
  unfold vecOp; (try dsimp only)
  repeat' (first | with_reducible assumption | ((with_reducible refine Clo.mono hK ?_); rfl)
                 | with_reducible intro _ | with_reducible apply regOp_sat
                 | (simp only [SatE_error, SatE_none, SatE_some]) | with_reducible exact trivial)

theorem execVeServiceStage_sat (b soft : Nat) (bad : Bool) (s : State) (hK : Clo 0x66f75a P) (hs0 : Sat P s) :
    SatN P (execVeServiceStage b soft bad s) := by
  unfold execVeServiceStage; (try dsimp only)
  repeat' (first | with_reducible assumption | ((with_reducible refine Clo.mono hK ?_); rfl)
                 | with_reducible intro _ | with_reducible apply modVe_sat | with_reducible apply onWf_sat
                 | with_reducible apply veStorageFault_sat | with_reducible apply Sat_ite | split
                 | (simp only [SatN_next]) | (refine snd_sat (by with_reducible assumption) ?_)
                 | (refine some_sat (by with_reducible assumption) ?_)
                 | (refine some2_sat (by with_reducible assumption) ?_) | dsimp only)

theorem mailboxArrival_sat (b src : Nat) (s : State) (hK : Clo 0x1400 P) (hs0 : Sat P s) :
    Sat P (mailboxArrival b src s) := by
  unfold mailboxArrival; (try dsimp only)
  repeat' (first | with_reducible assumption | ((with_reducible refine Clo.mono hK ?_); rfl)
                 | with_reducible intro _ | with_reducible apply modVe_sat | with_reducible apply Sat_ite | split
                 | (simp only [Sat_mk]; refine clo_veNet hK rfl (Sat_fold ?_))
                 | (refine snd_sat (by with_reducible assumption) ?_)
                 | (refine some_sat (by with_reducible assumption) ?_)
                 | (refine some2_sat (by with_reducible assumption) ?_) | dsimp only)

theorem execMailboxWordArrival_sat (b src : Nat) (s : State) (hK : Clo 0x1400 P) (hs0 : Sat P s) :
    SatN P (execMailboxWordArrival b src s) := by
  unfold execMailboxWordArrival; (try dsimp only)
  repeat' (first | with_reducible assumption | ((with_reducible refine Clo.mono hK ?_); rfl)
                 | with_reducible intro _ | with_reducible apply mailboxArrival_sat | with_reducible apply onWf_sat
                 | (simp only [SatN_next]))

theorem bufferStart_sat (b pc : Nat) (ws : List (Nat × Nat)) (s : State) (hK : Clo 0x402 P) (hs0 : Sat P s) :
    Sat P (bufferStart b pc ws s) := by
  unfold bufferStart; (try dsimp only)
  repeat' (first | with_reducible assumption | ((with_reducible refine Clo.mono hK ?_); rfl)
                 | with_reducible intro _ | with_reducible apply draw_sat | with_reducible apply modVe_sat
                 | with_reducible apply Sat_ite | split | (simp only [Sat_mk]; refine clo_draw hK rfl (Sat_fold ?_))
                 | (refine snd_sat (by with_reducible assumption) ?_)
                 | (refine some_sat (by with_reducible assumption) ?_)
                 | (refine some2_sat (by with_reducible assumption) ?_) | dsimp only)

theorem programStart_sat (b pc : Nat) (ws : List (Nat × Nat)) (s : State) (hK : Clo 0x602 P) (hs0 : Sat P s) :
    Sat P (programStart b pc ws s) := by
  unfold programStart; (try dsimp only)
  repeat' (first | with_reducible assumption | ((with_reducible refine Clo.mono hK ?_); rfl)
                 | with_reducible intro _ | with_reducible apply draw_sat | with_reducible apply modVe_sat
                 | with_reducible apply Sat_ite | split
                 | (simp only [Sat_mk]; refine clo_draw hK rfl (clo_tiles hK rfl (Sat_fold ?_)))
                 | (refine snd_sat (by with_reducible assumption) ?_)
                 | (refine some_sat (by with_reducible assumption) ?_)
                 | (refine some2_sat (by with_reducible assumption) ?_) | with_reducible apply SatO_map
                 | with_reducible apply SatO_map2 | with_reducible apply SatO2_mapO
                 | with_reducible apply SatO2_map2 | dsimp only)

theorem execVeProgramStart_sat (b pc : Nat) (buffer : Bool) (words : List (Nat × Nat)) (s : State)
    (hK : Clo 0x602 P) (hs0 : Sat P s) : SatN P (execVeProgramStart b pc buffer words s) := by
  unfold execVeProgramStart; (try dsimp only)
  repeat' (first | with_reducible assumption | ((with_reducible refine Clo.mono hK ?_); rfl)
                 | with_reducible intro _ | with_reducible apply bufferStart_sat | with_reducible apply onWf_sat
                 | with_reducible apply programStart_sat | split | (simp only [SatN_next]))

/-! ### Lanes -/

theorem execNop_sat (b : Nat) (s : State) (hK : Clo 0x66f75a P) (hs0 : Sat P s) : SatN P (execNop b s) := by
  unfold execNop; (try dsimp only)
  repeat' (first | with_reducible assumption | ((with_reducible refine Clo.mono hK ?_); rfl)
                 | with_reducible intro _ | with_reducible apply onWf_sat | with_reducible apply regOp_sat
                 | with_reducible apply veIssue_sat | (simp only [SatN_next]))

theorem execHalt_sat (b : Nat) (s : State) (hK : Clo 0x66f75a P) (hs0 : Sat P s) : SatN P (execHalt b s) := by
  unfold execHalt; (try dsimp only)
  repeat' (first | with_reducible assumption | ((with_reducible refine Clo.mono hK ?_); rfl)
                 | with_reducible intro _ | with_reducible apply onWf_sat | with_reducible apply regOp_sat
                 | with_reducible apply veIssue_sat | (simp only [SatN_next]))

theorem execSbnz_sat (b : Nat) (s : State) (hK : Clo 0x66f75a P) (hs0 : Sat P s) : SatN P (execSbnz b s) := by
  unfold execSbnz; (try dsimp only)
  repeat' (first | with_reducible assumption | ((with_reducible refine Clo.mono hK ?_); rfl)
                 | with_reducible intro _ | with_reducible apply onWf_sat | with_reducible apply regOp_sat
                 | with_reducible apply veIssue_sat | (simp only [SatN_next]))

theorem scalarOp_sat (b : Nat) (names : W64 → List Nat) (f : W64 → Ve → W32) (z3 : W64) (z4 : State)
    (hK : Clo 0x400 P) (hs0 : Sat P z4) : SatE P (scalarOp b names f z3 z4) := by
  unfold scalarOp; (try dsimp only)
  repeat' (first | with_reducible assumption | ((with_reducible refine Clo.mono hK ?_); rfl)
                 | with_reducible intro _ | with_reducible apply regOp_sat | with_reducible apply SatE_ite | split
                 | (simp only [SatE_error, SatE_none, SatE_some]) | with_reducible exact trivial)

theorem execSli_sat (b : Nat) (s : State) (hK : Clo 0x66f75a P) (hs0 : Sat P s) : SatN P (execSli b s) := by
  unfold execSli; (try dsimp only)
  repeat' (first | with_reducible assumption | ((with_reducible refine Clo.mono hK ?_); rfl)
                 | with_reducible intro _ | with_reducible apply onWf_sat | with_reducible apply scalarOp_sat
                 | with_reducible apply veIssue_sat | (simp only [SatN_next]))

theorem execSadd_sat (b : Nat) (s : State) (hK : Clo 0x66f75a P) (hs0 : Sat P s) : SatN P (execSadd b s) := by
  unfold execSadd; (try dsimp only)
  repeat' (first | with_reducible assumption | ((with_reducible refine Clo.mono hK ?_); rfl)
                 | with_reducible intro _ | with_reducible apply onWf_sat | with_reducible apply scalarOp_sat
                 | with_reducible apply veIssue_sat | (simp only [SatN_next]))

theorem execSmul_sat (b : Nat) (s : State) (hK : Clo 0x66f75a P) (hs0 : Sat P s) : SatN P (execSmul b s) := by
  unfold execSmul; (try dsimp only)
  repeat' (first | with_reducible assumption | ((with_reducible refine Clo.mono hK ?_); rfl)
                 | with_reducible intro _ | with_reducible apply onWf_sat | with_reducible apply scalarOp_sat
                 | with_reducible apply veIssue_sat | (simp only [SatN_next]))

theorem execVext_sat (b : Nat) (s : State) (hK : Clo 0x66f75a P) (hs0 : Sat P s) : SatN P (execVext b s) := by
  unfold execVext; (try dsimp only)
  repeat' (first | with_reducible assumption | ((with_reducible refine Clo.mono hK ?_); rfl)
                 | with_reducible intro _ | with_reducible apply onWf_sat | with_reducible apply scalarOp_sat
                 | with_reducible apply veIssue_sat | (simp only [SatN_next]))

theorem laneOp_sat (b : Nat) (f : W32 → W32 → W32 → W32) (z2 : W64) (z3 : State) (hK : Clo 0x400 P) (hs0 : Sat P z3)
    : SatE P (laneOp b f z2 z3) := by
  unfold laneOp; (try dsimp only)
  repeat' (first | with_reducible assumption | ((with_reducible refine Clo.mono hK ?_); rfl)
                 | with_reducible intro _ | with_reducible apply vecOp_sat
                 | (simp only [SatE_error, SatE_none, SatE_some]) | with_reducible exact trivial)

theorem execVbcast_sat (b : Nat) (s : State) (hK : Clo 0x66f75a P) (hs0 : Sat P s) : SatN P (execVbcast b s) := by
  unfold execVbcast; (try dsimp only)
  repeat' (first | with_reducible assumption | ((with_reducible refine Clo.mono hK ?_); rfl)
                 | with_reducible intro _ | with_reducible apply onWf_sat | with_reducible apply regOp_sat
                 | with_reducible apply veIssue_sat | split | (simp only [SatN_next]))

theorem execViota_sat (b : Nat) (s : State) (hK : Clo 0x66f75a P) (hs0 : Sat P s) : SatN P (execViota b s) := by
  unfold execViota; (try dsimp only)
  repeat' (first | with_reducible assumption | ((with_reducible refine Clo.mono hK ?_); rfl)
                 | with_reducible intro _ | with_reducible apply onWf_sat | with_reducible apply veIssue_sat
                 | with_reducible apply vecOp_sat | (simp only [SatN_next]))

theorem execVadd_sat (b : Nat) (s : State) (hK : Clo 0x66f75a P) (hs0 : Sat P s) : SatN P (execVadd b s) := by
  unfold execVadd; (try dsimp only)
  repeat' (first | with_reducible assumption | ((with_reducible refine Clo.mono hK ?_); rfl)
                 | with_reducible intro _ | with_reducible apply laneOp_sat | with_reducible apply onWf_sat
                 | with_reducible apply veIssue_sat | (simp only [SatN_next]))

theorem execVsub_sat (b : Nat) (s : State) (hK : Clo 0x66f75a P) (hs0 : Sat P s) : SatN P (execVsub b s) := by
  unfold execVsub; (try dsimp only)
  repeat' (first | with_reducible assumption | ((with_reducible refine Clo.mono hK ?_); rfl)
                 | with_reducible intro _ | with_reducible apply laneOp_sat | with_reducible apply onWf_sat
                 | with_reducible apply veIssue_sat | (simp only [SatN_next]))

theorem execVmul_sat (b : Nat) (s : State) (hK : Clo 0x66f75a P) (hs0 : Sat P s) : SatN P (execVmul b s) := by
  unfold execVmul; (try dsimp only)
  repeat' (first | with_reducible assumption | ((with_reducible refine Clo.mono hK ?_); rfl)
                 | with_reducible intro _ | with_reducible apply laneOp_sat | with_reducible apply onWf_sat
                 | with_reducible apply veIssue_sat | (simp only [SatN_next]))

theorem execVfma_sat (b : Nat) (s : State) (hK : Clo 0x66f75a P) (hs0 : Sat P s) : SatN P (execVfma b s) := by
  unfold execVfma; (try dsimp only)
  repeat' (first | with_reducible assumption | ((with_reducible refine Clo.mono hK ?_); rfl)
                 | with_reducible intro _ | with_reducible apply laneOp_sat | with_reducible apply onWf_sat
                 | with_reducible apply veIssue_sat | (simp only [SatN_next]))

theorem execVmax_sat (b : Nat) (s : State) (hK : Clo 0x66f75a P) (hs0 : Sat P s) : SatN P (execVmax b s) := by
  unfold execVmax; (try dsimp only)
  repeat' (first | with_reducible assumption | ((with_reducible refine Clo.mono hK ?_); rfl)
                 | with_reducible intro _ | with_reducible apply laneOp_sat | with_reducible apply onWf_sat
                 | with_reducible apply veIssue_sat | (simp only [SatN_next]))

theorem execVmin_sat (b : Nat) (s : State) (hK : Clo 0x66f75a P) (hs0 : Sat P s) : SatN P (execVmin b s) := by
  unfold execVmin; (try dsimp only)
  repeat' (first | with_reducible assumption | ((with_reducible refine Clo.mono hK ?_); rfl)
                 | with_reducible intro _ | with_reducible apply laneOp_sat | with_reducible apply onWf_sat
                 | with_reducible apply veIssue_sat | (simp only [SatN_next]))

theorem execVabs_sat (b : Nat) (s : State) (hK : Clo 0x66f75a P) (hs0 : Sat P s) : SatN P (execVabs b s) := by
  unfold execVabs; (try dsimp only)
  repeat' (first | with_reducible assumption | ((with_reducible refine Clo.mono hK ?_); rfl)
                 | with_reducible intro _ | with_reducible apply laneOp_sat | with_reducible apply onWf_sat
                 | with_reducible apply veIssue_sat | (simp only [SatN_next]))

theorem execVneg_sat (b : Nat) (s : State) (hK : Clo 0x66f75a P) (hs0 : Sat P s) : SatN P (execVneg b s) := by
  unfold execVneg; (try dsimp only)
  repeat' (first | with_reducible assumption | ((with_reducible refine Clo.mono hK ?_); rfl)
                 | with_reducible intro _ | with_reducible apply laneOp_sat | with_reducible apply onWf_sat
                 | with_reducible apply veIssue_sat | (simp only [SatN_next]))

theorem execVcmp_sat (b : Nat) (s : State) (hK : Clo 0x66f75a P) (hs0 : Sat P s) : SatN P (execVcmp b s) := by
  unfold execVcmp; (try dsimp only)
  repeat' (first | with_reducible assumption | ((with_reducible refine Clo.mono hK ?_); rfl)
                 | with_reducible intro _ | with_reducible apply onWf_sat | with_reducible apply regOp_sat
                 | with_reducible apply veIssue_sat | (simp only [SatN_next]))

theorem execVsel_sat (b : Nat) (s : State) (hK : Clo 0x66f75a P) (hs0 : Sat P s) : SatN P (execVsel b s) := by
  unfold execVsel; (try dsimp only)
  repeat' (first | with_reducible assumption | ((with_reducible refine Clo.mono hK ?_); rfl)
                 | with_reducible intro _ | with_reducible apply onWf_sat | with_reducible apply veIssue_sat
                 | with_reducible apply vecOp_sat | split | (simp only [SatN_next]))

theorem execViadd_sat (b : Nat) (s : State) (hK : Clo 0x66f75a P) (hs0 : Sat P s) : SatN P (execViadd b s) := by
  unfold execViadd; (try dsimp only)
  repeat' (first | with_reducible assumption | ((with_reducible refine Clo.mono hK ?_); rfl)
                 | with_reducible intro _ | with_reducible apply laneOp_sat | with_reducible apply onWf_sat
                 | with_reducible apply veIssue_sat | (simp only [SatN_next]))

theorem execVlog_sat (b : Nat) (s : State) (hK : Clo 0x66f75a P) (hs0 : Sat P s) : SatN P (execVlog b s) := by
  unfold execVlog; (try dsimp only)
  repeat' (first | with_reducible assumption | ((with_reducible refine Clo.mono hK ?_); rfl)
                 | with_reducible intro _ | with_reducible apply onWf_sat | with_reducible apply veIssue_sat
                 | with_reducible apply vecOp_sat | (simp only [SatN_next]))

theorem execVshf_sat (b : Nat) (s : State) (hK : Clo 0x66f75a P) (hs0 : Sat P s) : SatN P (execVshf b s) := by
  unfold execVshf; (try dsimp only)
  repeat' (first | with_reducible assumption | ((with_reducible refine Clo.mono hK ?_); rfl)
                 | with_reducible intro _ | with_reducible apply onWf_sat | with_reducible apply veIssue_sat
                 | with_reducible apply vecOp_sat | (simp only [SatN_next]))

theorem execVcvti_sat (b : Nat) (s : State) (hK : Clo 0x66f75a P) (hs0 : Sat P s) : SatN P (execVcvti b s) := by
  unfold execVcvti; (try dsimp only)
  repeat' (first | with_reducible assumption | ((with_reducible refine Clo.mono hK ?_); rfl)
                 | with_reducible intro _ | with_reducible apply onWf_sat | with_reducible apply veIssue_sat
                 | with_reducible apply vecOp_sat | (simp only [SatN_next]))

theorem execMtail_sat (b : Nat) (s : State) (hK : Clo 0x66f75a P) (hs0 : Sat P s) : SatN P (execMtail b s) := by
  unfold execMtail; (try dsimp only)
  repeat' (first | with_reducible assumption | ((with_reducible refine Clo.mono hK ?_); rfl)
                 | with_reducible intro _ | with_reducible apply onWf_sat | with_reducible apply regOp_sat
                 | with_reducible apply veIssue_sat | split | (simp only [SatN_next]))

theorem execMop_sat (b : Nat) (s : State) (hK : Clo 0x66f75a P) (hs0 : Sat P s) : SatN P (execMop b s) := by
  unfold execMop; (try dsimp only)
  repeat' (first | with_reducible assumption | ((with_reducible refine Clo.mono hK ?_); rfl)
                 | with_reducible intro _ | with_reducible apply onWf_sat | with_reducible apply regOp_sat
                 | with_reducible apply veIssue_sat | split | (simp only [SatN_next]))

theorem execMset_sat (b : Nat) (s : State) (hK : Clo 0x66f75a P) (hs0 : Sat P s) : SatN P (execMset b s) := by
  unfold execMset; (try dsimp only)
  repeat' (first | with_reducible assumption | ((with_reducible refine Clo.mono hK ?_); rfl)
                 | with_reducible intro _ | with_reducible apply onWf_sat | with_reducible apply regOp_sat
                 | with_reducible apply veIssue_sat | split | (simp only [SatN_next]))

theorem execVfn_sat (b : Nat) (s : State) (hK : Clo 0x66f75a P) (hs0 : Sat P s) : SatN P (execVfn b s) := by
  unfold execVfn; (try dsimp only)
  repeat' (first | with_reducible assumption | ((with_reducible refine Clo.mono hK ?_); rfl)
                 | with_reducible intro _ | with_reducible apply onWf_sat | with_reducible apply regOp_sat
                 | with_reducible apply veIssue_sat | with_reducible apply Sat_ite | split | (simp only [SatN_next])
                 | (refine snd_sat (by with_reducible assumption) ?_)
                 | (refine some_sat (by with_reducible assumption) ?_)
                 | (refine some2_sat (by with_reducible assumption) ?_) | dsimp only)

theorem execVrsum_sat (b : Nat) (s : State) (hK : Clo 0x66f75a P) (hs0 : Sat P s) : SatN P (execVrsum b s) := by
  unfold execVrsum; (try dsimp only)
  repeat' (first | with_reducible assumption | ((with_reducible refine Clo.mono hK ?_); rfl)
                 | with_reducible intro _ | with_reducible apply onWf_sat | with_reducible apply veIssue_sat
                 | with_reducible apply vecOp_sat | (simp only [SatN_next]))

theorem execVrmax_sat (b : Nat) (s : State) (hK : Clo 0x66f75a P) (hs0 : Sat P s) : SatN P (execVrmax b s) := by
  unfold execVrmax; (try dsimp only)
  repeat' (first | with_reducible assumption | ((with_reducible refine Clo.mono hK ?_); rfl)
                 | with_reducible intro _ | with_reducible apply onWf_sat | with_reducible apply veIssue_sat
                 | with_reducible apply vecOp_sat | (simp only [SatN_next]))

theorem execVrargmax_sat (b : Nat) (s : State) (hK : Clo 0x66f75a P) (hs0 : Sat P s) : SatN P (execVrargmax b s) := by
  unfold execVrargmax; (try dsimp only)
  repeat' (first | with_reducible assumption | ((with_reducible refine Clo.mono hK ?_); rfl)
                 | with_reducible intro _ | with_reducible apply onWf_sat | with_reducible apply veIssue_sat
                 | with_reducible apply vecOp_sat | (simp only [SatN_next]))

theorem execVscan_sat (b : Nat) (s : State) (hK : Clo 0x66f75a P) (hs0 : Sat P s) : SatN P (execVscan b s) := by
  unfold execVscan; (try dsimp only)
  repeat' (first | with_reducible assumption | ((with_reducible refine Clo.mono hK ?_); rfl)
                 | with_reducible intro _ | with_reducible apply onWf_sat | with_reducible apply veIssue_sat
                 | with_reducible apply vecOp_sat | with_reducible apply Sat_getD | (simp only [SatN_next])
                 | (refine snd_sat (by with_reducible assumption) ?_)
                 | (refine some_sat (by with_reducible assumption) ?_)
                 | (refine some2_sat (by with_reducible assumption) ?_) | dsimp only)

theorem execVperm_sat (b : Nat) (s : State) (hK : Clo 0x66f75a P) (hs0 : Sat P s) : SatN P (execVperm b s) := by
  unfold execVperm; (try dsimp only)
  repeat' (first | with_reducible assumption | ((with_reducible refine Clo.mono hK ?_); rfl)
                 | with_reducible intro _ | with_reducible apply onWf_sat | with_reducible apply veIssue_sat
                 | with_reducible apply vecOp_sat | (simp only [SatN_next]))

theorem execVrand_sat (b : Nat) (s : State) (hK : Clo 0x66f75a P) (hs0 : Sat P s) : SatN P (execVrand b s) := by
  unfold execVrand; (try dsimp only)
  repeat' (first | with_reducible assumption | ((with_reducible refine Clo.mono hK ?_); rfl)
                 | with_reducible intro _ | with_reducible apply onWf_sat | with_reducible apply regOp_sat
                 | with_reducible apply veIssue_sat | (simp only [SatN_next]))

theorem execVepoch_sat (b : Nat) (s : State) (hK : Clo 0x66f75a P) (hs0 : Sat P s) : SatN P (execVepoch b s) := by
  unfold execVepoch; (try dsimp only)
  repeat' (first | with_reducible assumption | ((with_reducible refine Clo.mono hK ?_); rfl)
                 | with_reducible intro _ | with_reducible apply Sat_foldl | with_reducible apply Sat_foldr
                 | with_reducible apply Sat_elim | with_reducible apply modVe_sat | with_reducible apply onWf_sat
                 | with_reducible apply veIssue_sat | with_reducible apply Sat_getD | with_reducible apply Sat_id
                 | with_reducible apply Sat_ite | with_reducible apply SatE_ite | with_reducible apply Sat2_ite
                 | split | (simp only [SatE_error, SatE_none, SatE_some, SatO_none, SatO_some, SatN_next])
                 | with_reducible exact trivial | (refine snd_sat (by with_reducible assumption) ?_)
                 | (refine some_sat (by with_reducible assumption) ?_)
                 | (refine some2_sat (by with_reducible assumption) ?_) | with_reducible exact SatO2_none
                 | with_reducible apply SatO2_some | with_reducible apply SatO_map | with_reducible apply SatO_map2
                 | with_reducible apply SatO2_mapO | with_reducible apply SatO2_map2
                 | (refine snd2_sat (by with_reducible assumption) ?_) | with_reducible apply Sat_foldl2
                 | dsimp only)

theorem execVcvt_sat (b : Nat) (s : State) (hK : Clo 0x66f75a P) (hs0 : Sat P s) : SatN P (execVcvt b s) := by
  unfold execVcvt; (try dsimp only)
  repeat' (first | with_reducible assumption | ((with_reducible refine Clo.mono hK ?_); rfl)
                 | with_reducible intro _ | with_reducible apply onWf_sat | with_reducible apply regOp_sat
                 | with_reducible apply veIssue_sat | (simp only [SatN_next]))

theorem execVmxq_sat (b : Nat) (s : State) (hK : Clo 0x66f75a P) (hs0 : Sat P s) : SatN P (execVmxq b s) := by
  unfold execVmxq; (try dsimp only)
  repeat' (first | with_reducible assumption | ((with_reducible refine Clo.mono hK ?_); rfl)
                 | with_reducible intro _ | with_reducible apply onWf_sat | with_reducible apply regOp_sat
                 | with_reducible apply veIssue_sat | (simp only [SatN_next]))

/-! ### Operand -/

theorem execSld_sat (b : Nat) (ecc : Ecc) (s : State) (hK : Clo 0x66f75a P) (hs0 : Sat P s) :
    SatN P (execSld b ecc s) := by
  unfold execSld; (try dsimp only)
  repeat' (first | with_reducible assumption | ((with_reducible refine Clo.mono hK ?_); rfl)
                 | with_reducible intro _ | with_reducible apply onWf_sat | with_reducible apply regOp_sat
                 | with_reducible apply veRead_sat | (simp only [SatN_next]))

theorem execSst_sat (b : Nat) (s : State) (hK : Clo 0x66f75a P) (hs0 : Sat P s) : SatN P (execSst b s) := by
  unfold execSst; (try dsimp only)
  repeat' (first | with_reducible assumption | ((with_reducible refine Clo.mono hK ?_); rfl)
                 | with_reducible intro _ | with_reducible apply onWf_sat | with_reducible apply regOp_sat
                 | with_reducible apply veIssue_sat | (simp only [SatN_next]))

theorem execVld_sat (b : Nat) (ecc : Ecc) (s : State) (hK : Clo 0x66f75a P) (hs0 : Sat P s) :
    SatN P (execVld b ecc s) := by
  unfold execVld; (try dsimp only)
  repeat' (first | with_reducible assumption | ((with_reducible refine Clo.mono hK ?_); rfl)
                 | with_reducible intro _ | with_reducible apply onWf_sat | with_reducible apply regOp_sat
                 | with_reducible apply veRead_sat | (simp only [SatN_next]))

theorem execVst_sat (b : Nat) (s : State) (hK : Clo 0x66f75a P) (hs0 : Sat P s) : SatN P (execVst b s) := by
  unfold execVst; (try dsimp only)
  repeat' (first | with_reducible assumption | ((with_reducible refine Clo.mono hK ?_); rfl)
                 | with_reducible intro _ | with_reducible apply onWf_sat | with_reducible apply regOp_sat
                 | with_reducible apply veIssue_sat | (simp only [SatN_next]))

theorem execVlds_sat (b : Nat) (ecc : Ecc) (s : State) (hK : Clo 0x66f75a P) (hs0 : Sat P s) :
    SatN P (execVlds b ecc s) := by
  unfold execVlds; (try dsimp only)
  repeat' (first | with_reducible assumption | ((with_reducible refine Clo.mono hK ?_); rfl)
                 | with_reducible intro _ | with_reducible apply onWf_sat | with_reducible apply regOp_sat
                 | with_reducible apply veRead_sat | (simp only [SatN_next]))

theorem execVsts_sat (b : Nat) (s : State) (hK : Clo 0x66f75a P) (hs0 : Sat P s) : SatN P (execVsts b s) := by
  unfold execVsts; (try dsimp only)
  repeat' (first | with_reducible assumption | ((with_reducible refine Clo.mono hK ?_); rfl)
                 | with_reducible intro _ | with_reducible apply onWf_sat | with_reducible apply regOp_sat
                 | with_reducible apply veIssue_sat | (simp only [SatN_next]))

theorem execVldx_sat (b : Nat) (ecc : Ecc) (s : State) (hK : Clo 0x66f75a P) (hs0 : Sat P s) :
    SatN P (execVldx b ecc s) := by
  unfold execVldx; (try dsimp only)
  repeat' (first | with_reducible assumption | ((with_reducible refine Clo.mono hK ?_); rfl)
                 | with_reducible intro _ | with_reducible apply onWf_sat | with_reducible apply regOp_sat
                 | with_reducible apply veRead_sat | (simp only [SatN_next]))

theorem execVstx_sat (b : Nat) (s : State) (hK : Clo 0x66f75a P) (hs0 : Sat P s) : SatN P (execVstx b s) := by
  unfold execVstx; (try dsimp only)
  repeat' (first | with_reducible assumption | ((with_reducible refine Clo.mono hK ?_); rfl)
                 | with_reducible intro _ | with_reducible apply onWf_sat | with_reducible apply regOp_sat
                 | with_reducible apply veIssue_sat | (simp only [SatN_next]))

theorem execEpld_sat (b : Nat) (ecc : Ecc) (s : State) (hK : Clo 0x66f75a P) (hs0 : Sat P s) :
    SatN P (execEpld b ecc s) := by
  unfold execEpld; (try dsimp only)
  repeat' (first | with_reducible assumption | ((with_reducible refine Clo.mono hK ?_); rfl)
                 | with_reducible intro _ | with_reducible apply onWf_sat | with_reducible apply regOp_sat
                 | with_reducible apply veRead_sat | (simp only [SatN_next]))

theorem execEprun_sat (b : Nat) (ecc : Ecc) (s : State) (hK : Clo 0x66f75a P) (hs0 : Sat P s) :
    SatN P (execEprun b ecc s) := by
  unfold execEprun; (try dsimp only)
  repeat' (first | with_reducible assumption | ((with_reducible refine Clo.mono hK ?_); rfl)
                 | with_reducible intro _ | with_reducible apply onWf_sat | with_reducible apply regOp_sat
                 | with_reducible apply veRead_sat | (simp only [SatN_next]))

/-! ### Checks -/

theorem execCktol_sat (b : Nat) (s : State) (hK : Clo 0x66f75a P) (hs0 : Sat P s) : SatN P (execCktol b s) := by
  unfold execCktol; (try dsimp only)
  repeat' (first | with_reducible assumption | ((with_reducible refine Clo.mono hK ?_); rfl)
                 | with_reducible intro _ | with_reducible apply onWf_sat | with_reducible apply regOp_sat
                 | with_reducible apply veIssue_sat | (simp only [SatN_next]) | with_reducible apply SatO_map
                 | with_reducible apply SatO_map2 | with_reducible apply SatO2_mapO
                 | with_reducible apply SatO2_map2)

theorem checkCompare_sat (b : Nat) (w : W64) (s : State) (hK : Clo 0x66f75a P) (hs0 : Sat P s) :
    SatE P (checkCompare b w s) := by
  unfold checkCompare; (try dsimp only)
  repeat' (first | with_reducible assumption | ((with_reducible refine Clo.mono hK ?_); rfl)
                 | with_reducible intro _ | with_reducible apply modPart_sat | with_reducible apply setVe_sat
                 | with_reducible apply veFault_sat | split | (simp only [SatE_error, SatE_none, SatE_some])
                 | with_reducible exact trivial | (refine snd_sat (by with_reducible assumption) ?_)
                 | (refine some_sat (by with_reducible assumption) ?_)
                 | (refine some2_sat (by with_reducible assumption) ?_) | with_reducible apply SatO_map
                 | with_reducible apply SatO_map2 | with_reducible apply SatO2_mapO
                 | with_reducible apply SatO2_map2 | dsimp only)

theorem execCkcmp_sat (b : Nat) (s : State) (hK : Clo 0x66f75a P) (hs0 : Sat P s) : SatN P (execCkcmp b s) := by
  unfold execCkcmp; (try dsimp only)
  repeat' (first | with_reducible assumption | ((with_reducible refine Clo.mono hK ?_); rfl)
                 | with_reducible intro _ | with_reducible apply checkCompare_sat | with_reducible apply onWf_sat
                 | with_reducible apply veIssue_sat | (simp only [SatN_next]))

theorem checkDone_sat (b : Nat) (w : W64) (s : State) (hK : Clo 0x500 P) (hs0 : Sat P s) : SatE P (checkDone b w s)
    := by
  unfold checkDone; (try dsimp only)
  repeat' (first | with_reducible assumption | ((with_reducible refine Clo.mono hK ?_); rfl)
                 | with_reducible intro _ | with_reducible apply modPart_sat | with_reducible apply modVe_sat
                 | with_reducible apply Sat_id | with_reducible apply Sat_ite | with_reducible apply SatE_ite
                 | split | (simp only [SatE_error, SatE_none, SatE_some]) | with_reducible exact trivial
                 | (refine snd_sat (by with_reducible assumption) ?_)
                 | (refine some_sat (by with_reducible assumption) ?_)
                 | (refine some2_sat (by with_reducible assumption) ?_) | with_reducible apply SatO_map
                 | with_reducible apply SatO_map2 | with_reducible apply SatO2_mapO
                 | with_reducible apply SatO2_map2 | dsimp only)

theorem execCkdone_sat (b : Nat) (s : State) (hK : Clo 0x66f75a P) (hs0 : Sat P s) : SatN P (execCkdone b s) := by
  unfold execCkdone; (try dsimp only)
  repeat' (first | with_reducible assumption | ((with_reducible refine Clo.mono hK ?_); rfl)
                 | with_reducible intro _ | with_reducible apply checkDone_sat | with_reducible apply onWf_sat
                 | with_reducible apply veIssue_sat | (simp only [SatN_next]))

/-! ### Clock -/

theorem advance_sat (s : State) (hK : Clo 0x4 P) (hs0 : Sat P s) : Sat P (advance s) := by
  unfold advance; (try dsimp only)
  repeat' (first | with_reducible assumption | ((with_reducible refine Clo.mono hK ?_); rfl)
                 | with_reducible apply Sat_ite | split
                 | (simp only [Sat_mk]; refine clo_time hK rfl (Sat_fold ?_)))

theorem timerefEvent_sat (s : State) (kind : Nat) (hK : Clo 0x18 P) (hs0 : Sat P s) : Sat P (timerefEvent s kind)
    := by
  unfold timerefEvent; (try dsimp only)
  repeat' (first | with_reducible assumption | ((with_reducible refine Clo.mono hK ?_); rfl)
                 | with_reducible apply event_sat | with_reducible apply Sat_ite | split)

theorem timerefEdge_sat (gap : Nat) (s : State) (hK : Clo 0x4 P) (hs0 : Sat P s) : Sat P (timerefEdge gap s) := by
  unfold timerefEdge; (try dsimp only)
  repeat' (first | with_reducible assumption | ((with_reducible refine Clo.mono hK ?_); rfl)
                 | with_reducible apply advance_sat | with_reducible apply Sat_ite | split
                 | (simp only [Sat_mk]; refine clo_time hK rfl (Sat_fold ?_))
                 | (refine snd_sat (by with_reducible assumption) ?_)
                 | (refine some_sat (by with_reducible assumption) ?_)
                 | (refine some2_sat (by with_reducible assumption) ?_) | dsimp only)

theorem execTimerefEdge_sat (sinceAdvance : Nat) (s : State) (hK : Clo 0x4 P) (hs0 : Sat P s) :
    SatN P (execTimerefEdge sinceAdvance s) := by
  unfold execTimerefEdge; (try dsimp only)
  repeat' (first | with_reducible assumption | ((with_reducible refine Clo.mono hK ?_); rfl)
                 | with_reducible intro _ | with_reducible apply onWf_sat | with_reducible apply timerefEdge_sat
                 | (simp only [SatN_next]))

theorem oscillatorAdvance_sat (gap : Nat) (s : State) (hK : Clo 0x4 P) (hs0 : Sat P s) :
    Sat P (oscillatorAdvance gap s) := by
  unfold oscillatorAdvance; (try dsimp only)
  repeat' (first | with_reducible assumption | ((with_reducible refine Clo.mono hK ?_); rfl)
                 | with_reducible apply advance_sat | with_reducible apply Sat_ite | split
                 | (simp only [Sat_mk]; refine clo_time hK rfl (Sat_fold ?_)))

theorem execOscillatorAdvance_sat (sinceEdge : Nat) (s : State) (hK : Clo 0x4 P) (hs0 : Sat P s) :
    SatN P (execOscillatorAdvance sinceEdge s) := by
  unfold execOscillatorAdvance; (try dsimp only)
  repeat' (first | with_reducible assumption | ((with_reducible refine Clo.mono hK ?_); rfl)
                 | with_reducible intro _ | with_reducible apply onWf_sat
                 | with_reducible apply oscillatorAdvance_sat | (simp only [SatN_next]))

theorem timerefLoss_sat (gap : Nat) (s : State) (hK : Clo 0x1c P) (hs0 : Sat P s) : Sat P (timerefLoss gap s) := by
  unfold timerefLoss; (try dsimp only)
  repeat' (first | with_reducible assumption | ((with_reducible refine Clo.mono hK ?_); rfl)
                 | with_reducible apply timerefEvent_sat | with_reducible apply Sat_ite | split
                 | (simp only [Sat_mk]; refine clo_time hK rfl (Sat_fold ?_)))

theorem execTimerefLoss_sat (sinceEdge : Nat) (s : State) (hK : Clo 0x1c P) (hs0 : Sat P s) :
    SatN P (execTimerefLoss sinceEdge s) := by
  unfold execTimerefLoss; (try dsimp only)
  repeat' (first | with_reducible assumption | ((with_reducible refine Clo.mono hK ?_); rfl)
                 | with_reducible intro _ | with_reducible apply onWf_sat | with_reducible apply timerefLoss_sat
                 | (simp only [SatN_next]))

theorem timerefReturn_sat (present gap : Nat) (s : State) (hK : Clo 0x1c P) (hs0 : Sat P s) :
    Sat P (timerefReturn present gap s) := by
  unfold timerefReturn; (try dsimp only)
  repeat' (first | with_reducible assumption | ((with_reducible refine Clo.mono hK ?_); rfl)
                 | with_reducible apply advance_sat | with_reducible apply timerefEvent_sat
                 | with_reducible apply Sat_ite | split | (simp only [Sat_mk]; refine clo_time hK rfl (Sat_fold ?_))
                 | (refine snd_sat (by with_reducible assumption) ?_)
                 | (refine some_sat (by with_reducible assumption) ?_)
                 | (refine some2_sat (by with_reducible assumption) ?_) | dsimp only)

theorem execTimerefReturn_sat (present sinceAdvance : Nat) (s : State) (hK : Clo 0x1c P) (hs0 : Sat P s) :
    SatN P (execTimerefReturn present sinceAdvance s) := by
  unfold execTimerefReturn; (try dsimp only)
  repeat' (first | with_reducible assumption | ((with_reducible refine Clo.mono hK ?_); rfl)
                 | with_reducible intro _ | with_reducible apply onWf_sat | with_reducible apply timerefReturn_sat
                 | (simp only [SatN_next]))

theorem apportion_sat (s : State) (r : Nat) (hK : Clo 0x800100 P) (hs0 : Sat P s) : Sat P (apportion s r) := by
  unfold apportion; (try dsimp only)
  repeat' (first | with_reducible assumption | ((with_reducible refine Clo.mono hK ?_); rfl)
                 | with_reducible intro _ | with_reducible apply Sat_foldl | with_reducible apply modPart_sat
                 | with_reducible apply modPower_sat | with_reducible apply Sat_ite | split
                 | (refine snd_sat (by with_reducible assumption) ?_)
                 | (refine some_sat (by with_reducible assumption) ?_)
                 | (refine some2_sat (by with_reducible assumption) ?_) | with_reducible apply SatO_map
                 | with_reducible apply SatO_map2 | with_reducible apply SatO2_mapO
                 | with_reducible apply SatO2_map2 | dsimp only)

theorem accountingInterval_sat (s : State) (hK : Clo 0x800100 P) (hs0 : Sat P s) : Sat P (accountingInterval s) := by
  unfold accountingInterval; (try dsimp only)
  repeat' (first | with_reducible assumption | ((with_reducible refine Clo.mono hK ?_); rfl)
                 | with_reducible intro _ | with_reducible apply Sat_foldl | with_reducible apply apportion_sat
                 | with_reducible apply modPower_sat | with_reducible apply Sat_ite | split
                 | (simp only [Sat_mk]; refine clo_parts hK rfl (Sat_fold ?_))
                 | (refine snd_sat (by with_reducible assumption) ?_)
                 | (refine some_sat (by with_reducible assumption) ?_)
                 | (refine some2_sat (by with_reducible assumption) ?_) | with_reducible apply SatO_map
                 | with_reducible apply SatO_map2 | with_reducible apply SatO2_mapO
                 | with_reducible apply SatO2_map2 | dsimp only)

theorem execAccountingInterval_sat (s : State) (hK : Clo 0x800100 P) (hs0 : Sat P s) :
    SatN P (execAccountingInterval s) := by
  unfold execAccountingInterval; (try dsimp only)
  repeat' (first | with_reducible assumption | ((with_reducible refine Clo.mono hK ?_); rfl)
                 | with_reducible intro _ | with_reducible apply accountingInterval_sat
                 | with_reducible apply onWf_sat | (simp only [SatN_next]))

theorem alertEnd_sat (s : State) (hK : Clo 0x40 P) (hs0 : Sat P s) : Sat P (alertEnd s) := by
  unfold alertEnd; (try dsimp only)
  repeat' (first | with_reducible assumption | ((with_reducible refine Clo.mono hK ?_); rfl)
                 | with_reducible intro _ | with_reducible apply modLands_sat | with_reducible apply Sat_ite
                 | split)

theorem execAlertPulseEnd_sat (s : State) (hK : Clo 0x40 P) (hs0 : Sat P s) : SatN P (execAlertPulseEnd s) := by
  unfold execAlertPulseEnd; (try dsimp only)
  repeat' (first | with_reducible assumption | ((with_reducible refine Clo.mono hK ?_); rfl)
                 | with_reducible intro _ | with_reducible apply alertEnd_sat | with_reducible apply onWf_sat
                 | (simp only [SatN_next]))

end Sys2Proof.Machine
end

