-- ==== Sys2Proof/Laws/FramesServing.lean ====
section
/-! SUPPORT. What the shared operations and the rows keep: steps, requests, drawers, loads, streams, models and experts (Laws/Frames.lean says how to read a lemma). -/

set_option linter.unusedSimpArgs false

open Sys2Proof

namespace Sys2Proof.Machine

variable {P : State → Prop}

/-! ### Publish -/

theorem putWindow_sat (s : State) (p off : Nat) (bs : List Byte) (hK : Clo 0x470118 P) (hs0 : Sat P s) :
    Sat P (putWindow s p off bs) := by
  unfold putWindow; (try dsimp only)
  repeat' (first | with_reducible assumption | ((with_reducible refine Clo.mono hK ?_); rfl)
                 | with_reducible intro _ | with_reducible apply countStepTier_sat
                 | with_reducible apply mirrorWrite_sat | with_reducible apply modTiers_sat
                 | with_reducible apply writeHome_sat | with_reducible apply Sat_ite | split
                 | (refine snd_sat (by with_reducible assumption) ?_)
                 | (refine some_sat (by with_reducible assumption) ?_)
                 | (refine some2_sat (by with_reducible assumption) ?_) | dsimp only)

theorem ringWrite_sat (s : State) (p base cap n pos : Nat) (bs : List Byte) (hK : Clo 0x470118 P) (hs0 : Sat P s) :
    Sat P (ringWrite s p base cap n pos bs) := by
  induction n generalizing s pos bs with
  | zero => exact hs0
  | succ n ih => exact ih _ _ _ (putWindow_sat _ _ _ _ (Clo.mono hK rfl) hs0)

theorem writeReport_sat (s : State) (p : Nat) (k : Step) (m : Model) (toks : List Nat) (fail : Option Nat)
    (hK : Clo 0x478118 P) (hs0 : Sat P s) : Sat P (writeReport s p k m toks fail).2 := by
  unfold writeReport; (try dsimp only)
  repeat' (first | with_reducible assumption | ((with_reducible refine Clo.mono hK ?_); rfl)
                 | with_reducible apply ringWrite_sat | with_reducible apply sendEntry_sat
                 | with_reducible apply setRegion_sat | with_reducible apply Sat_id | with_reducible apply Sat_ite
                 | with_reducible apply Sat2_ite | split | (refine snd_sat (by with_reducible assumption) ?_)
                 | (refine some_sat (by with_reducible assumption) ?_)
                 | (refine some2_sat (by with_reducible assumption) ?_) | dsimp only)

theorem commitObject_sat (s : State) (p : Nat) (k : Step) (r : Req) (n : Nat) (fail : Option Nat)
    (hK : Clo 0x44c118 P) (hs0 : Sat P s) : Sat P (commitObject s p k r n fail).2.2 := by
  unfold commitObject; (try dsimp only)
  repeat' (first | with_reducible assumption | ((with_reducible refine Clo.mono hK ?_); rfl)
                 | with_reducible apply sendEntry_sat | with_reducible apply setDrawer_sat
                 | with_reducible apply setDrawerState_sat | with_reducible apply setRegion_sat
                 | with_reducible apply Sat_id | with_reducible apply Sat_ite | with_reducible apply Sat2_ite
                 | split | (refine snd_sat (by with_reducible assumption) ?_)
                 | (refine some_sat (by with_reducible assumption) ?_)
                 | (refine some2_sat (by with_reducible assumption) ?_) | dsimp only)

theorem commitMember_sat (p : Nat) (k : Step) (layers : List Nat) (toks fails : List (Nat × Nat))
    (acc : Tally × State) (m : Member) (hK : Clo 0x44c118 P) (hs0 : Sat P acc.2) :
    Sat P (commitMember p k layers toks fails acc m).2 := by
  unfold commitMember; (try dsimp only)
  repeat' (first | with_reducible assumption | ((with_reducible refine Clo.mono hK ?_); rfl)
                 | with_reducible intro _ | with_reducible apply Sat_foldl | with_reducible apply Sat_foldr
                 | with_reducible apply Sat_elim | with_reducible apply commitObject_sat
                 | with_reducible apply modReq_sat | with_reducible apply Sat_getD | with_reducible apply Sat_id
                 | with_reducible apply Sat_ite | with_reducible apply SatE_ite | with_reducible apply Sat2_ite
                 | split | (simp only [SatE_error, SatE_none, SatE_some, SatO_none, SatO_some, SatN_next])
                 | with_reducible exact trivial | (refine snd_sat (by with_reducible assumption) ?_)
                 | (refine some_sat (by with_reducible assumption) ?_)
                 | (refine some2_sat (by with_reducible assumption) ?_) | with_reducible exact SatO2_none
                 | with_reducible apply SatO2_some | with_reducible apply SatO_map | with_reducible apply SatO_map2
                 | with_reducible apply SatO2_mapO | with_reducible apply SatO2_map2
                 | (refine snd2_sat (by with_reducible assumption) ?_) | with_reducible apply Sat_foldl2
                 | dsimp only)

theorem mirrorTail_sat (s : State) (p d oldLen newLen : Nat) (hK : Clo 0x440118 P) (hs0 : Sat P s) :
    Sat P (mirrorTail s p d oldLen newLen) := by
  unfold mirrorTail; (try dsimp only)
  repeat' (first | with_reducible assumption | ((with_reducible refine Clo.mono hK ?_); rfl)
                 | with_reducible intro _ | with_reducible apply Sat_foldl | with_reducible apply mirrorWrite_sat
                 | with_reducible apply Sat_ite | split | (refine snd_sat (by with_reducible assumption) ?_)
                 | (refine some_sat (by with_reducible assumption) ?_)
                 | (refine some2_sat (by with_reducible assumption) ?_) | dsimp only)

theorem commitRider_sat (p : Nat) (k : Step) (fails : List (Nat × Nat))
    (acc : (Nat × Nat × List (Cmd × Nat × Nat)) × State) (op : DrawerOp) (hK : Clo 0x464118 P) (hs0 : Sat P acc.2) :
    Sat P (commitRider p k fails acc op).2 := by
  unfold commitRider; (try dsimp only)
  repeat' (first | with_reducible assumption | ((with_reducible refine Clo.mono hK ?_); rfl)
                 | with_reducible apply mirrorTail_sat | with_reducible apply riderBack_sat
                 | with_reducible apply sendEntry_sat | with_reducible apply setDrawer_sat
                 | with_reducible apply setDrawerState_sat | with_reducible apply setOp_sat
                 | with_reducible apply Sat_id | with_reducible apply Sat_ite | with_reducible apply Sat2_ite
                 | split | (refine snd_sat (by with_reducible assumption) ?_)
                 | (refine some_sat (by with_reducible assumption) ?_)
                 | (refine some2_sat (by with_reducible assumption) ?_) | dsimp only)

theorem closeOn_sat (s : State) (p : Nat) (op : DrawerOp) (hK : Clo 0x47c11a P) (hs0 : Sat P s) :
    Sat P (closeOn s p op) := by
  unfold closeOn; (try dsimp only)
  repeat' (first | with_reducible assumption | ((with_reducible refine Clo.mono hK ?_); rfl)
                 | with_reducible apply opAdvance_sat | with_reducible apply releaseGrains_sat
                 | with_reducible apply setDrawer_sat | with_reducible apply setOp_sat
                 | (refine snd_sat (by with_reducible assumption) ?_)
                 | (refine some_sat (by with_reducible assumption) ?_)
                 | (refine some2_sat (by with_reducible assumption) ?_) | dsimp only)

theorem finishPub_sat (s : State) (p k : Nat) (c : Cmd) (hK : Clo 0x118 P) (hs0 : Sat P s) :
    Sat P (finishPub s p k c) := by
  unfold finishPub; (try dsimp only)
  repeat' (first | with_reducible assumption | ((with_reducible refine Clo.mono hK ?_); rfl)
                 | with_reducible intro _ | with_reducible apply finish_sat | with_reducible apply modPart_sat
                 | with_reducible apply unrun_sat | with_reducible apply Sat_ite | split
                 | (refine snd_sat (by with_reducible assumption) ?_)
                 | (refine some_sat (by with_reducible assumption) ?_)
                 | (refine some2_sat (by with_reducible assumption) ?_) | dsimp only)

theorem riderOn_sat (s : State) (p k : Nat) (op : DrawerOp) (hK : Clo 0x47c11a P) (hs0 : Sat P s) :
    Sat P (riderOn s p k op) := by
  unfold riderOn; (try dsimp only)
  repeat' (first | with_reducible assumption | ((with_reducible refine Clo.mono hK ?_); rfl)
                 | with_reducible apply closeOn_sat | with_reducible apply dropOp_sat
                 | with_reducible apply finishPub_sat | with_reducible apply Sat_ite | split)

theorem chargeReq_sat (s : State) (p : Nat) (e : Cmd × Nat × Nat) (hK : Clo 0x100 P) (hs0 : Sat P s) :
    Sat P (chargeReq s p e) := by
  unfold chargeReq; (try dsimp only)
  repeat' (first | with_reducible assumption | ((with_reducible refine Clo.mono hK ?_); rfl)
                 | with_reducible intro _ | with_reducible apply modReq_sat | with_reducible apply setBudget_sat
                 | split | (refine snd_sat (by with_reducible assumption) ?_)
                 | (refine some_sat (by with_reducible assumption) ?_)
                 | (refine some2_sat (by with_reducible assumption) ?_) | dsimp only)

theorem endWith_sat (s : State) (p k : Nat) (e : Cmd × Nat × Nat) (hK : Clo 0x46c118 P) (hs0 : Sat P s) :
    Sat P (endWith s p k e) := by
  unfold endWith; (try dsimp only)
  repeat' (first | with_reducible assumption | ((with_reducible refine Clo.mono hK ?_); rfl)
                 | with_reducible apply reqEndIn_sat | split | (refine snd_sat (by with_reducible assumption) ?_)
                 | (refine some_sat (by with_reducible assumption) ?_)
                 | (refine some2_sat (by with_reducible assumption) ?_) | dsimp only)

theorem publishComplete_sat (s : State) (p : Nat) (w : PubWait) (hK : Clo 0x47c11a P) (hs0 : Sat P s) :
    Sat P (publishComplete s p w) := by
  unfold publishComplete; (try dsimp only)
  repeat' (first | with_reducible assumption | ((with_reducible refine Clo.mono hK ?_); rfl)
                 | with_reducible intro _ | with_reducible apply Sat_foldl | with_reducible apply chargeReq_sat
                 | with_reducible apply endWith_sat | with_reducible apply modPart_sat
                 | with_reducible apply riderOn_sat | with_reducible apply Sat_id
                 | (refine snd_sat (by with_reducible assumption) ?_)
                 | (refine some_sat (by with_reducible assumption) ?_)
                 | (refine some2_sat (by with_reducible assumption) ?_) | dsimp only)

theorem publishNow_sat (s : State) (p : Nat) (hK : Clo 0x47c11a P) (hs0 : Sat P s) : Sat P (publishNow s p) := by
  unfold publishNow; (try dsimp only)
  repeat' (first | with_reducible assumption | ((with_reducible refine Clo.mono hK ?_); rfl)
                 | with_reducible intro _ | with_reducible apply modPart_sat
                 | with_reducible apply publishComplete_sat | with_reducible apply Sat_id | split
                 | (refine snd_sat (by with_reducible assumption) ?_)
                 | (refine some_sat (by with_reducible assumption) ?_)
                 | (refine some2_sat (by with_reducible assumption) ?_) | dsimp only)

theorem judgeWaiting_sat (s : State) (p : Nat) (hK : Clo 0x46c118 P) (hs0 : Sat P s) : Sat P (judgeWaiting s p) := by
  unfold judgeWaiting; (try dsimp only)
  repeat' (first | with_reducible assumption | ((with_reducible refine Clo.mono hK ?_); rfl)
                 | with_reducible intro _ | with_reducible apply endReqs_sat
                 | (refine snd_sat (by with_reducible assumption) ?_)
                 | (refine some_sat (by with_reducible assumption) ?_)
                 | (refine some2_sat (by with_reducible assumption) ?_) | with_reducible apply SatO_map
                 | with_reducible apply SatO_map2 | with_reducible apply SatO2_mapO
                 | with_reducible apply SatO2_map2 | dsimp only)

theorem commitStep_sat (s : State) (p : Nat) (toks fails : List (Nat × Nat)) (hK : Clo 0x47c31a P) (hs0 : Sat P s) :
    Sat P (commitStep s p toks fails) := by
  unfold commitStep; (try dsimp only)
  repeat' (first | with_reducible assumption | ((with_reducible refine Clo.mono hK ?_); rfl)
                 | with_reducible intro _ | with_reducible apply Sat_foldl | with_reducible apply Sat_foldr
                 | with_reducible apply Sat_elim | with_reducible apply commitMember_sat
                 | with_reducible apply commitRider_sat | with_reducible apply forgetTiles_sat
                 | with_reducible apply judgeWaiting_sat | with_reducible apply modPart_sat
                 | with_reducible apply publishComplete_sat | with_reducible apply sendAcked_sat
                 | with_reducible apply writeReport_sat | with_reducible apply Sat_getD
                 | with_reducible apply Sat_id | with_reducible apply Sat_ite | with_reducible apply SatE_ite
                 | with_reducible apply Sat2_ite | split
                 | (simp only [SatE_error, SatE_none, SatE_some, SatO_none, SatO_some, SatN_next])
                 | with_reducible exact trivial | (refine snd_sat (by with_reducible assumption) ?_)
                 | (refine some_sat (by with_reducible assumption) ?_)
                 | (refine some2_sat (by with_reducible assumption) ?_) | with_reducible exact SatO2_none
                 | with_reducible apply SatO2_some | with_reducible apply SatO_map | with_reducible apply SatO_map2
                 | with_reducible apply SatO2_mapO | with_reducible apply SatO2_map2
                 | (refine snd2_sat (by with_reducible assumption) ?_) | with_reducible apply Sat_foldl2
                 | dsimp only)

/-! ### Scans -/

theorem modJob_sat (s : State) (id : Nat) (f : ScanJob → ScanJob) (hK : Clo 0x20000 P) (hs0 : Sat P s) :
    Sat P (modJob s id f) := by
  unfold modJob; (try dsimp only)
  repeat' (first | with_reducible assumption | ((with_reducible refine Clo.mono hK ?_); rfl)
                 | with_reducible intro _ | with_reducible apply modTiers_sat | with_reducible apply Sat_id
                 | with_reducible apply Sat_ite | split | with_reducible apply SatO_map
                 | with_reducible apply SatO_map2 | with_reducible apply SatO2_mapO
                 | with_reducible apply SatO2_map2)

theorem takeSegment_sat (s : State) (e : Nat) (hK : Clo 0x20000 P) (hs0 : Sat P s) : Sat P (takeSegment s e) := by
  unfold takeSegment; (try dsimp only)
  repeat' (first | with_reducible assumption | ((with_reducible refine Clo.mono hK ?_); rfl)
                 | with_reducible intro _ | with_reducible apply modJob_sat | with_reducible apply modTiers_sat
                 | with_reducible apply Sat_id | with_reducible apply Sat_ite | split
                 | (refine snd_sat (by with_reducible assumption) ?_)
                 | (refine some_sat (by with_reducible assumption) ?_)
                 | (refine some2_sat (by with_reducible assumption) ?_) | dsimp only)

theorem fillEngines_sat (s : State) (hK : Clo 0x20000 P) (hs0 : Sat P s) : Sat P (fillEngines s) := by
  unfold fillEngines; (try dsimp only)
  repeat' (first | with_reducible assumption | ((with_reducible refine Clo.mono hK ?_); rfl)
                 | with_reducible apply Sat_foldl | with_reducible intro _ | with_reducible apply takeSegment_sat)

theorem addScan_sat (s : State) (addr : W64) (len expect : Nat) (cmp zw fg : Bool) (zoff : Nat) (w : ScanFor)
    (hK : Clo 0x20000 P) (hs0 : Sat P s) : Sat P (addScan s addr len expect cmp zw fg zoff w) := by
  unfold addScan; (try dsimp only)
  repeat' (first | with_reducible assumption | ((with_reducible refine Clo.mono hK ?_); rfl)
                 | with_reducible intro _ | with_reducible apply fillEngines_sat | with_reducible apply modTiers_sat
                 | with_reducible apply Sat_id)

theorem dropJob_sat (s : State) (id : Nat) (hK : Clo 0x20000 P) (hs0 : Sat P s) : Sat P (dropJob s id) := by
  unfold dropJob; (try dsimp only)
  repeat' (first | with_reducible assumption | ((with_reducible refine Clo.mono hK ?_); rfl)
                 | with_reducible intro _ | with_reducible apply fillEngines_sat | with_reducible apply modTiers_sat
                 | with_reducible apply Sat_id)

theorem mismatchEvent_sat (s : State) (j : ScanJob) (value : Nat) (hK : Clo 0x18 P) (hs0 : Sat P s) :
    Sat P (mismatchEvent s j value) := by
  unfold mismatchEvent; (try dsimp only)
  repeat' (first | with_reducible assumption | ((with_reducible refine Clo.mono hK ?_); rfl)
                 | with_reducible apply event_sat)

theorem verify_sat (s : State) (a len : Nat) (hK : Clo 0x20000 P) (hs0 : Sat P s) : Sat P (verify s a len) := by
  unfold verify; (try dsimp only)
  repeat' (first | with_reducible assumption | ((with_reducible refine Clo.mono hK ?_); rfl)
                 | with_reducible intro _ | with_reducible apply modTiers_sat)

theorem unverify_sat (s : State) (a : Nat) (hK : Clo 0x20000 P) (hs0 : Sat P s) : Sat P (unverify s a) := by
  unfold unverify; (try dsimp only)
  repeat' (first | with_reducible assumption | ((with_reducible refine Clo.mono hK ?_); rfl)
                 | with_reducible intro _ | with_reducible apply modTiers_sat)

theorem checkKnown_sat (s : State) (p id obj status : Nat) (hK : Clo 0x20018 P) (hs0 : Sat P s) :
    Sat P (checkKnown s p id obj status) := by
  unfold checkKnown; (try dsimp only)
  repeat' (first | with_reducible assumption | ((with_reducible refine Clo.mono hK ?_); rfl)
                 | with_reducible intro _ | with_reducible apply finish_sat | with_reducible apply modTiers_sat
                 | with_reducible apply Sat_id | with_reducible apply Sat_ite | split
                 | (refine snd_sat (by with_reducible assumption) ?_)
                 | (refine some_sat (by with_reducible assumption) ?_)
                 | (refine some2_sat (by with_reducible assumption) ?_) | with_reducible apply SatO_map
                 | with_reducible apply SatO_map2 | with_reducible apply SatO2_mapO
                 | with_reducible apply SatO2_map2 | dsimp only)

theorem modReplace_sat (s : State) (r : Replace) (f : Replace → Replace) (hK : Clo 0x20000 P) (hs0 : Sat P s) :
    Sat P (modReplace s r f) := by
  unfold modReplace; (try dsimp only)
  repeat' (first | with_reducible assumption | ((with_reducible refine Clo.mono hK ?_); rfl)
                 | with_reducible intro _ | with_reducible apply modTiers_sat | with_reducible apply Sat_ite | split
                 | with_reducible apply SatO_map | with_reducible apply SatO_map2 | with_reducible apply SatO2_mapO
                 | with_reducible apply SatO2_map2)

theorem replaceDone_sat (s : State) (r : Replace) (status detail : Nat) (hK : Clo 0x20018 P) (hs0 : Sat P s) :
    Sat P (replaceDone s r status detail) := by
  unfold replaceDone; (try dsimp only)
  repeat' (first | with_reducible assumption | ((with_reducible refine Clo.mono hK ?_); rfl)
                 | with_reducible intro _ | with_reducible apply finish_sat | with_reducible apply modTiers_sat
                 | with_reducible apply unverify_sat | with_reducible apply verify_sat
                 | with_reducible apply Sat_ite | split | (refine snd_sat (by with_reducible assumption) ?_)
                 | (refine some_sat (by with_reducible assumption) ?_)
                 | (refine some2_sat (by with_reducible assumption) ?_) | dsimp only)

theorem migrationEnd_sat (s : State) (p dst : Nat) (hK : Clo 0x100 P) (hs0 : Sat P s) : Sat P (migrationEnd s p dst)
    := by
  unfold migrationEnd; (try dsimp only)
  repeat' (first | with_reducible assumption | ((with_reducible refine Clo.mono hK ?_); rfl)
                 | with_reducible intro _ | with_reducible apply modPart_sat)

theorem modMigration_sat (s : State) (p dst : Nat) (f : Migration → Migration) (hK : Clo 0x100 P) (hs0 : Sat P s) :
    Sat P (modMigration s p dst f) := by
  unfold modMigration; (try dsimp only)
  repeat' (first | with_reducible assumption | ((with_reducible refine Clo.mono hK ?_); rfl)
                 | with_reducible intro _ | with_reducible apply modPart_sat | with_reducible apply Sat_ite | split
                 | with_reducible apply SatO_map | with_reducible apply SatO_map2 | with_reducible apply SatO2_mapO
                 | with_reducible apply SatO2_map2)

theorem freeTarget_sat (s : State) (p dst : Nat) (hK : Clo 0x20000 P) (hs0 : Sat P s) : Sat P (freeTarget s p dst)
    := by
  unfold freeTarget; (try dsimp only)
  repeat' (first | with_reducible assumption | ((with_reducible refine Clo.mono hK ?_); rfl)
                 | with_reducible intro _ | with_reducible apply Sat_foldl | with_reducible apply setFrame_sat
                 | split | (refine snd_sat (by with_reducible assumption) ?_)
                 | (refine some_sat (by with_reducible assumption) ?_)
                 | (refine some2_sat (by with_reducible assumption) ?_) | dsimp only)

theorem scanServed_sat (s : State) (j : ScanJob) (status value : Nat) (bad : Bool) (hK : Clo 0x47c11a P) (hs0 :
    Sat P s) : Sat P (scanServed s j status value bad) := by
  unfold scanServed; (try dsimp only)
  repeat' (first | with_reducible assumption | ((with_reducible refine Clo.mono hK ?_); rfl)
                 | with_reducible intro _ | with_reducible apply Sat_elim | with_reducible apply checkKnown_sat
                 | with_reducible apply countTier_sat | with_reducible apply freeTarget_sat
                 | with_reducible apply migrationEnd_sat | with_reducible apply modMigration_sat
                 | with_reducible apply modReplace_sat | with_reducible apply opAdvance_sat
                 | with_reducible apply openFail_sat | with_reducible apply replaceDone_sat
                 | with_reducible apply setOp_sat | with_reducible apply tierEvent_sat
                 | with_reducible apply unverify_sat | with_reducible apply verify_sat
                 | with_reducible apply Sat_ite | split | (refine snd_sat (by with_reducible assumption) ?_)
                 | (refine some_sat (by with_reducible assumption) ?_)
                 | (refine some2_sat (by with_reducible assumption) ?_) | dsimp only)

theorem segmentDone_sat (s : State) (e : Nat) (status : Nat) (hK : Clo 0x47c11a P) (hs0 : Sat P s) :
    Sat P (segmentDone s e status) := by
  unfold segmentDone; (try dsimp only)
  repeat' (first | with_reducible assumption | ((with_reducible refine Clo.mono hK ?_); rfl)
                 | with_reducible intro _ | with_reducible apply dropJob_sat | with_reducible apply fillEngines_sat
                 | with_reducible apply mismatchEvent_sat | with_reducible apply modJob_sat
                 | with_reducible apply modTiers_sat | with_reducible apply scanServed_sat
                 | with_reducible apply Sat_id | with_reducible apply Sat_ite | split
                 | (refine snd_sat (by with_reducible assumption) ?_)
                 | (refine some_sat (by with_reducible assumption) ?_)
                 | (refine some2_sat (by with_reducible assumption) ?_) | dsimp only)

/-! ### Steps -/

theorem placeSummary_sat (s : State) (p : Nat) (op : DrawerOp) (hK : Clo 0x47411a P) (hs0 : Sat P s) :
    Sat P (placeSummary s p op) := by
  unfold placeSummary; (try dsimp only)
  repeat' (first | with_reducible assumption | ((with_reducible refine Clo.mono hK ?_); rfl)
                 | with_reducible apply dropOp_sat | with_reducible apply finish_sat
                 | with_reducible apply placeRun_sat | with_reducible apply setDrawerState_sat
                 | with_reducible apply setOp_sat | with_reducible apply Sat_ite | split
                 | (refine snd_sat (by with_reducible assumption) ?_)
                 | (refine some_sat (by with_reducible assumption) ?_)
                 | (refine some2_sat (by with_reducible assumption) ?_) | dsimp only)

theorem cutProgram_sat (s : State) (p : Nat) (hK : Clo 0x20100 P) (hs0 : Sat P s) : Sat P (cutProgram s p) := by
  unfold cutProgram; (try dsimp only)
  repeat' (first | with_reducible assumption | ((with_reducible refine Clo.mono hK ?_); rfl)
                 | with_reducible intro _ | with_reducible apply modStream_sat | with_reducible apply modTiers_sat
                 | with_reducible apply Sat_id | with_reducible apply Sat_ite | split
                 | (refine snd_sat (by with_reducible assumption) ?_)
                 | (refine some_sat (by with_reducible assumption) ?_)
                 | (refine some2_sat (by with_reducible assumption) ?_) | with_reducible apply SatO_map
                 | with_reducible apply SatO_map2 | with_reducible apply SatO2_mapO
                 | with_reducible apply SatO2_map2 | dsimp only)

theorem judgeLater_sat (s : State) (p : Nat) (hK : Clo 0x46c118 P) (hs0 : Sat P s) : Sat P (judgeLater s p) := by
  unfold judgeLater; (try dsimp only)
  repeat' (first | with_reducible assumption | ((with_reducible refine Clo.mono hK ?_); rfl)
                 | with_reducible intro _ | with_reducible apply Sat_foldl | with_reducible apply endNeed_sat
                 | with_reducible apply modPart_sat | with_reducible apply modTiers_sat
                 | with_reducible apply Sat_ite | split | (refine snd_sat (by with_reducible assumption) ?_)
                 | (refine some_sat (by with_reducible assumption) ?_)
                 | (refine some2_sat (by with_reducible assumption) ?_) | with_reducible apply SatO_map
                 | with_reducible apply SatO_map2 | with_reducible apply SatO2_mapO
                 | with_reducible apply SatO2_map2 | dsimp only)

theorem loadProgram_sat (s : State) (p addr : Nat) (prog : List (BitVec 256)) (hK : Clo 0x30100 P) (hs0 : Sat P s) :
    Sat P (loadProgram s p addr prog) := by
  unfold loadProgram; (try dsimp only)
  repeat' (first | with_reducible assumption | ((with_reducible refine Clo.mono hK ?_); rfl)
                 | with_reducible intro _ | with_reducible apply modStream_sat | with_reducible apply writeTier_sat
                 | (refine snd_sat (by with_reducible assumption) ?_)
                 | (refine some_sat (by with_reducible assumption) ?_)
                 | (refine some2_sat (by with_reducible assumption) ?_) | dsimp only)

theorem sendCloses_sat (s : State) (p : Nat) (k : Step) (m : Model) (layer : Nat) (sent : Nat → Nat)
    (hK : Clo 0x40118 P) (hs0 : Sat P s) : Sat P (sendCloses s p k m layer sent) := by
  unfold sendCloses; (try dsimp only)
  repeat' (first | with_reducible assumption | ((with_reducible refine Clo.mono hK ?_); rfl)
                 | with_reducible intro _ | with_reducible apply Sat_foldl | with_reducible apply modPart_sat
                 | with_reducible apply sendExpert_sat | (refine snd_sat (by with_reducible assumption) ?_)
                 | (refine some_sat (by with_reducible assumption) ?_)
                 | (refine some2_sat (by with_reducible assumption) ?_) | with_reducible apply SatO_map
                 | with_reducible apply SatO_map2 | with_reducible apply SatO2_mapO
                 | with_reducible apply SatO2_map2 | dsimp only)

theorem emptyRound_sat (s : State) (p : Nat) (m : Model) (hK : Clo 0x40118 P) (hs0 : Sat P s) :
    Sat P (emptyRound s p m) := by
  unfold emptyRound; (try dsimp only)
  repeat' (first | with_reducible assumption | ((with_reducible refine Clo.mono hK ?_); rfl)
                 | with_reducible intro _ | with_reducible apply Sat_foldl | with_reducible apply sendCloses_sat
                 | with_reducible apply Sat_ite | split | (refine snd_sat (by with_reducible assumption) ?_)
                 | (refine some_sat (by with_reducible assumption) ?_)
                 | (refine some2_sat (by with_reducible assumption) ?_) | dsimp only)

theorem loadMore_sat (s : State) (p : Nat) (more : Option (Nat × List (BitVec 256))) (hK : Clo 0x30100 P) (hs0 :
    Sat P s) : Sat P (loadMore s p more) := by
  unfold loadMore; (try dsimp only)
  repeat' (first | with_reducible assumption | ((with_reducible refine Clo.mono hK ?_); rfl)
                 | with_reducible apply loadProgram_sat | split | (refine snd_sat (by with_reducible assumption) ?_)
                 | (refine some_sat (by with_reducible assumption) ?_)
                 | (refine some2_sat (by with_reducible assumption) ?_) | dsimp only)

theorem beginStep_sat (p addr : Nat) (prog : List (BitVec 256)) (more : Option (Nat × List (BitVec 256)))
    (s : State) (hK : Clo 0x47c11a P) (hs0 : Sat P s) : Sat P (beginStep p addr prog more s) := by
  unfold beginStep; (try dsimp only)
  repeat' (first | with_reducible assumption | ((with_reducible refine Clo.mono hK ?_); rfl)
                 | with_reducible intro _ | with_reducible apply Sat_foldl | with_reducible apply Sat_elim
                 | with_reducible apply cutProgram_sat | with_reducible apply emptyRound_sat
                 | with_reducible apply ingress_sat | with_reducible apply judgeLater_sat
                 | with_reducible apply loadMore_sat | with_reducible apply loadProgram_sat
                 | with_reducible apply modPart_sat | with_reducible apply modStream_sat
                 | with_reducible apply placeSummary_sat | with_reducible apply Sat_id
                 | with_reducible apply Sat_ite | split | (refine snd_sat (by with_reducible assumption) ?_)
                 | (refine some_sat (by with_reducible assumption) ?_)
                 | (refine some2_sat (by with_reducible assumption) ?_) | with_reducible apply SatO_map
                 | with_reducible apply SatO_map2 | with_reducible apply SatO2_mapO
                 | with_reducible apply SatO2_map2 | dsimp only)

theorem execStepBegin_sat (p addr : Nat) (prog : List (BitVec 256)) (more : Option (Nat × List (BitVec 256)))
    (s : State) (hK : Clo 0x47c11a P) (hs0 : Sat P s) : SatN P (execStepBegin p addr prog more s) := by
  unfold execStepBegin; (try dsimp only)
  repeat' (first | with_reducible assumption | ((with_reducible refine Clo.mono hK ?_); rfl)
                 | with_reducible intro _ | with_reducible apply beginStep_sat | with_reducible apply onWf_sat
                 | (simp only [SatN_next]))

theorem summaryKnown_sat (s : State) (p : Nat) (op : DrawerOp) (len : Nat) (hK : Clo 0x20100 P) (hs0 : Sat P s) :
    Sat P (summaryKnown s p op len) := by
  unfold summaryKnown; (try dsimp only)
  repeat' (first | with_reducible assumption | ((with_reducible refine Clo.mono hK ?_); rfl)
                 | with_reducible apply addScan_sat | with_reducible apply setOp_sat | with_reducible apply Sat_ite
                 | split | (refine snd_sat (by with_reducible assumption) ?_)
                 | (refine some_sat (by with_reducible assumption) ?_)
                 | (refine some2_sat (by with_reducible assumption) ?_) | dsimp only)

theorem fence_sat (p : Nat) (sums : List (Nat × Nat)) (s : State) (hK : Clo 0x46c31a P) (hs0 : Sat P s) :
    Sat P (fence p sums s) := by
  unfold fence; (try dsimp only)
  repeat' (first | with_reducible assumption | ((with_reducible refine Clo.mono hK ?_); rfl)
                 | with_reducible intro _ | with_reducible apply Sat_foldl | with_reducible apply modPart_sat
                 | with_reducible apply stepAbandon_sat | with_reducible apply summaryKnown_sat
                 | with_reducible apply Sat_getD | with_reducible apply Sat_ite | split
                 | (refine snd_sat (by with_reducible assumption) ?_)
                 | (refine some_sat (by with_reducible assumption) ?_)
                 | (refine some2_sat (by with_reducible assumption) ?_) | dsimp only)

theorem execPublishFence_sat (p : Nat) (sums : List (Nat × Nat)) (s : State) (hK : Clo 0x46c31a P) (hs0 : Sat P s) :
    SatN P (execPublishFence p sums s) := by
  unfold execPublishFence; (try dsimp only)
  repeat' (first | with_reducible assumption | ((with_reducible refine Clo.mono hK ?_); rfl)
                 | with_reducible intro _ | with_reducible apply fence_sat | with_reducible apply onWf_sat
                 | (simp only [SatN_next]))

theorem commit_sat (p : Nat) (toks fails : List (Nat × Nat)) (s : State) (hK : Clo 0x47c31a P) (hs0 : Sat P s) :
    Sat P (commit p toks fails s) := by
  unfold commit; (try dsimp only)
  repeat' (first | with_reducible assumption | ((with_reducible refine Clo.mono hK ?_); rfl)
                 | with_reducible intro _ | with_reducible apply commitStep_sat
                 | with_reducible apply stepAbandon_sat | with_reducible apply Sat_ite | split
                 | (refine snd_sat (by with_reducible assumption) ?_)
                 | (refine some_sat (by with_reducible assumption) ?_)
                 | (refine some2_sat (by with_reducible assumption) ?_) | with_reducible apply SatO_map
                 | with_reducible apply SatO_map2 | with_reducible apply SatO2_mapO
                 | with_reducible apply SatO2_map2 | dsimp only)

theorem execStepCommit_sat (p : Nat) (toks fails : List (Nat × Nat)) (s : State) (hK : Clo 0x47c31a P) (hs0 :
    Sat P s) : SatN P (execStepCommit p toks fails s) := by
  unfold execStepCommit; (try dsimp only)
  repeat' (first | with_reducible assumption | ((with_reducible refine Clo.mono hK ?_); rfl)
                 | with_reducible intro _ | with_reducible apply commit_sat | with_reducible apply onWf_sat
                 | (simp only [SatN_next]))

theorem verdictExpiry_sat (p : Nat) (s : State) (hK : Clo 0x66f75a P) (hs0 : Sat P s) : Sat P (verdictExpiry p s)
    := by
  unfold verdictExpiry; (try dsimp only)
  repeat' (first | with_reducible assumption | ((with_reducible refine Clo.mono hK ?_); rfl)
                 | with_reducible apply veFault_sat | with_reducible apply Sat_ite | split
                 | (refine snd_sat (by with_reducible assumption) ?_)
                 | (refine some_sat (by with_reducible assumption) ?_)
                 | (refine some2_sat (by with_reducible assumption) ?_) | dsimp only)

theorem execVerdictWatchdogExpiry_sat (p : Nat) (s : State) (hK : Clo 0x66f75a P) (hs0 : Sat P s) :
    SatN P (execVerdictWatchdogExpiry p s) := by
  unfold execVerdictWatchdogExpiry; (try dsimp only)
  repeat' (first | with_reducible assumption | ((with_reducible refine Clo.mono hK ?_); rfl)
                 | with_reducible intro _ | with_reducible apply onWf_sat | with_reducible apply verdictExpiry_sat
                 | (simp only [SatN_next]))

theorem execDeadlineJudgement_sat (p : Nat) (s : State) (hK : Clo 0x46c118 P) (hs0 : Sat P s) :
    SatN P (execDeadlineJudgement p s) := by
  unfold execDeadlineJudgement; (try dsimp only)
  repeat' (first | with_reducible assumption | ((with_reducible refine Clo.mono hK ?_); rfl)
                 | with_reducible intro _ | with_reducible apply judgeWaiting_sat | with_reducible apply onWf_sat
                 | split | (simp only [SatN_next]))

theorem biasUpdate_sat (p layer : Nat) (s : State) (hK : Clo 0x100 P) (hs0 : Sat P s) : Sat P (biasUpdate p layer s)
    := by
  unfold biasUpdate; (try dsimp only)
  repeat' (first | with_reducible assumption | ((with_reducible refine Clo.mono hK ?_); rfl)
                 | with_reducible intro _ | with_reducible apply Sat_elim | with_reducible apply modPart_sat
                 | with_reducible apply Sat_id | with_reducible apply Sat_ite | split
                 | (refine snd_sat (by with_reducible assumption) ?_)
                 | (refine some_sat (by with_reducible assumption) ?_)
                 | (refine some2_sat (by with_reducible assumption) ?_) | dsimp only)

theorem execBiasUpdate_sat (p layer : Nat) (s : State) (hK : Clo 0x100 P) (hs0 : Sat P s) :
    SatN P (execBiasUpdate p layer s) := by
  unfold execBiasUpdate; (try dsimp only)
  repeat' (first | with_reducible assumption | ((with_reducible refine Clo.mono hK ?_); rfl)
                 | with_reducible intro _ | with_reducible apply biasUpdate_sat | with_reducible apply onWf_sat
                 | (simp only [SatN_next]))

/-! ### Serving -/

theorem answer_sat (c : Cmd) (a : Answer) (hK : Clo 0x18 P) (hs0 : Sat P a.2.2.2) : Sat P (answer c a) := by
  unfold answer; (try dsimp only)
  repeat' (first | with_reducible assumption | ((with_reducible refine Clo.mono hK ?_); rfl)
                 | with_reducible apply finish_sat)

theorem reserved_sat (s : State) (o : Nat) (hs0 : Sat P s) : Sat P (reserved s o).2.2.2 := by
  unfold reserved; (try dsimp only)
  repeat' (first | with_reducible assumption)

theorem growTail_sat (s : State) (p i want : Nat) (hK : Clo 0x47411a P) (hs0 : Sat P s) :
    SatO P (growTail s p i want) := by
  unfold growTail; (try dsimp only)
  repeat' (first | with_reducible assumption | ((with_reducible refine Clo.mono hK ?_); rfl)
                 | with_reducible intro _ | with_reducible apply allocRun_sat | with_reducible apply placeRun_sat
                 | with_reducible apply setDrawer_sat | with_reducible apply Sat_ite | split
                 | (simp only [SatO_none, SatO_some]) | with_reducible exact trivial
                 | (refine snd_sat (by with_reducible assumption) ?_)
                 | (refine some_sat (by with_reducible assumption) ?_)
                 | (refine some2_sat (by with_reducible assumption) ?_) | with_reducible apply SatO_map
                 | with_reducible apply SatO_map2 | with_reducible apply SatO2_mapO
                 | with_reducible apply SatO2_map2 | dsimp only)

theorem placeFor_sat (s : State) (p index : Nat) (d : Option Nat) (lines : Nat) (hK : Clo 0x47c11a P) (hs0 :
    Sat P s) : SatO2 P (placeFor s p index d lines) := by
  unfold placeFor; (try dsimp only)
  repeat' (first | with_reducible assumption | ((with_reducible refine Clo.mono hK ?_); rfl)
                 | with_reducible intro _ | with_reducible apply growTail_sat | with_reducible apply placeRun_sat
                 | with_reducible apply setRegion_sat | with_reducible apply Sat_ite | split
                 | (simp only [SatO_none, SatO_some]) | with_reducible exact trivial
                 | (refine snd_sat (by with_reducible assumption) ?_)
                 | (refine some_sat (by with_reducible assumption) ?_)
                 | (refine some2_sat (by with_reducible assumption) ?_) | with_reducible exact SatO2_none
                 | with_reducible apply SatO2_some | with_reducible apply SatO_map | with_reducible apply SatO_map2
                 | with_reducible apply SatO2_mapO | with_reducible apply SatO2_map2 | dsimp only)

theorem stageObject_sat (p tenant index : Nat) (acc : Nat × State) (e : Nat × Nat) (hK : Clo 0x20000 P) (hs0 :
    Sat P acc.2) : Sat P (stageObject p tenant index acc e).2 := by
  unfold stageObject; (try dsimp only)
  repeat' (first | with_reducible assumption | ((with_reducible refine Clo.mono hK ?_); rfl)
                 | with_reducible intro _ | with_reducible apply Sat_foldl | with_reducible apply pend_sat
                 | (refine snd_sat (by with_reducible assumption) ?_)
                 | (refine some_sat (by with_reducible assumption) ?_)
                 | (refine some2_sat (by with_reducible assumption) ?_) | dsimp only)

theorem beginAdapter_sat (s : State) (p tenant index base : Nat) (objs : List (Nat × Nat)) (hK : Clo 0x20100 P)
    (hs0 : Sat P s) : Sat P (beginAdapter s p tenant index base objs) := by
  unfold beginAdapter; (try dsimp only)
  repeat' (first | with_reducible assumption | ((with_reducible refine Clo.mono hK ?_); rfl)
                 | with_reducible intro _ | with_reducible apply Sat_foldl | with_reducible apply Sat_foldr
                 | with_reducible apply Sat_elim | with_reducible apply modPart_sat
                 | with_reducible apply stageObject_sat | with_reducible apply Sat_getD
                 | with_reducible apply Sat_id | with_reducible apply Sat_ite | with_reducible apply SatE_ite
                 | with_reducible apply Sat2_ite | split
                 | (simp only [SatE_error, SatE_none, SatE_some, SatO_none, SatO_some, SatN_next])
                 | with_reducible exact trivial | (refine snd_sat (by with_reducible assumption) ?_)
                 | (refine some_sat (by with_reducible assumption) ?_)
                 | (refine some2_sat (by with_reducible assumption) ?_) | with_reducible exact SatO2_none
                 | with_reducible apply SatO2_some | with_reducible apply SatO_map | with_reducible apply SatO_map2
                 | with_reducible apply SatO2_mapO | with_reducible apply SatO2_map2
                 | (refine snd2_sat (by with_reducible assumption) ?_) | with_reducible apply Sat_foldl2
                 | dsimp only)

theorem enroll_sat (s : State) (p : Nat) (m : Model) (c : Cmd) (d reg : Option Nat) (index base : Nat)
    (objs : List (Nat × Nat)) (hK : Clo 0x24110 P) (hs0 : Sat P s) : Sat P (enroll s p m c d reg index base objs)
    := by
  unfold enroll; (try dsimp only)
  repeat' (first | with_reducible assumption | ((with_reducible refine Clo.mono hK ?_); rfl)
                 | with_reducible intro _ | with_reducible apply beginAdapter_sat | with_reducible apply interim_sat
                 | with_reducible apply modPart_sat | with_reducible apply setBudget_sat
                 | with_reducible apply setDrawer_sat | with_reducible apply Sat_ite | split
                 | (refine snd_sat (by with_reducible assumption) ?_)
                 | (refine some_sat (by with_reducible assumption) ?_)
                 | (refine some2_sat (by with_reducible assumption) ?_) | with_reducible apply SatO_map
                 | with_reducible apply SatO_map2 | with_reducible apply SatO2_mapO
                 | with_reducible apply SatO2_map2 | dsimp only)

theorem takeWeights_sat (s : State) (p tenant : Nat) (m : Model) (hK : Clo 0x100 P) (hs0 : Sat P s) :
    Sat P (takeWeights s p tenant m) := by
  unfold takeWeights; (try dsimp only)
  repeat' (first | with_reducible assumption | ((with_reducible refine Clo.mono hK ?_); rfl)
                 | with_reducible apply setBudget_sat | with_reducible apply Sat_ite | split
                 | (refine snd_sat (by with_reducible assumption) ?_)
                 | (refine some_sat (by with_reducible assumption) ?_)
                 | (refine some2_sat (by with_reducible assumption) ?_) | dsimp only)

theorem requestCmd_sat (adapters : List Nat) (c : Cmd) (s : State) (hK : Clo 0x47c11a P) (hs0 : Sat P s) :
    Sat P (requestCmd adapters c s) := by
  unfold requestCmd; (try dsimp only)
  repeat' (first | with_reducible assumption | ((with_reducible refine Clo.mono hK ?_); rfl)
                 | with_reducible intro _ | with_reducible apply enroll_sat | with_reducible apply placeFor_sat
                 | with_reducible apply refuse_sat | with_reducible apply takeWeights_sat
                 | with_reducible apply Sat_getD | with_reducible apply Sat_id | with_reducible apply Sat_ite
                 | split | (refine snd_sat (by with_reducible assumption) ?_)
                 | (refine some_sat (by with_reducible assumption) ?_)
                 | (refine some2_sat (by with_reducible assumption) ?_) | with_reducible apply SatO_map
                 | with_reducible apply SatO_map2 | with_reducible apply SatO2_mapO
                 | with_reducible apply SatO2_map2 | dsimp only)

theorem execRequest_sat (p : Nat) (adapters : List Nat) (s : State) (hK : Clo 0x47c11a P) (hs0 : Sat P s) :
    SatN P (execRequest p adapters s) := by
  unfold execRequest; (try dsimp only)
  repeat' (first | with_reducible assumption | ((with_reducible refine Clo.mono hK ?_); rfl)
                 | with_reducible intro _ | with_reducible apply onWf_sat | with_reducible apply requestCmd_sat
                 | with_reducible apply takeCmd_sat | split | (simp only [SatN_next]))

theorem addCancel_sat (s : State) (p i : Nat) (c : Cmd) (hK : Clo 0x100 P) (hs0 : Sat P s) :
    Sat P (addCancel s p i c) := by
  unfold addCancel; (try dsimp only)
  repeat' (first | with_reducible assumption | ((with_reducible refine Clo.mono hK ?_); rfl)
                 | with_reducible intro _ | with_reducible apply modReq_sat)

theorem skipMember_sat (s : State) (p i : Nat) (hK : Clo 0x100 P) (hs0 : Sat P s) : Sat P (skipMember s p i) := by
  unfold skipMember; (try dsimp only)
  repeat' (first | with_reducible assumption | ((with_reducible refine Clo.mono hK ?_); rfl)
                 | with_reducible intro _ | with_reducible apply modPart_sat | with_reducible apply Sat_ite | split
                 | with_reducible apply SatO_map | with_reducible apply SatO_map2 | with_reducible apply SatO2_mapO
                 | with_reducible apply SatO2_map2)

theorem cancelCmd_sat (c : Cmd) (s : State) (hK : Clo 0x46c118 P) (hs0 : Sat P s) : Sat P (cancelCmd c s) := by
  unfold cancelCmd; (try dsimp only)
  repeat' (first | with_reducible assumption | ((with_reducible refine Clo.mono hK ?_); rfl)
                 | with_reducible intro _ | with_reducible apply Sat_elim | with_reducible apply addCancel_sat
                 | with_reducible apply finish_sat | with_reducible apply finishAt_sat
                 | with_reducible apply modPart_sat | with_reducible apply reqEnd_sat
                 | with_reducible apply skipMember_sat | with_reducible apply Sat_ite | split
                 | (refine snd_sat (by with_reducible assumption) ?_)
                 | (refine some_sat (by with_reducible assumption) ?_)
                 | (refine some2_sat (by with_reducible assumption) ?_) | with_reducible apply SatO_map
                 | with_reducible apply SatO_map2 | with_reducible apply SatO2_mapO
                 | with_reducible apply SatO2_map2 | dsimp only)

theorem execCancel_sat (p : Nat) (s : State) (hK : Clo 0x46c118 P) (hs0 : Sat P s) : SatN P (execCancel p s) := by
  unfold execCancel; (try dsimp only)
  repeat' (first | with_reducible assumption | ((with_reducible refine Clo.mono hK ?_); rfl)
                 | with_reducible intro _ | with_reducible apply cancelCmd_sat | with_reducible apply onWf_sat
                 | with_reducible apply takeCmd_sat | (simp only [SatN_next]))

theorem sendBudget_sat (s : State) (p t : Nat) (hK : Clo 0x440118 P) (hs0 : Sat P s) : Sat P (sendBudget s p t) := by
  unfold sendBudget; (try dsimp only)
  repeat' (first | with_reducible assumption | ((with_reducible refine Clo.mono hK ?_); rfl)
                 | with_reducible apply sendEntry_sat)

theorem budgetOp_sat (c : Cmd) (s : State) (hK : Clo 0x440118 P) (hs0 : Sat P s) : Sat P (budgetOp c s).2.2.2 := by
  unfold budgetOp; (try dsimp only)
  repeat' (first | with_reducible assumption | ((with_reducible refine Clo.mono hK ?_); rfl)
                 | with_reducible apply reserved_sat | with_reducible apply sendBudget_sat
                 | with_reducible apply setBudget_sat | with_reducible apply Sat_ite | with_reducible apply Sat2_ite
                 | split | (refine snd_sat (by with_reducible assumption) ?_)
                 | (refine some_sat (by with_reducible assumption) ?_)
                 | (refine some2_sat (by with_reducible assumption) ?_) | dsimp only)

theorem budgetCmd_sat (c : Cmd) (s : State) (hK : Clo 0x440118 P) (hs0 : Sat P s) : Sat P (budgetCmd c s) := by
  unfold budgetCmd; (try dsimp only)
  repeat' (first | with_reducible assumption | ((with_reducible refine Clo.mono hK ?_); rfl)
                 | with_reducible apply answer_sat | with_reducible apply budgetOp_sat)

theorem execBudgetSet_sat (p : Nat) (s : State) (hK : Clo 0x440118 P) (hs0 : Sat P s) : SatN P (execBudgetSet p s)
    := by
  unfold execBudgetSet; (try dsimp only)
  repeat' (first | with_reducible assumption | ((with_reducible refine Clo.mono hK ?_); rfl)
                 | with_reducible intro _ | with_reducible apply budgetCmd_sat | with_reducible apply onWf_sat
                 | with_reducible apply takeCmd_sat | (simp only [SatN_next]))

theorem execBudgetAdd_sat (p : Nat) (s : State) (hK : Clo 0x440118 P) (hs0 : Sat P s) : SatN P (execBudgetAdd p s)
    := by
  unfold execBudgetAdd; (try dsimp only)
  repeat' (first | with_reducible assumption | ((with_reducible refine Clo.mono hK ?_); rfl)
                 | with_reducible intro _ | with_reducible apply budgetCmd_sat | with_reducible apply onWf_sat
                 | with_reducible apply takeCmd_sat | (simp only [SatN_next]))

theorem execBudgetSetWeights_sat (p : Nat) (s : State) (hK : Clo 0x440118 P) (hs0 : Sat P s) :
    SatN P (execBudgetSetWeights p s) := by
  unfold execBudgetSetWeights; (try dsimp only)
  repeat' (first | with_reducible assumption | ((with_reducible refine Clo.mono hK ?_); rfl)
                 | with_reducible intro _ | with_reducible apply budgetCmd_sat | with_reducible apply onWf_sat
                 | with_reducible apply takeCmd_sat | (simp only [SatN_next]))

theorem budgetReadCmd_sat (c : Cmd) (s : State) (hK : Clo 0x18 P) (hs0 : Sat P s) : Sat P (budgetReadCmd c s) := by
  unfold budgetReadCmd; (try dsimp only)
  repeat' (first | with_reducible assumption | ((with_reducible refine Clo.mono hK ?_); rfl)
                 | with_reducible apply finish_sat)

theorem execBudgetRead_sat (p : Nat) (s : State) (hK : Clo 0x18 P) (hs0 : Sat P s) : SatN P (execBudgetRead p s) := by
  unfold execBudgetRead; (try dsimp only)
  repeat' (first | with_reducible assumption | ((with_reducible refine Clo.mono hK ?_); rfl)
                 | with_reducible intro _ | with_reducible apply budgetReadCmd_sat | with_reducible apply onWf_sat
                 | with_reducible apply takeCmd_sat | (simp only [SatN_next]))

theorem adapterStaged_sat (p tenant : Nat) (s : State) (hK : Clo 0x100 P) (hs0 : Sat P s) :
    Sat P (adapterStaged p tenant s) := by
  unfold adapterStaged; (try dsimp only)
  repeat' (first | with_reducible assumption | ((with_reducible refine Clo.mono hK ?_); rfl)
                 | with_reducible intro _ | with_reducible apply modPart_sat | with_reducible apply Sat_ite | split
                 | (refine snd_sat (by with_reducible assumption) ?_)
                 | (refine some_sat (by with_reducible assumption) ?_)
                 | (refine some2_sat (by with_reducible assumption) ?_) | with_reducible apply SatO_map
                 | with_reducible apply SatO_map2 | with_reducible apply SatO2_mapO
                 | with_reducible apply SatO2_map2 | dsimp only)

theorem execAdapterStageComplete_sat (p tenant : Nat) (s : State) (hK : Clo 0x100 P) (hs0 : Sat P s) :
    SatN P (execAdapterStageComplete p tenant s) := by
  unfold execAdapterStageComplete; (try dsimp only)
  repeat' (first | with_reducible assumption | ((with_reducible refine Clo.mono hK ?_); rfl)
                 | with_reducible intro _ | with_reducible apply adapterStaged_sat | with_reducible apply onWf_sat
                 | (simp only [SatN_next]))

/-! ### Drawers -/

theorem createOp_sat (c : Cmd) (s : State) (hK : Clo 0x4000 P) (hs0 : Sat P s) : Sat P (createOp c s).2.2.2 := by
  unfold createOp; (try dsimp only)
  repeat' (first | with_reducible assumption | ((with_reducible refine Clo.mono hK ?_); rfl)
                 | with_reducible apply reserved_sat | with_reducible apply setDrawer_sat
                 | with_reducible apply Sat_ite | with_reducible apply Sat2_ite | split
                 | (refine snd_sat (by with_reducible assumption) ?_)
                 | (refine some_sat (by with_reducible assumption) ?_)
                 | (refine some2_sat (by with_reducible assumption) ?_) | dsimp only)

theorem execDrawerCreate_sat (p : Nat) (s : State) (hK : Clo 0x4018 P) (hs0 : Sat P s) :
    SatN P (execDrawerCreate p s) := by
  unfold execDrawerCreate; (try dsimp only)
  repeat' (first | with_reducible assumption | ((with_reducible refine Clo.mono hK ?_); rfl)
                 | with_reducible intro _ | with_reducible apply answer_sat | with_reducible apply createOp_sat
                 | with_reducible apply onWf_sat | with_reducible apply takeCmd_sat | (simp only [SatN_next]))

theorem deleteOp_sat (c : Cmd) (s : State) (hK : Clo 0x464118 P) (hs0 : Sat P s) : Sat P (deleteOp c s).2.2.2 := by
  unfold deleteOp; (try dsimp only)
  repeat' (first | with_reducible assumption | ((with_reducible refine Clo.mono hK ?_); rfl)
                 | with_reducible apply releaseGrains_sat | with_reducible apply setDrawer_sat
                 | with_reducible apply Sat_ite | with_reducible apply Sat2_ite | split
                 | (refine snd_sat (by with_reducible assumption) ?_)
                 | (refine some_sat (by with_reducible assumption) ?_)
                 | (refine some2_sat (by with_reducible assumption) ?_) | dsimp only)

theorem execDrawerDelete_sat (p : Nat) (s : State) (hK : Clo 0x464118 P) (hs0 : Sat P s) :
    SatN P (execDrawerDelete p s) := by
  unfold execDrawerDelete; (try dsimp only)
  repeat' (first | with_reducible assumption | ((with_reducible refine Clo.mono hK ?_); rfl)
                 | with_reducible intro _ | with_reducible apply answer_sat | with_reducible apply deleteOp_sat
                 | with_reducible apply onWf_sat | with_reducible apply takeCmd_sat | (simp only [SatN_next]))

theorem addOp_sat (s : State) (p : Nat) (op : DrawerOp) (hK : Clo 0x100 P) (hs0 : Sat P s) : Sat P (addOp s p op)
    := by
  unfold addOp; (try dsimp only)
  repeat' (first | with_reducible assumption | ((with_reducible refine Clo.mono hK ?_); rfl)
                 | with_reducible intro _ | with_reducible apply modPart_sat)

theorem openCmd_sat (c : Cmd) (s : State) (hK : Clo 0x47c11a P) (hs0 : Sat P s) : Sat P (openCmd c s) := by
  unfold openCmd; (try dsimp only)
  repeat' (first | with_reducible assumption | ((with_reducible refine Clo.mono hK ?_); rfl)
                 | with_reducible apply addOp_sat | with_reducible apply addScan_sat
                 | with_reducible apply opAdvance_sat | with_reducible apply refuse_sat
                 | with_reducible apply setDrawerState_sat | with_reducible apply Sat_ite | split
                 | (refine snd_sat (by with_reducible assumption) ?_)
                 | (refine some_sat (by with_reducible assumption) ?_)
                 | (refine some2_sat (by with_reducible assumption) ?_) | dsimp only)

theorem execDrawerOpen_sat (p : Nat) (s : State) (hK : Clo 0x47c11a P) (hs0 : Sat P s) : SatN P (execDrawerOpen p s)
    := by
  unfold execDrawerOpen; (try dsimp only)
  repeat' (first | with_reducible assumption | ((with_reducible refine Clo.mono hK ?_); rfl)
                 | with_reducible intro _ | with_reducible apply onWf_sat | with_reducible apply openCmd_sat
                 | with_reducible apply takeCmd_sat | (simp only [SatN_next]))

theorem closeCmd_sat (c : Cmd) (s : State) (hK : Clo 0x4118 P) (hs0 : Sat P s) : Sat P (closeCmd c s) := by
  unfold closeCmd; (try dsimp only)
  repeat' (first | with_reducible assumption | ((with_reducible refine Clo.mono hK ?_); rfl)
                 | with_reducible apply addOp_sat | with_reducible apply refuse_sat
                 | with_reducible apply setDrawerState_sat | with_reducible apply Sat_ite | split
                 | (refine snd_sat (by with_reducible assumption) ?_)
                 | (refine some_sat (by with_reducible assumption) ?_)
                 | (refine some2_sat (by with_reducible assumption) ?_) | dsimp only)

theorem execDrawerClose_sat (p : Nat) (s : State) (hK : Clo 0x4118 P) (hs0 : Sat P s) : SatN P (execDrawerClose p s)
    := by
  unfold execDrawerClose; (try dsimp only)
  repeat' (first | with_reducible assumption | ((with_reducible refine Clo.mono hK ?_); rfl)
                 | with_reducible intro _ | with_reducible apply closeCmd_sat | with_reducible apply onWf_sat
                 | with_reducible apply takeCmd_sat | (simp only [SatN_next]))

theorem drawerCommitCmd_sat (c : Cmd) (s : State) (hK : Clo 0x118 P) (hs0 : Sat P s) : Sat P (drawerCommitCmd c s)
    := by
  unfold drawerCommitCmd; (try dsimp only)
  repeat' (first | with_reducible assumption | ((with_reducible refine Clo.mono hK ?_); rfl)
                 | with_reducible apply addOp_sat | with_reducible apply refuse_sat | with_reducible apply Sat_ite
                 | split | (refine snd_sat (by with_reducible assumption) ?_)
                 | (refine some_sat (by with_reducible assumption) ?_)
                 | (refine some2_sat (by with_reducible assumption) ?_) | dsimp only)

theorem execDrawerCommit_sat (p : Nat) (s : State) (hK : Clo 0x118 P) (hs0 : Sat P s) :
    SatN P (execDrawerCommit p s) := by
  unfold execDrawerCommit; (try dsimp only)
  repeat' (first | with_reducible assumption | ((with_reducible refine Clo.mono hK ?_); rfl)
                 | with_reducible intro _ | with_reducible apply drawerCommitCmd_sat | with_reducible apply onWf_sat
                 | with_reducible apply takeCmd_sat | (simp only [SatN_next]))

theorem drawerMoveCmd_sat (c : Cmd) (s : State) (hK : Clo 0x47c11a P) (hs0 : Sat P s) : Sat P (drawerMoveCmd c s)
    := by
  unfold drawerMoveCmd; (try dsimp only)
  repeat' (first | with_reducible assumption | ((with_reducible refine Clo.mono hK ?_); rfl)
                 | with_reducible apply addOp_sat | with_reducible apply opAdvance_sat
                 | with_reducible apply refuse_sat | with_reducible apply setDrawerState_sat
                 | with_reducible apply Sat_ite | split | (refine snd_sat (by with_reducible assumption) ?_)
                 | (refine some_sat (by with_reducible assumption) ?_)
                 | (refine some2_sat (by with_reducible assumption) ?_) | dsimp only)

theorem execDrawerMove_sat (p : Nat) (s : State) (hK : Clo 0x47c11a P) (hs0 : Sat P s) : SatN P (execDrawerMove p s)
    := by
  unfold execDrawerMove; (try dsimp only)
  repeat' (first | with_reducible assumption | ((with_reducible refine Clo.mono hK ?_); rfl)
                 | with_reducible intro _ | with_reducible apply drawerMoveCmd_sat | with_reducible apply onWf_sat
                 | with_reducible apply takeCmd_sat | (simp only [SatN_next]))

theorem pendRead_sat (s : State) (p : Nat) (c : Cmd) (off len : Nat) (hK : Clo 0x20000 P) (hs0 : Sat P s) :
    Sat P (pendRead s p c off len) := by
  unfold pendRead; (try dsimp only)
  repeat' (first | with_reducible assumption | ((with_reducible refine Clo.mono hK ?_); rfl)
                 | with_reducible intro _ | with_reducible apply Sat_foldl | with_reducible apply modTiers_sat
                 | with_reducible apply pend_sat)

theorem drawerReadCmd_sat (c : Cmd) (s : State) (hK : Clo 0x20018 P) (hs0 : Sat P s) : Sat P (drawerReadCmd c s) := by
  unfold drawerReadCmd; (try dsimp only)
  repeat' (first | with_reducible assumption | ((with_reducible refine Clo.mono hK ?_); rfl)
                 | with_reducible apply pendRead_sat | with_reducible apply refuse_sat
                 | with_reducible apply Sat_ite | split | (refine snd_sat (by with_reducible assumption) ?_)
                 | (refine some_sat (by with_reducible assumption) ?_)
                 | (refine some2_sat (by with_reducible assumption) ?_) | dsimp only)

theorem execDrawerRead_sat (p : Nat) (s : State) (hK : Clo 0x20018 P) (hs0 : Sat P s) : SatN P (execDrawerRead p s)
    := by
  unfold execDrawerRead; (try dsimp only)
  repeat' (first | with_reducible assumption | ((with_reducible refine Clo.mono hK ?_); rfl)
                 | with_reducible intro _ | with_reducible apply drawerReadCmd_sat | with_reducible apply onWf_sat
                 | with_reducible apply takeCmd_sat | (simp only [SatN_next]))

theorem htAnswer_sat (g : Nat) (r : Nat × State) (hs0 : Sat P r.2) : Sat P (htAnswer g r).2.2.2 := by
  unfold htAnswer; (try dsimp only)
  repeat' (first | with_reducible assumption | with_reducible apply Sat_ite | with_reducible apply Sat2_ite | split)

theorem allocOp_sat (c : Cmd) (s : State) (hK : Clo 0x470118 P) (hs0 : Sat P s) : Sat P (allocOp c s).2.2.2 := by
  unfold allocOp; (try dsimp only)
  repeat' (first | with_reducible assumption | ((with_reducible refine Clo.mono hK ?_); rfl)
                 | with_reducible apply htAlloc_sat | with_reducible apply htAnswer_sat | split
                 | (refine snd_sat (by with_reducible assumption) ?_)
                 | (refine some_sat (by with_reducible assumption) ?_)
                 | (refine some2_sat (by with_reducible assumption) ?_) | dsimp only)

theorem execGrainAlloc_sat (p : Nat) (s : State) (hK : Clo 0x470118 P) (hs0 : Sat P s) : SatN P (execGrainAlloc p s)
    := by
  unfold execGrainAlloc; (try dsimp only)
  repeat' (first | with_reducible assumption | ((with_reducible refine Clo.mono hK ?_); rfl)
                 | with_reducible intro _ | with_reducible apply allocOp_sat | with_reducible apply answer_sat
                 | with_reducible apply onWf_sat | with_reducible apply takeCmd_sat | (simp only [SatN_next]))

theorem grainMoveCmd_sat (c : Cmd) (s : State) (hK : Clo 0x20018 P) (hs0 : Sat P s) : Sat P (grainMoveCmd c s) := by
  unfold grainMoveCmd; (try dsimp only)
  repeat' (first | with_reducible assumption | ((with_reducible refine Clo.mono hK ?_); rfl)
                 | with_reducible apply htMove_sat | with_reducible apply refuse_sat | split
                 | (refine snd_sat (by with_reducible assumption) ?_)
                 | (refine some_sat (by with_reducible assumption) ?_)
                 | (refine some2_sat (by with_reducible assumption) ?_) | dsimp only)

theorem execGrainMove_sat (p : Nat) (s : State) (hK : Clo 0x20018 P) (hs0 : Sat P s) : SatN P (execGrainMove p s)
    := by
  unfold execGrainMove; (try dsimp only)
  repeat' (first | with_reducible assumption | ((with_reducible refine Clo.mono hK ?_); rfl)
                 | with_reducible intro _ | with_reducible apply grainMoveCmd_sat | with_reducible apply onWf_sat
                 | with_reducible apply takeCmd_sat | (simp only [SatN_next]))

theorem freeOp_sat (c : Cmd) (s : State) (hK : Clo 0x460118 P) (hs0 : Sat P s) : Sat P (freeOp c s).2.2.2 := by
  unfold freeOp; (try dsimp only)
  repeat' (first | with_reducible assumption | ((with_reducible refine Clo.mono hK ?_); rfl)
                 | with_reducible apply htAnswer_sat | with_reducible apply htFree_sat | split
                 | (refine snd_sat (by with_reducible assumption) ?_)
                 | (refine some_sat (by with_reducible assumption) ?_)
                 | (refine some2_sat (by with_reducible assumption) ?_) | dsimp only)

theorem execGrainFree_sat (p : Nat) (s : State) (hK : Clo 0x460118 P) (hs0 : Sat P s) : SatN P (execGrainFree p s)
    := by
  unfold execGrainFree; (try dsimp only)
  repeat' (first | with_reducible assumption | ((with_reducible refine Clo.mono hK ?_); rfl)
                 | with_reducible intro _ | with_reducible apply answer_sat | with_reducible apply freeOp_sat
                 | with_reducible apply onWf_sat | with_reducible apply takeCmd_sat | (simp only [SatN_next]))

/-! ### Loads -/

theorem markFrames_sat (s : State) (t f : Nat) (x : FrameState) (z4 : Nat) (hK : Clo 0x20000 P) (hs0 : Sat P s) :
    Sat P (markFrames s t f x z4) := by
  induction z4 generalizing s t f x with
  | zero => unfold markFrames; repeat' (first | with_reducible assumption
                                              | ((with_reducible refine Clo.mono hK ?_); rfl)
                                              | with_reducible apply setFrame_sat)
  | succ _ ih => unfold markFrames; repeat' (first | with_reducible apply ih | with_reducible assumption
                                                   | ((with_reducible refine Clo.mono hK ?_); rfl)
                                                   | with_reducible apply setFrame_sat)

theorem loadGrantCmd_sat (c : Cmd) (s : State) (hK : Clo 0x20118 P) (hs0 : Sat P s) : Sat P (loadGrantCmd c s) := by
  unfold loadGrantCmd; (try dsimp only)
  repeat' (first | with_reducible assumption | ((with_reducible refine Clo.mono hK ?_); rfl)
                 | with_reducible intro _ | with_reducible apply finish_sat | with_reducible apply markFrames_sat
                 | with_reducible apply modPart_sat | with_reducible apply modTiers_sat
                 | with_reducible apply refuse_sat | with_reducible apply Sat_id | with_reducible apply Sat_ite
                 | split | (refine snd_sat (by with_reducible assumption) ?_)
                 | (refine some_sat (by with_reducible assumption) ?_)
                 | (refine some2_sat (by with_reducible assumption) ?_) | with_reducible apply SatO_map
                 | with_reducible apply SatO_map2 | with_reducible apply SatO2_mapO
                 | with_reducible apply SatO2_map2 | dsimp only)

theorem execLoadGrant_sat (p : Nat) (s : State) (hK : Clo 0x20118 P) (hs0 : Sat P s) : SatN P (execLoadGrant p s)
    := by
  unfold execLoadGrant; (try dsimp only)
  repeat' (first | with_reducible assumption | ((with_reducible refine Clo.mono hK ?_); rfl)
                 | with_reducible intro _ | with_reducible apply loadGrantCmd_sat | with_reducible apply onWf_sat
                 | with_reducible apply takeCmd_sat | (simp only [SatN_next]))

theorem modGrant_sat (s : State) (p id : Nat) (f : Grant → Grant) (hK : Clo 0x100 P) (hs0 : Sat P s) :
    Sat P (modGrant s p id f) := by
  unfold modGrant; (try dsimp only)
  repeat' (first | with_reducible assumption | ((with_reducible refine Clo.mono hK ?_); rfl)
                 | with_reducible intro _ | with_reducible apply modPart_sat | with_reducible apply Sat_id
                 | with_reducible apply Sat_ite | split | with_reducible apply SatO_map
                 | with_reducible apply SatO_map2 | with_reducible apply SatO2_mapO
                 | with_reducible apply SatO2_map2)

theorem loadDataCmd_sat (c : Cmd) (s : State) (hK : Clo 0x20118 P) (hs0 : Sat P s) : Sat P (loadDataCmd c s) := by
  unfold loadDataCmd; (try dsimp only)
  repeat' (first | with_reducible assumption | ((with_reducible refine Clo.mono hK ?_); rfl)
                 | with_reducible apply isolation_sat | with_reducible apply pendWrites_sat
                 | with_reducible apply refuse_sat | with_reducible apply Sat_id | with_reducible apply Sat_ite
                 | split | (refine snd_sat (by with_reducible assumption) ?_)
                 | (refine some_sat (by with_reducible assumption) ?_)
                 | (refine some2_sat (by with_reducible assumption) ?_) | dsimp only)

theorem execLoadData_sat (p : Nat) (s : State) (hK : Clo 0x20118 P) (hs0 : Sat P s) : SatN P (execLoadData p s) := by
  unfold execLoadData; (try dsimp only)
  repeat' (first | with_reducible assumption | ((with_reducible refine Clo.mono hK ?_); rfl)
                 | with_reducible intro _ | with_reducible apply loadDataCmd_sat | with_reducible apply onWf_sat
                 | with_reducible apply takeCmd_sat | (simp only [SatN_next]))

theorem checkObject_sat (p : Nat) (g : Grant) (id : Nat) (s : State) (o : Nat × Nat) (hK : Clo 0x20018 P) (hs0 :
    Sat P s) : Sat P (checkObject p g id s o) := by
  unfold checkObject; (try dsimp only)
  repeat' (first | with_reducible assumption | ((with_reducible refine Clo.mono hK ?_); rfl)
                 | with_reducible apply addScan_sat | with_reducible apply checkKnown_sat
                 | with_reducible apply Sat_id | with_reducible apply Sat_ite | split
                 | (refine snd_sat (by with_reducible assumption) ?_)
                 | (refine some_sat (by with_reducible assumption) ?_)
                 | (refine some2_sat (by with_reducible assumption) ?_) | dsimp only)

theorem startChecks_sat (s : State) (hK : Clo 0x20018 P) (hs0 : Sat P s) : Sat P (startChecks s) := by
  unfold startChecks; (try dsimp only)
  repeat' (first | with_reducible assumption | ((with_reducible refine Clo.mono hK ?_); rfl)
                 | with_reducible intro _ | with_reducible apply Sat_foldl | with_reducible apply checkKnown_sat
                 | with_reducible apply checkObject_sat | with_reducible apply modTiers_sat
                 | with_reducible apply Sat_id | with_reducible apply Sat_ite | split
                 | (refine snd_sat (by with_reducible assumption) ?_)
                 | (refine some_sat (by with_reducible assumption) ?_)
                 | (refine some2_sat (by with_reducible assumption) ?_) | with_reducible apply SatO_map
                 | with_reducible apply SatO_map2 | with_reducible apply SatO2_mapO
                 | with_reducible apply SatO2_map2 | dsimp only)

theorem loadCheckCmd_sat (c : Cmd) (s : State) (hK : Clo 0x20118 P) (hs0 : Sat P s) : Sat P (loadCheckCmd c s) := by
  unfold loadCheckCmd; (try dsimp only)
  repeat' (first | with_reducible assumption | ((with_reducible refine Clo.mono hK ?_); rfl)
                 | with_reducible intro _ | with_reducible apply modGrant_sat | with_reducible apply modTiers_sat
                 | with_reducible apply refuse_sat | with_reducible apply startChecks_sat
                 | with_reducible apply Sat_id | with_reducible apply Sat_ite | split
                 | (refine snd_sat (by with_reducible assumption) ?_)
                 | (refine some_sat (by with_reducible assumption) ?_)
                 | (refine some2_sat (by with_reducible assumption) ?_) | with_reducible apply SatO_map
                 | with_reducible apply SatO_map2 | with_reducible apply SatO2_mapO
                 | with_reducible apply SatO2_map2 | dsimp only)

theorem execLoadCheck_sat (p : Nat) (s : State) (hK : Clo 0x20118 P) (hs0 : Sat P s) : SatN P (execLoadCheck p s)
    := by
  unfold execLoadCheck; (try dsimp only)
  repeat' (first | with_reducible assumption | ((with_reducible refine Clo.mono hK ?_); rfl)
                 | with_reducible intro _ | with_reducible apply loadCheckCmd_sat | with_reducible apply onWf_sat
                 | with_reducible apply takeCmd_sat | (simp only [SatN_next]))

theorem takeTxn_sat (t : Txn) (ttype : Nat) (f : State → State) (s : State) (hK : Clo 0x40000 P) (hf : ∀ x0,
    Sat P x0 → Sat P (f x0)) (hs0 : Sat P s) : Sat P (takeTxn t ttype f s) := by
  unfold takeTxn; (try dsimp only)
  repeat' (first | with_reducible assumption | ((with_reducible refine Clo.mono hK ?_); rfl)
                 | with_reducible intro _ | with_reducible apply ingress_sat | with_reducible apply modFabric_sat
                 | with_reducible apply hf | with_reducible apply Sat_ite | split
                 | (refine snd_sat (by with_reducible assumption) ?_)
                 | (refine some_sat (by with_reducible assumption) ?_)
                 | (refine some2_sat (by with_reducible assumption) ?_) | dsimp only)

theorem refuseChecked_sat (s : State) (t : Txn) (hK : Clo 0x200058 P) (hs0 : Sat P s) : Sat P (refuseChecked s t)
    := by
  unfold refuseChecked; (try dsimp only)
  repeat' (first | with_reducible assumption | ((with_reducible refine Clo.mono hK ?_); rfl)
                 | with_reducible apply recordFault_sat)

theorem loadWrite_sat (agree : Bool) (t : Txn) (s : State) (hK : Clo 0x220158 P) (hs0 : Sat P s) :
    Sat P (loadWrite agree t s) := by
  unfold loadWrite; (try dsimp only)
  repeat' (first | with_reducible assumption | ((with_reducible refine Clo.mono hK ?_); rfl)
                 | with_reducible apply isolation_sat | with_reducible apply pendWrites_sat
                 | with_reducible apply refuseChecked_sat | with_reducible apply Sat_id
                 | with_reducible apply Sat_ite | split | (refine snd_sat (by with_reducible assumption) ?_)
                 | (refine some_sat (by with_reducible assumption) ?_)
                 | (refine some2_sat (by with_reducible assumption) ?_) | dsimp only)

theorem execLoadWriteIngress_sat (t : Txn) (agree : Bool) (s : State) (hK : Clo 0x260158 P) (hs0 : Sat P s) :
    SatN P (execLoadWriteIngress t agree s) := by
  unfold execLoadWriteIngress; (try dsimp only)
  repeat' (first | with_reducible assumption | ((with_reducible refine Clo.mono hK ?_); rfl)
                 | with_reducible intro _ | with_reducible apply loadWrite_sat | with_reducible apply onWf_sat
                 | with_reducible apply takeTxn_sat | (simp only [SatN_next]))

theorem forwardTo_sat (p : Nat) (bs : List Byte) (s : State) (a : Nat) (hK : Clo 0x40118 P) (hs0 : Sat P s) :
    Sat P (forwardTo p bs s a) := by
  unfold forwardTo; (try dsimp only)
  repeat' (first | with_reducible assumption | ((with_reducible refine Clo.mono hK ?_); rfl)
                 | with_reducible intro _ | with_reducible apply Sat_foldl | with_reducible apply issueTxn_sat)

theorem loadForward_sat (p gid : Nat) (s : State) (hK : Clo 0x40118 P) (hs0 : Sat P s) : Sat P (loadForward p gid s)
    := by
  unfold loadForward; (try dsimp only)
  repeat' (first | with_reducible assumption | ((with_reducible refine Clo.mono hK ?_); rfl)
                 | with_reducible intro _ | with_reducible apply Sat_foldl | with_reducible apply forwardTo_sat
                 | with_reducible apply modGrant_sat | with_reducible apply Sat_id | split
                 | (refine snd_sat (by with_reducible assumption) ?_)
                 | (refine some_sat (by with_reducible assumption) ?_)
                 | (refine some2_sat (by with_reducible assumption) ?_) | with_reducible apply SatO_map
                 | with_reducible apply SatO_map2 | with_reducible apply SatO2_mapO
                 | with_reducible apply SatO2_map2 | dsimp only)

theorem execLoadForward_sat (p gid : Nat) (s : State) (hK : Clo 0x40118 P) (hs0 : Sat P s) :
    SatN P (execLoadForward p gid s) := by
  unfold execLoadForward; (try dsimp only)
  repeat' (first | with_reducible assumption | ((with_reducible refine Clo.mono hK ?_); rfl)
                 | with_reducible intro _ | with_reducible apply loadForward_sat | with_reducible apply onWf_sat
                 | (simp only [SatN_next]))

theorem execLoadGrantExpiry_sat (p gid : Nat) (s : State) (hK : Clo 0x100 P) (hs0 : Sat P s) :
    SatN P (execLoadGrantExpiry p gid s) := by
  unfold execLoadGrantExpiry; (try dsimp only)
  repeat' (first | with_reducible assumption | ((with_reducible refine Clo.mono hK ?_); rfl)
                 | with_reducible intro _ | with_reducible apply modPart_sat | with_reducible apply onWf_sat | split
                 | (simp only [SatN_next]) | with_reducible apply SatO_map | with_reducible apply SatO_map2
                 | with_reducible apply SatO2_mapO | with_reducible apply SatO2_map2)

theorem layerReplaceCmd_sat (c : Cmd) (s : State) (hK : Clo 0x20018 P) (hs0 : Sat P s) : Sat P (layerReplaceCmd c s)
    := by
  unfold layerReplaceCmd; (try dsimp only)
  repeat' (first | with_reducible assumption | ((with_reducible refine Clo.mono hK ?_); rfl)
                 | with_reducible intro _ | with_reducible apply modTiers_sat | with_reducible apply refuse_sat
                 | with_reducible apply Sat_ite | split | (refine snd_sat (by with_reducible assumption) ?_)
                 | (refine some_sat (by with_reducible assumption) ?_)
                 | (refine some2_sat (by with_reducible assumption) ?_) | dsimp only)

theorem execLayerReplace_sat (s : State) (hK : Clo 0x20018 P) (hs0 : Sat P s) : SatN P (execLayerReplace s) := by
  unfold execLayerReplace; (try dsimp only)
  repeat' (first | with_reducible assumption | ((with_reducible refine Clo.mono hK ?_); rfl)
                 | with_reducible intro _ | with_reducible apply layerReplaceCmd_sat | with_reducible apply onWf_sat
                 | with_reducible apply takeCmd_sat | (simp only [SatN_next]))

theorem execReplaceCopyStart_sat (s : State) (hK : Clo 0x20000 P) (hs0 : Sat P s) : SatN P (execReplaceCopyStart s)
    := by
  unfold execReplaceCopyStart; (try dsimp only)
  repeat' (first | with_reducible assumption | ((with_reducible refine Clo.mono hK ?_); rfl)
                 | with_reducible intro _ | with_reducible apply modReplace_sat | with_reducible apply onWf_sat
                 | split | (simp only [SatN_next]) | (refine snd_sat (by with_reducible assumption) ?_)
                 | (refine some_sat (by with_reducible assumption) ?_)
                 | (refine some2_sat (by with_reducible assumption) ?_) | dsimp only)

theorem replaceCopied_sat (s : State) (hK : Clo 0x30118 P) (hs0 : Sat P s) : Sat P (replaceCopied s) := by
  unfold replaceCopied; (try dsimp only)
  repeat' (first | with_reducible assumption | ((with_reducible refine Clo.mono hK ?_); rfl)
                 | with_reducible intro _ | with_reducible apply addScan_sat | with_reducible apply copyBytes_sat
                 | with_reducible apply countTier_sat | with_reducible apply modReplace_sat
                 | with_reducible apply replaceDone_sat | with_reducible apply unverify_sat
                 | with_reducible apply Sat_ite | split | (refine snd_sat (by with_reducible assumption) ?_)
                 | (refine some_sat (by with_reducible assumption) ?_)
                 | (refine some2_sat (by with_reducible assumption) ?_) | dsimp only)

theorem execReplaceCopyDone_sat (s : State) (hK : Clo 0x30118 P) (hs0 : Sat P s) : SatN P (execReplaceCopyDone s)
    := by
  unfold execReplaceCopyDone; (try dsimp only)
  repeat' (first | with_reducible assumption | ((with_reducible refine Clo.mono hK ?_); rfl)
                 | with_reducible intro _ | with_reducible apply onWf_sat | with_reducible apply replaceCopied_sat
                 | (simp only [SatN_next]))

theorem migrationStart_sat (p layer expert target : Nat) (s : State) (hK : Clo 0x30100 P) (hs0 : Sat P s) :
    Sat P (migrationStart p layer expert target s) := by
  unfold migrationStart; (try dsimp only)
  repeat' (first | with_reducible assumption | ((with_reducible refine Clo.mono hK ?_); rfl)
                 | with_reducible intro _ | with_reducible apply addScan_sat | with_reducible apply copyBytes_sat
                 | with_reducible apply markFrames_sat | with_reducible apply modPart_sat
                 | with_reducible apply Sat_id | with_reducible apply Sat_ite | split
                 | (refine snd_sat (by with_reducible assumption) ?_)
                 | (refine some_sat (by with_reducible assumption) ?_)
                 | (refine some2_sat (by with_reducible assumption) ?_) | with_reducible apply SatO_map
                 | with_reducible apply SatO_map2 | with_reducible apply SatO2_mapO
                 | with_reducible apply SatO2_map2 | dsimp only)

theorem execMigrationStart_sat (p layer expert target : Nat) (s : State) (hK : Clo 0x30100 P) (hs0 : Sat P s) :
    SatN P (execMigrationStart p layer expert target s) := by
  unfold execMigrationStart; (try dsimp only)
  repeat' (first | with_reducible assumption | ((with_reducible refine Clo.mono hK ?_); rfl)
                 | with_reducible intro _ | with_reducible apply migrationStart_sat | with_reducible apply onWf_sat
                 | (simp only [SatN_next]))

theorem migrationMap_sat (p : Nat) (s : State) (hK : Clo 0x30100 P) (hs0 : Sat P s) : Sat P (migrationMap p s) := by
  unfold migrationMap; (try dsimp only)
  repeat' (first | with_reducible assumption | ((with_reducible refine Clo.mono hK ?_); rfl)
                 | with_reducible intro _ | with_reducible apply modMigration_sat
                 | with_reducible apply writeTier_sat | with_reducible apply Sat_ite | split
                 | (refine snd_sat (by with_reducible assumption) ?_)
                 | (refine some_sat (by with_reducible assumption) ?_)
                 | (refine some2_sat (by with_reducible assumption) ?_) | with_reducible apply SatO_map
                 | with_reducible apply SatO_map2 | with_reducible apply SatO2_mapO
                 | with_reducible apply SatO2_map2 | dsimp only)

theorem execMigrationMapUpdate_sat (p : Nat) (s : State) (hK : Clo 0x30100 P) (hs0 : Sat P s) :
    SatN P (execMigrationMapUpdate p s) := by
  unfold execMigrationMapUpdate; (try dsimp only)
  repeat' (first | with_reducible assumption | ((with_reducible refine Clo.mono hK ?_); rfl)
                 | with_reducible intro _ | with_reducible apply migrationMap_sat | with_reducible apply onWf_sat
                 | (simp only [SatN_next]))

theorem migrationRelease_sat (p : Nat) (s : State) (hK : Clo 0x20100 P) (hs0 : Sat P s) :
    Sat P (migrationRelease p s) := by
  unfold migrationRelease; (try dsimp only)
  repeat' (first | with_reducible assumption | ((with_reducible refine Clo.mono hK ?_); rfl)
                 | with_reducible intro _ | with_reducible apply Sat_foldl | with_reducible apply migrationEnd_sat
                 | with_reducible apply setFrame_sat | with_reducible apply unverify_sat | split
                 | (refine snd_sat (by with_reducible assumption) ?_)
                 | (refine some_sat (by with_reducible assumption) ?_)
                 | (refine some2_sat (by with_reducible assumption) ?_) | dsimp only)

theorem execMigrationRelease_sat (p : Nat) (s : State) (hK : Clo 0x20100 P) (hs0 : Sat P s) :
    SatN P (execMigrationRelease p s) := by
  unfold execMigrationRelease; (try dsimp only)
  repeat' (first | with_reducible assumption | ((with_reducible refine Clo.mono hK ?_); rfl)
                 | with_reducible intro _ | with_reducible apply migrationRelease_sat
                 | with_reducible apply onWf_sat | (simp only [SatN_next]))

theorem execScanSegmentDone_sat (engine status : Nat) (s : State) (hK : Clo 0x47c11a P) (hs0 : Sat P s) :
    SatN P (execScanSegmentDone engine status s) := by
  unfold execScanSegmentDone; (try dsimp only)
  repeat' (first | with_reducible assumption | ((with_reducible refine Clo.mono hK ?_); rfl)
                 | with_reducible intro _ | with_reducible apply onWf_sat | with_reducible apply segmentDone_sat
                 | split | (simp only [SatN_next]))

theorem ownMove_sat (s : State) (g : Nat) (own : Option (Nat × Nat)) (hK : Clo 0x20000 P) (hs0 : Sat P s) :
    Sat P (ownMove s g own) := by
  unfold ownMove; (try dsimp only)
  repeat' (first | with_reducible assumption | ((with_reducible refine Clo.mono hK ?_); rfl)
                 | with_reducible apply htMove_sat | with_reducible apply Sat_ite | split
                 | (refine snd_sat (by with_reducible assumption) ?_)
                 | (refine some_sat (by with_reducible assumption) ?_)
                 | (refine some2_sat (by with_reducible assumption) ?_) | dsimp only)

theorem execMoveCopyStart_sat (g : Nat) (own : Option (Nat × Nat)) (s : State) (hK : Clo 0x47c51a P) (hs0 : Sat P s)
    : SatN P (execMoveCopyStart g own s) := by
  unfold execMoveCopyStart; (try dsimp only)
  repeat' (first | with_reducible assumption | ((with_reducible refine Clo.mono hK ?_); rfl)
                 | with_reducible intro _ | with_reducible apply moveCopy_sat | with_reducible apply onWf_sat
                 | with_reducible apply ownMove_sat | with_reducible apply Sat_ite | split | (simp only [SatN_next])
                 | (refine snd_sat (by with_reducible assumption) ?_)
                 | (refine some_sat (by with_reducible assumption) ?_)
                 | (refine some2_sat (by with_reducible assumption) ?_) | dsimp only)

theorem execMoveSwitch_sat (g status : Nat) (s : State) (hK : Clo 0x47c51a P) (hs0 : Sat P s) :
    SatN P (execMoveSwitch g status s) := by
  unfold execMoveSwitch; (try dsimp only)
  repeat' (first | with_reducible assumption | ((with_reducible refine Clo.mono hK ?_); rfl)
                 | with_reducible intro _ | with_reducible apply moveAbort_sat | with_reducible apply moveSwitch_sat
                 | with_reducible apply onWf_sat | split | (simp only [SatN_next])
                 | (refine snd_sat (by with_reducible assumption) ?_)
                 | (refine some_sat (by with_reducible assumption) ?_)
                 | (refine some2_sat (by with_reducible assumption) ?_) | dsimp only)

theorem freedDone_sat (s : State) (g : Nat) (hK : Clo 0x20000 P) (hs0 : Sat P s) : Sat P (freedDone s g) := by
  unfold freedDone; (try dsimp only)
  repeat' (first | with_reducible assumption | ((with_reducible refine Clo.mono hK ?_); rfl)
                 | with_reducible intro _ | with_reducible apply Sat_foldl | with_reducible apply modTiers_sat
                 | with_reducible apply setFrame_sat | (refine snd_sat (by with_reducible assumption) ?_)
                 | (refine some_sat (by with_reducible assumption) ?_)
                 | (refine some2_sat (by with_reducible assumption) ?_) | dsimp only)

theorem execMoveRelease_sat (g : Nat) (s : State) (hK : Clo 0x47c11a P) (hs0 : Sat P s) :
    SatN P (execMoveRelease g s) := by
  unfold execMoveRelease; (try dsimp only)
  repeat' (first | with_reducible assumption | ((with_reducible refine Clo.mono hK ?_); rfl)
                 | with_reducible intro _ | with_reducible apply freedDone_sat
                 | with_reducible apply moveRelease_sat | with_reducible apply onWf_sat
                 | with_reducible apply Sat_ite | split | (simp only [SatN_next])
                 | (refine snd_sat (by with_reducible assumption) ?_)
                 | (refine some_sat (by with_reducible assumption) ?_)
                 | (refine some2_sat (by with_reducible assumption) ?_) | dsimp only)

theorem execMoveLimitReached_sat (g : Nat) (s : State) (hK : Clo 0x47c51a P) (hs0 : Sat P s) :
    SatN P (execMoveLimitReached g s) := by
  unfold execMoveLimitReached; (try dsimp only)
  repeat' (first | with_reducible assumption | ((with_reducible refine Clo.mono hK ?_); rfl)
                 | with_reducible intro _ | with_reducible apply moveAbort_sat | with_reducible apply onWf_sat
                 | split | (simp only [SatN_next]) | (refine snd_sat (by with_reducible assumption) ?_)
                 | (refine some_sat (by with_reducible assumption) ?_)
                 | (refine some2_sat (by with_reducible assumption) ?_) | dsimp only)

/-! ### Streams -/

theorem streamFault_sat (s : State) (p idx kind status : Nat) (hK : Clo 0x66f75a P) (hs0 : Sat P s) :
    Sat P (streamFault s p idx kind status) := by
  unfold streamFault; (try dsimp only)
  repeat' (first | with_reducible assumption | ((with_reducible refine Clo.mono hK ?_); rfl)
                 | with_reducible apply lastDrain_sat | with_reducible apply recordFault_sat
                 | with_reducible apply stepFault_sat | with_reducible apply switchFail_sat
                 | with_reducible apply Sat_id | with_reducible apply Sat_ite | split
                 | (refine snd_sat (by with_reducible assumption) ?_)
                 | (refine some_sat (by with_reducible assumption) ?_)
                 | (refine some2_sat (by with_reducible assumption) ?_) | dsimp only)

theorem streamOutside_sat (s : State) (p idx addr : Nat) (hK : Clo 0x66f75a P) (hs0 : Sat P s) :
    Sat P (streamOutside s p idx addr) := by
  unfold streamOutside; (try dsimp only)
  repeat' (first | with_reducible assumption | ((with_reducible refine Clo.mono hK ?_); rfl)
                 | with_reducible apply isolation_sat | with_reducible apply streamFault_sat
                 | with_reducible apply Sat_id)

theorem checkerFault_sat (s : State) (p addr : Nat) (hK : Clo 0x66f75a P) (hs0 : Sat P s) :
    Sat P (checkerFault s p addr) := by
  unfold checkerFault; (try dsimp only)
  repeat' (first | with_reducible assumption | ((with_reducible refine Clo.mono hK ?_); rfl)
                 | with_reducible apply lastDrain_sat | with_reducible apply recordFault_sat
                 | with_reducible apply stepFault_sat | with_reducible apply switchFail_sat | split
                 | (refine snd_sat (by with_reducible assumption) ?_)
                 | (refine some_sat (by with_reducible assumption) ?_)
                 | (refine some2_sat (by with_reducible assumption) ?_) | dsimp only)

theorem passDesc_sat (s : State) (p : Nat) (hK : Clo 0x100 P) (hs0 : Sat P s) : Sat P (passDesc s p) := by
  unfold passDesc; (try dsimp only)
  repeat' (first | with_reducible assumption | ((with_reducible refine Clo.mono hK ?_); rfl)
                 | with_reducible intro _ | with_reducible apply modStream_sat)

theorem passAt_sat (s : State) (p idx : Nat) (hK : Clo 0x100 P) (hs0 : Sat P s) : Sat P (passAt s p idx) := by
  unfold passAt; (try dsimp only)
  repeat' (first | with_reducible assumption | ((with_reducible refine Clo.mono hK ?_); rfl)
                 | with_reducible intro _ | with_reducible apply modStream_sat | with_reducible apply passDesc_sat
                 | with_reducible apply Sat_id | with_reducible apply Sat_ite | split)

theorem takeDesc_sat (p kind : Nat) (f : Nat → BitVec 256 → State → State) (s : State) (hK : Clo 0x66f75a P)
    (hf : ∀ x0 x1 x2, Sat P x2 → Sat P (f x0 x1 x2)) (hs0 : Sat P s) : Sat P (takeDesc p kind f s) := by
  unfold takeDesc; (try dsimp only)
  repeat' (first | with_reducible assumption | ((with_reducible refine Clo.mono hK ?_); rfl)
                 | with_reducible intro _ | with_reducible apply passDesc_sat | with_reducible apply streamFault_sat
                 | with_reducible apply hf | with_reducible apply Sat_ite | split
                 | (refine snd_sat (by with_reducible assumption) ?_)
                 | (refine some_sat (by with_reducible assumption) ?_)
                 | (refine some2_sat (by with_reducible assumption) ?_) | dsimp only)

theorem activate_sat (s : State) (p idx : Nat) (d : BitVec 256) (hK : Clo 0x100 P) (hs0 : Sat P s) :
    Sat P (activate s p idx d) := by
  unfold activate; (try dsimp only)
  repeat' (first | with_reducible assumption | ((with_reducible refine Clo.mono hK ?_); rfl)
                 | with_reducible intro _ | with_reducible apply issued_sat | with_reducible apply modStream_sat
                 | with_reducible apply passAt_sat | with_reducible apply Sat_id
                 | (refine snd_sat (by with_reducible assumption) ?_)
                 | (refine some_sat (by with_reducible assumption) ?_)
                 | (refine some2_sat (by with_reducible assumption) ?_) | dsimp only)

theorem failObject_sat (s : State) (p idx : Nat) (d : BitVec 256) (hK : Clo 0x46c118 P) (hs0 : Sat P s) :
    Sat P (failObject s p idx d) := by
  unfold failObject; (try dsimp only)
  repeat' (first | with_reducible assumption | ((with_reducible refine Clo.mono hK ?_); rfl)
                 | with_reducible apply endNeed_sat | with_reducible apply Sat_id | with_reducible apply Sat_ite
                 | split)

theorem feedDesc_sat (p : Nat) (agree : Bool) (idx : Nat) (d : BitVec 256) (s : State) (hK : Clo 0x66f75a P) (hs0 :
    Sat P s) : Sat P (feedDesc p agree idx d s) := by
  unfold feedDesc; (try dsimp only)
  repeat' (first | with_reducible assumption | ((with_reducible refine Clo.mono hK ?_); rfl)
                 | with_reducible intro _ | with_reducible apply activate_sat
                 | with_reducible apply checkerFault_sat | with_reducible apply failObject_sat
                 | with_reducible apply nextFrame_sat | with_reducible apply passDesc_sat
                 | with_reducible apply streamFault_sat | with_reducible apply streamOutside_sat
                 | with_reducible apply Sat_id | with_reducible apply Sat_ite | split
                 | (refine snd_sat (by with_reducible assumption) ?_)
                 | (refine some_sat (by with_reducible assumption) ?_)
                 | (refine some2_sat (by with_reducible assumption) ?_) | dsimp only)

theorem execStreamFeed_sat (p : Nat) (agree : Bool) (s : State) (hK : Clo 0x66f75a P) (hs0 : Sat P s) :
    SatN P (execStreamFeed p agree s) := by
  unfold execStreamFeed; (try dsimp only)
  repeat' (first | with_reducible assumption | ((with_reducible refine Clo.mono hK ?_); rfl)
                 | with_reducible intro _ | with_reducible apply feedDesc_sat | with_reducible apply onWf_sat
                 | with_reducible apply takeDesc_sat | (simp only [SatN_next]))

theorem stageDesc_sat (p : Nat) (agree : Bool) (idx : Nat) (d : BitVec 256) (s : State) (hK : Clo 0x66f75a P) (hs0 :
    Sat P s) : Sat P (stageDesc p agree idx d s) := by
  unfold stageDesc; (try dsimp only)
  repeat' (first | with_reducible assumption | ((with_reducible refine Clo.mono hK ?_); rfl)
                 | with_reducible apply activate_sat | with_reducible apply checkerFault_sat
                 | with_reducible apply failObject_sat | with_reducible apply nextPiece_sat
                 | with_reducible apply passAt_sat | with_reducible apply streamFault_sat
                 | with_reducible apply streamOutside_sat | with_reducible apply Sat_id
                 | with_reducible apply Sat_ite | split | (refine snd_sat (by with_reducible assumption) ?_)
                 | (refine some_sat (by with_reducible assumption) ?_)
                 | (refine some2_sat (by with_reducible assumption) ?_) | dsimp only)

theorem takeStage_sat (p : Nat) (agree : Bool) (s : State) (hK : Clo 0x66f75a P) (hs0 : Sat P s) :
    Sat P (takeStage p agree s) := by
  unfold takeStage; (try dsimp only)
  repeat' (first | with_reducible assumption | ((with_reducible refine Clo.mono hK ?_); rfl)
                 | with_reducible intro _ | with_reducible apply stageDesc_sat | with_reducible apply takeDesc_sat
                 | with_reducible apply Sat_ite | split | (refine snd_sat (by with_reducible assumption) ?_)
                 | (refine some_sat (by with_reducible assumption) ?_)
                 | (refine some2_sat (by with_reducible assumption) ?_) | dsimp only)

theorem execStreamStage_sat (p : Nat) (agree : Bool) (s : State) (hK : Clo 0x66f75a P) (hs0 : Sat P s) :
    SatN P (execStreamStage p agree s) := by
  unfold execStreamStage; (try dsimp only)
  repeat' (first | with_reducible assumption | ((with_reducible refine Clo.mono hK ?_); rfl)
                 | with_reducible intro _ | with_reducible apply onWf_sat | with_reducible apply takeStage_sat
                 | (simp only [SatN_next]))

theorem markDesc_sat (p idx : Nat) (d : BitVec 256) (s : State) (hK : Clo 0x66f75a P) (hs0 : Sat P s) :
    Sat P (markDesc p idx d s) := by
  unfold markDesc; (try dsimp only)
  repeat' (first | with_reducible assumption | ((with_reducible refine Clo.mono hK ?_); rfl)
                 | with_reducible intro _ | with_reducible apply modStream_sat | with_reducible apply passDesc_sat
                 | with_reducible apply streamFault_sat | with_reducible apply Sat_getD
                 | with_reducible apply Sat_id | with_reducible apply Sat_ite | split
                 | (refine snd_sat (by with_reducible assumption) ?_)
                 | (refine some_sat (by with_reducible assumption) ?_)
                 | (refine some2_sat (by with_reducible assumption) ?_) | dsimp only)

theorem execStreamMark_sat (p : Nat) (s : State) (hK : Clo 0x66f75a P) (hs0 : Sat P s) : SatN P (execStreamMark p s)
    := by
  unfold execStreamMark; (try dsimp only)
  repeat' (first | with_reducible assumption | ((with_reducible refine Clo.mono hK ?_); rfl)
                 | with_reducible intro _ | with_reducible apply markDesc_sat | with_reducible apply onWf_sat
                 | with_reducible apply takeDesc_sat | (simp only [SatN_next]))

theorem drainDesc_sat (p : Nat) (agree : Bool) (idx : Nat) (d : BitVec 256) (s : State) (hK : Clo 0x66f75a P) (hs0 :
    Sat P s) : Sat P (drainDesc p agree idx d s) := by
  unfold drainDesc; (try dsimp only)
  repeat' (first | with_reducible assumption | ((with_reducible refine Clo.mono hK ?_); rfl)
                 | with_reducible intro _ | with_reducible apply activate_sat
                 | with_reducible apply checkerFault_sat | with_reducible apply modStream_sat
                 | with_reducible apply streamFault_sat | with_reducible apply streamOutside_sat
                 | with_reducible apply Sat_id | with_reducible apply Sat_ite | split
                 | (refine snd_sat (by with_reducible assumption) ?_)
                 | (refine some_sat (by with_reducible assumption) ?_)
                 | (refine some2_sat (by with_reducible assumption) ?_) | dsimp only)

theorem execStreamDrain_sat (p : Nat) (agree : Bool) (s : State) (hK : Clo 0x66f75a P) (hs0 : Sat P s) :
    SatN P (execStreamDrain p agree s) := by
  unfold execStreamDrain; (try dsimp only)
  repeat' (first | with_reducible assumption | ((with_reducible refine Clo.mono hK ?_); rfl)
                 | with_reducible intro _ | with_reducible apply drainDesc_sat | with_reducible apply onWf_sat
                 | with_reducible apply takeDesc_sat | (simp only [SatN_next]))

theorem advanceEpoch_sat (s : State) (p : Nat) (hK : Clo 0x100 P) (hs0 : Sat P s) : Sat P (advanceEpoch s p) := by
  unfold advanceEpoch; (try dsimp only)
  repeat' (first | with_reducible assumption | ((with_reducible refine Clo.mono hK ?_); rfl)
                 | with_reducible intro _ | with_reducible apply modPart_sat | with_reducible apply modStream_sat)

theorem startInjectors_sat (s : State) (p idx : Nat) (a : Nat) (hK : Clo 0x66f75a P) (hs0 : Sat P s) :
    Sat P (startInjectors s p idx a) := by
  unfold startInjectors; (try dsimp only)
  repeat' (first | with_reducible assumption | ((with_reducible refine Clo.mono hK ?_); rfl)
                 | with_reducible intro _ | with_reducible apply advanceEpoch_sat | with_reducible apply endNeed_sat
                 | with_reducible apply modPart_sat | with_reducible apply passDesc_sat
                 | with_reducible apply pendReads_sat | with_reducible apply streamFault_sat
                 | with_reducible apply streamOutside_sat | with_reducible apply Sat_id
                 | with_reducible apply Sat_ite | split | (refine snd_sat (by with_reducible assumption) ?_)
                 | (refine some_sat (by with_reducible assumption) ?_)
                 | (refine some2_sat (by with_reducible assumption) ?_) | with_reducible apply SatO_map
                 | with_reducible apply SatO_map2 | with_reducible apply SatO2_mapO
                 | with_reducible apply SatO2_map2 | dsimp only)

theorem configDesc_sat (p : Nat) (agree : Bool) (idx : Nat) (d : BitVec 256) (s : State) (hK : Clo 0x66f75a P)
    (hs0 : Sat P s) : Sat P (configDesc p agree idx d s) := by
  unfold configDesc; (try dsimp only)
  repeat' (first | with_reducible assumption | ((with_reducible refine Clo.mono hK ?_); rfl)
                 | with_reducible intro _ | with_reducible apply checkerFault_sat
                 | with_reducible apply startInjectors_sat | with_reducible apply streamOutside_sat
                 | with_reducible apply Sat_id | with_reducible apply Sat_ite | split
                 | (refine snd_sat (by with_reducible assumption) ?_)
                 | (refine some_sat (by with_reducible assumption) ?_)
                 | (refine some2_sat (by with_reducible assumption) ?_) | dsimp only)

theorem execStreamConfig_sat (p : Nat) (agree : Bool) (s : State) (hK : Clo 0x66f75a P) (hs0 : Sat P s) :
    SatN P (execStreamConfig p agree s) := by
  unfold execStreamConfig; (try dsimp only)
  repeat' (first | with_reducible assumption | ((with_reducible refine Clo.mono hK ?_); rfl)
                 | with_reducible intro _ | with_reducible apply configDesc_sat | with_reducible apply onWf_sat
                 | with_reducible apply takeDesc_sat | (simp only [SatN_next]))

theorem endDesc_sat (p : Nat) (u1 : Nat) (u2 : BitVec 256) (s : State) (hK : Clo 0x100 P) (hs0 : Sat P s) :
    Sat P (endDesc p u1 u2 s) := by
  unfold endDesc; (try dsimp only)
  repeat' (first | with_reducible assumption | ((with_reducible refine Clo.mono hK ?_); rfl)
                 | with_reducible intro _ | with_reducible apply modPart_sat | with_reducible apply modStream_sat
                 | with_reducible apply passDesc_sat | with_reducible apply Sat_ite | split
                 | (refine snd_sat (by with_reducible assumption) ?_)
                 | (refine some_sat (by with_reducible assumption) ?_)
                 | (refine some2_sat (by with_reducible assumption) ?_) | dsimp only)

theorem execStreamEnd_sat (p : Nat) (s : State) (hK : Clo 0x66f75a P) (hs0 : Sat P s) : SatN P (execStreamEnd p s)
    := by
  unfold execStreamEnd; (try dsimp only)
  repeat' (first | with_reducible assumption | ((with_reducible refine Clo.mono hK ?_); rfl)
                 | with_reducible intro _ | with_reducible apply endDesc_sat | with_reducible apply onWf_sat
                 | with_reducible apply takeDesc_sat | (simp only [SatN_next]))

theorem markRelease_sat (p : Nat) (s : State) (hK : Clo 0x100 P) (hs0 : Sat P s) : Sat P (markRelease p s) := by
  unfold markRelease; (try dsimp only)
  repeat' (first | with_reducible assumption | ((with_reducible refine Clo.mono hK ?_); rfl)
                 | with_reducible intro _ | with_reducible apply modStream_sat | with_reducible apply Sat_id
                 | with_reducible apply Sat_ite | split | (refine snd_sat (by with_reducible assumption) ?_)
                 | (refine some_sat (by with_reducible assumption) ?_)
                 | (refine some2_sat (by with_reducible assumption) ?_) | dsimp only)

theorem execMarkReleaseWrite_sat (p : Nat) (s : State) (hK : Clo 0x100 P) (hs0 : Sat P s) :
    SatN P (execMarkReleaseWrite p s) := by
  unfold execMarkReleaseWrite; (try dsimp only)
  repeat' (first | with_reducible assumption | ((with_reducible refine Clo.mono hK ?_); rfl)
                 | with_reducible intro _ | with_reducible apply markRelease_sat | with_reducible apply onWf_sat
                 | (simp only [SatN_next]))

theorem execStreamStallExpiry_sat (p : Nat) (s : State) (hK : Clo 0x66f75a P) (hs0 : Sat P s) :
    SatN P (execStreamStallExpiry p s) := by
  unfold execStreamStallExpiry; (try dsimp only)
  repeat' (first | with_reducible assumption | ((with_reducible refine Clo.mono hK ?_); rfl)
                 | with_reducible intro _ | with_reducible apply onWf_sat | with_reducible apply streamFault_sat
                 | with_reducible apply Sat_ite | split | (simp only [SatN_next])
                 | (refine snd_sat (by with_reducible assumption) ?_)
                 | (refine some_sat (by with_reducible assumption) ?_)
                 | (refine some2_sat (by with_reducible assumption) ?_) | dsimp only)

theorem execTransferGrant_sat (tier : Nat) (entry : Option (Nat × Option Nat)) (s : State) (hK : Clo 0x46c51a P)
    (hs0 : Sat P s) : SatN P (execTransferGrant tier entry s) := by
  unfold execTransferGrant; (try dsimp only)
  repeat' (first | with_reducible assumption | ((with_reducible refine Clo.mono hK ?_); rfl)
                 | with_reducible intro _ | with_reducible apply issueTransfer_sat | with_reducible apply onWf_sat
                 | split | (simp only [SatN_next]) | (refine snd_sat (by with_reducible assumption) ?_)
                 | (refine some_sat (by with_reducible assumption) ?_)
                 | (refine some2_sat (by with_reducible assumption) ?_) | dsimp only)

theorem transferDone_sat (id status : Nat) (s : State) (hK : Clo 0x47c51a P) (hs0 : Sat P s) :
    Sat P (transferDone id status s) := by
  unfold transferDone; (try dsimp only)
  repeat' (first | with_reducible assumption | ((with_reducible refine Clo.mono hK ?_); rfl)
                 | with_reducible apply completeTransfer_sat | with_reducible apply issued_sat
                 | with_reducible apply unitError_sat | with_reducible apply Sat_id | with_reducible apply Sat_ite
                 | split | (refine snd_sat (by with_reducible assumption) ?_)
                 | (refine some_sat (by with_reducible assumption) ?_)
                 | (refine some2_sat (by with_reducible assumption) ?_) | dsimp only)

theorem execTransferCompletion_sat (id status : Nat) (s : State) (hK : Clo 0x47c51a P) (hs0 : Sat P s) :
    SatN P (execTransferCompletion id status s) := by
  unfold execTransferCompletion; (try dsimp only)
  repeat' (first | with_reducible assumption | ((with_reducible refine Clo.mono hK ?_); rfl)
                 | with_reducible intro _ | with_reducible apply onWf_sat | with_reducible apply startChecks_sat
                 | with_reducible apply transferDone_sat | with_reducible apply Sat_id | (simp only [SatN_next]))

theorem transferLate_sat (id : Nat) (s : State) (hK : Clo 0x47c51a P) (hs0 : Sat P s) : Sat P (transferLate id s)
    := by
  unfold transferLate; (try dsimp only)
  repeat' (first | with_reducible assumption | ((with_reducible refine Clo.mono hK ?_); rfl)
                 | with_reducible apply completeTransfer_sat | with_reducible apply dropTransfer_sat
                 | with_reducible apply finishTransfer_sat | with_reducible apply issued_sat
                 | with_reducible apply Sat_id | with_reducible apply Sat_ite | split
                 | (refine snd_sat (by with_reducible assumption) ?_)
                 | (refine some_sat (by with_reducible assumption) ?_)
                 | (refine some2_sat (by with_reducible assumption) ?_) | dsimp only)

theorem execTransferLate_sat (id : Nat) (s : State) (hK : Clo 0x47c51a P) (hs0 : Sat P s) :
    SatN P (execTransferLate id s) := by
  unfold execTransferLate; (try dsimp only)
  repeat' (first | with_reducible assumption | ((with_reducible refine Clo.mono hK ?_); rfl)
                 | with_reducible intro _ | with_reducible apply onWf_sat | with_reducible apply startChecks_sat
                 | with_reducible apply transferLate_sat | with_reducible apply Sat_id | (simp only [SatN_next]))

theorem loseGrain_sat (s : State) (kind g : Nat) (partKept : Bool) (hK : Clo 0x67c55a P) (hs0 : Sat P s) :
    Sat P (loseGrain s kind g partKept) := by
  unfold loseGrain; (try dsimp only)
  repeat' (first | with_reducible assumption | ((with_reducible refine Clo.mono hK ?_); rfl)
                 | with_reducible intro _ | with_reducible apply moveLost_sat | with_reducible apply recordFault_sat
                 | with_reducible apply setHt_sat | with_reducible apply Sat_getD | with_reducible apply Sat_ite
                 | split | (refine snd_sat (by with_reducible assumption) ?_)
                 | (refine some_sat (by with_reducible assumption) ?_)
                 | (refine some2_sat (by with_reducible assumption) ?_) | dsimp only)

theorem entryError_sat (s : State) (g : Nat) (hK : Clo 0x20018 P) (hs0 : Sat P s) : Sat P (entryError s g) := by
  unfold entryError; (try dsimp only)
  repeat' (first | with_reducible assumption | ((with_reducible refine Clo.mono hK ?_); rfl)
                 | with_reducible apply errorAt_sat | (refine snd_sat (by with_reducible assumption) ?_)
                 | (refine some_sat (by with_reducible assumption) ?_)
                 | (refine some2_sat (by with_reducible assumption) ?_) | dsimp only)

theorem scrub_sat (bad : List (Nat × Bool)) (s : State) (hK : Clo 0x67c55a P) (hs0 : Sat P s) : Sat P (scrub bad s)
    := by
  unfold scrub; (try dsimp only)
  repeat' (first | with_reducible assumption | ((with_reducible refine Clo.mono hK ?_); rfl)
                 | with_reducible intro _ | with_reducible apply Sat_foldl | with_reducible apply entryError_sat
                 | with_reducible apply loseGrain_sat | with_reducible apply recordFault_sat
                 | with_reducible apply Sat_ite | split | (refine snd_sat (by with_reducible assumption) ?_)
                 | (refine some_sat (by with_reducible assumption) ?_)
                 | (refine some2_sat (by with_reducible assumption) ?_) | with_reducible apply SatO_map
                 | with_reducible apply SatO_map2 | with_reducible apply SatO2_mapO
                 | with_reducible apply SatO2_map2 | dsimp only)

theorem execHtScrub_sat (bad : List (Nat × Bool)) (s : State) (hK : Clo 0x67c55a P) (hs0 : Sat P s) :
    SatN P (execHtScrub bad s) := by
  unfold execHtScrub; (try dsimp only)
  repeat' (first | with_reducible assumption | ((with_reducible refine Clo.mono hK ?_); rfl)
                 | with_reducible intro _ | with_reducible apply onWf_sat | with_reducible apply scrub_sat
                 | (simp only [SatN_next]))

theorem retirementDone_sat (tier k : Nat) (s : State) (hK : Clo 0x20000 P) (hs0 : Sat P s) :
    Sat P (retirementDone tier k s) := by
  unfold retirementDone; (try dsimp only)
  repeat' (first | with_reducible assumption | ((with_reducible refine Clo.mono hK ?_); rfl)
                 | with_reducible intro _ | with_reducible apply Sat_foldl | with_reducible apply setSlot_sat
                 | with_reducible apply Sat_getD | split | (refine snd_sat (by with_reducible assumption) ?_)
                 | (refine some_sat (by with_reducible assumption) ?_)
                 | (refine some2_sat (by with_reducible assumption) ?_) | with_reducible apply SatO_map
                 | with_reducible apply SatO_map2 | with_reducible apply SatO2_mapO
                 | with_reducible apply SatO2_map2 | dsimp only)

theorem execPageRetirementDone_sat (tier slot : Nat) (s : State) (hK : Clo 0x20000 P) (hs0 : Sat P s) :
    SatN P (execPageRetirementDone tier slot s) := by
  unfold execPageRetirementDone; (try dsimp only)
  repeat' (first | with_reducible assumption | ((with_reducible refine Clo.mono hK ?_); rfl)
                 | with_reducible intro _ | with_reducible apply onWf_sat | with_reducible apply retirementDone_sat
                 | (simp only [SatN_next]))

theorem channelFailure_sat (tier k : Nat) (s : State) (hK : Clo 0x20000 P) (hs0 : Sat P s) :
    Sat P (channelFailure tier k s) := by
  unfold channelFailure; (try dsimp only)
  repeat' (first | with_reducible assumption | ((with_reducible refine Clo.mono hK ?_); rfl)
                 | with_reducible intro _ | with_reducible apply modTiers_sat | with_reducible apply setSlot_sat
                 | with_reducible apply Sat_ite | split)

theorem execChannelFailure_sat (tier slot : Nat) (s : State) (hK : Clo 0x20000 P) (hs0 : Sat P s) :
    SatN P (execChannelFailure tier slot s) := by
  unfold execChannelFailure; (try dsimp only)
  repeat' (first | with_reducible assumption | ((with_reducible refine Clo.mono hK ?_); rfl)
                 | with_reducible intro _ | with_reducible apply channelFailure_sat | with_reducible apply onWf_sat
                 | (simp only [SatN_next]))

/-! ### Models -/

theorem seedOp_sat (c : Cmd) (s : State) (hK : Clo 0x100 P) (hs0 : Sat P s) : Sat P (seedOp c s).2.2.2 := by
  unfold seedOp; (try dsimp only)
  repeat' (first | with_reducible assumption | ((with_reducible refine Clo.mono hK ?_); rfl)
                 | with_reducible intro _ | with_reducible apply modPart_sat)

theorem execSeed_sat (p : Nat) (s : State) (hK : Clo 0x118 P) (hs0 : Sat P s) : SatN P (execSeed p s) := by
  unfold execSeed; (try dsimp only)
  repeat' (first | with_reducible assumption | ((with_reducible refine Clo.mono hK ?_); rfl)
                 | with_reducible intro _ | with_reducible apply answer_sat | with_reducible apply onWf_sat
                 | with_reducible apply seedOp_sat | with_reducible apply takeCmd_sat | (simp only [SatN_next]))

theorem remark_sat (s : State) (f : Nat) (a b : FrameState) (z4 : Nat) (hK : Clo 0x20000 P) (hs0 : Sat P s) :
    Sat P (remark s f a b z4) := by
  induction z4 generalizing s f a b with
  | zero => unfold remark; repeat' (first | with_reducible assumption
                                          | ((with_reducible refine Clo.mono hK ?_); rfl)
                                          | with_reducible apply setFrame_sat | with_reducible apply Sat_ite
                                          | split)
  | succ _ ih => unfold remark; repeat' (first | with_reducible apply ih | with_reducible assumption
                                               | ((with_reducible refine Clo.mono hK ?_); rfl)
                                               | with_reducible apply setFrame_sat | with_reducible apply Sat_ite
                                               | split)

theorem freeWindow_sat (s : State) (p wf n : Nat) (hK : Clo 0x20000 P) (hs0 : Sat P s) : Sat P (freeWindow s p wf n)
    := by
  unfold freeWindow; (try dsimp only)
  repeat' (first | with_reducible assumption | ((with_reducible refine Clo.mono hK ?_); rfl)
                 | with_reducible intro _ | with_reducible apply Sat_foldl | with_reducible apply setFrame_sat
                 | with_reducible apply Sat_ite | split | (refine snd_sat (by with_reducible assumption) ?_)
                 | (refine some_sat (by with_reducible assumption) ?_)
                 | (refine some2_sat (by with_reducible assumption) ?_) | with_reducible apply SatO_map
                 | with_reducible apply SatO_map2 | with_reducible apply SatO2_mapO
                 | with_reducible apply SatO2_map2 | dsimp only)

theorem dropModel_sat (s : State) (p mcid : Nat) (hK : Clo 0x20100 P) (hs0 : Sat P s) : Sat P (dropModel s p mcid)
    := by
  unfold dropModel; (try dsimp only)
  repeat' (first | with_reducible assumption | ((with_reducible refine Clo.mono hK ?_); rfl)
                 | with_reducible intro _ | with_reducible apply freeWindow_sat | with_reducible apply modPart_sat
                 | split | (refine snd_sat (by with_reducible assumption) ?_)
                 | (refine some_sat (by with_reducible assumption) ?_)
                 | (refine some2_sat (by with_reducible assumption) ?_) | dsimp only)

theorem installOp_sat (pkg : PkgInfo) (c : Cmd) (s : State) (hK : Clo 0x20100 P) (hs0 : Sat P s) :
    Sat P (installOp pkg c s).2.2.2 := by
  unfold installOp; (try dsimp only)
  repeat' (first | with_reducible assumption | ((with_reducible refine Clo.mono hK ?_); rfl)
                 | with_reducible intro _ | with_reducible apply dropModel_sat | with_reducible apply modPart_sat
                 | with_reducible apply remark_sat | with_reducible apply reserved_sat
                 | with_reducible apply Sat_ite | with_reducible apply Sat2_ite | split
                 | (refine snd_sat (by with_reducible assumption) ?_)
                 | (refine some_sat (by with_reducible assumption) ?_)
                 | (refine some2_sat (by with_reducible assumption) ?_) | dsimp only)

theorem execModelInstall_sat (p : Nat) (pkg : PkgInfo) (s : State) (hK : Clo 0x20118 P) (hs0 : Sat P s) :
    SatN P (execModelInstall p pkg s) := by
  unfold execModelInstall; (try dsimp only)
  repeat' (first | with_reducible assumption | ((with_reducible refine Clo.mono hK ?_); rfl)
                 | with_reducible intro _ | with_reducible apply answer_sat | with_reducible apply installOp_sat
                 | with_reducible apply onWf_sat | with_reducible apply takeCmd_sat | (simp only [SatN_next]))

theorem mirrorSwitch_sat (c : Cmd) (s : State) (hK : Clo 0x100 P) (hs0 : Sat P s) :
    Sat P (mirrorSwitch c s).2.2.2 := by
  unfold mirrorSwitch; (try dsimp only)
  repeat' (first | with_reducible assumption | ((with_reducible refine Clo.mono hK ?_); rfl)
                 | with_reducible intro _ | with_reducible apply modPart_sat | with_reducible apply reserved_sat
                 | with_reducible apply Sat_ite | with_reducible apply Sat2_ite | split
                 | (refine snd_sat (by with_reducible assumption) ?_)
                 | (refine some_sat (by with_reducible assumption) ?_)
                 | (refine some2_sat (by with_reducible assumption) ?_) | dsimp only)

theorem switchCmd_sat (addr : Nat) (prog : List (BitVec 256)) (c : Cmd) (s : State) (hK : Clo 0x30118 P) (hs0 :
    Sat P s) : Sat P (switchCmd addr prog c s) := by
  unfold switchCmd; (try dsimp only)
  repeat' (first | with_reducible assumption | ((with_reducible refine Clo.mono hK ?_); rfl)
                 | with_reducible intro _ | with_reducible apply lastDrain_sat
                 | with_reducible apply loadProgram_sat | with_reducible apply modPart_sat
                 | with_reducible apply refuse_sat | with_reducible apply Sat_ite | split
                 | (refine snd_sat (by with_reducible assumption) ?_)
                 | (refine some_sat (by with_reducible assumption) ?_)
                 | (refine some2_sat (by with_reducible assumption) ?_) | dsimp only)

theorem execModelSwitch_sat (p addr : Nat) (prog : List (BitVec 256)) (s : State) (hK : Clo 0x30118 P) (hs0 :
    Sat P s) : SatN P (execModelSwitch p addr prog s) := by
  unfold execModelSwitch; (try dsimp only)
  repeat' (first | with_reducible assumption | ((with_reducible refine Clo.mono hK ?_); rfl)
                 | with_reducible intro _ | with_reducible apply onWf_sat | with_reducible apply switchCmd_sat
                 | with_reducible apply takeCmd_sat | split | (simp only [SatN_next]))

theorem placeObuf_sat (s : State) (p : Nat) (m : Model) (hK : Clo 0x47811a P) (hs0 : Sat P s) :
    Sat P (placeObuf s p m) := by
  unfold placeObuf; (try dsimp only)
  repeat' (first | with_reducible assumption | ((with_reducible refine Clo.mono hK ?_); rfl)
                 | with_reducible apply placeRun_sat | with_reducible apply setRegion_sat
                 | with_reducible apply Sat_ite | split | (refine snd_sat (by with_reducible assumption) ?_)
                 | (refine some_sat (by with_reducible assumption) ?_)
                 | (refine some2_sat (by with_reducible assumption) ?_) | dsimp only)

theorem firstFill_sat (p : Nat) (s : State) (hK : Clo 0x47811a P) (hs0 : Sat P s) : Sat P (firstFill p s) := by
  unfold firstFill; (try dsimp only)
  repeat' (first | with_reducible assumption | ((with_reducible refine Clo.mono hK ?_); rfl)
                 | with_reducible intro _ | with_reducible apply finish_sat | with_reducible apply modPart_sat
                 | with_reducible apply placeObuf_sat | with_reducible apply Sat_id | with_reducible apply Sat_ite
                 | split | (refine snd_sat (by with_reducible assumption) ?_)
                 | (refine some_sat (by with_reducible assumption) ?_)
                 | (refine some2_sat (by with_reducible assumption) ?_) | dsimp only)

theorem execFirstFillComplete_sat (p : Nat) (s : State) (hK : Clo 0x47811a P) (hs0 : Sat P s) :
    SatN P (execFirstFillComplete p s) := by
  unfold execFirstFillComplete; (try dsimp only)
  repeat' (first | with_reducible assumption | ((with_reducible refine Clo.mono hK ?_); rfl)
                 | with_reducible intro _ | with_reducible apply firstFill_sat | with_reducible apply onWf_sat
                 | (simp only [SatN_next]))

theorem freeObuf_sat (s : State) (p mcid obuf : Nat) (hK : Clo 0x468118 P) (hs0 : Sat P s) :
    Sat P (freeObuf s p mcid obuf) := by
  unfold freeObuf; (try dsimp only)
  repeat' (first | with_reducible assumption | ((with_reducible refine Clo.mono hK ?_); rfl)
                 | with_reducible intro _ | with_reducible apply releaseGrains_sat
                 | with_reducible apply setRegion_sat | with_reducible apply Sat_ite | split
                 | (refine snd_sat (by with_reducible assumption) ?_)
                 | (refine some_sat (by with_reducible assumption) ?_)
                 | (refine some2_sat (by with_reducible assumption) ?_) | dsimp only)

theorem removeOp_sat (c : Cmd) (s : State) (hK : Clo 0x468118 P) (hs0 : Sat P s) : Sat P (removeOp c s).2.2.2 := by
  unfold removeOp; (try dsimp only)
  repeat' (first | with_reducible assumption | ((with_reducible refine Clo.mono hK ?_); rfl)
                 | with_reducible apply dropModel_sat | with_reducible apply freeObuf_sat
                 | with_reducible apply reserved_sat | with_reducible apply Sat_ite | with_reducible apply Sat2_ite
                 | split | (refine snd_sat (by with_reducible assumption) ?_)
                 | (refine some_sat (by with_reducible assumption) ?_)
                 | (refine some2_sat (by with_reducible assumption) ?_) | dsimp only)

theorem execModelRemove_sat (p : Nat) (s : State) (hK : Clo 0x468118 P) (hs0 : Sat P s) :
    SatN P (execModelRemove p s) := by
  unfold execModelRemove; (try dsimp only)
  repeat' (first | with_reducible assumption | ((with_reducible refine Clo.mono hK ?_); rfl)
                 | with_reducible intro _ | with_reducible apply answer_sat | with_reducible apply onWf_sat
                 | with_reducible apply removeOp_sat | with_reducible apply takeCmd_sat | (simp only [SatN_next]))

theorem expertMapOp_sat (c : Cmd) (s : State) (hK : Clo 0x30000 P) (hs0 : Sat P s) :
    Sat P (expertMapOp c s).2.2.2 := by
  unfold expertMapOp; (try dsimp only)
  repeat' (first | with_reducible assumption | ((with_reducible refine Clo.mono hK ?_); rfl)
                 | with_reducible intro _ | with_reducible apply reserved_sat | with_reducible apply writeTier_sat
                 | with_reducible apply Sat_ite | with_reducible apply Sat2_ite | split
                 | (refine snd_sat (by with_reducible assumption) ?_)
                 | (refine some_sat (by with_reducible assumption) ?_)
                 | (refine some2_sat (by with_reducible assumption) ?_) | with_reducible apply SatO_map
                 | with_reducible apply SatO_map2 | with_reducible apply SatO2_mapO
                 | with_reducible apply SatO2_map2 | dsimp only)

theorem execExpertMap_sat (p : Nat) (s : State) (hK : Clo 0x30018 P) (hs0 : Sat P s) : SatN P (execExpertMap p s)
    := by
  unfold execExpertMap; (try dsimp only)
  repeat' (first | with_reducible assumption | ((with_reducible refine Clo.mono hK ?_); rfl)
                 | with_reducible intro _ | with_reducible apply answer_sat | with_reducible apply expertMapOp_sat
                 | with_reducible apply onWf_sat | with_reducible apply takeCmd_sat | split
                 | (simp only [SatN_next]))

theorem balanceOp_sat (c : Cmd) (s : State) (hK : Clo 0x100 P) (hs0 : Sat P s) : Sat P (balanceOp c s).2.2.2 := by
  unfold balanceOp; (try dsimp only)
  repeat' (first | with_reducible assumption | ((with_reducible refine Clo.mono hK ?_); rfl)
                 | with_reducible intro _ | with_reducible apply modPart_sat | with_reducible apply reserved_sat
                 | with_reducible apply Sat_id | with_reducible apply Sat_ite | with_reducible apply Sat2_ite
                 | split | (refine snd_sat (by with_reducible assumption) ?_)
                 | (refine some_sat (by with_reducible assumption) ?_)
                 | (refine some2_sat (by with_reducible assumption) ?_) | with_reducible apply SatO_map
                 | with_reducible apply SatO_map2 | with_reducible apply SatO2_mapO
                 | with_reducible apply SatO2_map2 | dsimp only)

theorem execBalance_sat (p : Nat) (s : State) (hK : Clo 0x118 P) (hs0 : Sat P s) : SatN P (execBalance p s) := by
  unfold execBalance; (try dsimp only)
  repeat' (first | with_reducible assumption | ((with_reducible refine Clo.mono hK ?_); rfl)
                 | with_reducible intro _ | with_reducible apply answer_sat | with_reducible apply balanceOp_sat
                 | with_reducible apply onWf_sat | with_reducible apply takeCmd_sat | (simp only [SatN_next]))

/-! ### Experts -/

theorem takeExpert_sat (msg : ExpertMsg) (mtype : Nat) (f : Model → Nat → State → State) (s : State)
    (hK : Clo 0x40118 P) (hf : ∀ x0 x1 x2, Sat P x2 → Sat P (f x0 x1 x2)) (hs0 : Sat P s) :
    Sat P (takeExpert msg mtype f s) := by
  unfold takeExpert; (try dsimp only)
  repeat' (first | with_reducible assumption | ((with_reducible refine Clo.mono hK ?_); rfl)
                 | with_reducible intro _ | with_reducible apply isolation_sat | with_reducible apply modFabric_sat
                 | with_reducible apply takeMessage_sat | with_reducible apply hf | with_reducible apply Sat_ite
                 | split | (refine snd_sat (by with_reducible assumption) ?_)
                 | (refine some_sat (by with_reducible assumption) ?_)
                 | (refine some2_sat (by with_reducible assumption) ?_) | dsimp only)

theorem staleMsg_sat (s : State) (p : Nat) (hK : Clo 0x100 P) (hs0 : Sat P s) : Sat P (staleMsg s p) := by
  unfold staleMsg; (try dsimp only)
  repeat' (first | with_reducible assumption | ((with_reducible refine Clo.mono hK ?_); rfl)
                 | with_reducible intro _ | with_reducible apply modPart_sat)

theorem modIngress_sat (s : State) (p : Nat) (f : Ingress → Ingress) (hK : Clo 0x100 P) (hs0 : Sat P s) :
    Sat P (modIngress s p f) := by
  unfold modIngress; (try dsimp only)
  repeat' (first | with_reducible assumption | ((with_reducible refine Clo.mono hK ?_); rfl)
                 | with_reducible intro _ | with_reducible apply ingress_sat | with_reducible apply modPart_sat)

theorem dispatchRecv_sat (msg : ExpertMsg) (u1 : Model) (i : Nat) (s : State) (hK : Clo 0x100 P) (hs0 : Sat P s) :
    Sat P (dispatchRecv msg u1 i s) := by
  unfold dispatchRecv; (try dsimp only)
  repeat' (first | with_reducible assumption | ((with_reducible refine Clo.mono hK ?_); rfl)
                 | with_reducible intro _ | with_reducible apply modIngress_sat | with_reducible apply staleMsg_sat
                 | with_reducible apply Sat_ite | split | (refine snd_sat (by with_reducible assumption) ?_)
                 | (refine some_sat (by with_reducible assumption) ?_)
                 | (refine some2_sat (by with_reducible assumption) ?_) | dsimp only)

theorem execExpertDispatchRecv_sat (m : ExpertMsg) (s : State) (hK : Clo 0x40118 P) (hs0 : Sat P s) :
    SatN P (execExpertDispatchRecv m s) := by
  unfold execExpertDispatchRecv; (try dsimp only)
  repeat' (first | with_reducible assumption | ((with_reducible refine Clo.mono hK ?_); rfl)
                 | with_reducible intro _ | with_reducible apply dispatchRecv_sat | with_reducible apply onWf_sat
                 | with_reducible apply takeExpert_sat | (simp only [SatN_next]))

theorem closeRecv_sat (msg : ExpertMsg) (u1 : Model) (i : Nat) (s : State) (hK : Clo 0x100 P) (hs0 : Sat P s) :
    Sat P (closeRecv msg u1 i s) := by
  unfold closeRecv; (try dsimp only)
  repeat' (first | with_reducible assumption | ((with_reducible refine Clo.mono hK ?_); rfl)
                 | with_reducible intro _ | with_reducible apply modIngress_sat | with_reducible apply staleMsg_sat
                 | with_reducible apply Sat_ite | split | (refine snd_sat (by with_reducible assumption) ?_)
                 | (refine some_sat (by with_reducible assumption) ?_)
                 | (refine some2_sat (by with_reducible assumption) ?_) | dsimp only)

theorem execExpertCloseRecv_sat (m : ExpertMsg) (s : State) (hK : Clo 0x40118 P) (hs0 : Sat P s) :
    SatN P (execExpertCloseRecv m s) := by
  unfold execExpertCloseRecv; (try dsimp only)
  repeat' (first | with_reducible assumption | ((with_reducible refine Clo.mono hK ?_); rfl)
                 | with_reducible intro _ | with_reducible apply closeRecv_sat | with_reducible apply onWf_sat
                 | with_reducible apply takeExpert_sat | (simp only [SatN_next]))

theorem cancelRecv_sat (msg : ExpertMsg) (m : Model) (i : Nat) (s : State) (hK : Clo 0x100 P) (hs0 : Sat P s) :
    Sat P (cancelRecv msg m i s) := by
  unfold cancelRecv; (try dsimp only)
  repeat' (first | with_reducible assumption | ((with_reducible refine Clo.mono hK ?_); rfl)
                 | with_reducible intro _ | with_reducible apply modIngress_sat | with_reducible apply Sat_ite
                 | split | (refine snd_sat (by with_reducible assumption) ?_)
                 | (refine some_sat (by with_reducible assumption) ?_)
                 | (refine some2_sat (by with_reducible assumption) ?_) | dsimp only)

theorem execExpertCancelRecv_sat (m : ExpertMsg) (s : State) (hK : Clo 0x40118 P) (hs0 : Sat P s) :
    SatN P (execExpertCancelRecv m s) := by
  unfold execExpertCancelRecv; (try dsimp only)
  repeat' (first | with_reducible assumption | ((with_reducible refine Clo.mono hK ?_); rfl)
                 | with_reducible intro _ | with_reducible apply cancelRecv_sat | with_reducible apply onWf_sat
                 | with_reducible apply takeExpert_sat | (simp only [SatN_next]))

theorem serveOne_sat (p : Nat) (m : Model) (s : State) (e : ExpertMsg × ServeWork) (hK : Clo 0x40118 P) (hs0 :
    Sat P s) : Sat P (serveOne p m s e) := by
  unfold serveOne; (try dsimp only)
  repeat' (first | with_reducible assumption | ((with_reducible refine Clo.mono hK ?_); rfl)
                 | with_reducible intro _ | with_reducible apply Sat_elim | with_reducible apply modPart_sat
                 | with_reducible apply sendExpert_sat | with_reducible apply Sat_ite | split
                 | (refine snd_sat (by with_reducible assumption) ?_)
                 | (refine some_sat (by with_reducible assumption) ?_)
                 | (refine some2_sat (by with_reducible assumption) ?_) | dsimp only)

theorem serveLayer_sat (p layer : Nat) (work : List ServeWork) (s : State) (hK : Clo 0x40118 P) (hs0 : Sat P s) :
    Sat P (serveLayer p layer work s) := by
  unfold serveLayer; (try dsimp only)
  repeat' (first | with_reducible assumption | ((with_reducible refine Clo.mono hK ?_); rfl)
                 | with_reducible intro _ | with_reducible apply Sat_foldl | with_reducible apply ingress_sat
                 | with_reducible apply modIngress_sat | with_reducible apply serveOne_sat
                 | with_reducible apply Sat_ite | split | (refine snd_sat (by with_reducible assumption) ?_)
                 | (refine some_sat (by with_reducible assumption) ?_)
                 | (refine some2_sat (by with_reducible assumption) ?_) | dsimp only)

theorem execExpertLayerServe_sat (p layer : Nat) (work : List ServeWork) (s : State) (hK : Clo 0x40118 P) (hs0 :
    Sat P s) : SatN P (execExpertLayerServe p layer work s) := by
  unfold execExpertLayerServe; (try dsimp only)
  repeat' (first | with_reducible assumption | ((with_reducible refine Clo.mono hK ?_); rfl)
                 | with_reducible intro _ | with_reducible apply onWf_sat | with_reducible apply serveLayer_sat
                 | (simp only [SatN_next]))

theorem lateMsg_sat (s : State) (p : Nat) (hK : Clo 0x100 P) (hs0 : Sat P s) : Sat P (lateMsg s p) := by
  unfold lateMsg; (try dsimp only)
  repeat' (first | with_reducible assumption | ((with_reducible refine Clo.mono hK ?_); rfl)
                 | with_reducible intro _ | with_reducible apply modPart_sat)

theorem chargeRemote_sat (s : State) (p : Nat) (msg : ExpertMsg) (hK : Clo 0x100 P) (hs0 : Sat P s) :
    Sat P (chargeRemote s p msg) := by
  unfold chargeRemote; (try dsimp only)
  repeat' (first | with_reducible assumption | ((with_reducible refine Clo.mono hK ?_); rfl)
                 | with_reducible intro _ | with_reducible apply modPart_sat | with_reducible apply Sat_ite | split)

theorem returnRecv_sat (msg : ExpertMsg) (u1 : Model) (u2 : Nat) (s : State) (hK : Clo 0x500 P) (hs0 : Sat P s) :
    Sat P (returnRecv msg u1 u2 s) := by
  unfold returnRecv; (try dsimp only)
  repeat' (first | with_reducible assumption | ((with_reducible refine Clo.mono hK ?_); rfl)
                 | with_reducible intro _ | with_reducible apply chargeRemote_sat | with_reducible apply lateMsg_sat
                 | with_reducible apply markEnded_sat | with_reducible apply modPart_sat
                 | with_reducible apply modVe_sat | with_reducible apply staleMsg_sat | with_reducible apply Sat_ite
                 | split | (refine snd_sat (by with_reducible assumption) ?_)
                 | (refine some_sat (by with_reducible assumption) ?_)
                 | (refine some2_sat (by with_reducible assumption) ?_) | with_reducible apply SatO_map
                 | with_reducible apply SatO_map2 | with_reducible apply SatO2_mapO
                 | with_reducible apply SatO2_map2 | dsimp only)

theorem execExpertReturnRecv_sat (m : ExpertMsg) (s : State) (hK : Clo 0x40518 P) (hs0 : Sat P s) :
    SatN P (execExpertReturnRecv m s) := by
  unfold execExpertReturnRecv; (try dsimp only)
  repeat' (first | with_reducible assumption | ((with_reducible refine Clo.mono hK ?_); rfl)
                 | with_reducible intro _ | with_reducible apply onWf_sat | with_reducible apply returnRecv_sat
                 | with_reducible apply takeExpert_sat | (simp only [SatN_next]))

theorem returnLimit_sat (p layer : Nat) (s : State) (hK : Clo 0x100 P) (hs0 : Sat P s) :
    Sat P (returnLimit p layer s) := by
  unfold returnLimit; (try dsimp only)
  repeat' (first | with_reducible assumption | ((with_reducible refine Clo.mono hK ?_); rfl)
                 | with_reducible intro _ | with_reducible apply Sat_foldl | with_reducible apply Sat_elim
                 | with_reducible apply markEnded_sat | with_reducible apply modPart_sat
                 | with_reducible apply Sat_ite | split | (refine snd_sat (by with_reducible assumption) ?_)
                 | (refine some_sat (by with_reducible assumption) ?_)
                 | (refine some2_sat (by with_reducible assumption) ?_) | dsimp only)

theorem execReturnLimitExpiry_sat (p layer : Nat) (s : State) (hK : Clo 0x100 P) (hs0 : Sat P s) :
    SatN P (execReturnLimitExpiry p layer s) := by
  unfold execReturnLimitExpiry; (try dsimp only)
  repeat' (first | with_reducible assumption | ((with_reducible refine Clo.mono hK ?_); rfl)
                 | with_reducible intro _ | with_reducible apply onWf_sat | with_reducible apply returnLimit_sat
                 | (simp only [SatN_next]))

theorem missingEvent_sat (p layer round : Nat) (s : State) (i : Nat) (hK : Clo 0x118 P) (hs0 : Sat P s) :
    Sat P (missingEvent p layer round s i) := by
  unfold missingEvent; (try dsimp only)
  repeat' (first | with_reducible assumption | ((with_reducible refine Clo.mono hK ?_); rfl)
                 | with_reducible intro _ | with_reducible apply event_sat | with_reducible apply ingress_sat
                 | with_reducible apply modIngress_sat | with_reducible apply Sat_ite | split
                 | (refine snd_sat (by with_reducible assumption) ?_)
                 | (refine some_sat (by with_reducible assumption) ?_)
                 | (refine some2_sat (by with_reducible assumption) ?_) | dsimp only)

theorem homeLimit_sat (p layer : Nat) (s : State) (hK : Clo 0x118 P) (hs0 : Sat P s) : Sat P (homeLimit p layer s)
    := by
  unfold homeLimit; (try dsimp only)
  repeat' (first | with_reducible assumption | ((with_reducible refine Clo.mono hK ?_); rfl)
                 | with_reducible intro _ | with_reducible apply Sat_foldl | with_reducible apply ingress_sat
                 | with_reducible apply missingEvent_sat | with_reducible apply modIngress_sat
                 | with_reducible apply Sat_ite | split | (refine snd_sat (by with_reducible assumption) ?_)
                 | (refine some_sat (by with_reducible assumption) ?_)
                 | (refine some2_sat (by with_reducible assumption) ?_) | with_reducible apply SatO_map
                 | with_reducible apply SatO_map2 | with_reducible apply SatO2_mapO
                 | with_reducible apply SatO2_map2 | dsimp only)

theorem execHomeCloseLimitExpiry_sat (p layer : Nat) (s : State) (hK : Clo 0x118 P) (hs0 : Sat P s) :
    SatN P (execHomeCloseLimitExpiry p layer s) := by
  unfold execHomeCloseLimitExpiry; (try dsimp only)
  repeat' (first | with_reducible assumption | ((with_reducible refine Clo.mono hK ?_); rfl)
                 | with_reducible intro _ | with_reducible apply homeLimit_sat | with_reducible apply onWf_sat
                 | (simp only [SatN_next]))

/-! ### Ends -/

theorem endQueued_sat (s : State) (q : Nat) (mine : Cmd → Bool) (status : Nat) (hK : Clo 0x18 P) (hs0 : Sat P s) :
    Sat P (endQueued s q mine status) := by
  unfold endQueued; (try dsimp only)
  repeat' (first | with_reducible assumption | ((with_reducible refine Clo.mono hK ?_); rfl)
                 | with_reducible intro _ | with_reducible apply Sat_foldl | with_reducible apply dequeue_sat
                 | with_reducible apply refuse_sat)

theorem endLive_sat (s : State) (p status : Nat) (hK : Clo 0x46c31a P) (hs0 : Sat P s) : Sat P (endLive s p status)
    := by
  unfold endLive; (try dsimp only)
  repeat' (first | with_reducible assumption | ((with_reducible refine Clo.mono hK ?_); rfl)
                 | with_reducible intro _ | with_reducible apply endReqs_sat | with_reducible apply modPart_sat
                 | with_reducible apply stepAbandon_sat | (refine snd_sat (by with_reducible assumption) ?_)
                 | (refine some_sat (by with_reducible assumption) ?_)
                 | (refine some2_sat (by with_reducible assumption) ?_) | with_reducible apply SatO_map
                 | with_reducible apply SatO_map2 | with_reducible apply SatO2_mapO
                 | with_reducible apply SatO2_map2 | dsimp only)

theorem endOp_sat (s : State) (p status : Nat) (op : DrawerOp) (hK : Clo 0x46c118 P) (hs0 : Sat P s) :
    Sat P (endOp s p status op) := by
  unfold endOp; (try dsimp only)
  repeat' (first | with_reducible assumption | ((with_reducible refine Clo.mono hK ?_); rfl)
                 | with_reducible apply dropOp_sat | with_reducible apply finish_sat
                 | with_reducible apply openFail_sat | with_reducible apply setDrawerState_sat
                 | with_reducible apply Sat_ite | split | (refine snd_sat (by with_reducible assumption) ?_)
                 | (refine some_sat (by with_reducible assumption) ?_)
                 | (refine some2_sat (by with_reducible assumption) ?_) | dsimp only)

theorem dropScans_sat (s : State) (mine : ScanFor → Bool) (hK : Clo 0x20000 P) (hs0 : Sat P s) :
    Sat P (dropScans s mine) := by
  unfold dropScans; (try dsimp only)
  repeat' (first | with_reducible assumption | ((with_reducible refine Clo.mono hK ?_); rfl)
                 | with_reducible intro _ | with_reducible apply modTiers_sat | with_reducible apply Sat_id)

theorem partitionReset_sat (s : State) (p : Nat) (self : Option Cmd) (status : Nat) (hK : Clo 0x47f71a P) (hs0 :
    Sat P s) : Sat P (partitionReset s p self status) := by
  unfold partitionReset; (try dsimp only)
  repeat' (first | with_reducible assumption | ((with_reducible refine Clo.mono hK ?_); rfl)
                 | with_reducible intro _ | with_reducible apply Sat_foldl | with_reducible apply abortMoves_sat
                 | with_reducible apply arrayReset_sat | with_reducible apply dropScans_sat
                 | with_reducible apply endLive_sat | with_reducible apply endOp_sat
                 | with_reducible apply endQueued_sat | with_reducible apply modPart_sat
                 | with_reducible apply refuse_sat | with_reducible apply switchFail_sat
                 | with_reducible apply Sat_ite | split | (refine snd_sat (by with_reducible assumption) ?_)
                 | (refine some_sat (by with_reducible assumption) ?_)
                 | (refine some2_sat (by with_reducible assumption) ?_) | with_reducible apply SatO_map
                 | with_reducible apply SatO_map2 | with_reducible apply SatO2_mapO
                 | with_reducible apply SatO2_map2 | dsimp only)

theorem forgetAll_sat (s : State) (hK : Clo 0xc20100 P) (hs0 : Sat P s) : Sat P (forgetAll s) := by
  unfold forgetAll; (try dsimp only)
  repeat' (first | with_reducible assumption | ((with_reducible refine Clo.mono hK ?_); rfl)
                 | with_reducible intro _ | with_reducible apply modPair_sat | with_reducible apply modPower_sat
                 | with_reducible apply modTiers_sat | split
                 | (simp only [Sat_mk]; refine clo_parts hK rfl (Sat_fold ?_))
                 | (refine snd_sat (by with_reducible assumption) ?_)
                 | (refine some_sat (by with_reducible assumption) ?_)
                 | (refine some2_sat (by with_reducible assumption) ?_) | with_reducible apply SatO_map
                 | with_reducible apply SatO_map2 | with_reducible apply SatO2_mapO
                 | with_reducible apply SatO2_map2 | dsimp only)

theorem stopAll_sat (s : State) (self : Cmd) (hK : Clo 0xc6c31a P) (hs0 : Sat P s) : Sat P (stopAll s self) := by
  unfold stopAll; (try dsimp only)
  repeat' (first | with_reducible assumption | ((with_reducible refine Clo.mono hK ?_); rfl)
                 | with_reducible intro _ | with_reducible apply Sat_foldl | with_reducible apply endLive_sat
                 | with_reducible apply endQueued_sat | with_reducible apply finish_sat
                 | with_reducible apply forgetAll_sat | (refine snd_sat (by with_reducible assumption) ?_)
                 | (refine some_sat (by with_reducible assumption) ?_)
                 | (refine some2_sat (by with_reducible assumption) ?_) | dsimp only)

end Sys2Proof.Machine
end

