-- ==== Sys2Proof/Laws/FramesDevice.lean ====
section
/-! SUPPORT. What the shared operations and the rows keep: power, control and the links (Laws/Frames.lean says how to read a lemma). -/

set_option linter.unusedSimpArgs false

open Sys2Proof

namespace Sys2Proof.Machine

variable {P : State → Prop}

/-! ### Power -/

theorem capFinish_sat (s : State) (c : Cmd) (eff : Nat) (hK : Clo 0x18 P) (hs0 : Sat P s) :
    Sat P (capFinish s c eff) := by
  unfold capFinish; (try dsimp only)
  repeat' (first | with_reducible assumption | ((with_reducible refine Clo.mono hK ?_); rfl)
                 | with_reducible apply finish_sat | with_reducible apply Sat_ite | split
                 | (refine snd_sat (by with_reducible assumption) ?_)
                 | (refine some_sat (by with_reducible assumption) ?_)
                 | (refine some2_sat (by with_reducible assumption) ?_) | dsimp only)

theorem capsShed_sat (s : State) (hK : Clo 0x800018 P) (hs0 : Sat P s) : Sat P (capsShed s) := by
  unfold capsShed; (try dsimp only)
  repeat' (first | with_reducible assumption | ((with_reducible refine Clo.mono hK ?_); rfl)
                 | with_reducible intro _ | with_reducible apply Sat_foldl | with_reducible apply capFinish_sat
                 | with_reducible apply modPower_sat | (refine snd_sat (by with_reducible assumption) ?_)
                 | (refine some_sat (by with_reducible assumption) ?_)
                 | (refine some2_sat (by with_reducible assumption) ?_) | dsimp only)

theorem setShed_sat (s : State) (n : Nat) (hK : Clo 0x800018 P) (hs0 : Sat P s) : Sat P (setShed s n) := by
  unfold setShed; (try dsimp only)
  repeat' (first | with_reducible assumption | ((with_reducible refine Clo.mono hK ?_); rfl)
                 | with_reducible intro _ | with_reducible apply event_sat | with_reducible apply modPower_sat
                 | with_reducible apply Sat_ite | split | (refine snd_sat (by with_reducible assumption) ?_)
                 | (refine some_sat (by with_reducible assumption) ?_)
                 | (refine some2_sat (by with_reducible assumption) ?_) | dsimp only)

theorem abortLower_sat (s : State) (hK : Clo 0x47c51a P) (hs0 : Sat P s) : Sat P (abortLower s) := by
  unfold abortLower; (try dsimp only)
  repeat' (first | with_reducible assumption | ((with_reducible refine Clo.mono hK ?_); rfl)
                 | with_reducible intro _ | with_reducible apply Sat_foldl | with_reducible apply moveAbort_sat)

theorem setDark_sat (s : State) (on : Bool) (hK : Clo 0x20000 P) (hs0 : Sat P s) : Sat P (setDark s on) := by
  unfold setDark; (try dsimp only)
  repeat' (first | with_reducible assumption | ((with_reducible refine Clo.mono hK ?_); rfl)
                 | with_reducible intro _ | with_reducible apply modTiers_sat)

theorem startRamp_sat (s : State) (hK : Clo 0x800000 P) (hs0 : Sat P s) : Sat P (startRamp s) := by
  unfold startRamp; (try dsimp only)
  repeat' (first | with_reducible assumption | ((with_reducible refine Clo.mono hK ?_); rfl)
                 | with_reducible intro _ | with_reducible apply modPower_sat)

theorem release_sat (s : State) (hK : Clo 0x800002 P) (hs0 : Sat P s) : Sat P (release s) := by
  unfold release; (try dsimp only)
  repeat' (first | with_reducible assumption | ((with_reducible refine Clo.mono hK ?_); rfl)
                 | with_reducible intro _ | with_reducible apply draw_sat | with_reducible apply modPower_sat
                 | with_reducible apply startRamp_sat | (refine snd_sat (by with_reducible assumption) ?_)
                 | (refine some_sat (by with_reducible assumption) ?_)
                 | (refine some2_sat (by with_reducible assumption) ?_) | dsimp only)

theorem lowerLimit_sat (s : State) (l : Nat) (hK : Clo 0x800000 P) (hs0 : Sat P s) : Sat P (lowerLimit s l) := by
  unfold lowerLimit; (try dsimp only)
  repeat' (first | with_reducible assumption | ((with_reducible refine Clo.mono hK ?_); rfl)
                 | with_reducible intro _ | with_reducible apply modPower_sat | with_reducible apply Sat_ite | split
                 | (refine snd_sat (by with_reducible assumption) ?_)
                 | (refine some_sat (by with_reducible assumption) ?_)
                 | (refine some2_sat (by with_reducible assumption) ?_) | dsimp only)

theorem trackLimit_sat (s : State) (hK : Clo 0x800000 P) (hs0 : Sat P s) : Sat P (trackLimit s) := by
  unfold trackLimit; (try dsimp only)
  repeat' (first | with_reducible assumption | ((with_reducible refine Clo.mono hK ?_); rfl)
                 | with_reducible intro _ | with_reducible apply lowerLimit_sat | with_reducible apply modPower_sat
                 | with_reducible apply startRamp_sat | with_reducible apply Sat_ite | split
                 | (refine snd_sat (by with_reducible assumption) ?_)
                 | (refine some_sat (by with_reducible assumption) ?_)
                 | (refine some2_sat (by with_reducible assumption) ?_) | with_reducible apply SatO_map
                 | with_reducible apply SatO_map2 | with_reducible apply SatO2_mapO
                 | with_reducible apply SatO2_map2 | dsimp only)

theorem relimit_sat (s : State) (hK : Clo 0xc7c51a P) (hs0 : Sat P s) : Sat P (relimit s) := by
  unfold relimit; (try dsimp only)
  repeat' (first | with_reducible assumption | ((with_reducible refine Clo.mono hK ?_); rfl)
                 | with_reducible intro _ | with_reducible apply abortLower_sat | with_reducible apply capsShed_sat
                 | with_reducible apply modPower_sat | with_reducible apply release_sat
                 | with_reducible apply setDark_sat | with_reducible apply setShed_sat
                 | with_reducible apply trackLimit_sat | with_reducible apply Sat_ite | split
                 | (refine snd_sat (by with_reducible assumption) ?_)
                 | (refine some_sat (by with_reducible assumption) ?_)
                 | (refine some2_sat (by with_reducible assumption) ?_) | dsimp only)

theorem shedComplete_sat (s : State) (hK : Clo 0x800018 P) (hs0 : Sat P s) : Sat P (shedComplete s) := by
  unfold shedComplete; (try dsimp only)
  repeat' (first | with_reducible assumption | ((with_reducible refine Clo.mono hK ?_); rfl)
                 | with_reducible intro _ | with_reducible apply capsShed_sat | with_reducible apply issued_sat
                 | with_reducible apply setShed_sat | with_reducible apply Sat_id | with_reducible apply Sat_ite
                 | split | (refine snd_sat (by with_reducible assumption) ?_)
                 | (refine some_sat (by with_reducible assumption) ?_)
                 | (refine some2_sat (by with_reducible assumption) ?_) | dsimp only)

theorem execShedComplete_sat (s : State) (hK : Clo 0x800018 P) (hs0 : Sat P s) : SatN P (execShedComplete s) := by
  unfold execShedComplete; (try dsimp only)
  repeat' (first | with_reducible assumption | ((with_reducible refine Clo.mono hK ?_); rfl)
                 | with_reducible intro _ | with_reducible apply onWf_sat | with_reducible apply shedComplete_sat
                 | (simp only [SatN_next]))

theorem unshedComplete_sat (s : State) (hK : Clo 0x82001a P) (hs0 : Sat P s) : Sat P (unshedComplete s) := by
  unfold unshedComplete; (try dsimp only)
  repeat' (first | with_reducible assumption | ((with_reducible refine Clo.mono hK ?_); rfl)
                 | with_reducible apply release_sat | with_reducible apply setDark_sat
                 | with_reducible apply setShed_sat | with_reducible apply Sat_ite | split)

theorem execUnshedComplete_sat (s : State) (hK : Clo 0x82001a P) (hs0 : Sat P s) : SatN P (execUnshedComplete s) := by
  unfold execUnshedComplete; (try dsimp only)
  repeat' (first | with_reducible assumption | ((with_reducible refine Clo.mono hK ?_); rfl)
                 | with_reducible intro _ | with_reducible apply onWf_sat | with_reducible apply unshedComplete_sat
                 | (simp only [SatN_next]))

theorem capCmd_sat (c : Cmd) (s : State) (hK : Clo 0xc7c51a P) (hs0 : Sat P s) : Sat P (capCmd c s) := by
  unfold capCmd; (try dsimp only)
  repeat' (first | with_reducible assumption | ((with_reducible refine Clo.mono hK ?_); rfl)
                 | with_reducible intro _ | with_reducible apply answer_sat | with_reducible apply capFinish_sat
                 | with_reducible apply modPower_sat | with_reducible apply relimit_sat
                 | with_reducible apply reserved_sat | with_reducible apply Sat_ite | split
                 | (refine snd_sat (by with_reducible assumption) ?_)
                 | (refine some_sat (by with_reducible assumption) ?_)
                 | (refine some2_sat (by with_reducible assumption) ?_) | dsimp only)

theorem execCapSet_sat (s : State) (hK : Clo 0xc7c51a P) (hs0 : Sat P s) : SatN P (execCapSet s) := by
  unfold execCapSet; (try dsimp only)
  repeat' (first | with_reducible assumption | ((with_reducible refine Clo.mono hK ?_); rfl)
                 | with_reducible intro _ | with_reducible apply capCmd_sat | with_reducible apply onWf_sat
                 | with_reducible apply takeCmd_sat | (simp only [SatN_next]))

theorem capElapsed_sat (s : State) (hK : Clo 0x800018 P) (hs0 : Sat P s) : Sat P (capElapsed s) := by
  unfold capElapsed; (try dsimp only)
  repeat' (first | with_reducible assumption | ((with_reducible refine Clo.mono hK ?_); rfl)
                 | with_reducible intro _ | with_reducible apply Sat_foldl | with_reducible apply capFinish_sat
                 | with_reducible apply modPower_sat | (refine snd_sat (by with_reducible assumption) ?_)
                 | (refine some_sat (by with_reducible assumption) ?_)
                 | (refine some2_sat (by with_reducible assumption) ?_) | dsimp only)

theorem execCapResponseElapsed_sat (s : State) (hK : Clo 0x800018 P) (hs0 : Sat P s) :
    SatN P (execCapResponseElapsed s) := by
  unfold execCapResponseElapsed; (try dsimp only)
  repeat' (first | with_reducible assumption | ((with_reducible refine Clo.mono hK ?_); rfl)
                 | with_reducible intro _ | with_reducible apply capElapsed_sat | with_reducible apply onWf_sat
                 | (simp only [SatN_next]))

theorem brakeOp_sat (c : Cmd) (s : State) (hK : Clo 0xc7c51a P) (hs0 : Sat P s) : Sat P (brakeOp c s).2.2.2 := by
  unfold brakeOp; (try dsimp only)
  repeat' (first | with_reducible assumption | ((with_reducible refine Clo.mono hK ?_); rfl)
                 | with_reducible intro _ | with_reducible apply modPower_sat | with_reducible apply relimit_sat
                 | with_reducible apply reserved_sat | with_reducible apply Sat_ite | with_reducible apply Sat2_ite
                 | split | (refine snd_sat (by with_reducible assumption) ?_)
                 | (refine some_sat (by with_reducible assumption) ?_)
                 | (refine some2_sat (by with_reducible assumption) ?_) | dsimp only)

theorem execBrakeCfg_sat (s : State) (hK : Clo 0xc7c51a P) (hs0 : Sat P s) : SatN P (execBrakeCfg s) := by
  unfold execBrakeCfg; (try dsimp only)
  repeat' (first | with_reducible assumption | ((with_reducible refine Clo.mono hK ?_); rfl)
                 | with_reducible intro _ | with_reducible apply answer_sat | with_reducible apply brakeOp_sat
                 | with_reducible apply onWf_sat | with_reducible apply takeCmd_sat | (simp only [SatN_next]))

theorem orphanOp_sat (c : Cmd) (s : State) (hK : Clo 0xc7c51a P) (hs0 : Sat P s) : Sat P (orphanOp c s).2.2.2 := by
  unfold orphanOp; (try dsimp only)
  repeat' (first | with_reducible assumption | ((with_reducible refine Clo.mono hK ?_); rfl)
                 | with_reducible intro _ | with_reducible apply modPower_sat | with_reducible apply relimit_sat
                 | with_reducible apply reserved_sat | with_reducible apply Sat_ite | with_reducible apply Sat2_ite
                 | split | (refine snd_sat (by with_reducible assumption) ?_)
                 | (refine some_sat (by with_reducible assumption) ?_)
                 | (refine some2_sat (by with_reducible assumption) ?_) | dsimp only)

theorem execOrphanCfg_sat (s : State) (hK : Clo 0xc7c51a P) (hs0 : Sat P s) : SatN P (execOrphanCfg s) := by
  unfold execOrphanCfg; (try dsimp only)
  repeat' (first | with_reducible assumption | ((with_reducible refine Clo.mono hK ?_); rfl)
                 | with_reducible intro _ | with_reducible apply answer_sat | with_reducible apply onWf_sat
                 | with_reducible apply orphanOp_sat | with_reducible apply takeCmd_sat | (simp only [SatN_next]))

theorem setHold_sat (s : State) (port level : Nat) (hK : Clo 0xc7c51a P) (hs0 : Sat P s) :
    Sat P (setHold s port level) := by
  unfold setHold; (try dsimp only)
  repeat' (first | with_reducible assumption | ((with_reducible refine Clo.mono hK ?_); rfl)
                 | with_reducible intro _ | with_reducible apply modPower_sat | with_reducible apply relimit_sat
                 | with_reducible apply Sat_ite | split
                 | (simp only [Sat_mk]; refine clo_parts hK rfl (Sat_fold ?_))
                 | (refine snd_sat (by with_reducible assumption) ?_)
                 | (refine some_sat (by with_reducible assumption) ?_)
                 | (refine some2_sat (by with_reducible assumption) ?_) | with_reducible apply SatO_map
                 | with_reducible apply SatO_map2 | with_reducible apply SatO2_mapO
                 | with_reducible apply SatO2_map2 | dsimp only)

theorem emergencyCmd_sat (c : Cmd) (s : State) (hK : Clo 0xc7c73a P) (hs0 : Sat P s) : Sat P (emergencyCmd c s) := by
  unfold emergencyCmd; (try dsimp only)
  repeat' (first | with_reducible assumption | ((with_reducible refine Clo.mono hK ?_); rfl)
                 | with_reducible apply answer_sat | with_reducible apply finish_sat
                 | with_reducible apply reserved_sat | with_reducible apply safeState_sat
                 | with_reducible apply setHold_sat | with_reducible apply stopAll_sat
                 | with_reducible apply Sat_ite | split | (refine snd_sat (by with_reducible assumption) ?_)
                 | (refine some_sat (by with_reducible assumption) ?_)
                 | (refine some2_sat (by with_reducible assumption) ?_) | dsimp only)

theorem execEmergencyRelease_sat (s : State) (hK : Clo 0xc7c73a P) (hs0 : Sat P s) : SatN P (execEmergencyRelease s)
    := by
  unfold execEmergencyRelease; (try dsimp only)
  repeat' (first | with_reducible assumption | ((with_reducible refine Clo.mono hK ?_); rfl)
                 | with_reducible intro _ | with_reducible apply emergencyCmd_sat | with_reducible apply onWf_sat
                 | with_reducible apply takeCmd_sat | (simp only [SatN_next]))

theorem execEmergencyHold_sat (s : State) (hK : Clo 0xc7c73a P) (hs0 : Sat P s) : SatN P (execEmergencyHold s) := by
  unfold execEmergencyHold; (try dsimp only)
  repeat' (first | with_reducible assumption | ((with_reducible refine Clo.mono hK ?_); rfl)
                 | with_reducible intro _ | with_reducible apply emergencyCmd_sat | with_reducible apply onWf_sat
                 | with_reducible apply takeCmd_sat | (simp only [SatN_next]))

theorem execEmergencyShed_sat (s : State) (hK : Clo 0xc7c73a P) (hs0 : Sat P s) : SatN P (execEmergencyShed s) := by
  unfold execEmergencyShed; (try dsimp only)
  repeat' (first | with_reducible assumption | ((with_reducible refine Clo.mono hK ?_); rfl)
                 | with_reducible intro _ | with_reducible apply emergencyCmd_sat | with_reducible apply onWf_sat
                 | with_reducible apply takeCmd_sat | (simp only [SatN_next]))

theorem execEmergencyStop_sat (s : State) (hK : Clo 0xc7c73a P) (hs0 : Sat P s) : SatN P (execEmergencyStop s) := by
  unfold execEmergencyStop; (try dsimp only)
  repeat' (first | with_reducible assumption | ((with_reducible refine Clo.mono hK ?_); rfl)
                 | with_reducible intro _ | with_reducible apply emergencyCmd_sat | with_reducible apply onWf_sat
                 | with_reducible apply takeCmd_sat | (simp only [SatN_next]))

theorem execPowerRead_sat (s : State) (hK : Clo 0x18 P) (hs0 : Sat P s) : SatN P (execPowerRead s) := by
  unfold execPowerRead; (try dsimp only)
  repeat' (first | with_reducible assumption | ((with_reducible refine Clo.mono hK ?_); rfl)
                 | with_reducible intro _ | with_reducible apply finish_sat | with_reducible apply onWf_sat
                 | with_reducible apply takeCmd_sat | (simp only [SatN_next]))

theorem powerSample_sat (rails : List (Nat × Nat × Nat)) (above : Bool) (s : State) (hK : Clo 0xa0005a P) (hs0 :
    Sat P s) : Sat P (powerSample rails above s) := by
  unfold powerSample; (try dsimp only)
  repeat' (first | with_reducible assumption | ((with_reducible refine Clo.mono hK ?_); rfl)
                 | with_reducible intro _ | with_reducible apply Sat_foldl | with_reducible apply draw_sat
                 | with_reducible apply modPower_sat | with_reducible apply recordFault_sat
                 | with_reducible apply Sat_ite | split | (refine snd_sat (by with_reducible assumption) ?_)
                 | (refine some_sat (by with_reducible assumption) ?_)
                 | (refine some2_sat (by with_reducible assumption) ?_) | dsimp only)

theorem execPowerSample_sat (rails : List (Nat × Nat × Nat)) (demandAboveL : Bool) (s : State) (hK : Clo 0xa0005a P)
    (hs0 : Sat P s) : SatN P (execPowerSample rails demandAboveL s) := by
  unfold execPowerSample; (try dsimp only)
  repeat' (first | with_reducible assumption | ((with_reducible refine Clo.mono hK ?_); rfl)
                 | with_reducible intro _ | with_reducible apply onWf_sat | with_reducible apply powerSample_sat
                 | (simp only [SatN_next]))

theorem voltageStep_sat (die : Nat) (up answered : Bool) (s : State) (hK : Clo 0xa00058 P) (hs0 : Sat P s) :
    Sat P (voltageStep die up answered s) := by
  unfold voltageStep; (try dsimp only)
  repeat' (first | with_reducible assumption | ((with_reducible refine Clo.mono hK ?_); rfl)
                 | with_reducible intro _ | with_reducible apply modPower_sat | with_reducible apply recordFault_sat
                 | with_reducible apply Sat_ite | split | (refine snd_sat (by with_reducible assumption) ?_)
                 | (refine some_sat (by with_reducible assumption) ?_)
                 | (refine some2_sat (by with_reducible assumption) ?_) | dsimp only)

theorem execCoreVoltageStep_sat (die : Nat) (up answered : Bool) (s : State) (hK : Clo 0xa00058 P) (hs0 : Sat P s) :
    SatN P (execCoreVoltageStep die up answered s) := by
  unfold execCoreVoltageStep; (try dsimp only)
  repeat' (first | with_reducible assumption | ((with_reducible refine Clo.mono hK ?_); rfl)
                 | with_reducible intro _ | with_reducible apply onWf_sat | with_reducible apply voltageStep_sat
                 | (simp only [SatN_next]))

theorem brakeAssert_sat (held : Nat) (s : State) (hK : Clo 0xc7c55a P) (hs0 : Sat P s) : Sat P (brakeAssert held s)
    := by
  unfold brakeAssert; (try dsimp only)
  repeat' (first | with_reducible assumption | ((with_reducible refine Clo.mono hK ?_); rfl)
                 | with_reducible intro _ | with_reducible apply modLands_sat | with_reducible apply relimit_sat
                 | with_reducible apply held | with_reducible apply Sat_ite | split)

theorem execBrakeAssert_sat (held : Nat) (s : State) (hK : Clo 0xc7c55a P) (hs0 : Sat P s) :
    SatN P (execBrakeAssert held s) := by
  unfold execBrakeAssert; (try dsimp only)
  repeat' (first | with_reducible assumption | ((with_reducible refine Clo.mono hK ?_); rfl)
                 | with_reducible intro _ | with_reducible apply brakeAssert_sat | with_reducible apply onWf_sat
                 | with_reducible apply held | (simp only [SatN_next]))

theorem execBrakeRelease_sat (s : State) (hK : Clo 0xc7c55a P) (hs0 : Sat P s) : SatN P (execBrakeRelease s) := by
  unfold execBrakeRelease; (try dsimp only)
  repeat' (first | with_reducible assumption | ((with_reducible refine Clo.mono hK ?_); rfl)
                 | with_reducible intro _ | with_reducible apply modLands_sat | with_reducible apply onWf_sat
                 | with_reducible apply relimit_sat | (simp only [SatN_next]))

theorem thermChange_sat (s : State) (old new : Nat) (hK : Clo 0xa00058 P) (hs0 : Sat P s) :
    Sat P (thermChange s old new) := by
  unfold thermChange; (try dsimp only)
  repeat' (first | with_reducible assumption | ((with_reducible refine Clo.mono hK ?_); rfl)
                 | with_reducible intro _ | with_reducible apply modPower_sat | with_reducible apply recordFault_sat
                 | with_reducible apply Sat_ite | split | (refine snd_sat (by with_reducible assumption) ?_)
                 | (refine some_sat (by with_reducible assumption) ?_)
                 | (refine some2_sat (by with_reducible assumption) ?_) | dsimp only)

theorem thermalSample_sat (west east : Int × Int) (hbm : List Int) (s : State) (hK : Clo 0xe7c55a P) (hs0 : Sat P s)
    : Sat P (thermalSample west east hbm s) := by
  unfold thermalSample; (try dsimp only)
  repeat' (first | with_reducible assumption | ((with_reducible refine Clo.mono hK ?_); rfl)
                 | with_reducible intro _ | with_reducible apply event_sat | with_reducible apply modPower_sat
                 | with_reducible apply recordFault_sat | with_reducible apply relimit_sat
                 | with_reducible apply thermChange_sat | with_reducible apply hbm | with_reducible apply Sat_ite
                 | split | (refine snd_sat (by with_reducible assumption) ?_)
                 | (refine some_sat (by with_reducible assumption) ?_)
                 | (refine some2_sat (by with_reducible assumption) ?_) | dsimp only)

theorem execThermalSample_sat (west east : Int × Int) (hbm : List Int) (s : State) (hK : Clo 0xe7c55a P) (hs0 :
    Sat P s) : SatN P (execThermalSample west east hbm s) := by
  unfold execThermalSample; (try dsimp only)
  repeat' (first | with_reducible assumption | ((with_reducible refine Clo.mono hK ?_); rfl)
                 | with_reducible intro _ | with_reducible apply onWf_sat | with_reducible apply thermalSample_sat
                 | with_reducible apply hbm | (simp only [SatN_next]))

theorem thermStep_sat (s : State) (hK : Clo 0xc7c51a P) (hs0 : Sat P s) : Sat P (thermStep s) := by
  unfold thermStep; (try dsimp only)
  repeat' (first | with_reducible assumption | ((with_reducible refine Clo.mono hK ?_); rfl)
                 | with_reducible intro _ | with_reducible apply modPower_sat | with_reducible apply relimit_sat
                 | with_reducible apply Sat_ite | split | (refine snd_sat (by with_reducible assumption) ?_)
                 | (refine some_sat (by with_reducible assumption) ?_)
                 | (refine some2_sat (by with_reducible assumption) ?_) | dsimp only)

theorem execThermalLimitStep_sat (s : State) (hK : Clo 0xc7c51a P) (hs0 : Sat P s) : SatN P (execThermalLimitStep s)
    := by
  unfold execThermalLimitStep; (try dsimp only)
  repeat' (first | with_reducible assumption | ((with_reducible refine Clo.mono hK ?_); rfl)
                 | with_reducible intro _ | with_reducible apply onWf_sat | with_reducible apply thermStep_sat
                 | (simp only [SatN_next]))

theorem thermalTrip_sat (die : Bool) (reading : Int) (s : State) (hK : Clo 0xe6c37a P) (hs0 : Sat P s) :
    Sat P (thermalTrip die reading s) := by
  unfold thermalTrip; (try dsimp only)
  repeat' (first | with_reducible assumption | ((with_reducible refine Clo.mono hK ?_); rfl)
                 | with_reducible intro _ | with_reducible apply modPower_sat | with_reducible apply recordFault_sat
                 | with_reducible apply safeState_sat | with_reducible apply Sat_ite | split
                 | (refine snd_sat (by with_reducible assumption) ?_)
                 | (refine some_sat (by with_reducible assumption) ?_)
                 | (refine some2_sat (by with_reducible assumption) ?_) | dsimp only)

theorem execThermalTrip_sat (die : Bool) (reading : Int) (s : State) (hK : Clo 0xe6c37a P) (hs0 : Sat P s) :
    SatN P (execThermalTrip die reading s) := by
  unfold execThermalTrip; (try dsimp only)
  repeat' (first | with_reducible assumption | ((with_reducible refine Clo.mono hK ?_); rfl)
                 | with_reducible intro _ | with_reducible apply onWf_sat | with_reducible apply thermalTrip_sat
                 | (simp only [SatN_next]))

theorem setMgmt_sat (s : State) (m : Nat) (x : Mgmt) (hK : Clo 0x180000 P) (hs0 : Sat P s) : Sat P (setMgmt s m x)
    := by
  unfold setMgmt; (try dsimp only)
  repeat' (first | with_reducible assumption | ((with_reducible refine Clo.mono hK ?_); rfl)
                 | with_reducible apply Sat_ite | split
                 | (simp only [Sat_mk]; refine clo_mgmtA hK rfl (clo_mgmtB hK rfl (Sat_fold ?_))))

theorem orphanApply_sat (m : Nat) (s : State) (hK : Clo 0xc7c51a P) (hs0 : Sat P s) : Sat P (orphanApply m s) := by
  unfold orphanApply; (try dsimp only)
  repeat' (first | with_reducible assumption | ((with_reducible refine Clo.mono hK ?_); rfl)
                 | with_reducible intro _ | with_reducible apply event_sat | with_reducible apply modPower_sat
                 | with_reducible apply relimit_sat | with_reducible apply Sat_ite | split
                 | (refine snd_sat (by with_reducible assumption) ?_)
                 | (refine some_sat (by with_reducible assumption) ?_)
                 | (refine some2_sat (by with_reducible assumption) ?_) | dsimp only)

theorem execOrphanCapApply_sat (m : Nat) (s : State) (hK : Clo 0xc7c51a P) (hs0 : Sat P s) :
    SatN P (execOrphanCapApply m s) := by
  unfold execOrphanCapApply; (try dsimp only)
  repeat' (first | with_reducible assumption | ((with_reducible refine Clo.mono hK ?_); rfl)
                 | with_reducible intro _ | with_reducible apply onWf_sat | with_reducible apply orphanApply_sat
                 | (simp only [SatN_next]))

/-! ### Control -/

theorem execEcho_sat (q : Nat) (s : State) (hK : Clo 0x18 P) (hs0 : Sat P s) : SatN P (execEcho q s) := by
  unfold execEcho; (try dsimp only)
  repeat' (first | with_reducible assumption | ((with_reducible refine Clo.mono hK ?_); rfl)
                 | with_reducible intro _ | with_reducible apply finish_sat | with_reducible apply onWf_sat
                 | with_reducible apply takeCmd_sat | (simp only [SatN_next]))

theorem execIdentity_sat (q : Nat) (s : State) (hK : Clo 0x18 P) (hs0 : Sat P s) : SatN P (execIdentity q s) := by
  unfold execIdentity; (try dsimp only)
  repeat' (first | with_reducible assumption | ((with_reducible refine Clo.mono hK ?_); rfl)
                 | with_reducible intro _ | with_reducible apply finish_sat | with_reducible apply onWf_sat
                 | with_reducible apply takeCmd_sat | with_reducible apply Sat_id | (simp only [SatN_next]))

theorem telemetryOp_sat (c : Cmd) (s : State) (hs0 : Sat P s) : Sat P (telemetryOp c s).2.2.2 := by
  unfold telemetryOp; (try dsimp only)
  repeat' (first | with_reducible assumption | with_reducible apply reserved_sat | with_reducible apply Sat_ite
                 | with_reducible apply Sat2_ite | split | (refine snd_sat (by with_reducible assumption) ?_)
                 | (refine some_sat (by with_reducible assumption) ?_)
                 | (refine some2_sat (by with_reducible assumption) ?_) | dsimp only)

theorem execTelemetry_sat (q : Nat) (s : State) (hK : Clo 0x18 P) (hs0 : Sat P s) : SatN P (execTelemetry q s) := by
  unfold execTelemetry; (try dsimp only)
  repeat' (first | with_reducible assumption | ((with_reducible refine Clo.mono hK ?_); rfl)
                 | with_reducible intro _ | with_reducible apply answer_sat | with_reducible apply onWf_sat
                 | with_reducible apply takeCmd_sat | with_reducible apply telemetryOp_sat
                 | (simp only [SatN_next]))

theorem markRun_sat (s : State) (t first n : Nat) (a b : FrameState) (hK : Clo 0x20000 P) (hs0 : Sat P s) :
    Sat P (markRun s t first n a b) := by
  unfold markRun; (try dsimp only)
  repeat' (first | with_reducible assumption | ((with_reducible refine Clo.mono hK ?_); rfl)
                 | with_reducible intro _ | with_reducible apply Sat_foldl | with_reducible apply setFrame_sat
                 | with_reducible apply Sat_ite | split)

theorem freeLeft_sat (s : State) (p : Nat) (e : PartEntry) (hK : Clo 0x20000 P) (hs0 : Sat P s) :
    Sat P (freeLeft s p e) := by
  unfold freeLeft; (try dsimp only)
  repeat' (first | with_reducible assumption | ((with_reducible refine Clo.mono hK ?_); rfl)
                 | with_reducible intro _ | with_reducible apply modTiers_sat
                 | (refine snd_sat (by with_reducible assumption) ?_)
                 | (refine some_sat (by with_reducible assumption) ?_)
                 | (refine some2_sat (by with_reducible assumption) ?_) | dsimp only)

theorem writeEntry_sat (s : State) (p : Nat) (e : PartEntry) (hK : Clo 0x20100 P) (hs0 : Sat P s) :
    Sat P (writeEntry s p e) := by
  unfold writeEntry; (try dsimp only)
  repeat' (first | with_reducible assumption | ((with_reducible refine Clo.mono hK ?_); rfl)
                 | with_reducible intro _ | with_reducible apply freeLeft_sat | with_reducible apply markRun_sat
                 | with_reducible apply modPart_sat | (refine snd_sat (by with_reducible assumption) ?_)
                 | (refine some_sat (by with_reducible assumption) ?_)
                 | (refine some2_sat (by with_reducible assumption) ?_) | dsimp only)

theorem makePrimary_sat (s : State) (p : Nat) (e : PartEntry) (hK : Clo 0x2c100 P) (hs0 : Sat P s) :
    Sat P (makePrimary s p e) := by
  unfold makePrimary; (try dsimp only)
  repeat' (first | with_reducible assumption | ((with_reducible refine Clo.mono hK ?_); rfl)
                 | with_reducible intro _ | with_reducible apply setPart_sat | with_reducible apply writeEntry_sat
                 | (simp only [Sat_mk]; refine clo_drawers hK rfl (clo_regions hK rfl (Sat_fold ?_)))
                 | (refine snd_sat (by with_reducible assumption) ?_)
                 | (refine some_sat (by with_reducible assumption) ?_)
                 | (refine some2_sat (by with_reducible assumption) ?_) | dsimp only)

theorem undefine_sat (s : State) (p : Nat) (hK : Clo 0x47c11a P) (hs0 : Sat P s) : Sat P (undefine s p) := by
  unfold undefine; (try dsimp only)
  repeat' (first | with_reducible assumption | ((with_reducible refine Clo.mono hK ?_); rfl)
                 | with_reducible intro _ | with_reducible apply Sat_foldl | with_reducible apply publishNow_sat
                 | with_reducible apply sendReady_sat | with_reducible apply setPart_sat
                 | with_reducible apply writeEntry_sat | (refine snd_sat (by with_reducible assumption) ?_)
                 | (refine some_sat (by with_reducible assumption) ?_)
                 | (refine some2_sat (by with_reducible assumption) ?_) | dsimp only)

theorem unstick_sat (s : State) (p : Nat) (hK : Clo 0x100 P) (hs0 : Sat P s) : Sat P (unstick s p) := by
  unfold unstick; (try dsimp only)
  repeat' (first | with_reducible assumption | ((with_reducible refine Clo.mono hK ?_); rfl)
                 | with_reducible intro _ | with_reducible apply modPart_sat | with_reducible apply Sat_ite | split)

theorem defineCmd_sat (c : Cmd) (s : State) (hK : Clo 0x47f71a P) (hs0 : Sat P s) : Sat P (defineCmd c s) := by
  unfold defineCmd; (try dsimp only)
  repeat' (first | with_reducible assumption | ((with_reducible refine Clo.mono hK ?_); rfl)
                 | with_reducible apply finish_sat | with_reducible apply makePrimary_sat
                 | with_reducible apply partitionReset_sat | with_reducible apply undefine_sat
                 | with_reducible apply unstick_sat | with_reducible apply writeEntry_sat
                 | with_reducible apply Sat_ite | split | (refine snd_sat (by with_reducible assumption) ?_)
                 | (refine some_sat (by with_reducible assumption) ?_)
                 | (refine some2_sat (by with_reducible assumption) ?_) | dsimp only)

theorem execPartDefine_sat (s : State) (hK : Clo 0x47f71a P) (hs0 : Sat P s) : SatN P (execPartDefine s) := by
  unfold execPartDefine; (try dsimp only)
  repeat' (first | with_reducible assumption | ((with_reducible refine Clo.mono hK ?_); rfl)
                 | with_reducible intro _ | with_reducible apply defineCmd_sat | with_reducible apply onWf_sat
                 | with_reducible apply takeCmd_sat | split | (simp only [SatN_next]))

theorem settled_sat (p : Nat) (f : State → State) (s : State) (hf : ∀ x0, Sat P x0 → Sat P (f x0)) (hs0 : Sat P s) :
    Sat P (settled p f s) := by
  unfold settled; (try dsimp only)
  repeat' (first | with_reducible assumption | with_reducible intro _ | with_reducible apply hf
                 | with_reducible apply Sat_ite | split)

theorem execPartReset_sat (p : Nat) (s : State) (hK : Clo 0x47f71a P) (hs0 : Sat P s) : SatN P (execPartReset p s)
    := by
  unfold execPartReset; (try dsimp only)
  repeat' (first | with_reducible assumption | ((with_reducible refine Clo.mono hK ?_); rfl)
                 | with_reducible intro _ | with_reducible apply finish_sat | with_reducible apply onWf_sat
                 | with_reducible apply partitionReset_sat | with_reducible apply settled_sat
                 | with_reducible apply takeCmd_sat | (simp only [SatN_next]))

theorem saveRecord_sat (s : State) (p : Nat) (evicted : Bool) (hK : Clo 0x30100 P) (hs0 : Sat P s) :
    Sat P (saveRecord s p evicted) := by
  unfold saveRecord; (try dsimp only)
  repeat' (first | with_reducible assumption | ((with_reducible refine Clo.mono hK ?_); rfl)
                 | with_reducible intro _ | with_reducible apply modPart_sat | with_reducible apply writeTier_sat
                 | with_reducible apply Sat_ite | split | (refine snd_sat (by with_reducible assumption) ?_)
                 | (refine some_sat (by with_reducible assumption) ?_)
                 | (refine some2_sat (by with_reducible assumption) ?_) | dsimp only)

theorem yieldCmd_sat (p : Nat) (c : Cmd) (s : State) (hK : Clo 0x118 P) (hs0 : Sat P s) : Sat P (yieldCmd p c s) := by
  unfold yieldCmd; (try dsimp only)
  repeat' (first | with_reducible assumption | ((with_reducible refine Clo.mono hK ?_); rfl)
                 | with_reducible intro _ | with_reducible apply finish_sat | with_reducible apply modPart_sat
                 | split | (refine snd_sat (by with_reducible assumption) ?_)
                 | (refine some_sat (by with_reducible assumption) ?_)
                 | (refine some2_sat (by with_reducible assumption) ?_) | dsimp only)

theorem execPartYield_sat (p : Nat) (s : State) (hK : Clo 0x118 P) (hs0 : Sat P s) : SatN P (execPartYield p s) := by
  unfold execPartYield; (try dsimp only)
  repeat' (first | with_reducible assumption | ((with_reducible refine Clo.mono hK ?_); rfl)
                 | with_reducible intro _ | with_reducible apply onWf_sat | with_reducible apply settled_sat
                 | with_reducible apply takeCmd_sat | with_reducible apply yieldCmd_sat | (simp only [SatN_next]))

theorem dropAppended_sat (s : State) (p : Nat) (hK : Clo 0x20100 P) (hs0 : Sat P s) : Sat P (dropAppended s p) := by
  unfold dropAppended; (try dsimp only)
  repeat' (first | with_reducible assumption | ((with_reducible refine Clo.mono hK ?_); rfl)
                 | with_reducible apply lastDrain_sat | with_reducible apply Sat_ite | split)

theorem finishOpt_sat (s : State) (c : Option Cmd) (status : Nat) (hK : Clo 0x18 P) (hs0 : Sat P s) :
    Sat P (finishOpt s c status) := by
  unfold finishOpt; (try dsimp only)
  repeat' (first | with_reducible assumption | ((with_reducible refine Clo.mono hK ?_); rfl)
                 | with_reducible apply finish_sat | split | (refine snd_sat (by with_reducible assumption) ?_)
                 | (refine some_sat (by with_reducible assumption) ?_)
                 | (refine some2_sat (by with_reducible assumption) ?_) | dsimp only)

theorem yieldBoundary_sat (p : Nat) (s : State) (hK : Clo 0x30118 P) (hs0 : Sat P s) : Sat P (yieldBoundary p s) := by
  unfold yieldBoundary; (try dsimp only)
  repeat' (first | with_reducible assumption | ((with_reducible refine Clo.mono hK ?_); rfl)
                 | with_reducible intro _ | with_reducible apply dropAppended_sat
                 | with_reducible apply finishOpt_sat | with_reducible apply modPart_sat
                 | with_reducible apply saveRecord_sat | with_reducible apply yieldCmd_sat
                 | with_reducible apply Sat_ite | split | (refine snd_sat (by with_reducible assumption) ?_)
                 | (refine some_sat (by with_reducible assumption) ?_)
                 | (refine some2_sat (by with_reducible assumption) ?_) | dsimp only)

theorem execYieldBoundary_sat (p : Nat) (s : State) (hK : Clo 0x30118 P) (hs0 : Sat P s) :
    SatN P (execYieldBoundary p s) := by
  unfold execYieldBoundary; (try dsimp only)
  repeat' (first | with_reducible assumption | ((with_reducible refine Clo.mono hK ?_); rfl)
                 | with_reducible intro _ | with_reducible apply onWf_sat | with_reducible apply yieldBoundary_sat
                 | (simp only [SatN_next]))

theorem quiesce_sat (s : State) (p : Nat) (hK : Clo 0x47c51a P) (hs0 : Sat P s) : Sat P (quiesce s p) := by
  unfold quiesce; (try dsimp only)
  repeat' (first | with_reducible assumption | ((with_reducible refine Clo.mono hK ?_); rfl)
                 | with_reducible intro _ | with_reducible apply Sat_foldl | with_reducible apply abortMoves_sat
                 | with_reducible apply discardTransfers_sat | with_reducible apply lastDrain_sat
                 | with_reducible apply modPart_sat | with_reducible apply modVe_sat | with_reducible apply Sat_ite
                 | split | (refine snd_sat (by with_reducible assumption) ?_)
                 | (refine some_sat (by with_reducible assumption) ?_)
                 | (refine some2_sat (by with_reducible assumption) ?_) | dsimp only)

theorem evictBegin_sat (s : State) (p : Nat) (hK : Clo 0x47c51a P) (hs0 : Sat P s) : Sat P (evictBegin s p) := by
  unfold evictBegin; (try dsimp only)
  repeat' (first | with_reducible assumption | ((with_reducible refine Clo.mono hK ?_); rfl)
                 | with_reducible intro _ | with_reducible apply modPart_sat | with_reducible apply quiesce_sat)

theorem evictCmd_sat (p : Nat) (c : Cmd) (s : State) (hK : Clo 0x47c51a P) (hs0 : Sat P s) : Sat P (evictCmd p c s)
    := by
  unfold evictCmd; (try dsimp only)
  repeat' (first | with_reducible assumption | ((with_reducible refine Clo.mono hK ?_); rfl)
                 | with_reducible intro _ | with_reducible apply evictBegin_sat | with_reducible apply finish_sat
                 | with_reducible apply modPart_sat | split | (refine snd_sat (by with_reducible assumption) ?_)
                 | (refine some_sat (by with_reducible assumption) ?_)
                 | (refine some2_sat (by with_reducible assumption) ?_) | dsimp only)

theorem execPartEvict_sat (p : Nat) (s : State) (hK : Clo 0x47c51a P) (hs0 : Sat P s) : SatN P (execPartEvict p s)
    := by
  unfold execPartEvict; (try dsimp only)
  repeat' (first | with_reducible assumption | ((with_reducible refine Clo.mono hK ?_); rfl)
                 | with_reducible intro _ | with_reducible apply evictCmd_sat | with_reducible apply onWf_sat
                 | with_reducible apply settled_sat | with_reducible apply takeCmd_sat | (simp only [SatN_next]))

theorem freezeArray_sat (s : State) (p : Nat) (hK : Clo 0x3602 P) (hs0 : Sat P s) : Sat P (freezeArray s p) := by
  unfold freezeArray; (try dsimp only)
  repeat' (first | with_reducible assumption | ((with_reducible refine Clo.mono hK ?_); rfl)
                 | with_reducible intro _ | with_reducible apply Sat_foldl | with_reducible apply draw_sat
                 | with_reducible apply Sat_ite | split
                 | (simp only [Sat_mk]; refine clo_draw hK rfl (clo_tiles hK rfl (clo_ves hK rfl (clo_veNet hK rfl (clo_injectOut hK rfl (Sat_fold ?_))))))
                 | (refine snd_sat (by with_reducible assumption) ?_)
                 | (refine some_sat (by with_reducible assumption) ?_)
                 | (refine some2_sat (by with_reducible assumption) ?_) | with_reducible apply SatO_map
                 | with_reducible apply SatO_map2 | with_reducible apply SatO2_mapO
                 | with_reducible apply SatO2_map2 | dsimp only)

theorem quiesceEnd_sat (p : Nat) (s : State) (hK : Clo 0x46f71a P) (hs0 : Sat P s) : Sat P (quiesceEnd p s) := by
  unfold quiesceEnd; (try dsimp only)
  repeat' (first | with_reducible assumption | ((with_reducible refine Clo.mono hK ?_); rfl)
                 | with_reducible intro _ | with_reducible apply freezeArray_sat | with_reducible apply modPart_sat
                 | with_reducible apply modStream_sat | with_reducible apply modTiers_sat
                 | with_reducible apply stepAbandon_sat | with_reducible apply Sat_ite | split
                 | (refine snd_sat (by with_reducible assumption) ?_)
                 | (refine some_sat (by with_reducible assumption) ?_)
                 | (refine some2_sat (by with_reducible assumption) ?_) | dsimp only)

theorem execEvictQuiesceEnd_sat (p : Nat) (s : State) (hK : Clo 0x46f71a P) (hs0 : Sat P s) :
    SatN P (execEvictQuiesceEnd p s) := by
  unfold execEvictQuiesceEnd; (try dsimp only)
  repeat' (first | with_reducible assumption | ((with_reducible refine Clo.mono hK ?_); rfl)
                 | with_reducible intro _ | with_reducible apply onWf_sat | with_reducible apply quiesceEnd_sat
                 | (simp only [SatN_next]))

theorem saveComplete_sat (p : Nat) (s : State) (hK : Clo 0x30118 P) (hs0 : Sat P s) : Sat P (saveComplete p s) := by
  unfold saveComplete; (try dsimp only)
  repeat' (first | with_reducible assumption | ((with_reducible refine Clo.mono hK ?_); rfl)
                 | with_reducible intro _ | with_reducible apply countTier_sat | with_reducible apply evictCmd_sat
                 | with_reducible apply finishOpt_sat | with_reducible apply modPart_sat
                 | with_reducible apply saveRecord_sat | with_reducible apply Sat_ite | split
                 | (refine snd_sat (by with_reducible assumption) ?_)
                 | (refine some_sat (by with_reducible assumption) ?_)
                 | (refine some2_sat (by with_reducible assumption) ?_) | with_reducible apply SatO_map
                 | with_reducible apply SatO_map2 | with_reducible apply SatO2_mapO
                 | with_reducible apply SatO2_map2 | dsimp only)

theorem execEvictSaveComplete_sat (p : Nat) (s : State) (hK : Clo 0x30118 P) (hs0 : Sat P s) :
    SatN P (execEvictSaveComplete p s) := by
  unfold execEvictSaveComplete; (try dsimp only)
  repeat' (first | with_reducible assumption | ((with_reducible refine Clo.mono hK ?_); rfl)
                 | with_reducible intro _ | with_reducible apply onWf_sat | with_reducible apply saveComplete_sat
                 | (simp only [SatN_next]))

theorem runAgain_sat (s : State) (p : Nat) (hK : Clo 0x100 P) (hs0 : Sat P s) : Sat P (runAgain s p) := by
  unfold runAgain; (try dsimp only)
  repeat' (first | with_reducible assumption | ((with_reducible refine Clo.mono hK ?_); rfl)
                 | with_reducible intro _ | with_reducible apply modPart_sat | with_reducible apply Sat_ite | split)

theorem resumeCmd_sat (p : Nat) (c : Cmd) (s : State) (hK : Clo 0x118 P) (hs0 : Sat P s) : Sat P (resumeCmd p c s)
    := by
  unfold resumeCmd; (try dsimp only)
  repeat' (first | with_reducible assumption | ((with_reducible refine Clo.mono hK ?_); rfl)
                 | with_reducible intro _ | with_reducible apply finish_sat | with_reducible apply modPart_sat
                 | with_reducible apply runAgain_sat | with_reducible apply Sat_ite | split
                 | (refine snd_sat (by with_reducible assumption) ?_)
                 | (refine some_sat (by with_reducible assumption) ?_)
                 | (refine some2_sat (by with_reducible assumption) ?_) | dsimp only)

theorem execPartResume_sat (p : Nat) (s : State) (hK : Clo 0x118 P) (hs0 : Sat P s) : SatN P (execPartResume p s)
    := by
  unfold execPartResume; (try dsimp only)
  repeat' (first | with_reducible assumption | ((with_reducible refine Clo.mono hK ?_); rfl)
                 | with_reducible intro _ | with_reducible apply onWf_sat | with_reducible apply resumeCmd_sat
                 | with_reducible apply settled_sat | with_reducible apply takeCmd_sat | (simp only [SatN_next]))

theorem restoreVes_sat (s : State) (rs : List VeRec) (hK : Clo 0x402 P) (hs0 : Sat P s) : Sat P (restoreVes s rs)
    := by
  unfold restoreVes; (try dsimp only)
  repeat' (first | with_reducible assumption | ((with_reducible refine Clo.mono hK ?_); rfl)
                 | with_reducible intro _ | with_reducible apply Sat_foldl | with_reducible apply draw_sat
                 | with_reducible apply modVe_sat | (simp only [Sat_mk]; refine clo_draw hK rfl (Sat_fold ?_)))

theorem reload_sat (s : State) (img : SaveImage) (hK : Clo 0xe02 P) (hs0 : Sat P s) : Sat P (reload s img) := by
  unfold reload; (try dsimp only)
  repeat' (first | with_reducible assumption | ((with_reducible refine Clo.mono hK ?_); rfl)
                 | with_reducible intro _ | with_reducible apply Sat_foldl | with_reducible apply modTile_sat
                 | with_reducible apply restoreVes_sat
                 | (simp only [Sat_mk]; refine clo_codebook hK rfl (Sat_fold ?_))
                 | (refine snd_sat (by with_reducible assumption) ?_)
                 | (refine some_sat (by with_reducible assumption) ?_)
                 | (refine some2_sat (by with_reducible assumption) ?_) | with_reducible apply SatO_map
                 | with_reducible apply SatO_map2 | with_reducible apply SatO2_mapO
                 | with_reducible apply SatO2_map2 | dsimp only)

theorem reloadComplete_sat (p : Nat) (s : State) (hK : Clo 0xf1a P) (hs0 : Sat P s) : Sat P (reloadComplete p s) := by
  unfold reloadComplete; (try dsimp only)
  repeat' (first | with_reducible assumption | ((with_reducible refine Clo.mono hK ?_); rfl)
                 | with_reducible intro _ | with_reducible apply countTier_sat | with_reducible apply finishOpt_sat
                 | with_reducible apply modPart_sat | with_reducible apply reload_sat
                 | with_reducible apply resumeCmd_sat | with_reducible apply runAgain_sat
                 | with_reducible apply Sat_getD | with_reducible apply Sat_ite | split
                 | (refine snd_sat (by with_reducible assumption) ?_)
                 | (refine some_sat (by with_reducible assumption) ?_)
                 | (refine some2_sat (by with_reducible assumption) ?_) | with_reducible apply SatO_map
                 | with_reducible apply SatO_map2 | with_reducible apply SatO2_mapO
                 | with_reducible apply SatO2_map2 | dsimp only)

theorem execResumeReloadComplete_sat (p : Nat) (s : State) (hK : Clo 0xf1a P) (hs0 : Sat P s) :
    SatN P (execResumeReloadComplete p s) := by
  unfold execResumeReloadComplete; (try dsimp only)
  repeat' (first | with_reducible assumption | ((with_reducible refine Clo.mono hK ?_); rfl)
                 | with_reducible intro _ | with_reducible apply onWf_sat | with_reducible apply reloadComplete_sat
                 | (simp only [SatN_next]))

theorem acctCmd_sat (c : Cmd) (s : State) (hK : Clo 0x118 P) (hs0 : Sat P s) : Sat P (acctCmd c s) := by
  unfold acctCmd; (try dsimp only)
  repeat' (first | with_reducible assumption | ((with_reducible refine Clo.mono hK ?_); rfl)
                 | with_reducible intro _ | with_reducible apply answer_sat | with_reducible apply finish_sat
                 | with_reducible apply modPart_sat | with_reducible apply reserved_sat
                 | with_reducible apply Sat_ite | split | (refine snd_sat (by with_reducible assumption) ?_)
                 | (refine some_sat (by with_reducible assumption) ?_)
                 | (refine some2_sat (by with_reducible assumption) ?_) | dsimp only)

theorem execAcctRead_sat (p : Nat) (s : State) (hK : Clo 0x118 P) (hs0 : Sat P s) : SatN P (execAcctRead p s) := by
  unfold execAcctRead; (try dsimp only)
  repeat' (first | with_reducible assumption | ((with_reducible refine Clo.mono hK ?_); rfl)
                 | with_reducible intro _ | with_reducible apply acctCmd_sat | with_reducible apply onWf_sat
                 | with_reducible apply takeCmd_sat | (simp only [SatN_next]))

theorem execAcctReadClear_sat (p : Nat) (s : State) (hK : Clo 0x118 P) (hs0 : Sat P s) :
    SatN P (execAcctReadClear p s) := by
  unfold execAcctReadClear; (try dsimp only)
  repeat' (first | with_reducible assumption | ((with_reducible refine Clo.mono hK ?_); rfl)
                 | with_reducible intro _ | with_reducible apply acctCmd_sat | with_reducible apply onWf_sat
                 | with_reducible apply takeCmd_sat | (simp only [SatN_next]))

theorem innerOp_sat (pkg : PkgInfo) (c : Cmd) (s : State) (hK : Clo 0x47c118 P) (hs0 : Sat P s) : ∀ t,
    innerOp pkg c s = some t → Sat P t.2.2.2 := by
  unfold innerOp
  refine some_ite (some_ans (seedOp_sat _ _ (Clo.mono hK rfl) hs0)) ?_
  refine some_ite (some_ans (installOp_sat _ _ _ (Clo.mono hK rfl) hs0)) ?_
  refine some_ite (some_ans (mirrorSwitch_sat _ _ (Clo.mono hK rfl) hs0)) ?_
  refine some_ite (some_ans (removeOp_sat _ _ (Clo.mono hK rfl) hs0)) ?_
  refine some_ite (some_ans (expertMapOp_sat _ _ (Clo.mono hK rfl) hs0)) ?_
  refine some_ite (some_ans (balanceOp_sat _ _ (Clo.mono hK rfl) hs0)) ?_
  refine some_ite (some_ans (budgetOp_sat _ _ (Clo.mono hK rfl) hs0)) ?_
  refine some_ite (some_ans (createOp_sat _ _ (Clo.mono hK rfl) hs0)) ?_
  refine some_ite (some_ans (deleteOp_sat _ _ (Clo.mono hK rfl) hs0)) ?_
  refine some_ite (some_ans (allocOp_sat _ _ (Clo.mono hK rfl) hs0)) ?_
  refine some_ite (some_ans (freeOp_sat _ _ (Clo.mono hK rfl) hs0)) ?_
  exact fun _ h => nomatch h

theorem innerBegin_sat (pkg : PkgInfo) (c : Cmd) (s : State) (hK : Clo 0x47c118 P) (hs0 : Sat P s) : ∀ t,
    innerBegin pkg c s = some t → Sat P t.2.2.2 := by
  intro t e
  have h {o : Option Answer} {st : Nat} {d : Nat} (e : (o.map fun _ => (st, d, [], s)) = some t) : Sat P t.2.2.2 := by
    rw [Option.map_eq_some_iff] at e
    obtain ⟨_, _, rfl⟩ := e
    exact hs0
  unfold innerBegin at e; dsimp only at e
  split at e
  · exact h e
  · split at e
    · exact h e
    · exact innerOp_sat _ _ _ (Clo.mono hK rfl) hs0 _ e

theorem mirrorOp_sat (pkg : PkgInfo) (c : Cmd) (s : State) (hK : Clo 0x47c118 P) (hs0 : Sat P s) :
    Sat P (mirrorOp pkg c s) := by
  unfold mirrorOp; dsimp only
  split
  · exact finish_sat _ _ _ _ _ (Clo.mono hK rfl) hs0
  · rename_i e
    have h := innerBegin_sat _ _ _ (Clo.mono hK rfl) hs0 _ e
    refine Sat_ite ?_ ?_
    · exact answer_sat _ _ (Clo.mono hK rfl) (reserved_sat _ _ hs0)
    · exact finish_sat _ _ _ _ _ (Clo.mono hK rfl) h

theorem execMirrorCmd_sat (p : Nat) (pkg : PkgInfo) (s : State) (hK : Clo 0x47c118 P) (hs0 : Sat P s) :
    SatN P (execMirrorCmd p pkg s) := by
  unfold execMirrorCmd; (try dsimp only)
  repeat' (first | with_reducible assumption | ((with_reducible refine Clo.mono hK ?_); rfl)
                 | with_reducible intro _ | with_reducible apply mirrorOp_sat | with_reducible apply onWf_sat
                 | with_reducible apply takeCmd_sat | (simp only [SatN_next]))

/-! ### Links -/

theorem sendPlain_sat (s : State) (l ftype ctl : Nat) (hK : Clo 0x40000 P) (hs0 : Sat P s) :
    Sat P (sendPlain s l ftype ctl) := by
  unfold sendPlain; (try dsimp only)
  repeat' (first | with_reducible assumption | ((with_reducible refine Clo.mono hK ?_); rfl)
                 | with_reducible apply setLink_sat | with_reducible apply Sat_ite | split
                 | (refine snd_sat (by with_reducible assumption) ?_)
                 | (refine some_sat (by with_reducible assumption) ?_)
                 | (refine some2_sat (by with_reducible assumption) ?_) | dsimp only)

theorem frameC_sat (s : State) (k : Packet) (hK : Clo 0x40000 P) (hs0 : Sat P s) : Sat P (frameC s k) := by
  unfold frameC; (try dsimp only)
  repeat' (first | with_reducible assumption | ((with_reducible refine Clo.mono hK ?_); rfl)
                 | with_reducible intro _ | with_reducible apply modFabric_sat | with_reducible apply modLink_sat
                 | with_reducible apply Sat_id | (refine snd_sat (by with_reducible assumption) ?_)
                 | (refine some_sat (by with_reducible assumption) ?_)
                 | (refine some2_sat (by with_reducible assumption) ?_) | with_reducible apply SatO_map
                 | with_reducible apply SatO_map2 | with_reducible apply SatO2_mapO
                 | with_reducible apply SatO2_map2 | dsimp only)

theorem frameOut_sat (s : State) (hK : Clo 0x40118 P) (hs0 : Sat P s) : Sat P (frameOut s) := by
  unfold frameOut; (try dsimp only)
  repeat' (first | with_reducible assumption | ((with_reducible refine Clo.mono hK ?_); rfl)
                 | with_reducible intro _ | with_reducible apply Sat_foldl | with_reducible apply frameC_sat
                 | with_reducible apply sendMessage_sat | (simp only [Sat_mk]; refine clo_out hK rfl (Sat_fold ?_))
                 | (refine snd_sat (by with_reducible assumption) ?_)
                 | (refine some_sat (by with_reducible assumption) ?_)
                 | (refine some2_sat (by with_reducible assumption) ?_) | dsimp only)

theorem lostTxn_sat (s : State) (hK : Clo 0x40000 P) (hs0 : Sat P s) : Sat P (lostTxn s) := by
  unfold lostTxn; (try dsimp only)
  repeat' (first | with_reducible assumption | ((with_reducible refine Clo.mono hK ?_); rfl)
                 | with_reducible intro _ | with_reducible apply modFabric_sat | with_reducible apply noRoute_sat)

theorem routeOr_sat (s : State) (phase : Nat) (t : Txn) (hK : Clo 0x40000 P) (hs0 : Sat P s) :
    Sat P (routeOr s phase t) := by
  unfold routeOr; (try dsimp only)
  repeat' (first | with_reducible assumption | ((with_reducible refine Clo.mono hK ?_); rfl)
                 | with_reducible apply lostTxn_sat | with_reducible apply route_sat
                 | with_reducible apply Sat_getD)

theorem retryWaiting_sat (s : State) (hK : Clo 0x40000 P) (hs0 : Sat P s) : Sat P (retryWaiting s) := by
  unfold retryWaiting; (try dsimp only)
  repeat' (first | with_reducible assumption | ((with_reducible refine Clo.mono hK ?_); rfl)
                 | with_reducible intro _ | with_reducible apply Sat_foldl | with_reducible apply modFabric_sat
                 | with_reducible apply routeOr_sat | (refine snd_sat (by with_reducible assumption) ?_)
                 | (refine some_sat (by with_reducible assumption) ?_)
                 | (refine some2_sat (by with_reducible assumption) ?_) | dsimp only)

theorem takeAck_sat (s : State) (l aseq : Nat) (hK : Clo 0x40000 P) (hs0 : Sat P s) : Sat P (takeAck s l aseq) := by
  unfold takeAck; (try dsimp only)
  repeat' (first | with_reducible assumption | ((with_reducible refine Clo.mono hK ?_); rfl)
                 | with_reducible apply retryWaiting_sat | with_reducible apply setLink_sat
                 | with_reducible apply Sat_ite | split | (refine snd_sat (by with_reducible assumption) ?_)
                 | (refine some_sat (by with_reducible assumption) ?_)
                 | (refine some2_sat (by with_reducible assumption) ?_) | dsimp only)

theorem takeCred_sat (s : State) (l cred : Nat) (hK : Clo 0x40000 P) (hs0 : Sat P s) : Sat P (takeCred s l cred) := by
  unfold takeCred; (try dsimp only)
  repeat' (first | with_reducible assumption | ((with_reducible refine Clo.mono hK ?_); rfl)
                 | with_reducible intro _ | with_reducible apply modLink_sat)

theorem linkEvent_sat (s : State) (l cause disc : Nat) (hK : Clo 0x40018 P) (hs0 : Sat P s) :
    Sat P (linkEvent s l cause disc) := by
  unfold linkEvent; (try dsimp only)
  repeat' (first | with_reducible assumption | ((with_reducible refine Clo.mono hK ?_); rfl)
                 | with_reducible apply event_sat | with_reducible apply setLink_sat | with_reducible apply Sat_ite
                 | split | (refine snd_sat (by with_reducible assumption) ?_)
                 | (refine some_sat (by with_reducible assumption) ?_)
                 | (refine some2_sat (by with_reducible assumption) ?_) | dsimp only)

theorem iberaineEvent_sat (s : State) (ms : List Nat) (kind disc : Nat) (hK : Clo 0x18 P) (hs0 : Sat P s) :
    Sat P (iberaineEvent s ms kind disc) := by
  unfold iberaineEvent; (try dsimp only)
  repeat' (first | with_reducible assumption | ((with_reducible refine Clo.mono hK ?_); rfl)
                 | with_reducible apply event_sat)

theorem linkDown_sat (s : State) (l cause : Nat) (hK : Clo 0x40018 P) (hs0 : Sat P s) : Sat P (linkDown s l cause)
    := by
  unfold linkDown; (try dsimp only)
  repeat' (first | with_reducible assumption | ((with_reducible refine Clo.mono hK ?_); rfl)
                 | with_reducible intro _ | with_reducible apply iberaineEvent_sat
                 | with_reducible apply linkEvent_sat | with_reducible apply modLink_sat
                 | with_reducible apply sendPlain_sat | with_reducible apply setLink_sat
                 | with_reducible apply Sat_ite | split | (refine snd_sat (by with_reducible assumption) ?_)
                 | (refine some_sat (by with_reducible assumption) ?_)
                 | (refine some2_sat (by with_reducible assumption) ?_) | dsimp only)

theorem iberaineFlush_sat (s : State) (afterLoss : Bool) (hK : Clo 0x18 P) (hs0 : Sat P s) :
    Sat P (iberaineFlush s afterLoss) := by
  unfold iberaineFlush; (try dsimp only)
  repeat' (first | with_reducible assumption | ((with_reducible refine Clo.mono hK ?_); rfl)
                 | with_reducible apply iberaineEvent_sat | with_reducible apply Sat_ite | split
                 | (simp only [Sat_mk]; refine clo_out hK rfl (Sat_fold ?_))
                 | (refine snd_sat (by with_reducible assumption) ?_)
                 | (refine some_sat (by with_reducible assumption) ?_)
                 | (refine some2_sat (by with_reducible assumption) ?_) | dsimp only)

theorem replayAll_sat (s : State) (l : Nat) (hK : Clo 0x40000 P) (hs0 : Sat P s) : Sat P (replayAll s l) := by
  unfold replayAll; (try dsimp only)
  repeat' (first | with_reducible assumption | ((with_reducible refine Clo.mono hK ?_); rfl)
                 | with_reducible intro _ | with_reducible apply Sat_foldl | with_reducible apply modLink_sat
                 | with_reducible apply SatO_map | with_reducible apply SatO_map2 | with_reducible apply SatO2_mapO
                 | with_reducible apply SatO2_map2)

theorem linkUpNow_sat (s : State) (l ctl : Nat) (hK : Clo 0x40018 P) (hs0 : Sat P s) : Sat P (linkUpNow s l ctl) := by
  unfold linkUpNow; (try dsimp only)
  repeat' (first | with_reducible assumption | ((with_reducible refine Clo.mono hK ?_); rfl)
                 | with_reducible apply activate_sat | with_reducible apply iberaineFlush_sat
                 | with_reducible apply linkEvent_sat | with_reducible apply replayAll_sat
                 | with_reducible apply retryWaiting_sat | with_reducible apply sendPlain_sat
                 | with_reducible apply setLink_sat | with_reducible apply Sat_ite | split
                 | (refine snd_sat (by with_reducible assumption) ?_)
                 | (refine some_sat (by with_reducible assumption) ?_)
                 | (refine some2_sat (by with_reducible assumption) ?_) | dsimp only)

theorem enterActivate_sat (s : State) (l : Nat) (hK : Clo 0x40000 P) (hs0 : Sat P s) : Sat P (enterActivate s l) := by
  unfold enterActivate; (try dsimp only)
  repeat' (first | with_reducible assumption | ((with_reducible refine Clo.mono hK ?_); rfl)
                 | with_reducible intro _ | with_reducible apply activate_sat | with_reducible apply modLink_sat
                 | with_reducible apply sendPlain_sat | with_reducible apply Sat_ite | split
                 | (refine snd_sat (by with_reducible assumption) ?_)
                 | (refine some_sat (by with_reducible assumption) ?_)
                 | (refine some2_sat (by with_reducible assumption) ?_) | with_reducible apply SatO_map
                 | with_reducible apply SatO_map2 | with_reducible apply SatO2_mapO
                 | with_reducible apply SatO2_map2 | dsimp only)

theorem trainFail_sat (s : State) (l : Nat) (hK : Clo 0x40018 P) (hs0 : Sat P s) : Sat P (trainFail s l) := by
  unfold trainFail; (try dsimp only)
  repeat' (first | with_reducible assumption | ((with_reducible refine Clo.mono hK ?_); rfl)
                 | with_reducible intro _ | with_reducible apply linkEvent_sat | with_reducible apply modLink_sat)

theorem toState_sat (s : State) (l : Nat) (st : LinkState) (f : Link → Link) (hK : Clo 0x40000 P) (hs0 : Sat P s) :
    Sat P (toState s l st f) := by
  unfold toState; (try dsimp only)
  repeat' (first | with_reducible assumption | ((with_reducible refine Clo.mono hK ?_); rfl)
                 | with_reducible intro _ | with_reducible apply modLink_sat)

theorem statePass_sat (l : Nat) (info : TrainInfo) (s : State) (hK : Clo 0x40018 P) (hs0 : Sat P s) :
    Sat P (statePass l info s) := by
  unfold statePass; (try dsimp only)
  repeat' (first | with_reducible assumption | ((with_reducible refine Clo.mono hK ?_); rfl)
                 | with_reducible intro _ | with_reducible apply Sat_foldl | with_reducible apply Sat_elim
                 | with_reducible apply enterActivate_sat | with_reducible apply setLink_sat
                 | with_reducible apply toState_sat | with_reducible apply trainFail_sat
                 | with_reducible apply Sat_getD | with_reducible apply Sat_id | with_reducible apply Sat_ite
                 | split | (refine snd_sat (by with_reducible assumption) ?_)
                 | (refine some_sat (by with_reducible assumption) ?_)
                 | (refine some2_sat (by with_reducible assumption) ?_) | dsimp only)

theorem execLinkTrainStatePass_sat (l : Nat) (info : TrainInfo) (s : State) (hK : Clo 0x40018 P) (hs0 : Sat P s) :
    SatN P (execLinkTrainStatePass l info s) := by
  unfold execLinkTrainStatePass; (try dsimp only)
  repeat' (first | with_reducible assumption | ((with_reducible refine Clo.mono hK ?_); rfl)
                 | with_reducible intro _ | with_reducible apply onWf_sat | with_reducible apply statePass_sat
                 | (simp only [SatN_next]))

theorem execLinkTrainLimit_sat (l : Nat) (s : State) (hK : Clo 0x40018 P) (hs0 : Sat P s) :
    SatN P (execLinkTrainLimit l s) := by
  unfold execLinkTrainLimit; (try dsimp only)
  repeat' (first | with_reducible assumption | ((with_reducible refine Clo.mono hK ?_); rfl)
                 | with_reducible intro _ | with_reducible apply onWf_sat | with_reducible apply trainFail_sat
                 | with_reducible apply Sat_ite | split | (simp only [SatN_next])
                 | (refine snd_sat (by with_reducible assumption) ?_)
                 | (refine some_sat (by with_reducible assumption) ?_)
                 | (refine some2_sat (by with_reducible assumption) ?_) | dsimp only)

theorem sidebandSend_sat (l : Nat) (s : State) (hK : Clo 0x40000 P) (hs0 : Sat P s) : Sat P (sidebandSend l s) := by
  unfold sidebandSend; (try dsimp only)
  repeat' (first | with_reducible assumption | ((with_reducible refine Clo.mono hK ?_); rfl)
                 | with_reducible intro _ | with_reducible apply modFabric_sat | with_reducible apply setLink_sat
                 | with_reducible apply Sat_ite | split | (refine snd_sat (by with_reducible assumption) ?_)
                 | (refine some_sat (by with_reducible assumption) ?_)
                 | (refine some2_sat (by with_reducible assumption) ?_) | dsimp only)

theorem execSidebandSend_sat (l : Nat) (s : State) (hK : Clo 0x40000 P) (hs0 : Sat P s) :
    SatN P (execSidebandSend l s) := by
  unfold execSidebandSend; (try dsimp only)
  repeat' (first | with_reducible assumption | ((with_reducible refine Clo.mono hK ?_); rfl)
                 | with_reducible intro _ | with_reducible apply onWf_sat | with_reducible apply sidebandSend_sat
                 | (simp only [SatN_next]))

theorem sidebandRecv_sat (m : List Byte) (s : State) (hK : Clo 0x40000 P) (hs0 : Sat P s) : Sat P (sidebandRecv m s)
    := by
  unfold sidebandRecv; (try dsimp only)
  repeat' (first | with_reducible assumption | ((with_reducible refine Clo.mono hK ?_); rfl)
                 | with_reducible intro _ | with_reducible apply modFabric_sat | with_reducible apply modLink_sat
                 | with_reducible apply Sat_ite | split | (refine snd_sat (by with_reducible assumption) ?_)
                 | (refine some_sat (by with_reducible assumption) ?_)
                 | (refine some2_sat (by with_reducible assumption) ?_) | dsimp only)

theorem execSidebandRecv_sat (msg : List Byte) (s : State) (hK : Clo 0x40000 P) (hs0 : Sat P s) :
    SatN P (execSidebandRecv msg s) := by
  unfold execSidebandRecv; (try dsimp only)
  repeat' (first | with_reducible assumption | ((with_reducible refine Clo.mono hK ?_); rfl)
                 | with_reducible intro _ | with_reducible apply onWf_sat | with_reducible apply sidebandRecv_sat
                 | (simp only [SatN_next]))

theorem discardFrame_sat (s : State) (l : Nat) (hK : Clo 0x40000 P) (hs0 : Sat P s) : Sat P (discardFrame s l) := by
  unfold discardFrame; (try dsimp only)
  repeat' (first | with_reducible assumption | ((with_reducible refine Clo.mono hK ?_); rfl)
                 | with_reducible apply sendPlain_sat | with_reducible apply setLink_sat
                 | with_reducible apply Sat_ite | split | (refine snd_sat (by with_reducible assumption) ?_)
                 | (refine some_sat (by with_reducible assumption) ?_)
                 | (refine some2_sat (by with_reducible assumption) ?_) | dsimp only)

theorem returnCredits_sat (s : State) (l ch n : Nat) (hK : Clo 0x40000 P) (hs0 : Sat P s) :
    Sat P (returnCredits s l ch n) := by
  unfold returnCredits; (try dsimp only)
  repeat' (first | with_reducible assumption | ((with_reducible refine Clo.mono hK ?_); rfl)
                 | with_reducible intro _ | with_reducible apply modLink_sat)

theorem startLapse_sat (s : State) (p : Nat) (hK : Clo 0x640158 P) (hs0 : Sat P s) : Sat P (startLapse s p) := by
  unfold startLapse; (try dsimp only)
  repeat' (first | with_reducible assumption | ((with_reducible refine Clo.mono hK ?_); rfl)
                 | with_reducible intro _ | with_reducible apply Sat_elim | with_reducible apply modPart_sat
                 | with_reducible apply recordFault_sat | with_reducible apply sendAcked_sat
                 | with_reducible apply Sat_id | with_reducible apply Sat_ite | split
                 | (refine snd_sat (by with_reducible assumption) ?_)
                 | (refine some_sat (by with_reducible assumption) ?_)
                 | (refine some2_sat (by with_reducible assumption) ?_) | dsimp only)

theorem badPair_sat (s : State) (p : Nat) (hK : Clo 0x640158 P) (hs0 : Sat P s) : Sat P (badPair s p) := by
  unfold badPair; (try dsimp only)
  repeat' (first | with_reducible assumption | ((with_reducible refine Clo.mono hK ?_); rfl)
                 | with_reducible intro _ | with_reducible apply modPart_sat | with_reducible apply startLapse_sat
                 | with_reducible apply Sat_ite | split)

theorem deliverTxn_sat (s : State) (t : Txn) (hK : Clo 0x640158 P) (hs0 : Sat P s) : Sat P (deliverTxn s t) := by
  unfold deliverTxn; (try dsimp only)
  repeat' (first | with_reducible assumption | ((with_reducible refine Clo.mono hK ?_); rfl)
                 | with_reducible apply badPair_sat | with_reducible apply ingress_sat
                 | with_reducible apply Sat_ite | split | (refine snd_sat (by with_reducible assumption) ?_)
                 | (refine some_sat (by with_reducible assumption) ?_)
                 | (refine some2_sat (by with_reducible assumption) ?_) | dsimp only)

theorem arrived_sat (s : State) (l ch : Nat) (bs : List Byte) (hK : Clo 0x640158 P) (hs0 : Sat P s) :
    Sat P (arrived s l ch bs) := by
  unfold arrived; (try dsimp only)
  repeat' (first | with_reducible assumption | ((with_reducible refine Clo.mono hK ?_); rfl)
                 | with_reducible intro _ | with_reducible apply countFabric_sat
                 | with_reducible apply deliverTxn_sat | with_reducible apply ingress_sat
                 | with_reducible apply modFabric_sat | with_reducible apply returnCredits_sat
                 | with_reducible apply Sat_ite | split | (refine snd_sat (by with_reducible assumption) ?_)
                 | (refine some_sat (by with_reducible assumption) ?_)
                 | (refine some2_sat (by with_reducible assumption) ?_) | dsimp only)

theorem queueFrame_sat (s : State) (l : Nat) (f : List Byte) (t : Txn) (hK : Clo 0x40000 P) (hs0 : Sat P s) :
    Sat P (queueFrame s l f t) := by
  unfold queueFrame; (try dsimp only)
  repeat' (first | with_reducible assumption | ((with_reducible refine Clo.mono hK ?_); rfl)
                 | with_reducible intro _ | with_reducible apply modFabric_sat | with_reducible apply modLink_sat
                 | with_reducible apply Sat_ite | split | (refine snd_sat (by with_reducible assumption) ?_)
                 | (refine some_sat (by with_reducible assumption) ?_)
                 | (refine some2_sat (by with_reducible assumption) ?_) | dsimp only)

theorem gatherFrame_sat (s : State) (l : Nat) (f : List Byte) (hK : Clo 0x640158 P) (hs0 : Sat P s) :
    Sat P (gatherFrame s l f) := by
  unfold gatherFrame; (try dsimp only)
  repeat' (first | with_reducible assumption | ((with_reducible refine Clo.mono hK ?_); rfl)
                 | with_reducible intro _ | with_reducible apply arrived_sat | with_reducible apply modFabric_sat
                 | with_reducible apply modLink_sat | with_reducible apply Sat_ite | split
                 | (refine snd_sat (by with_reducible assumption) ?_)
                 | (refine some_sat (by with_reducible assumption) ?_)
                 | (refine some2_sat (by with_reducible assumption) ?_) | dsimp only)

theorem acceptFrame_sat (s : State) (l : Nat) (f : List Byte) (hK : Clo 0x640158 P) (hs0 : Sat P s) :
    Sat P (acceptFrame s l f) := by
  unfold acceptFrame; (try dsimp only)
  repeat' (first | with_reducible assumption | ((with_reducible refine Clo.mono hK ?_); rfl)
                 | with_reducible intro _ | with_reducible apply gatherFrame_sat | with_reducible apply modLink_sat
                 | with_reducible apply queueFrame_sat | with_reducible apply takeCred_sat | split
                 | (refine snd_sat (by with_reducible assumption) ?_)
                 | (refine some_sat (by with_reducible assumption) ?_)
                 | (refine some2_sat (by with_reducible assumption) ?_) | dsimp only)

theorem dataRecv_sat (l : Nat) (lanes : List (List Byte)) (s : State) (hK : Clo 0x640158 P) (hs0 : Sat P s) :
    Sat P (dataRecv l lanes s) := by
  unfold dataRecv; (try dsimp only)
  repeat' (first | with_reducible assumption | ((with_reducible refine Clo.mono hK ?_); rfl)
                 | with_reducible apply acceptFrame_sat | with_reducible apply discardFrame_sat
                 | with_reducible apply takeAck_sat | with_reducible apply Sat_ite | split
                 | (refine snd_sat (by with_reducible assumption) ?_)
                 | (refine some_sat (by with_reducible assumption) ?_)
                 | (refine some2_sat (by with_reducible assumption) ?_) | dsimp only)

theorem execDataFrameRecv_sat (l : Nat) (lanes : List (List Byte)) (s : State) (hK : Clo 0x640158 P) (hs0 : Sat P s)
    : SatN P (execDataFrameRecv l lanes s) := by
  unfold execDataFrameRecv; (try dsimp only)
  repeat' (first | with_reducible assumption | ((with_reducible refine Clo.mono hK ?_); rfl)
                 | with_reducible intro _ | with_reducible apply dataRecv_sat | with_reducible apply onWf_sat
                 | (simp only [SatN_next]))

theorem plainRecv_sat (l ftype : Nat) (lanes : List (List Byte)) (g : List Byte → State → State) (s : State)
    (hK : Clo 0x40000 P) (hg : ∀ x0 x1, Sat P x1 → Sat P (g x0 x1)) (hs0 : Sat P s) :
    Sat P (plainRecv l ftype lanes g s) := by
  unfold plainRecv; (try dsimp only)
  repeat' (first | with_reducible assumption | ((with_reducible refine Clo.mono hK ?_); rfl)
                 | with_reducible intro _ | with_reducible apply activate_sat | with_reducible apply takeAck_sat
                 | with_reducible apply takeCred_sat | with_reducible apply hg | with_reducible apply Sat_ite
                 | split | (refine snd_sat (by with_reducible assumption) ?_)
                 | (refine some_sat (by with_reducible assumption) ?_)
                 | (refine some2_sat (by with_reducible assumption) ?_) | dsimp only)

theorem execIdleFrameRecv_sat (l : Nat) (lanes : List (List Byte)) (s : State) (hK : Clo 0x40000 P) (hs0 : Sat P s)
    : SatN P (execIdleFrameRecv l lanes s) := by
  unfold execIdleFrameRecv; (try dsimp only)
  repeat' (first | with_reducible assumption | ((with_reducible refine Clo.mono hK ?_); rfl)
                 | with_reducible intro _ | with_reducible apply onWf_sat | with_reducible apply plainRecv_sat
                 | with_reducible apply Sat_id | (simp only [SatN_next]))

theorem nakRecv_sat (l exp : Nat) (s : State) (hK : Clo 0x40018 P) (hs0 : Sat P s) : Sat P (nakRecv l exp s) := by
  unfold nakRecv; (try dsimp only)
  repeat' (first | with_reducible assumption | ((with_reducible refine Clo.mono hK ?_); rfl)
                 | with_reducible apply linkDown_sat | with_reducible apply replayAll_sat
                 | with_reducible apply setLink_sat | with_reducible apply takeAck_sat
                 | with_reducible apply Sat_ite | split | (refine snd_sat (by with_reducible assumption) ?_)
                 | (refine some_sat (by with_reducible assumption) ?_)
                 | (refine some2_sat (by with_reducible assumption) ?_) | dsimp only)

theorem execNakFrameRecv_sat (l : Nat) (lanes : List (List Byte)) (s : State) (hK : Clo 0x40018 P) (hs0 : Sat P s) :
    SatN P (execNakFrameRecv l lanes s) := by
  unfold execNakFrameRecv; (try dsimp only)
  repeat' (first | with_reducible assumption | ((with_reducible refine Clo.mono hK ?_); rfl)
                 | with_reducible intro _ | with_reducible apply nakRecv_sat | with_reducible apply onWf_sat
                 | with_reducible apply plainRecv_sat | (simp only [SatN_next]))

theorem retireLane_sat (s : State) (l lane : Nat) (hK : Clo 0x40018 P) (hs0 : Sat P s) : Sat P (retireLane s l lane)
    := by
  unfold retireLane; (try dsimp only)
  repeat' (first | with_reducible assumption | ((with_reducible refine Clo.mono hK ?_); rfl)
                 | with_reducible intro _ | with_reducible apply Sat_elim | with_reducible apply linkDown_sat
                 | with_reducible apply sendPlain_sat | with_reducible apply setLink_sat
                 | with_reducible apply Sat_ite | split | (refine snd_sat (by with_reducible assumption) ?_)
                 | (refine some_sat (by with_reducible assumption) ?_)
                 | (refine some2_sat (by with_reducible assumption) ?_) | dsimp only)

theorem execLaneLockLoss_sat (l lane : Nat) (s : State) (hK : Clo 0x40018 P) (hs0 : Sat P s) :
    SatN P (execLaneLockLoss l lane s) := by
  unfold execLaneLockLoss; (try dsimp only)
  repeat' (first | with_reducible assumption | ((with_reducible refine Clo.mono hK ?_); rfl)
                 | with_reducible intro _ | with_reducible apply onWf_sat | with_reducible apply retireLane_sat
                 | split | (simp only [SatN_next]))

theorem execLaneErrorInterval_sat (l lane corrected symbols : Nat) (s : State) (hK : Clo 0x40018 P) (hs0 : Sat P s)
    : SatN P (execLaneErrorInterval l lane corrected symbols s) := by
  unfold execLaneErrorInterval; (try dsimp only)
  repeat' (first | with_reducible assumption | ((with_reducible refine Clo.mono hK ?_); rfl)
                 | with_reducible intro _ | with_reducible apply modLink_sat | with_reducible apply onWf_sat
                 | with_reducible apply retireLane_sat | with_reducible apply Sat_ite | split
                 | (simp only [SatN_next]) | (refine snd_sat (by with_reducible assumption) ?_)
                 | (refine some_sat (by with_reducible assumption) ?_)
                 | (refine some2_sat (by with_reducible assumption) ?_) | dsimp only)

theorem swapRecv_sat (l ctl : Nat) (s : State) (hK : Clo 0x40000 P) (hs0 : Sat P s) : Sat P (swapRecv l ctl s) := by
  unfold swapRecv; (try dsimp only)
  repeat' (first | with_reducible assumption | ((with_reducible refine Clo.mono hK ?_); rfl)
                 | with_reducible apply sendPlain_sat | with_reducible apply setLink_sat
                 | with_reducible apply Sat_ite | split | (refine snd_sat (by with_reducible assumption) ?_)
                 | (refine some_sat (by with_reducible assumption) ?_)
                 | (refine some2_sat (by with_reducible assumption) ?_) | dsimp only)

theorem execLaneSwapFrameRecv_sat (l : Nat) (lanes : List (List Byte)) (s : State) (hK : Clo 0x40000 P) (hs0 :
    Sat P s) : SatN P (execLaneSwapFrameRecv l lanes s) := by
  unfold execLaneSwapFrameRecv; (try dsimp only)
  repeat' (first | with_reducible assumption | ((with_reducible refine Clo.mono hK ?_); rfl)
                 | with_reducible intro _ | with_reducible apply onWf_sat | with_reducible apply plainRecv_sat
                 | with_reducible apply swapRecv_sat | (simp only [SatN_next]))

theorem swapEffect_sat (l : Nat) (s : State) (hK : Clo 0x40000 P) (hs0 : Sat P s) : Sat P (swapEffect l s) := by
  unfold swapEffect; (try dsimp only)
  repeat' (first | with_reducible assumption | ((with_reducible refine Clo.mono hK ?_); rfl)
                 | with_reducible intro _ | with_reducible apply setLink_sat | with_reducible apply Sat_ite | split
                 | (refine snd_sat (by with_reducible assumption) ?_)
                 | (refine some_sat (by with_reducible assumption) ?_)
                 | (refine some2_sat (by with_reducible assumption) ?_) | dsimp only)

theorem execLaneSwapEffect_sat (l : Nat) (s : State) (hK : Clo 0x40000 P) (hs0 : Sat P s) :
    SatN P (execLaneSwapEffect l s) := by
  unfold execLaneSwapEffect; (try dsimp only)
  repeat' (first | with_reducible assumption | ((with_reducible refine Clo.mono hK ?_); rfl)
                 | with_reducible intro _ | with_reducible apply onWf_sat | with_reducible apply swapEffect_sat
                 | split | (simp only [SatN_next]))

theorem linkUpRecv_sat (l : Nat) (lanes : List (List Byte)) (s : State) (hK : Clo 0x40018 P) (hs0 : Sat P s) :
    Sat P (linkUpRecv l lanes s) := by
  unfold linkUpRecv; (try dsimp only)
  repeat' (first | with_reducible assumption | ((with_reducible refine Clo.mono hK ?_); rfl)
                 | with_reducible apply activate_sat | with_reducible apply linkUpNow_sat
                 | with_reducible apply Sat_ite | split | (refine snd_sat (by with_reducible assumption) ?_)
                 | (refine some_sat (by with_reducible assumption) ?_)
                 | (refine some2_sat (by with_reducible assumption) ?_) | dsimp only)

theorem execLinkUpFrameRecv_sat (l : Nat) (lanes : List (List Byte)) (s : State) (hK : Clo 0x40018 P) (hs0 :
    Sat P s) : SatN P (execLinkUpFrameRecv l lanes s) := by
  unfold execLinkUpFrameRecv; (try dsimp only)
  repeat' (first | with_reducible assumption | ((with_reducible refine Clo.mono hK ?_); rfl)
                 | with_reducible intro _ | with_reducible apply linkUpRecv_sat | with_reducible apply onWf_sat
                 | (simp only [SatN_next]))

theorem execAckProgressTimeout_sat (l : Nat) (s : State) (hK : Clo 0x40018 P) (hs0 : Sat P s) :
    SatN P (execAckProgressTimeout l s) := by
  unfold execAckProgressTimeout; (try dsimp only)
  repeat' (first | with_reducible assumption | ((with_reducible refine Clo.mono hK ?_); rfl)
                 | with_reducible intro _ | with_reducible apply linkDown_sat | with_reducible apply onWf_sat
                 | with_reducible apply Sat_ite | split | (simp only [SatN_next])
                 | (refine snd_sat (by with_reducible assumption) ?_)
                 | (refine some_sat (by with_reducible assumption) ?_)
                 | (refine some2_sat (by with_reducible assumption) ?_) | dsimp only)

theorem execCodewordAlignmentLoss_sat (l : Nat) (s : State) (hK : Clo 0x40018 P) (hs0 : Sat P s) :
    SatN P (execCodewordAlignmentLoss l s) := by
  unfold execCodewordAlignmentLoss; (try dsimp only)
  repeat' (first | with_reducible assumption | ((with_reducible refine Clo.mono hK ?_); rfl)
                 | with_reducible intro _ | with_reducible apply linkDown_sat | with_reducible apply onWf_sat
                 | split | (simp only [SatN_next]))

theorem leaveForward_sat (s : State) (l : Nat) (txq : Tab (List (List Byte))) (hK : Clo 0x40000 P) (hs0 : Sat P s) :
    Sat P (leaveForward s l txq) := by
  unfold leaveForward; (try dsimp only)
  repeat' (first | with_reducible assumption | ((with_reducible refine Clo.mono hK ?_); rfl)
                 | with_reducible intro _ | with_reducible apply Sat_elim | with_reducible apply modFabric_sat
                 | with_reducible apply Sat_ite | split | (refine snd_sat (by with_reducible assumption) ?_)
                 | (refine some_sat (by with_reducible assumption) ?_)
                 | (refine some2_sat (by with_reducible assumption) ?_) | with_reducible apply SatO_map
                 | with_reducible apply SatO_map2 | with_reducible apply SatO2_mapO
                 | with_reducible apply SatO2_map2 | dsimp only)

theorem leavePort_sat (s : State) (l : Nat) (hK : Clo 0x40018 P) (hs0 : Sat P s) : Sat P (leavePort s l) := by
  unfold leavePort; (try dsimp only)
  repeat' (first | with_reducible assumption | ((with_reducible refine Clo.mono hK ?_); rfl)
                 | with_reducible intro _ | with_reducible apply Sat_foldl | with_reducible apply leaveForward_sat
                 | with_reducible apply linkEvent_sat | with_reducible apply modFabric_sat
                 | with_reducible apply retryWaiting_sat | with_reducible apply routeOr_sat
                 | with_reducible apply setLink_sat | with_reducible apply Sat_ite | split
                 | (refine snd_sat (by with_reducible assumption) ?_)
                 | (refine some_sat (by with_reducible assumption) ?_)
                 | (refine some2_sat (by with_reducible assumption) ?_) | with_reducible apply SatO_map
                 | with_reducible apply SatO_map2 | with_reducible apply SatO2_mapO
                 | with_reducible apply SatO2_map2 | dsimp only)

theorem execFastRecoveryTimeout_sat (l : Nat) (s : State) (hK : Clo 0x40018 P) (hs0 : Sat P s) :
    SatN P (execFastRecoveryTimeout l s) := by
  unfold execFastRecoveryTimeout; (try dsimp only)
  repeat' (first | with_reducible assumption | ((with_reducible refine Clo.mono hK ?_); rfl)
                 | with_reducible intro _ | with_reducible apply leavePort_sat | with_reducible apply onWf_sat
                 | with_reducible apply Sat_ite | split | (simp only [SatN_next])
                 | (refine snd_sat (by with_reducible assumption) ?_)
                 | (refine some_sat (by with_reducible assumption) ?_)
                 | (refine some2_sat (by with_reducible assumption) ?_) | dsimp only)

theorem transmit_sat (l ch : Nat) (s : State) (hK : Clo 0x40118 P) (hs0 : Sat P s) : Sat P (transmit l ch s) := by
  unfold transmit; (try dsimp only)
  repeat' (first | with_reducible assumption | ((with_reducible refine Clo.mono hK ?_); rfl)
                 | with_reducible apply frameOut_sat | with_reducible apply setLink_sat
                 | with_reducible apply Sat_ite | split | (refine snd_sat (by with_reducible assumption) ?_)
                 | (refine some_sat (by with_reducible assumption) ?_)
                 | (refine some2_sat (by with_reducible assumption) ?_) | dsimp only)

theorem execFrameTransmit_sat (l ch : Nat) (s : State) (hK : Clo 0x40118 P) (hs0 : Sat P s) :
    SatN P (execFrameTransmit l ch s) := by
  unfold execFrameTransmit; (try dsimp only)
  repeat' (first | with_reducible assumption | ((with_reducible refine Clo.mono hK ?_); rfl)
                 | with_reducible intro _ | with_reducible apply onWf_sat | with_reducible apply transmit_sat
                 | (simp only [SatN_next]))

theorem execIdleFrameTimer_sat (l : Nat) (s : State) (hK : Clo 0x40118 P) (hs0 : Sat P s) :
    SatN P (execIdleFrameTimer l s) := by
  unfold execIdleFrameTimer; (try dsimp only)
  repeat' (first | with_reducible assumption | ((with_reducible refine Clo.mono hK ?_); rfl)
                 | with_reducible intro _ | with_reducible apply activate_sat | with_reducible apply frameOut_sat
                 | with_reducible apply onWf_sat | with_reducible apply sendPlain_sat | with_reducible apply Sat_id
                 | with_reducible apply Sat_ite | split | (simp only [SatN_next])
                 | (refine snd_sat (by with_reducible assumption) ?_)
                 | (refine some_sat (by with_reducible assumption) ?_)
                 | (refine some2_sat (by with_reducible assumption) ?_) | dsimp only)

theorem forwardFrame_sat (s : State) (e : FwdFrame) (hK : Clo 0x40000 P) (hs0 : Sat P s) : Sat P (forwardFrame s e)
    := by
  unfold forwardFrame; (try dsimp only)
  repeat' (first | with_reducible assumption | ((with_reducible refine Clo.mono hK ?_); rfl)
                 | with_reducible intro _ | with_reducible apply lostTxn_sat | with_reducible apply modFabric_sat
                 | with_reducible apply modLink_sat | with_reducible apply retryWaiting_sat
                 | with_reducible apply returnCredits_sat | with_reducible apply Sat_ite | split
                 | (refine snd_sat (by with_reducible assumption) ?_)
                 | (refine some_sat (by with_reducible assumption) ?_)
                 | (refine some2_sat (by with_reducible assumption) ?_) | dsimp only)

theorem forwardTxn_sat (l : Nat) (s : State) (hK : Clo 0x40000 P) (hs0 : Sat P s) : Sat P (forwardTxn l s) := by
  unfold forwardTxn; (try dsimp only)
  repeat' (first | with_reducible assumption | ((with_reducible refine Clo.mono hK ?_); rfl)
                 | with_reducible apply forwardFrame_sat | split
                 | (refine snd_sat (by with_reducible assumption) ?_)
                 | (refine some_sat (by with_reducible assumption) ?_)
                 | (refine some2_sat (by with_reducible assumption) ?_) | dsimp only)

theorem execTransactionForward_sat (l : Nat) (s : State) (hK : Clo 0x40000 P) (hs0 : Sat P s) :
    SatN P (execTransactionForward l s) := by
  unfold execTransactionForward; (try dsimp only)
  repeat' (first | with_reducible assumption | ((with_reducible refine Clo.mono hK ?_); rfl)
                 | with_reducible intro _ | with_reducible apply forwardTxn_sat | with_reducible apply onWf_sat
                 | (simp only [SatN_next]))

end Sys2Proof.Machine
end

