-- ==== Sys2Proof/Laws/FramesArray.lean ====
section
/-! SUPPORT. What the shared operations and the rows keep: routers, steering, matrix units and the operand port (Laws/Frames.lean says how to read a lemma). -/

set_option linter.unusedSimpArgs false

open Sys2Proof

namespace Sys2Proof.Machine

variable {P : State → Prop}

/-! ### Router -/

theorem contextFault_sat (s : State) (t slot kind : Nat) (data : List Byte) (hK : Clo 0x66f75a P) (hs0 : Sat P s) :
    Sat P (contextFault s t slot kind data) := by
  unfold contextFault; (try dsimp only)
  repeat' (first | with_reducible assumption | ((with_reducible refine Clo.mono hK ?_); rfl)
                 | with_reducible intro _ | with_reducible apply modTile_sat | with_reducible apply tileFault_sat
                 | (refine snd_sat (by with_reducible assumption) ?_)
                 | (refine some_sat (by with_reducible assumption) ?_)
                 | (refine some2_sat (by with_reducible assumption) ?_) | dsimp only)

theorem tileStorage_sat (s : State) (t cfgid : Nat) (hK : Clo 0x66f75a P) (hs0 : Sat P s) :
    Sat P (tileStorage s t cfgid) := by
  unfold tileStorage; (try dsimp only)
  repeat' (first | with_reducible assumption | ((with_reducible refine Clo.mono hK ?_); rfl)
                 | with_reducible apply freeBytes_sat | with_reducible apply tileFault_sat
                 | (refine snd_sat (by with_reducible assumption) ?_)
                 | (refine some_sat (by with_reducible assumption) ?_)
                 | (refine some2_sat (by with_reducible assumption) ?_) | dsimp only)

theorem stalled_sat (s : State) (t slot : Nat) (hK : Clo 0x200 P) (hs0 : Sat P s) : Sat P (stalled s t slot) := by
  unfold stalled; (try dsimp only)
  repeat' (first | with_reducible assumption | ((with_reducible refine Clo.mono hK ?_); rfl)
                 | with_reducible intro _ | with_reducible apply Sat_elim | with_reducible apply setTile_sat
                 | with_reducible apply Sat_getD | with_reducible apply Sat_ite | split
                 | (refine snd_sat (by with_reducible assumption) ?_)
                 | (refine some_sat (by with_reducible assumption) ?_)
                 | (refine some2_sat (by with_reducible assumption) ?_) | dsimp only)

theorem sendHop_sat (s : State) (t inp out cfgid : Nat) (w : Chan) (hK : Clo 0x66f75a P) (hs0 : Sat P s) :
    Sat P (sendHop s t inp out cfgid w) := by
  unfold sendHop; (try dsimp only)
  repeat' (first | with_reducible assumption | ((with_reducible refine Clo.mono hK ?_); rfl)
                 | with_reducible intro _ | with_reducible apply modTile_sat | with_reducible apply tileFault_sat
                 | with_reducible apply Sat_ite | split | (refine snd_sat (by with_reducible assumption) ?_)
                 | (refine some_sat (by with_reducible assumption) ?_)
                 | (refine some2_sat (by with_reducible assumption) ?_) | dsimp only)

theorem outputGrant_sat (t inp lbl : Nat) (memOk : Bool) (s : State) (hK : Clo 0x66f75a P) (hs0 : Sat P s) :
    Sat P (outputGrant t inp lbl memOk s) := by
  unfold outputGrant; (try dsimp only)
  repeat' (first | with_reducible assumption | ((with_reducible refine Clo.mono hK ?_); rfl)
                 | with_reducible apply sendHop_sat | with_reducible apply setTile_sat
                 | with_reducible apply tileFault_sat | with_reducible apply tileStorage_sat
                 | with_reducible apply Sat_ite | split | (refine snd_sat (by with_reducible assumption) ?_)
                 | (refine some_sat (by with_reducible assumption) ?_)
                 | (refine some2_sat (by with_reducible assumption) ?_) | dsimp only)

theorem execRouterOutputGrant_sat (t inp lbl : Nat) (memOk : Bool) (s : State) (hK : Clo 0x66f75a P) (hs0 : Sat P s)
    : SatN P (execRouterOutputGrant t inp lbl memOk s) := by
  unfold execRouterOutputGrant; (try dsimp only)
  repeat' (first | with_reducible assumption | ((with_reducible refine Clo.mono hK ?_); rfl)
                 | with_reducible intro _ | with_reducible apply onWf_sat | with_reducible apply outputGrant_sat
                 | (simp only [SatN_next]))

theorem holdAt_sat (s : State) (t inp : Nat) (w : Chan) (hK : Clo 0x200 P) (hs0 : Sat P s) :
    Sat P (holdAt s t inp w) := by
  unfold holdAt; (try dsimp only)
  repeat' (first | with_reducible assumption | ((with_reducible refine Clo.mono hK ?_); rfl)
                 | with_reducible intro _ | with_reducible apply modTile_sat)

theorem enter_sat (t inp : Nat) (chk : Ecc) (w : Chan) (s : State) (hK : Clo 0x66f75a P) (hs0 : Sat P s) :
    Sat P (enter t inp chk w s) := by
  unfold enter; (try dsimp only)
  repeat' (first | with_reducible assumption | ((with_reducible refine Clo.mono hK ?_); rfl)
                 | with_reducible intro _ | with_reducible apply holdAt_sat | with_reducible apply modVe_sat
                 | with_reducible apply setTile_sat | with_reducible apply tileFault_sat
                 | with_reducible apply Sat_getD | with_reducible apply Sat_ite | split
                 | (refine snd_sat (by with_reducible assumption) ?_)
                 | (refine some_sat (by with_reducible assumption) ?_)
                 | (refine some2_sat (by with_reducible assumption) ?_) | dsimp only)

theorem fromLatch_sat (t u out inp : Nat) (chk : Ecc) (s : State) (hK : Clo 0x66f75a P) (hs0 : Sat P s) :
    Sat P (fromLatch t u out inp chk s) := by
  unfold fromLatch; (try dsimp only)
  repeat' (first | with_reducible assumption | ((with_reducible refine Clo.mono hK ?_); rfl)
                 | with_reducible apply enter_sat | with_reducible apply setTile_sat | with_reducible apply Sat_ite
                 | split | (refine snd_sat (by with_reducible assumption) ?_)
                 | (refine some_sat (by with_reducible assumption) ?_)
                 | (refine some2_sat (by with_reducible assumption) ?_) | dsimp only)

theorem tokenArrival_sat (t src : Nat) (chk : Ecc) (s : State) (hK : Clo 0x66f75a P) (hs0 : Sat P s) :
    Sat P (tokenArrival t src chk s) := by
  unfold tokenArrival; (try dsimp only)
  repeat' (first | with_reducible assumption | ((with_reducible refine Clo.mono hK ?_); rfl)
                 | with_reducible intro _ | with_reducible apply enter_sat | with_reducible apply fromLatch_sat
                 | with_reducible apply setTile_sat | with_reducible apply Sat_ite | split
                 | (simp only [Sat_mk]; refine clo_injectOut hK rfl (Sat_fold ?_))
                 | (refine snd_sat (by with_reducible assumption) ?_)
                 | (refine some_sat (by with_reducible assumption) ?_)
                 | (refine some2_sat (by with_reducible assumption) ?_) | dsimp only)

theorem execRouterTokenArrival_sat (t src : Nat) (chk : Ecc) (s : State) (hK : Clo 0x66f75a P) (hs0 : Sat P s) :
    SatN P (execRouterTokenArrival t src chk s) := by
  unfold execRouterTokenArrival; (try dsimp only)
  repeat' (first | with_reducible assumption | ((with_reducible refine Clo.mono hK ?_); rfl)
                 | with_reducible intro _ | with_reducible apply onWf_sat | with_reducible apply tokenArrival_sat
                 | (simp only [SatN_next]))

theorem badConfig_sat (s : State) (t : Nat) (w : Chan) (hK : Clo 0x66f75a P) (hs0 : Sat P s) :
    Sat P (badConfig s t w) := by
  unfold badConfig; (try dsimp only)
  repeat' (first | with_reducible assumption | ((with_reducible refine Clo.mono hK ?_); rfl)
                 | with_reducible intro _ | with_reducible apply modTile_sat | with_reducible apply tileFault_sat
                 | with_reducible apply Sat_ite | split)

theorem configWrite_sat (t inp : Nat) (s : State) (hK : Clo 0x66f75a P) (hs0 : Sat P s) :
    Sat P (configWrite t inp s) := by
  unfold configWrite; (try dsimp only)
  repeat' (first | with_reducible assumption | ((with_reducible refine Clo.mono hK ?_); rfl)
                 | with_reducible apply badConfig_sat | with_reducible apply holdAt_sat
                 | with_reducible apply setTile_sat | with_reducible apply tileFault_sat
                 | with_reducible apply Sat_ite | split | (refine snd_sat (by with_reducible assumption) ?_)
                 | (refine some_sat (by with_reducible assumption) ?_)
                 | (refine some2_sat (by with_reducible assumption) ?_) | dsimp only)

theorem execConfigTokenWrite_sat (t inp : Nat) (s : State) (hK : Clo 0x66f75a P) (hs0 : Sat P s) :
    SatN P (execConfigTokenWrite t inp s) := by
  unfold execConfigTokenWrite; (try dsimp only)
  repeat' (first | with_reducible assumption | ((with_reducible refine Clo.mono hK ?_); rfl)
                 | with_reducible intro _ | with_reducible apply configWrite_sat | with_reducible apply onWf_sat
                 | (simp only [SatN_next]))

theorem injectorSend_sat (p j : Nat) (s : State) (hK : Clo 0x2100 P) (hs0 : Sat P s) : Sat P (injectorSend p j s)
    := by
  unfold injectorSend; (try dsimp only)
  repeat' (first | with_reducible assumption | ((with_reducible refine Clo.mono hK ?_); rfl)
                 | with_reducible intro _ | with_reducible apply modPart_sat | with_reducible apply Sat_ite | split
                 | (simp only [Sat_mk]; refine clo_injectOut hK rfl (Sat_fold ?_))
                 | (refine snd_sat (by with_reducible assumption) ?_)
                 | (refine some_sat (by with_reducible assumption) ?_)
                 | (refine some2_sat (by with_reducible assumption) ?_) | dsimp only)

theorem execInjectorSend_sat (p j : Nat) (s : State) (hK : Clo 0x2100 P) (hs0 : Sat P s) :
    SatN P (execInjectorSend p j s) := by
  unfold execInjectorSend; (try dsimp only)
  repeat' (first | with_reducible assumption | ((with_reducible refine Clo.mono hK ?_); rfl)
                 | with_reducible intro _ | with_reducible apply injectorSend_sat | with_reducible apply onWf_sat
                 | (simp only [SatN_next]))

theorem execTileEpochSwitch_sat (t : Nat) (s : State) (hK : Clo 0x200 P) (hs0 : Sat P s) :
    SatN P (execTileEpochSwitch t s) := by
  unfold execTileEpochSwitch; (try dsimp only)
  repeat' (first | with_reducible assumption | ((with_reducible refine Clo.mono hK ?_); rfl)
                 | with_reducible intro _ | with_reducible apply Sat_elim | with_reducible apply modTile_sat
                 | with_reducible apply onWf_sat | split | (simp only [SatN_next]))

theorem deliver_sat (s : State) (t slot role : Nat) (w : Chan) (took : State → State) (hK : Clo 0x66f75a P)
    (htook : ∀ x0, Sat P x0 → Sat P (took x0)) (hs0 : Sat P s) : Sat P (deliver s t slot role w took) := by
  unfold deliver; (try dsimp only)
  repeat' (first | with_reducible assumption | ((with_reducible refine Clo.mono hK ?_); rfl)
                 | with_reducible intro _ | with_reducible apply modTile_sat | with_reducible apply tileFault_sat
                 | with_reducible apply htook | with_reducible apply Sat_ite | split
                 | (refine snd_sat (by with_reducible assumption) ?_)
                 | (refine some_sat (by with_reducible assumption) ?_)
                 | (refine some2_sat (by with_reducible assumption) ?_) | dsimp only)

theorem deliverVe_sat (b lane : Nat) (i : PortItem) (s : State) (hK : Clo 0x66f75a P) (hs0 : Sat P s) :
    Sat P (deliverVe b lane i s) := by
  unfold deliverVe; (try dsimp only)
  repeat' (first | with_reducible assumption | ((with_reducible refine Clo.mono hK ?_); rfl)
                 | with_reducible intro _ | with_reducible apply deliver_sat | with_reducible apply modTile_sat
                 | with_reducible apply modVe_sat | split | (refine snd_sat (by with_reducible assumption) ?_)
                 | (refine some_sat (by with_reducible assumption) ?_)
                 | (refine some2_sat (by with_reducible assumption) ?_) | dsimp only)

theorem feedTook_sat (p idx : Nat) (s : State) (hK : Clo 0x20100 P) (hs0 : Sat P s) : Sat P (feedTook p idx s) := by
  unfold feedTook; (try dsimp only)
  repeat' (first | with_reducible assumption | ((with_reducible refine Clo.mono hK ?_); rfl)
                 | with_reducible intro _ | with_reducible apply dropActive_sat | with_reducible apply issued_sat
                 | with_reducible apply modActive_sat | with_reducible apply nextFrame_sat
                 | with_reducible apply Sat_id | with_reducible apply Sat_ite | split
                 | (refine snd_sat (by with_reducible assumption) ?_)
                 | (refine some_sat (by with_reducible assumption) ?_)
                 | (refine some2_sat (by with_reducible assumption) ?_) | dsimp only)

theorem deliverStream_sat (p : Nat) (a : Active) (s : State) (hK : Clo 0x66f75a P) (hs0 : Sat P s) :
    Sat P (deliverStream p a s) := by
  unfold deliverStream; (try dsimp only)
  repeat' (first | with_reducible assumption | ((with_reducible refine Clo.mono hK ?_); rfl)
                 | with_reducible intro _ | with_reducible apply deliver_sat | with_reducible apply dropActive_sat
                 | with_reducible apply feedTook_sat | with_reducible apply Sat_id | with_reducible apply Sat_ite
                 | split | (refine snd_sat (by with_reducible assumption) ?_)
                 | (refine some_sat (by with_reducible assumption) ?_)
                 | (refine some2_sat (by with_reducible assumption) ?_) | dsimp only)

theorem portDelivery_sat (b lane : Nat) (s : State) (hK : Clo 0x66f75a P) (hs0 : Sat P s) :
    Sat P (portDelivery b lane s) := by
  unfold portDelivery; (try dsimp only)
  repeat' (first | with_reducible assumption | ((with_reducible refine Clo.mono hK ?_); rfl)
                 | with_reducible intro _ | with_reducible apply Sat_elim | with_reducible apply deliverStream_sat
                 | with_reducible apply deliverVe_sat | with_reducible apply Sat_ite | split
                 | (refine snd_sat (by with_reducible assumption) ?_)
                 | (refine some_sat (by with_reducible assumption) ?_)
                 | (refine some2_sat (by with_reducible assumption) ?_) | dsimp only)

theorem execOperandPortDelivery_sat (b lane : Nat) (s : State) (hK : Clo 0x66f75a P) (hs0 : Sat P s) :
    SatN P (execOperandPortDelivery b lane s) := by
  unfold execOperandPortDelivery; (try dsimp only)
  repeat' (first | with_reducible assumption | ((with_reducible refine Clo.mono hK ?_); rfl)
                 | with_reducible intro _ | with_reducible apply onWf_sat | with_reducible apply portDelivery_sat
                 | (simp only [SatN_next]))

theorem watchdogExpiry_sat (site : WatchSite) (s : State) (hK : Clo 0x66f75a P) (hs0 : Sat P s) :
    Sat P (watchdogExpiry site s) := by
  unfold watchdogExpiry; (try dsimp only)
  repeat' (first | with_reducible assumption | ((with_reducible refine Clo.mono hK ?_); rfl)
                 | with_reducible intro _ | with_reducible apply setTile_sat | with_reducible apply setVe_sat
                 | with_reducible apply tileFault_sat | with_reducible apply veFault_sat
                 | with_reducible apply Sat_ite | split | (refine snd_sat (by with_reducible assumption) ?_)
                 | (refine some_sat (by with_reducible assumption) ?_)
                 | (refine some2_sat (by with_reducible assumption) ?_) | with_reducible apply SatO_map
                 | with_reducible apply SatO_map2 | with_reducible apply SatO2_mapO
                 | with_reducible apply SatO2_map2 | dsimp only)

theorem execHandshakeWatchdogExpiry_sat (site : WatchSite) (s : State) (hK : Clo 0x66f75a P) (hs0 : Sat P s) :
    SatN P (execHandshakeWatchdogExpiry site s) := by
  unfold execHandshakeWatchdogExpiry; (try dsimp only)
  repeat' (first | with_reducible assumption | ((with_reducible refine Clo.mono hK ?_); rfl)
                 | with_reducible intro _ | with_reducible apply onWf_sat | with_reducible apply watchdogExpiry_sat
                 | (simp only [SatN_next]))

/-! ### Steering -/

theorem forkCopy_sat (s : State) (t slot j n : Nat) (w : Chan) (act : Nat) (hK : Clo 0x200 P) (hs0 : Sat P s) :
    Sat P (forkCopy s t slot j n w act) := by
  unfold forkCopy; (try dsimp only)
  repeat' (first | with_reducible assumption | ((with_reducible refine Clo.mono hK ?_); rfl)
                 | with_reducible intro _ | with_reducible apply Sat_foldl | with_reducible apply setTile_sat
                 | with_reducible apply stalled_sat | with_reducible apply Sat_ite | split
                 | (refine snd_sat (by with_reducible assumption) ?_)
                 | (refine some_sat (by with_reducible assumption) ?_)
                 | (refine some2_sat (by with_reducible assumption) ?_) | dsimp only)

theorem fire_sat (s : State) (t slot : Nat) (arbP : Bool) (hK : Clo 0x66f75a P) (hs0 : Sat P s) :
    Sat P (fire s t slot arbP) := by
  unfold fire; (try dsimp only)
  repeat' (first | with_reducible assumption | ((with_reducible refine Clo.mono hK ?_); rfl)
                 | with_reducible intro _ | with_reducible apply Sat_foldl | with_reducible apply contextFault_sat
                 | with_reducible apply forkCopy_sat | with_reducible apply setTile_sat
                 | with_reducible apply stalled_sat | with_reducible apply Sat_ite | split
                 | (refine snd_sat (by with_reducible assumption) ?_)
                 | (refine some_sat (by with_reducible assumption) ?_)
                 | (refine some2_sat (by with_reducible assumption) ?_) | with_reducible apply SatO_map
                 | with_reducible apply SatO_map2 | with_reducible apply SatO2_mapO
                 | with_reducible apply SatO2_map2 | dsimp only)

theorem steeringFiring_sat (t slot : Nat) (arbP : Bool) (s : State) (hK : Clo 0x66f75a P) (hs0 : Sat P s) :
    Sat P (steeringFiring t slot arbP s) := by
  unfold steeringFiring; (try dsimp only)
  repeat' (first | with_reducible assumption | ((with_reducible refine Clo.mono hK ?_); rfl)
                 | with_reducible intro _ | with_reducible apply contextFault_sat | with_reducible apply fire_sat
                 | with_reducible apply forkCopy_sat | with_reducible apply setTile_sat
                 | with_reducible apply stalled_sat | with_reducible apply Sat_ite | split
                 | (refine snd_sat (by with_reducible assumption) ?_)
                 | (refine some_sat (by with_reducible assumption) ?_)
                 | (refine some2_sat (by with_reducible assumption) ?_) | dsimp only)

theorem execSteeringFiring_sat (t slot : Nat) (arbP : Bool) (s : State) (hK : Clo 0x66f75a P) (hs0 : Sat P s) :
    SatN P (execSteeringFiring t slot arbP s) := by
  unfold execSteeringFiring; (try dsimp only)
  repeat' (first | with_reducible assumption | ((with_reducible refine Clo.mono hK ?_); rfl)
                 | with_reducible intro _ | with_reducible apply onWf_sat | with_reducible apply steeringFiring_sat
                 | (simp only [SatN_next]))

theorem counterStart_sat (t slot : Nat) (s : State) (hK : Clo 0x66f75a P) (hs0 : Sat P s) :
    Sat P (counterStart t slot s) := by
  unfold counterStart; (try dsimp only)
  repeat' (first | with_reducible assumption | ((with_reducible refine Clo.mono hK ?_); rfl)
                 | with_reducible intro _ | with_reducible apply contextFault_sat | with_reducible apply setTile_sat
                 | with_reducible apply Sat_ite | split | (refine snd_sat (by with_reducible assumption) ?_)
                 | (refine some_sat (by with_reducible assumption) ?_)
                 | (refine some2_sat (by with_reducible assumption) ?_) | dsimp only)

theorem execCounterRunStart_sat (t slot : Nat) (s : State) (hK : Clo 0x66f75a P) (hs0 : Sat P s) :
    SatN P (execCounterRunStart t slot s) := by
  unfold execCounterRunStart; (try dsimp only)
  repeat' (first | with_reducible assumption | ((with_reducible refine Clo.mono hK ?_); rfl)
                 | with_reducible intro _ | with_reducible apply counterStart_sat | with_reducible apply onWf_sat
                 | (simp only [SatN_next]))

theorem counterEmit_sat (t slot : Nat) (s : State) (hK : Clo 0x200 P) (hs0 : Sat P s) : Sat P (counterEmit t slot s)
    := by
  unfold counterEmit; (try dsimp only)
  repeat' (first | with_reducible assumption | ((with_reducible refine Clo.mono hK ?_); rfl)
                 | with_reducible intro _ | with_reducible apply setTile_sat | with_reducible apply stalled_sat
                 | with_reducible apply Sat_ite | split | (refine snd_sat (by with_reducible assumption) ?_)
                 | (refine some_sat (by with_reducible assumption) ?_)
                 | (refine some2_sat (by with_reducible assumption) ?_) | dsimp only)

theorem execCounterEmit_sat (t slot : Nat) (s : State) (hK : Clo 0x200 P) (hs0 : Sat P s) :
    SatN P (execCounterEmit t slot s) := by
  unfold execCounterEmit; (try dsimp only)
  repeat' (first | with_reducible assumption | ((with_reducible refine Clo.mono hK ?_); rfl)
                 | with_reducible intro _ | with_reducible apply counterEmit_sat | with_reducible apply onWf_sat
                 | (simp only [SatN_next]))

theorem moveWord_sat (t slot : Nat) (memOk : Bool) (s : State) (hK : Clo 0x66f75a P) (hs0 : Sat P s) :
    Sat P (moveWord t slot memOk s) := by
  unfold moveWord; (try dsimp only)
  repeat' (first | with_reducible assumption | ((with_reducible refine Clo.mono hK ?_); rfl)
                 | with_reducible intro _ | with_reducible apply Sat_elim | with_reducible apply contextFault_sat
                 | with_reducible apply setTile_sat | with_reducible apply stalled_sat
                 | with_reducible apply tileStorage_sat | with_reducible apply Sat_getD
                 | with_reducible apply Sat_ite | split | (refine snd_sat (by with_reducible assumption) ?_)
                 | (refine some_sat (by with_reducible assumption) ?_)
                 | (refine some2_sat (by with_reducible assumption) ?_) | dsimp only)

theorem execMoveWord_sat (t slot : Nat) (memOk : Bool) (s : State) (hK : Clo 0x66f75a P) (hs0 : Sat P s) :
    SatN P (execMoveWord t slot memOk s) := by
  unfold execMoveWord; (try dsimp only)
  repeat' (first | with_reducible assumption | ((with_reducible refine Clo.mono hK ?_); rfl)
                 | with_reducible intro _ | with_reducible apply moveWord_sat | with_reducible apply onWf_sat
                 | (simp only [SatN_next]))

/-! ### Matrix -/

theorem onPass_sat (t : Nat) (s : State) (f : Tile → Line → Pass → State) (hK : Clo 0x66f75a P) (hf : ∀ x0 x1 x2,
    Sat P (f x0 x1 x2)) (hs0 : Sat P s) : Sat P (onPass t s f) := by
  unfold onPass; (try dsimp only)
  repeat' (first | with_reducible assumption | ((with_reducible refine Clo.mono hK ?_); rfl)
                 | with_reducible intro _ | with_reducible apply contextFault_sat | with_reducible apply hf
                 | with_reducible apply Sat_ite | split | (refine snd_sat (by with_reducible assumption) ?_)
                 | (refine some_sat (by with_reducible assumption) ?_)
                 | (refine some2_sat (by with_reducible assumption) ?_) | dsimp only)

theorem passStart_sat (t slot : Nat) (memOk : Bool) (s : State) (hK : Clo 0x66f75a P) (hs0 : Sat P s) :
    Sat P (passStart t slot memOk s) := by
  unfold passStart; (try dsimp only)
  repeat' (first | with_reducible assumption | ((with_reducible refine Clo.mono hK ?_); rfl)
                 | with_reducible apply contextFault_sat | with_reducible apply setTile_sat
                 | with_reducible apply stalled_sat | with_reducible apply tileStorage_sat
                 | with_reducible apply Sat_ite | split | (refine snd_sat (by with_reducible assumption) ?_)
                 | (refine some_sat (by with_reducible assumption) ?_)
                 | (refine some2_sat (by with_reducible assumption) ?_) | dsimp only)

theorem execMatrixPassStart_sat (t slot : Nat) (memOk : Bool) (s : State) (hK : Clo 0x66f75a P) (hs0 : Sat P s) :
    SatN P (execMatrixPassStart t slot memOk s) := by
  unfold execMatrixPassStart; (try dsimp only)
  repeat' (first | with_reducible assumption | ((with_reducible refine Clo.mono hK ?_); rfl)
                 | with_reducible intro _ | with_reducible apply onWf_sat | with_reducible apply passStart_sat
                 | (simp only [SatN_next]))

theorem execGnxtTokenConsume_sat (t : Nat) (memOk : Bool) (s : State) (hK : Clo 0x66f75a P) (hs0 : Sat P s) :
    SatN P (execGnxtTokenConsume t memOk s) := by
  unfold execGnxtTokenConsume; (try dsimp only)
  repeat' (first | with_reducible assumption | ((with_reducible refine Clo.mono hK ?_); rfl)
                 | with_reducible intro _ | with_reducible apply onPass_sat | with_reducible apply onWf_sat
                 | with_reducible apply setTile_sat | with_reducible apply stalled_sat
                 | with_reducible apply tileStorage_sat | split | (simp only [SatN_next]))

theorem acceptWord_sat (t : Nat) (s : State) (hK : Clo 0x66f75a P) (hs0 : Sat P s) : Sat P (acceptWord t s) := by
  unfold acceptWord; (try dsimp only)
  repeat' (first | with_reducible assumption | ((with_reducible refine Clo.mono hK ?_); rfl)
                 | with_reducible intro _ | with_reducible apply onPass_sat | with_reducible apply setTile_sat
                 | with_reducible apply stalled_sat | with_reducible apply Sat_ite | split
                 | (refine snd_sat (by with_reducible assumption) ?_)
                 | (refine some_sat (by with_reducible assumption) ?_)
                 | (refine some2_sat (by with_reducible assumption) ?_) | dsimp only)

theorem execWeightWordAccept_sat (t : Nat) (s : State) (hK : Clo 0x66f75a P) (hs0 : Sat P s) :
    SatN P (execWeightWordAccept t s) := by
  unfold execWeightWordAccept; (try dsimp only)
  repeat' (first | with_reducible assumption | ((with_reducible refine Clo.mono hK ?_); rfl)
                 | with_reducible intro _ | with_reducible apply acceptWord_sat | with_reducible apply onWf_sat
                 | (simp only [SatN_next]))

theorem expand_sat (t : Nat) (memOk : Bool) (s : State) (hK : Clo 0x66f75a P) (hs0 : Sat P s) :
    Sat P (expand t memOk s) := by
  unfold expand; (try dsimp only)
  repeat' (first | with_reducible assumption | ((with_reducible refine Clo.mono hK ?_); rfl)
                 | with_reducible intro _ | with_reducible apply onPass_sat | with_reducible apply setTile_sat
                 | with_reducible apply tileStorage_sat | with_reducible apply Sat_ite | split
                 | (refine snd_sat (by with_reducible assumption) ?_)
                 | (refine some_sat (by with_reducible assumption) ?_)
                 | (refine some2_sat (by with_reducible assumption) ?_) | dsimp only)

theorem execExpanderDecode_sat (t : Nat) (memOk : Bool) (s : State) (hK : Clo 0x66f75a P) (hs0 : Sat P s) :
    SatN P (execExpanderDecode t memOk s) := by
  unfold execExpanderDecode; (try dsimp only)
  repeat' (first | with_reducible assumption | ((with_reducible refine Clo.mono hK ?_); rfl)
                 | with_reducible intro _ | with_reducible apply expand_sat | with_reducible apply onWf_sat
                 | (simp only [SatN_next]))

theorem countBeat_sat (s : State) (t : Nat) (hK : Clo 0x100 P) (hs0 : Sat P s) : Sat P (countBeat s t) := by
  unfold countBeat; (try dsimp only)
  repeat' (first | with_reducible assumption | ((with_reducible refine Clo.mono hK ?_); rfl)
                 | with_reducible intro _ | with_reducible apply modPart_sat | split
                 | (refine snd_sat (by with_reducible assumption) ?_)
                 | (refine some_sat (by with_reducible assumption) ?_)
                 | (refine some2_sat (by with_reducible assumption) ?_) | dsimp only)

theorem beat_sat (t : Nat) (residueOk memOk : Bool) (s : State) (hK : Clo 0x66f75a P) (hs0 : Sat P s) :
    Sat P (beat t residueOk memOk s) := by
  unfold beat; (try dsimp only)
  repeat' (first | with_reducible assumption | ((with_reducible refine Clo.mono hK ?_); rfl)
                 | with_reducible intro _ | with_reducible apply countBeat_sat | with_reducible apply draw_sat
                 | with_reducible apply onPass_sat | with_reducible apply setTile_sat
                 | with_reducible apply stalled_sat | with_reducible apply tileFault_sat
                 | with_reducible apply tileStorage_sat | with_reducible apply Sat_ite | split
                 | (simp only [Sat_mk]; refine clo_draw hK rfl (Sat_fold ?_))
                 | (refine snd_sat (by with_reducible assumption) ?_)
                 | (refine some_sat (by with_reducible assumption) ?_)
                 | (refine some2_sat (by with_reducible assumption) ?_) | dsimp only)

theorem execBeatIssue_sat (t : Nat) (residueOk memOk : Bool) (s : State) (hK : Clo 0x66f75a P) (hs0 : Sat P s) :
    SatN P (execBeatIssue t residueOk memOk s) := by
  unfold execBeatIssue; (try dsimp only)
  repeat' (first | with_reducible assumption | ((with_reducible refine Clo.mono hK ?_); rfl)
                 | with_reducible intro _ | with_reducible apply beat_sat | with_reducible apply onWf_sat
                 | (simp only [SatN_next]))

theorem drain_sat (t : Nat) (s : State) (hK : Clo 0x66f75a P) (hs0 : Sat P s) : Sat P (drain t s) := by
  unfold drain; (try dsimp only)
  repeat' (first | with_reducible assumption | ((with_reducible refine Clo.mono hK ?_); rfl)
                 | with_reducible intro _ | with_reducible apply onPass_sat | with_reducible apply setTile_sat
                 | with_reducible apply stalled_sat | with_reducible apply Sat_ite | split
                 | (refine snd_sat (by with_reducible assumption) ?_)
                 | (refine some_sat (by with_reducible assumption) ?_)
                 | (refine some2_sat (by with_reducible assumption) ?_) | dsimp only)

theorem execAccumulatorDrain_sat (t : Nat) (s : State) (hK : Clo 0x66f75a P) (hs0 : Sat P s) :
    SatN P (execAccumulatorDrain t s) := by
  unfold execAccumulatorDrain; (try dsimp only)
  repeat' (first | with_reducible assumption | ((with_reducible refine Clo.mono hK ?_); rfl)
                 | with_reducible intro _ | with_reducible apply drain_sat | with_reducible apply onWf_sat
                 | (simp only [SatN_next]))

theorem contextEnd_sat (t slot : Nat) (s : State) (hK : Clo 0x66f75a P) (hs0 : Sat P s) :
    Sat P (contextEnd t slot s) := by
  unfold contextEnd; (try dsimp only)
  repeat' (first | with_reducible assumption | ((with_reducible refine Clo.mono hK ?_); rfl)
                 | with_reducible intro _ | with_reducible apply contextFault_sat | with_reducible apply setTile_sat
                 | with_reducible apply stalled_sat | with_reducible apply Sat_ite | split
                 | (refine snd_sat (by with_reducible assumption) ?_)
                 | (refine some_sat (by with_reducible assumption) ?_)
                 | (refine some2_sat (by with_reducible assumption) ?_) | dsimp only)

theorem execContextEpochEnd_sat (t slot : Nat) (s : State) (hK : Clo 0x66f75a P) (hs0 : Sat P s) :
    SatN P (execContextEpochEnd t slot s) := by
  unfold execContextEpochEnd; (try dsimp only)
  repeat' (first | with_reducible assumption | ((with_reducible refine Clo.mono hK ?_); rfl)
                 | with_reducible intro _ | with_reducible apply contextEnd_sat | with_reducible apply onWf_sat
                 | (simp only [SatN_next]))

/-! ### Port -/

theorem portPut_sat (b : Nat) (w : W64) (s : State) (hK : Clo 0x400 P) (hs0 : Sat P s) : SatE P (portPut b w s) := by
  unfold portPut; (try dsimp only)
  repeat' (first | with_reducible assumption | ((with_reducible refine Clo.mono hK ?_); rfl)
                 | with_reducible intro _ | with_reducible apply setVe_sat | with_reducible apply Sat_ite
                 | with_reducible apply SatE_ite | split | (simp only [SatE_error, SatE_none, SatE_some])
                 | with_reducible exact trivial | (refine snd_sat (by with_reducible assumption) ?_)
                 | (refine some_sat (by with_reducible assumption) ?_)
                 | (refine some2_sat (by with_reducible assumption) ?_) | with_reducible apply SatO_map
                 | with_reducible apply SatO_map2 | with_reducible apply SatO2_mapO
                 | with_reducible apply SatO2_map2 | dsimp only)

theorem execPput_sat (b : Nat) (s : State) (hK : Clo 0x66f75a P) (hs0 : Sat P s) : SatN P (execPput b s) := by
  unfold execPput; (try dsimp only)
  repeat' (first | with_reducible assumption | ((with_reducible refine Clo.mono hK ?_); rfl)
                 | with_reducible intro _ | with_reducible apply onWf_sat | with_reducible apply portPut_sat
                 | with_reducible apply veIssue_sat | (simp only [SatN_next]))

theorem execPwr_sat (b : Nat) (s : State) (hK : Clo 0x66f75a P) (hs0 : Sat P s) : SatN P (execPwr b s) := by
  unfold execPwr; (try dsimp only)
  repeat' (first | with_reducible assumption | ((with_reducible refine Clo.mono hK ?_); rfl)
                 | with_reducible intro _ | with_reducible apply onWf_sat | with_reducible apply regOp_sat
                 | with_reducible apply veIssue_sat | (simp only [SatN_next]))

theorem portRead_sat (b : Nat) (w : W64) (s : State) (hK : Clo 0x400 P) (hs0 : Sat P s) : SatE P (portRead b w s)
    := by
  unfold portRead; (try dsimp only)
  repeat' (first | with_reducible assumption | ((with_reducible refine Clo.mono hK ?_); rfl)
                 | with_reducible intro _ | with_reducible apply setVe_sat | with_reducible apply Sat_ite
                 | with_reducible apply SatE_ite | split | (simp only [SatE_error, SatE_none, SatE_some])
                 | with_reducible exact trivial | (refine snd_sat (by with_reducible assumption) ?_)
                 | (refine some_sat (by with_reducible assumption) ?_)
                 | (refine some2_sat (by with_reducible assumption) ?_) | with_reducible apply SatO_map
                 | with_reducible apply SatO_map2 | with_reducible apply SatO2_mapO
                 | with_reducible apply SatO2_map2 | dsimp only)

theorem execPrd_sat (b : Nat) (ecc : Ecc) (s : State) (hK : Clo 0x66f75a P) (hs0 : Sat P s) :
    SatN P (execPrd b ecc s) := by
  unfold execPrd; (try dsimp only)
  repeat' (first | with_reducible assumption | ((with_reducible refine Clo.mono hK ?_); rfl)
                 | with_reducible intro _ | with_reducible apply onWf_sat | with_reducible apply portRead_sat
                 | with_reducible apply veRead_sat | (simp only [SatN_next]))

theorem portMark_sat (b : Nat) (w : W64) (s : State) (hK : Clo 0x400 P) (hs0 : Sat P s) : SatE P (portMark b w s)
    := by
  unfold portMark; (try dsimp only)
  repeat' (first | with_reducible assumption | ((with_reducible refine Clo.mono hK ?_); rfl)
                 | with_reducible apply setVe_sat | with_reducible apply Sat_ite | with_reducible apply SatE_ite
                 | split | (simp only [SatE_error, SatE_none, SatE_some]) | with_reducible exact trivial
                 | (refine snd_sat (by with_reducible assumption) ?_)
                 | (refine some_sat (by with_reducible assumption) ?_)
                 | (refine some2_sat (by with_reducible assumption) ?_) | dsimp only)

theorem execPmark_sat (b : Nat) (s : State) (hK : Clo 0x66f75a P) (hs0 : Sat P s) : SatN P (execPmark b s) := by
  unfold execPmark; (try dsimp only)
  repeat' (first | with_reducible assumption | ((with_reducible refine Clo.mono hK ?_); rfl)
                 | with_reducible intro _ | with_reducible apply onWf_sat | with_reducible apply portMark_sat
                 | with_reducible apply veIssue_sat | (simp only [SatN_next]))

theorem collect4_sat (b : Nat) (w : W64) (s : State) (hK : Clo 0x600 P) (hs0 : Sat P s) : SatE P (collect4 b w s)
    := by
  unfold collect4; (try dsimp only)
  repeat' (first | with_reducible assumption | ((with_reducible refine Clo.mono hK ?_); rfl)
                 | with_reducible intro _ | with_reducible apply Sat_elim | with_reducible apply setTile_sat
                 | with_reducible apply setVe_sat | with_reducible apply Sat_ite | with_reducible apply SatE_ite
                 | split | (simp only [SatE_error, SatE_none, SatE_some]) | with_reducible exact trivial
                 | (refine snd_sat (by with_reducible assumption) ?_)
                 | (refine some_sat (by with_reducible assumption) ?_)
                 | (refine some2_sat (by with_reducible assumption) ?_) | with_reducible apply SatO_map
                 | with_reducible apply SatO_map2 | with_reducible apply SatO2_mapO
                 | with_reducible apply SatO2_map2 | dsimp only)

theorem execColl_sat (b : Nat) (s : State) (hK : Clo 0x66f75a P) (hs0 : Sat P s) : SatN P (execColl b s) := by
  unfold execColl; (try dsimp only)
  repeat' (first | with_reducible assumption | ((with_reducible refine Clo.mono hK ?_); rfl)
                 | with_reducible intro _ | with_reducible apply collect4_sat | with_reducible apply onWf_sat
                 | with_reducible apply veIssue_sat | (simp only [SatN_next]))

theorem checkPop_sat (b : Nat) (w : W64) (s : State) (hK : Clo 0x600 P) (hs0 : Sat P s) : SatE P (checkPop b w s)
    := by
  unfold checkPop; (try dsimp only)
  repeat' (first | with_reducible assumption | ((with_reducible refine Clo.mono hK ?_); rfl)
                 | with_reducible apply setTile_sat | with_reducible apply setVe_sat | with_reducible apply Sat_ite
                 | with_reducible apply SatE_ite | split | (simp only [SatE_error, SatE_none, SatE_some])
                 | with_reducible exact trivial | (refine snd_sat (by with_reducible assumption) ?_)
                 | (refine some_sat (by with_reducible assumption) ?_)
                 | (refine some2_sat (by with_reducible assumption) ?_) | dsimp only)

theorem execCkpop_sat (b : Nat) (s : State) (hK : Clo 0x66f75a P) (hs0 : Sat P s) : SatN P (execCkpop b s) := by
  unfold execCkpop; (try dsimp only)
  repeat' (first | with_reducible assumption | ((with_reducible refine Clo.mono hK ?_); rfl)
                 | with_reducible intro _ | with_reducible apply checkPop_sat | with_reducible apply onWf_sat
                 | with_reducible apply veIssue_sat | (simp only [SatN_next]))

theorem veOutside_sat (s : State) (b kind addr : Nat) (hK : Clo 0x118 P) (hs0 : Sat P s) :
    Sat P (veOutside s b kind addr) := by
  unfold veOutside; (try dsimp only)
  repeat' (first | with_reducible assumption | ((with_reducible refine Clo.mono hK ?_); rfl)
                 | with_reducible apply isolation_sat | split | (refine snd_sat (by with_reducible assumption) ?_)
                 | (refine some_sat (by with_reducible assumption) ?_)
                 | (refine some2_sat (by with_reducible assumption) ?_) | dsimp only)

theorem netSend_sat (b : Nat) (w : W64) (s : State) (hK : Clo 0x1118 P) (hs0 : Sat P s) : SatE P (netSend b w s) := by
  unfold netSend; (try dsimp only)
  repeat' (first | with_reducible assumption | ((with_reducible refine Clo.mono hK ?_); rfl)
                 | with_reducible intro _ | with_reducible apply veOutside_sat | with_reducible apply Sat_ite
                 | with_reducible apply SatE_ite | split
                 | (simp only [Sat_mk]; refine clo_veNet hK rfl (Sat_fold ?_))
                 | (simp only [SatE_error, SatE_none, SatE_some]) | with_reducible exact trivial
                 | (refine snd_sat (by with_reducible assumption) ?_)
                 | (refine some_sat (by with_reducible assumption) ?_)
                 | (refine some2_sat (by with_reducible assumption) ?_) | with_reducible apply SatO_map
                 | with_reducible apply SatO_map2 | with_reducible apply SatO2_mapO
                 | with_reducible apply SatO2_map2 | dsimp only)

theorem execNsend_sat (b : Nat) (s : State) (hK : Clo 0x66f75a P) (hs0 : Sat P s) : SatN P (execNsend b s) := by
  unfold execNsend; (try dsimp only)
  repeat' (first | with_reducible assumption | ((with_reducible refine Clo.mono hK ?_); rfl)
                 | with_reducible intro _ | with_reducible apply netSend_sat | with_reducible apply onWf_sat
                 | with_reducible apply veIssue_sat | (simp only [SatN_next]))

theorem netRecv_sat (b : Nat) (w : W64) (s : State) (hK : Clo 0x400 P) (hs0 : Sat P s) : SatE P (netRecv b w s) := by
  unfold netRecv; (try dsimp only)
  repeat' (first | with_reducible assumption | ((with_reducible refine Clo.mono hK ?_); rfl)
                 | with_reducible intro _ | with_reducible apply setVe_sat | with_reducible apply Sat_ite
                 | with_reducible apply SatE_ite | split | (simp only [SatE_error, SatE_none, SatE_some])
                 | with_reducible exact trivial | (refine snd_sat (by with_reducible assumption) ?_)
                 | (refine some_sat (by with_reducible assumption) ?_)
                 | (refine some2_sat (by with_reducible assumption) ?_) | with_reducible apply SatO_map
                 | with_reducible apply SatO_map2 | with_reducible apply SatO2_mapO
                 | with_reducible apply SatO2_map2 | dsimp only)

theorem execNrecv_sat (b : Nat) (s : State) (hK : Clo 0x66f75a P) (hs0 : Sat P s) : SatN P (execNrecv b s) := by
  unfold execNrecv; (try dsimp only)
  repeat' (first | with_reducible assumption | ((with_reducible refine Clo.mono hK ?_); rfl)
                 | with_reducible intro _ | with_reducible apply netRecv_sat | with_reducible apply onWf_sat
                 | with_reducible apply veIssue_sat | (simp only [SatN_next]))

theorem codebookWrite_sat (b : Nat) (w : W64) (s : State) (hK : Clo 0x800 P) (hs0 : Sat P s) :
    SatE P (codebookWrite b w s) := by
  unfold codebookWrite; (try dsimp only)
  repeat' (first | with_reducible assumption | ((with_reducible refine Clo.mono hK ?_); rfl)
                 | with_reducible intro _ | with_reducible apply Sat_foldl | with_reducible apply Sat_ite
                 | with_reducible apply SatE_ite | split
                 | (simp only [Sat_mk]; refine clo_codebook hK rfl (Sat_fold ?_))
                 | (simp only [SatE_error, SatE_none, SatE_some]) | with_reducible exact trivial
                 | (refine snd_sat (by with_reducible assumption) ?_)
                 | (refine some_sat (by with_reducible assumption) ?_)
                 | (refine some2_sat (by with_reducible assumption) ?_) | dsimp only)

theorem execCbwr_sat (b : Nat) (s : State) (hK : Clo 0x66ff5a P) (hs0 : Sat P s) : SatN P (execCbwr b s) := by
  unfold execCbwr; (try dsimp only)
  repeat' (first | with_reducible assumption | ((with_reducible refine Clo.mono hK ?_); rfl)
                 | with_reducible intro _ | with_reducible apply codebookWrite_sat | with_reducible apply onWf_sat
                 | with_reducible apply veIssue_sat | (simp only [SatN_next]))

theorem txfRemote_sat (s : State) (b p word n a len : Nat) (write : Bool) (bs : List Byte) (need : Need)
    (hK : Clo 0x46c51a P) (hs0 : Sat P s) : Sat P (txfRemote s b p word n a len write bs need) := by
  unfold txfRemote; (try dsimp only)
  repeat' (first | with_reducible assumption | ((with_reducible refine Clo.mono hK ?_); rfl)
                 | with_reducible intro _ | with_reducible apply dropTransfer_sat
                 | with_reducible apply finishTransfer_sat | with_reducible apply issueTxn_sat
                 | with_reducible apply issued_sat | with_reducible apply modFabric_sat
                 | with_reducible apply modTransfer_sat | with_reducible apply pend_sat
                 | with_reducible apply Sat_id | with_reducible apply Sat_ite | split
                 | (refine snd_sat (by with_reducible assumption) ?_)
                 | (refine some_sat (by with_reducible assumption) ?_)
                 | (refine some2_sat (by with_reducible assumption) ?_) | dsimp only)

theorem txfPieces_sat (s : State) (b p sa n a len : Nat) (write : Bool) (who : Option Nat) (hK : Clo 0x46c51a P)
    (hs0 : Sat P s) : Sat P (txfPieces s b p sa n a len write who) := by
  unfold txfPieces; (try dsimp only)
  repeat' (first | with_reducible assumption | ((with_reducible refine Clo.mono hK ?_); rfl)
                 | with_reducible intro _ | with_reducible apply Sat_foldl | with_reducible apply freeBytes_sat
                 | with_reducible apply modStream_sat | with_reducible apply modVe_sat
                 | with_reducible apply pend_sat | with_reducible apply txfRemote_sat
                 | with_reducible apply Sat_getD | with_reducible apply Sat_ite | split
                 | (refine snd_sat (by with_reducible assumption) ?_)
                 | (refine some_sat (by with_reducible assumption) ?_)
                 | (refine some2_sat (by with_reducible assumption) ?_) | with_reducible apply SatO_map
                 | with_reducible apply SatO_map2 | with_reducible apply SatO2_mapO
                 | with_reducible apply SatO2_map2 | dsimp only)

theorem transferPost_sat (b : Nat) (who : Option Nat) (w : W64) (s : State) (hK : Clo 0x46c51a P) (hs0 : Sat P s) :
    SatE P (transferPost b who w s) := by
  unfold transferPost; (try dsimp only)
  repeat' (first | with_reducible assumption | ((with_reducible refine Clo.mono hK ?_); rfl)
                 | with_reducible intro _ | with_reducible apply isolation_sat | with_reducible apply txfPieces_sat
                 | with_reducible apply Sat_getD | with_reducible apply Sat_id | with_reducible apply Sat_ite
                 | with_reducible apply SatE_ite | split | (simp only [SatE_error, SatE_none, SatE_some])
                 | with_reducible exact trivial | (refine snd_sat (by with_reducible assumption) ?_)
                 | (refine some_sat (by with_reducible assumption) ?_)
                 | (refine some2_sat (by with_reducible assumption) ?_) | dsimp only)

theorem execTxf_sat (b : Nat) (agree : Bool) (ecc : Ecc) (who : Option Nat) (s : State) (hK : Clo 0x66f75a P) (hs0 :
    Sat P s) : SatN P (execTxf b agree ecc who s) := by
  unfold execTxf; (try dsimp only)
  repeat' (first | with_reducible assumption | ((with_reducible refine Clo.mono hK ?_); rfl)
                 | with_reducible intro _ | with_reducible apply modVe_sat | with_reducible apply onWf_sat
                 | with_reducible apply transferPost_sat | with_reducible apply veFault_sat
                 | with_reducible apply veRead_sat | split | (simp only [SatN_next])
                 | (refine snd_sat (by with_reducible assumption) ?_)
                 | (refine some_sat (by with_reducible assumption) ?_)
                 | (refine some2_sat (by with_reducible assumption) ?_) | dsimp only)

theorem transferWait_sat (b : Nat) (w : W64) (s : State) (hK : Clo 0x400 P) (hs0 : Sat P s) :
    SatE P (transferWait b w s) := by
  unfold transferWait; (try dsimp only)
  repeat' (first | with_reducible assumption | ((with_reducible refine Clo.mono hK ?_); rfl)
                 | with_reducible apply setVe_sat | with_reducible apply Sat_ite | with_reducible apply SatE_ite
                 | split | (simp only [SatE_error, SatE_none, SatE_some]) | with_reducible exact trivial
                 | (refine snd_sat (by with_reducible assumption) ?_)
                 | (refine some_sat (by with_reducible assumption) ?_)
                 | (refine some2_sat (by with_reducible assumption) ?_) | dsimp only)

theorem execTxwait_sat (b : Nat) (s : State) (hK : Clo 0x66f75a P) (hs0 : Sat P s) : SatN P (execTxwait b s) := by
  unfold execTxwait; (try dsimp only)
  repeat' (first | with_reducible assumption | ((with_reducible refine Clo.mono hK ?_); rfl)
                 | with_reducible intro _ | with_reducible apply onWf_sat | with_reducible apply transferWait_sat
                 | with_reducible apply veIssue_sat | (simp only [SatN_next]))

end Sys2Proof.Machine
end

