-- ==== Sys2Proof/Laws/FramesService.lean ====
section
/-! SUPPORT. What the shared operations and the rows keep: start-up, management, remote traffic, routing, spares and the pair (Laws/Frames.lean says how to read a lemma). -/

set_option linter.unusedSimpArgs false

open Sys2Proof

namespace Sys2Proof.Machine

variable {P : State → Prop}

/-! ### Startup -/

theorem inReset_sat (s : State) (hK : Clo 0xfffff8 P) (hs0 : Sat P s) : Sat P (inReset s) :=
  hK s _ ⟨fun c e => by cases c <;> first | rfl | exact Bool.noConfusion e, fun _ => reset_wf⟩ hs0

theorem sampleStraps_sat (straps : BitVec 16) (s : State) (hK : Clo 0x40 P) (hs0 : Sat P s) :
    Sat P (sampleStraps straps s) := by
  unfold sampleStraps; (try dsimp only)
  repeat' (first | with_reducible assumption | ((with_reducible refine Clo.mono hK ?_); rfl)
                 | with_reducible intro _ | with_reducible apply modLands_sat)

theorem resetRise_sat (straps : BitVec 16) (s : State) (hK : Clo 0x60 P) (hs0 : Sat P s) :
    Sat P (resetRise straps s) := by
  unfold resetRise; (try dsimp only)
  repeat' (first | with_reducible assumption | ((with_reducible refine Clo.mono hK ?_); rfl)
                 | with_reducible intro _ | with_reducible apply modBoot_sat | with_reducible apply sampleStraps_sat
                 | with_reducible apply Sat_ite | split | (refine snd_sat (by with_reducible assumption) ?_)
                 | (refine some_sat (by with_reducible assumption) ?_)
                 | (refine some2_sat (by with_reducible assumption) ?_) | dsimp only)

theorem execResetNRise_sat (straps : BitVec 16) (s : State) (hK : Clo 0x60 P) (hs0 : Sat P s) :
    SatN P (execResetNRise straps s) := by
  unfold execResetNRise; (try dsimp only)
  repeat' (first | with_reducible assumption | ((with_reducible refine Clo.mono hK ?_); rfl)
                 | with_reducible intro _ | with_reducible apply onWf_sat | with_reducible apply resetRise_sat
                 | (simp only [SatN_next]))

theorem execResetNFall_sat (s : State) (hK : Clo 0xfffff8 P) (hs0 : Sat P s) : SatN P (execResetNFall s) := by
  unfold execResetNFall; (try dsimp only)
  repeat' (first | with_reducible assumption | ((with_reducible refine Clo.mono hK ?_); rfl)
                 | with_reducible intro _ | with_reducible apply inReset_sat | with_reducible apply onWf_sat
                 | (simp only [SatN_next]))

theorem trainStart_sat (s : State) (hK : Clo 0x40 P) (hs0 : Sat P s) : Sat P (trainStart s) := by
  unfold trainStart; (try dsimp only)
  repeat' (first | with_reducible assumption | ((with_reducible refine Clo.mono hK ?_); rfl)
                 | with_reducible intro _ | with_reducible apply modLands_sat | with_reducible apply Sat_ite
                 | split)

theorem execTrainPhaseStart_sat (s : State) (hK : Clo 0x40 P) (hs0 : Sat P s) : SatN P (execTrainPhaseStart s) := by
  unfold execTrainPhaseStart; (try dsimp only)
  repeat' (first | with_reducible assumption | ((with_reducible refine Clo.mono hK ?_); rfl)
                 | with_reducible intro _ | with_reducible apply onWf_sat | with_reducible apply trainStart_sat
                 | (simp only [SatN_next]))

theorem supplyGood_sat (rail : Nat) (straps : BitVec 16) (s : State) (hK : Clo 0xfffffc P) (hs0 : Sat P s) :
    Sat P (supplyGood rail straps s) := by
  unfold supplyGood; (try dsimp only)
  repeat' (first | with_reducible assumption | ((with_reducible refine Clo.mono hK ?_); rfl)
                 | with_reducible intro _ | with_reducible apply inReset_sat | with_reducible apply modBoot_sat
                 | with_reducible apply modPower_sat | with_reducible apply sampleStraps_sat
                 | with_reducible apply Sat_ite | split | (simp only [Sat_mk]; refine clo_time hK rfl (Sat_fold ?_))
                 | (refine snd_sat (by with_reducible assumption) ?_)
                 | (refine some_sat (by with_reducible assumption) ?_)
                 | (refine some2_sat (by with_reducible assumption) ?_) | dsimp only)

theorem execSupplyGood_sat (rail : Nat) (straps : BitVec 16) (s : State) (hK : Clo 0xfffffc P) (hs0 : Sat P s) :
    SatN P (execSupplyGood rail straps s) := by
  unfold execSupplyGood; (try dsimp only)
  repeat' (first | with_reducible assumption | ((with_reducible refine Clo.mono hK ?_); rfl)
                 | with_reducible intro _ | with_reducible apply onWf_sat | with_reducible apply supplyGood_sat
                 | (simp only [SatN_next]))

theorem loseContent_sat (rail : Nat) (s : State) (hK : Clo 0x13e00 P) (hs0 : Sat P s) : Sat P (loseContent rail s)
    := by
  unfold loseContent; (try dsimp only)
  repeat' (first | with_reducible assumption | ((with_reducible refine Clo.mono hK ?_); rfl)
                 | with_reducible intro _ | with_reducible apply Sat_ite | split
                 | (simp only [Sat_mk]; refine clo_tiles hK rfl (clo_ves hK rfl (clo_codebook hK rfl (clo_veNet hK rfl (clo_injectOut hK rfl (clo_mem hK rfl ?_ (Sat_fold ?_)))))))
                 | with_reducible apply SatO_map | with_reducible apply SatO_map2 | with_reducible apply SatO2_mapO
                 | with_reducible apply SatO2_map2
                 | (simp only [memsWf_iff] at *; simp_all only [wf_mwrite, wf_mzero, wf_nil, and_self, true_and, and_true]; done)
                 | exact wf_mwrite _ _ (tierMem_wf (by assumption) _)
                 | exact wf_mzero _ _ (tierMem_wf (by assumption) _)
                 | exact wf_mcopy _ _ _ _ (tierMem_wf (by assumption) _) | exact reset_wf)

theorem railReact_sat (rail recno : Nat) (s : State) (hK : Clo 0x46c37a P) (hs0 : Sat P s) :
    Sat P (railReact rail recno s) := by
  unfold railReact; (try dsimp only)
  repeat' (first | with_reducible assumption | ((with_reducible refine Clo.mono hK ?_); rfl)
                 | with_reducible intro _ | with_reducible apply Sat_foldl | with_reducible apply linkDown_sat
                 | with_reducible apply modLands_sat | with_reducible apply modTiers_sat
                 | with_reducible apply safeState_sat | with_reducible apply Sat_ite | split
                 | (refine snd_sat (by with_reducible assumption) ?_)
                 | (refine some_sat (by with_reducible assumption) ?_)
                 | (refine some2_sat (by with_reducible assumption) ?_) | dsimp only)

theorem railLoss_sat (rail : Nat) (s : State) (hK : Clo 0xfffffa P) (hs0 : Sat P s) : Sat P (railLoss rail s) := by
  unfold railLoss; (try dsimp only)
  repeat' (first | with_reducible assumption | ((with_reducible refine Clo.mono hK ?_); rfl)
                 | with_reducible intro _ | with_reducible apply inReset_sat | with_reducible apply loseContent_sat
                 | with_reducible apply modBoot_sat | with_reducible apply modPower_sat
                 | with_reducible apply railReact_sat | with_reducible apply recordFault_sat
                 | with_reducible apply Sat_ite | split | (refine snd_sat (by with_reducible assumption) ?_)
                 | (refine some_sat (by with_reducible assumption) ?_)
                 | (refine some2_sat (by with_reducible assumption) ?_) | dsimp only)

theorem execRailLoss_sat (rail : Nat) (s : State) (hK : Clo 0xfffffa P) (hs0 : Sat P s) :
    SatN P (execRailLoss rail s) := by
  unfold execRailLoss; (try dsimp only)
  repeat' (first | with_reducible assumption | ((with_reducible refine Clo.mono hK ?_); rfl)
                 | with_reducible intro _ | with_reducible apply onWf_sat | with_reducible apply railLoss_sat
                 | (simp only [SatN_next]))

theorem phaseEnd_sat (x : Phase) (needs : List Phase) (ok : State → Bool) (f : State → State) (s : State)
    (hK : Clo 0x20 P) (hf : ∀ x0, Sat P x0 → Sat P (f x0)) (hs0 : Sat P s) : Sat P (phaseEnd x needs ok f s) := by
  unfold phaseEnd; (try dsimp only)
  repeat' (first | with_reducible assumption | ((with_reducible refine Clo.mono hK ?_); rfl)
                 | with_reducible intro _ | with_reducible apply modBoot_sat | with_reducible apply hf
                 | with_reducible apply Sat_ite | split)

theorem startFail_sat (s : State) (hK : Clo 0x46c33a P) (hs0 : Sat P s) : Sat P (startFail s) := by
  unfold startFail; (try dsimp only)
  repeat' (first | with_reducible assumption | ((with_reducible refine Clo.mono hK ?_); rfl)
                 | with_reducible apply safeState_sat)

theorem selfTest_sat (romOk sramOk : Bool) (bad : List Nat) (s : State) (hK : Clo 0x46c33a P) (hs0 : Sat P s) :
    Sat P (selfTest romOk sramOk bad s) := by
  unfold selfTest; (try dsimp only)
  repeat' (first | with_reducible assumption | ((with_reducible refine Clo.mono hK ?_); rfl)
                 | with_reducible intro _ | with_reducible apply modBoot_sat | with_reducible apply startFail_sat
                 | with_reducible apply Sat_ite | split | (refine snd_sat (by with_reducible assumption) ?_)
                 | (refine some_sat (by with_reducible assumption) ?_)
                 | (refine some2_sat (by with_reducible assumption) ?_) | dsimp only)

theorem execStartupSelfTest_sat (romOk sramOk : Bool) (badCores : List Nat) (s : State) (hK : Clo 0x46c33a P) (hs0 :
    Sat P s) : SatN P (execStartupSelfTest romOk sramOk badCores s) := by
  unfold execStartupSelfTest; (try dsimp only)
  repeat' (first | with_reducible assumption | ((with_reducible refine Clo.mono hK ?_); rfl)
                 | with_reducible intro _ | with_reducible apply onWf_sat | with_reducible apply phaseEnd_sat
                 | with_reducible apply selfTest_sat | (simp only [SatN_next]))

theorem execStartupIdentity_sat (s : State) (hK : Clo 0x20 P) (hs0 : Sat P s) : SatN P (execStartupIdentity s) := by
  unfold execStartupIdentity; (try dsimp only)
  repeat' (first | with_reducible assumption | ((with_reducible refine Clo.mono hK ?_); rfl)
                 | with_reducible intro _ | with_reducible apply modBoot_sat | with_reducible apply onWf_sat
                 | with_reducible apply phaseEnd_sat | (simp only [SatN_next]))

theorem openPorts_sat (s : State) (hK : Clo 0x180000 P) (hs0 : Sat P s) : Sat P (openPorts s) := by
  unfold openPorts; (try dsimp only)
  repeat' (first | with_reducible assumption | ((with_reducible refine Clo.mono hK ?_); rfl)
                 | (simp only [Sat_mk]; refine clo_mgmtA hK rfl (clo_mgmtB hK rfl (Sat_fold ?_))))

theorem execStartupManagement_sat (s : State) (hK : Clo 0x180020 P) (hs0 : Sat P s) :
    SatN P (execStartupManagement s) := by
  unfold execStartupManagement; (try dsimp only)
  repeat' (first | with_reducible assumption | ((with_reducible refine Clo.mono hK ?_); rfl)
                 | with_reducible intro _ | with_reducible apply onWf_sat | with_reducible apply openPorts_sat
                 | with_reducible apply phaseEnd_sat | (simp only [SatN_next]))

theorem mapAll_sat (bad : List (Nat × Nat × Nat)) (s : State) (hK : Clo 0x200000 P) (hs0 : Sat P s) :
    Sat P (mapAll bad s).2 := by
  unfold mapAll; (try dsimp only)
  repeat' (first | with_reducible assumption | ((with_reducible refine Clo.mono hK ?_); rfl)
                 | with_reducible intro _ | with_reducible apply Sat_foldl | with_reducible apply markBad_sat
                 | with_reducible apply modSafety_sat | split | (refine snd_sat (by with_reducible assumption) ?_)
                 | (refine some_sat (by with_reducible assumption) ?_)
                 | (refine some2_sat (by with_reducible assumption) ?_) | with_reducible apply SatO_map
                 | with_reducible apply SatO_map2 | with_reducible apply SatO2_mapO
                 | with_reducible apply SatO2_map2 | with_reducible apply Sat_foldl2 | dsimp only)

theorem veFailed_sat (s : State) (b : Nat) (hK : Clo 0x200480 P) (hs0 : Sat P s) : Sat P (veFailed s b) := by
  unfold veFailed; (try dsimp only)
  repeat' (first | with_reducible assumption | ((with_reducible refine Clo.mono hK ?_); rfl)
                 | with_reducible intro _ | with_reducible apply markBad_sat | with_reducible apply modSafety_sat
                 | with_reducible apply modVe_sat | with_reducible apply Sat_ite | split
                 | (simp only [Sat_mk]; refine clo_tele hK rfl (Sat_fold ?_)))

theorem domains_sat (badSegs : List (Nat × Nat × Nat)) (badVes : List Nat) (badHelper : Bool) (s : State)
    (hK : Clo 0xe6c7ba P) (hs0 : Sat P s) : Sat P (domains badSegs badVes badHelper s) := by
  unfold domains; (try dsimp only)
  repeat' (first | with_reducible assumption | ((with_reducible refine Clo.mono hK ?_); rfl)
                 | with_reducible intro _ | with_reducible apply Sat_foldl | with_reducible apply mapAll_sat
                 | with_reducible apply modPower_sat | with_reducible apply startFail_sat
                 | with_reducible apply veFailed_sat | with_reducible apply Sat_ite | split
                 | (simp only [Sat_mk]; refine clo_ves hK rfl (Sat_fold ?_))
                 | (refine snd_sat (by with_reducible assumption) ?_)
                 | (refine some_sat (by with_reducible assumption) ?_)
                 | (refine some2_sat (by with_reducible assumption) ?_) | with_reducible apply SatO_map
                 | with_reducible apply SatO_map2 | with_reducible apply SatO2_mapO
                 | with_reducible apply SatO2_map2 | dsimp only)

theorem execStartupDomains_sat (badSegs : List (Nat × Nat × Nat)) (badVes : List Nat) (badHelper : Bool) (s : State)
    (hK : Clo 0xe6c7ba P) (hs0 : Sat P s) : SatN P (execStartupDomains badSegs badVes badHelper s) := by
  unfold execStartupDomains; (try dsimp only)
  repeat' (first | with_reducible assumption | ((with_reducible refine Clo.mono hK ?_); rfl)
                 | with_reducible intro _ | with_reducible apply domains_sat | with_reducible apply onWf_sat
                 | with_reducible apply phaseEnd_sat | (simp only [SatN_next]))

theorem retireListed_sat (s : State) (e : Nat × Nat × Nat) (hK : Clo 0x20038 P) (hs0 : Sat P s) :
    Sat P (retireListed s e) := by
  unfold retireListed; (try dsimp only)
  repeat' (first | with_reducible assumption | ((with_reducible refine Clo.mono hK ?_); rfl)
                 | with_reducible intro _ | with_reducible apply modBoot_sat | with_reducible apply setSlot_sat
                 | with_reducible apply tierEvent_sat | with_reducible apply Sat_ite | split
                 | (refine snd_sat (by with_reducible assumption) ?_)
                 | (refine some_sat (by with_reducible assumption) ?_)
                 | (refine some2_sat (by with_reducible assumption) ?_) | dsimp only)

theorem applyRetire_sat (s : State) (hK : Clo 0x20038 P) (hs0 : Sat P s) : Sat P (applyRetire s) := by
  unfold applyRetire; (try dsimp only)
  repeat' (first | with_reducible assumption | ((with_reducible refine Clo.mono hK ?_); rfl)
                 | with_reducible intro _ | with_reducible apply Sat_foldl | with_reducible apply retireListed_sat
                 | with_reducible apply Sat_ite | split)

theorem slotsTo_sat (s : State) (t n : Nat) (ks : List Nat) (hK : Clo 0x20000 P) (hs0 : Sat P s) :
    Sat P (slotsTo s t n ks) := by
  unfold slotsTo; (try dsimp only)
  repeat' (first | with_reducible assumption | ((with_reducible refine Clo.mono hK ?_); rfl)
                 | with_reducible intro _ | with_reducible apply Sat_foldl | with_reducible apply setSlot_sat)

theorem memoryUp_sat (rates bad0 bad1 caps : List Nat) (s : State) (hK : Clo 0x46c33a P) (hs0 : Sat P s) :
    Sat P (memoryUp rates bad0 bad1 caps s) := by
  unfold memoryUp; (try dsimp only)
  repeat' (first | with_reducible assumption | ((with_reducible refine Clo.mono hK ?_); rfl)
                 | with_reducible intro _ | with_reducible apply Sat_foldl | with_reducible apply applyRetire_sat
                 | with_reducible apply modTiers_sat | with_reducible apply slotsTo_sat
                 | with_reducible apply startFail_sat | with_reducible apply Sat_getD | with_reducible apply Sat_ite
                 | split | (simp only [Sat_mk]; refine clo_drawers hK rfl (clo_regions hK rfl (Sat_fold ?_)))
                 | (refine snd_sat (by with_reducible assumption) ?_)
                 | (refine some_sat (by with_reducible assumption) ?_)
                 | (refine some2_sat (by with_reducible assumption) ?_) | with_reducible apply SatO_map
                 | with_reducible apply SatO_map2 | with_reducible apply SatO2_mapO
                 | with_reducible apply SatO2_map2 | dsimp only)

theorem execStartupMemory_sat (rates bad0 bad1 caps : List Nat) (s : State) (hK : Clo 0x46c33a P) (hs0 : Sat P s) :
    SatN P (execStartupMemory rates bad0 bad1 caps s) := by
  unfold execStartupMemory; (try dsimp only)
  repeat' (first | with_reducible assumption | ((with_reducible refine Clo.mono hK ?_); rfl)
                 | with_reducible intro _ | with_reducible apply memoryUp_sat | with_reducible apply onWf_sat
                 | with_reducible apply phaseEnd_sat | (simp only [SatN_next]))

theorem tier2Up_sat (ready : List Cxl) (s : State) (hK : Clo 0x20000 P) (hs0 : Sat P s) : Sat P (tier2Up ready s)
    := by
  unfold tier2Up; (try dsimp only)
  repeat' (first | with_reducible assumption | ((with_reducible refine Clo.mono hK ?_); rfl)
                 | with_reducible intro _ | with_reducible apply Sat_foldl | with_reducible apply modTiers_sat
                 | (refine snd_sat (by with_reducible assumption) ?_)
                 | (refine some_sat (by with_reducible assumption) ?_)
                 | (refine some2_sat (by with_reducible assumption) ?_) | dsimp only)

theorem execStartupTier2_sat (ready : List Cxl) (s : State) (hK : Clo 0x20020 P) (hs0 : Sat P s) :
    SatN P (execStartupTier2 ready s) := by
  unfold execStartupTier2; (try dsimp only)
  repeat' (first | with_reducible assumption | ((with_reducible refine Clo.mono hK ?_); rfl)
                 | with_reducible intro _ | with_reducible apply onWf_sat | with_reducible apply phaseEnd_sat
                 | with_reducible apply tier2Up_sat | (simp only [SatN_next]))

theorem iberaineStart_sat (s : State) (hK : Clo 0x40020 P) (hs0 : Sat P s) : Sat P (iberaineStart s) := by
  unfold iberaineStart; (try dsimp only)
  repeat' (first | with_reducible assumption | ((with_reducible refine Clo.mono hK ?_); rfl)
                 | with_reducible intro _ | with_reducible apply modLink_sat | with_reducible apply phaseEnd_sat
                 | with_reducible apply Sat_id | with_reducible apply Sat_ite | split)

theorem execStartupIberaine_sat (s : State) (hK : Clo 0x40020 P) (hs0 : Sat P s) : SatN P (execStartupIberaine s)
    := by
  unfold execStartupIberaine; (try dsimp only)
  repeat' (first | with_reducible assumption | ((with_reducible refine Clo.mono hK ?_); rfl)
                 | with_reducible intro _ | with_reducible apply iberaineStart_sat | with_reducible apply onWf_sat
                 | (simp only [SatN_next]))

theorem helloSend_sat (s : State) (hK : Clo 0x30 P) (hs0 : Sat P s) : Sat P (helloSend s) := by
  unfold helloSend; (try dsimp only)
  repeat' (first | with_reducible assumption | ((with_reducible refine Clo.mono hK ?_); rfl)
                 | with_reducible intro _ | with_reducible apply modBoot_sat | with_reducible apply send_sat
                 | with_reducible apply Sat_id | with_reducible apply Sat_ite | split)

theorem execBootExchangeHello_sat (s : State) (hK : Clo 0x30 P) (hs0 : Sat P s) : SatN P (execBootExchangeHello s)
    := by
  unfold execBootExchangeHello; (try dsimp only)
  repeat' (first | with_reducible assumption | ((with_reducible refine Clo.mono hK ?_); rfl)
                 | with_reducible intro _ | with_reducible apply helloSend_sat | with_reducible apply onWf_sat
                 | (simp only [SatN_next]))

theorem bootPacket_sat (btype : Nat) (pkt : List Byte) (f : State → State) (s : State) (hK : Clo 0x40000 P)
    (hf : ∀ x0, Sat P x0 → Sat P (f x0)) (hs0 : Sat P s) : Sat P (bootPacket btype pkt f s) := by
  unfold bootPacket; (try dsimp only)
  repeat' (first | with_reducible assumption | ((with_reducible refine Clo.mono hK ?_); rfl)
                 | with_reducible intro _ | with_reducible apply takeMessage_sat | with_reducible apply hf
                 | with_reducible apply Sat_ite | split)

theorem imagePiece_sat (pkt : List Byte) (s : State) (hK : Clo 0x10020 P) (hs0 : Sat P s) : Sat P (imagePiece pkt s)
    := by
  unfold imagePiece; (try dsimp only)
  repeat' (first | with_reducible assumption | ((with_reducible refine Clo.mono hK ?_); rfl)
                 | with_reducible intro _ | with_reducible apply modBoot_sat | with_reducible apply Sat_ite | split
                 | (simp only [Sat_mk]; refine clo_mem hK rfl ?_ (Sat_fold ?_))
                 | (refine snd_sat (by with_reducible assumption) ?_)
                 | (refine some_sat (by with_reducible assumption) ?_)
                 | (refine some2_sat (by with_reducible assumption) ?_) | dsimp only
                 | (simp only [memsWf_iff] at *; simp_all only [wf_mwrite, wf_mzero, wf_nil, and_self, true_and, and_true]; done)
                 | exact wf_mwrite _ _ (tierMem_wf (by assumption) _)
                 | exact wf_mzero _ _ (tierMem_wf (by assumption) _)
                 | exact wf_mcopy _ _ _ _ (tierMem_wf (by assumption) _) | exact reset_wf)

theorem execBootImagePiece_sat (pkt : List Byte) (s : State) (hK : Clo 0x50020 P) (hs0 : Sat P s) :
    SatN P (execBootImagePiece pkt s) := by
  unfold execBootImagePiece; (try dsimp only)
  repeat' (first | with_reducible assumption | ((with_reducible refine Clo.mono hK ?_); rfl)
                 | with_reducible intro _ | with_reducible apply bootPacket_sat
                 | with_reducible apply imagePiece_sat | with_reducible apply onWf_sat | (simp only [SatN_next]))

theorem fabcfgPiece_sat (pkt : List Byte) (s : State) (hK : Clo 0x50020 P) (hs0 : Sat P s) :
    Sat P (fabcfgPiece pkt s) := by
  unfold fabcfgPiece; (try dsimp only)
  repeat' (first | with_reducible assumption | ((with_reducible refine Clo.mono hK ?_); rfl)
                 | with_reducible intro _ | with_reducible apply modBoot_sat | with_reducible apply modFabric_sat
                 | with_reducible apply Sat_ite | split
                 | (simp only [Sat_mk]; refine clo_mem hK rfl ?_ (Sat_fold ?_))
                 | (refine snd_sat (by with_reducible assumption) ?_)
                 | (refine some_sat (by with_reducible assumption) ?_)
                 | (refine some2_sat (by with_reducible assumption) ?_) | dsimp only
                 | (simp only [memsWf_iff] at *; simp_all only [wf_mwrite, wf_mzero, wf_nil, and_self, true_and, and_true]; done)
                 | exact wf_mwrite _ _ (tierMem_wf (by assumption) _)
                 | exact wf_mzero _ _ (tierMem_wf (by assumption) _)
                 | exact wf_mcopy _ _ _ _ (tierMem_wf (by assumption) _) | exact reset_wf)

theorem execBootFabcfgPiece_sat (pkt : List Byte) (s : State) (hK : Clo 0x50020 P) (hs0 : Sat P s) :
    SatN P (execBootFabcfgPiece pkt s) := by
  unfold execBootFabcfgPiece; (try dsimp only)
  repeat' (first | with_reducible assumption | ((with_reducible refine Clo.mono hK ?_); rfl)
                 | with_reducible intro _ | with_reducible apply bootPacket_sat
                 | with_reducible apply fabcfgPiece_sat | with_reducible apply onWf_sat | (simp only [SatN_next]))

theorem retirePiece_sat (pkt : List Byte) (s : State) (hK : Clo 0x10020 P) (hs0 : Sat P s) :
    Sat P (retirePiece pkt s) := by
  unfold retirePiece; (try dsimp only)
  repeat' (first | with_reducible assumption | ((with_reducible refine Clo.mono hK ?_); rfl)
                 | with_reducible intro _ | with_reducible apply modBoot_sat
                 | (simp only [Sat_mk]; refine clo_mem hK rfl ?_ (Sat_fold ?_))
                 | (refine snd_sat (by with_reducible assumption) ?_)
                 | (refine some_sat (by with_reducible assumption) ?_)
                 | (refine some2_sat (by with_reducible assumption) ?_) | dsimp only
                 | (simp only [memsWf_iff] at *; simp_all only [wf_mwrite, wf_mzero, wf_nil, and_self, true_and, and_true]; done)
                 | exact wf_mwrite _ _ (tierMem_wf (by assumption) _)
                 | exact wf_mzero _ _ (tierMem_wf (by assumption) _)
                 | exact wf_mcopy _ _ _ _ (tierMem_wf (by assumption) _) | exact reset_wf)

theorem execBootRetirePiece_sat (pkt : List Byte) (s : State) (hK : Clo 0x50020 P) (hs0 : Sat P s) :
    SatN P (execBootRetirePiece pkt s) := by
  unfold execBootRetirePiece; (try dsimp only)
  repeat' (first | with_reducible assumption | ((with_reducible refine Clo.mono hK ?_); rfl)
                 | with_reducible intro _ | with_reducible apply bootPacket_sat | with_reducible apply onWf_sat
                 | with_reducible apply retirePiece_sat | (simp only [SatN_next]))

theorem bootStartIn_sat (pkt : List Byte) (s : State) (hK : Clo 0x20 P) (hs0 : Sat P s) : Sat P (bootStartIn pkt s)
    := by
  unfold bootStartIn; (try dsimp only)
  repeat' (first | with_reducible assumption | ((with_reducible refine Clo.mono hK ?_); rfl)
                 | with_reducible intro _ | with_reducible apply modBoot_sat | with_reducible apply Sat_ite | split)

theorem execBootStart_sat (pkt : List Byte) (s : State) (hK : Clo 0x40020 P) (hs0 : Sat P s) :
    SatN P (execBootStart pkt s) := by
  unfold execBootStart; (try dsimp only)
  repeat' (first | with_reducible assumption | ((with_reducible refine Clo.mono hK ?_); rfl)
                 | with_reducible intro _ | with_reducible apply bootPacket_sat
                 | with_reducible apply bootStartIn_sat | with_reducible apply onWf_sat | (simp only [SatN_next]))

theorem fabAccept_sat (s : State) (hK : Clo 0x40020 P) (hs0 : Sat P s) : Sat P (fabAccept s) := by
  unfold fabAccept; (try dsimp only)
  repeat' (first | with_reducible assumption | ((with_reducible refine Clo.mono hK ?_); rfl)
                 | with_reducible intro _ | with_reducible apply modBoot_sat | with_reducible apply modFabric_sat
                 | (refine snd_sat (by with_reducible assumption) ?_)
                 | (refine some_sat (by with_reducible assumption) ?_)
                 | (refine some2_sat (by with_reducible assumption) ?_) | with_reducible apply SatO_map
                 | with_reducible apply SatO_map2 | with_reducible apply SatO2_mapO
                 | with_reducible apply SatO2_map2 | dsimp only)

theorem judgeImage_sat (s : State) (hK : Clo 0x10020 P) (hs0 : Sat P s) : Sat P (judgeImage s).2 := by
  unfold judgeImage; (try dsimp only)
  repeat' (first | with_reducible assumption | ((with_reducible refine Clo.mono hK ?_); rfl)
                 | with_reducible intro _ | with_reducible apply modBoot_sat | with_reducible apply Sat_ite
                 | with_reducible apply Sat2_ite | split
                 | (simp only [Sat_mk]; refine clo_mem hK rfl ?_ (Sat_fold ?_))
                 | (refine snd_sat (by with_reducible assumption) ?_)
                 | (refine some_sat (by with_reducible assumption) ?_)
                 | (refine some2_sat (by with_reducible assumption) ?_) | dsimp only
                 | (simp only [memsWf_iff] at *; simp_all only [wf_mwrite, wf_mzero, wf_nil, and_self, true_and, and_true]; done)
                 | exact wf_mwrite _ _ (tierMem_wf (by assumption) _)
                 | exact wf_mzero _ _ (tierMem_wf (by assumption) _)
                 | exact wf_mcopy _ _ _ _ (tierMem_wf (by assumption) _) | exact reset_wf)

theorem judgeFab_sat (s : State) (hK : Clo 0x50020 P) (hs0 : Sat P s) : Sat P (judgeFab s).2 := by
  unfold judgeFab; (try dsimp only)
  repeat' (first | with_reducible assumption | ((with_reducible refine Clo.mono hK ?_); rfl)
                 | with_reducible intro _ | with_reducible apply fabAccept_sat | with_reducible apply modBoot_sat
                 | with_reducible apply Sat_ite | with_reducible apply Sat2_ite | split
                 | (simp only [Sat_mk]; refine clo_mem hK rfl ?_ (Sat_fold ?_))
                 | (refine snd_sat (by with_reducible assumption) ?_)
                 | (refine some_sat (by with_reducible assumption) ?_)
                 | (refine some2_sat (by with_reducible assumption) ?_) | dsimp only
                 | (simp only [memsWf_iff] at *; simp_all only [wf_mwrite, wf_mzero, wf_nil, and_self, true_and, and_true]; done)
                 | exact wf_mwrite _ _ (tierMem_wf (by assumption) _)
                 | exact wf_mzero _ _ (tierMem_wf (by assumption) _)
                 | exact wf_mcopy _ _ _ _ (tierMem_wf (by assumption) _) | exact reset_wf)

theorem judgeRetire_sat (s : State) (hK : Clo 0x30038 P) (hs0 : Sat P s) : Sat P (judgeRetire s).2 := by
  unfold judgeRetire; (try dsimp only)
  repeat' (first | with_reducible assumption | ((with_reducible refine Clo.mono hK ?_); rfl)
                 | with_reducible intro _ | with_reducible apply applyRetire_sat | with_reducible apply modBoot_sat
                 | with_reducible apply Sat_ite | with_reducible apply Sat2_ite | split
                 | (simp only [Sat_mk]; refine clo_mem hK rfl ?_ (Sat_fold ?_))
                 | (refine snd_sat (by with_reducible assumption) ?_)
                 | (refine some_sat (by with_reducible assumption) ?_)
                 | (refine some2_sat (by with_reducible assumption) ?_) | dsimp only
                 | (simp only [memsWf_iff] at *; simp_all only [wf_mwrite, wf_mzero, wf_nil, and_self, true_and, and_true]; done)
                 | exact wf_mwrite _ _ (tierMem_wf (by assumption) _)
                 | exact wf_mzero _ _ (tierMem_wf (by assumption) _)
                 | exact wf_mcopy _ _ _ _ (tierMem_wf (by assumption) _) | exact reset_wf)

theorem verifyBoot_sat (s : State) (hK : Clo 0x70038 P) (hs0 : Sat P s) : Sat P (verifyBoot s) := by
  unfold verifyBoot; (try dsimp only)
  repeat' (first | with_reducible assumption | ((with_reducible refine Clo.mono hK ?_); rfl)
                 | with_reducible intro _ | with_reducible apply judgeFab_sat | with_reducible apply judgeImage_sat
                 | with_reducible apply judgeRetire_sat | with_reducible apply modBoot_sat
                 | with_reducible apply send_sat | with_reducible apply Sat_ite | split
                 | (refine snd_sat (by with_reducible assumption) ?_)
                 | (refine some_sat (by with_reducible assumption) ?_)
                 | (refine some2_sat (by with_reducible assumption) ?_) | dsimp only)

theorem execStartupVerification_sat (s : State) (hK : Clo 0x70038 P) (hs0 : Sat P s) :
    SatN P (execStartupVerification s) := by
  unfold execStartupVerification; (try dsimp only)
  repeat' (first | with_reducible assumption | ((with_reducible refine Clo.mono hK ?_); rfl)
                 | with_reducible intro _ | with_reducible apply onWf_sat | with_reducible apply verifyBoot_sat
                 | (simp only [SatN_next]))

theorem fabricPhase_sat (s : State) (hK : Clo 0x40060 P) (hs0 : Sat P s) : Sat P (fabricPhase s) := by
  unfold fabricPhase; (try dsimp only)
  repeat' (first | with_reducible assumption | ((with_reducible refine Clo.mono hK ?_); rfl)
                 | with_reducible intro _ | with_reducible apply Sat_foldl | with_reducible apply modLands_sat
                 | with_reducible apply modLink_sat | with_reducible apply phaseEnd_sat
                 | with_reducible apply Sat_ite | split | (refine snd_sat (by with_reducible assumption) ?_)
                 | (refine some_sat (by with_reducible assumption) ?_)
                 | (refine some2_sat (by with_reducible assumption) ?_) | dsimp only)

theorem execStartupFabric_sat (s : State) (hK : Clo 0x40060 P) (hs0 : Sat P s) : SatN P (execStartupFabric s) := by
  unfold execStartupFabric; (try dsimp only)
  repeat' (first | with_reducible assumption | ((with_reducible refine Clo.mono hK ?_); rfl)
                 | with_reducible intro _ | with_reducible apply fabricPhase_sat | with_reducible apply onWf_sat
                 | (simp only [SatN_next]))

theorem raiseSvn_sat (s : State) (hK : Clo 0x20 P) (hs0 : Sat P s) : Sat P (raiseSvn s) := by
  unfold raiseSvn; (try dsimp only)
  repeat' (first | with_reducible assumption | ((with_reducible refine Clo.mono hK ?_); rfl)
                 | with_reducible intro _ | with_reducible apply modBoot_sat | with_reducible apply Sat_ite | split)

theorem loadFirmware_sat (s : State) (hK : Clo 0x10020 P) (hs0 : Sat P s) : Sat P (loadFirmware s) := by
  unfold loadFirmware
  generalize 0x500000 = a
  generalize 0x100000 = b
  dsimp only
  with_reducible apply modBoot_sat
  exact Clo.mono hK rfl
  simp only [Sat_mk]
  refine clo_mem hK rfl ?_ (Sat_fold (raiseSvn_sat _ (Clo.mono hK rfl) hs0))
  intro h
  rw [memsWf_iff] at *
  obtain ⟨h0, h1, h2, h3, h4, h5, h6⟩ := h
  refine ⟨h0, h1, h2, h3, h4, h5, ?_⟩
  with_reducible apply wf_mwrite
  with_reducible apply wf_mwrite
  with_reducible apply wf_mzero
  exact h6

theorem execStartupServiceFirmware_sat (s : State) (hK : Clo 0x10020 P) (hs0 : Sat P s) :
    SatN P (execStartupServiceFirmware s) := by
  unfold execStartupServiceFirmware; (try dsimp only)
  repeat' (first | with_reducible assumption | ((with_reducible refine Clo.mono hK ?_); rfl)
                 | with_reducible intro _ | with_reducible apply loadFirmware_sat | with_reducible apply onWf_sat
                 | with_reducible apply phaseEnd_sat | (simp only [SatN_next]))

theorem readyNow_sat (s : State) (hK : Clo 0x220038 P) (hs0 : Sat P s) : Sat P (readyNow s) := by
  unfold readyNow; (try dsimp only)
  repeat' (first | with_reducible assumption | ((with_reducible refine Clo.mono hK ?_); rfl)
                 | with_reducible intro _ | with_reducible apply event_sat | with_reducible apply modBoot_sat
                 | with_reducible apply modSafety_sat | with_reducible apply modTiers_sat
                 | with_reducible apply Sat_ite | split | (refine snd_sat (by with_reducible assumption) ?_)
                 | (refine some_sat (by with_reducible assumption) ?_)
                 | (refine some2_sat (by with_reducible assumption) ?_) | dsimp only)

theorem execStartupReady_sat (s : State) (hK : Clo 0x220038 P) (hs0 : Sat P s) : SatN P (execStartupReady s) := by
  unfold execStartupReady; (try dsimp only)
  repeat' (first | with_reducible assumption | ((with_reducible refine Clo.mono hK ?_); rfl)
                 | with_reducible intro _ | with_reducible apply onWf_sat | with_reducible apply phaseEnd_sat
                 | with_reducible apply readyNow_sat | (simp only [SatN_next]))

theorem divergence_sat (s : State) (hK : Clo 0x66f77a P) (hs0 : Sat P s) : Sat P (divergence s) := by
  unfold divergence; (try dsimp only)
  repeat' (first | with_reducible assumption | ((with_reducible refine Clo.mono hK ?_); rfl)
                 | with_reducible intro _ | with_reducible apply everyStepFault_sat
                 | with_reducible apply modBoot_sat | with_reducible apply Sat_ite | split)

theorem execLockstepDivergence_sat (s : State) (hK : Clo 0x66f77a P) (hs0 : Sat P s) :
    SatN P (execLockstepDivergence s) := by
  unfold execLockstepDivergence; (try dsimp only)
  repeat' (first | with_reducible assumption | ((with_reducible refine Clo.mono hK ?_); rfl)
                 | with_reducible intro _ | with_reducible apply divergence_sat | with_reducible apply onWf_sat
                 | (simp only [SatN_next]))

theorem discardSf_sat (s : State) (hK : Clo 0x10020 P) (hs0 : Sat P s) : Sat P (discardSf s) := by
  unfold discardSf; (try dsimp only)
  repeat' (first | with_reducible assumption | ((with_reducible refine Clo.mono hK ?_); rfl)
                 | with_reducible intro _ | with_reducible apply modBoot_sat
                 | (simp only [Sat_mk]; refine clo_mem hK rfl ?_ (Sat_fold ?_))
                 | (simp only [memsWf_iff] at *; simp_all only [wf_mwrite, wf_mzero, wf_nil, and_self, true_and, and_true]; done)
                 | exact wf_mwrite _ _ (tierMem_wf (by assumption) _)
                 | exact wf_mzero _ _ (tierMem_wf (by assumption) _)
                 | exact wf_mcopy _ _ _ _ (tierMem_wf (by assumption) _) | exact reset_wf)

theorem recoverVes_sat (s : State) (p : Nat) (hK : Clo 0x20600 P) (hs0 : Sat P s) : Sat P (recoverVes s p) := by
  unfold recoverVes; (try dsimp only)
  repeat' (first | with_reducible assumption | ((with_reducible refine Clo.mono hK ?_); rfl)
                 | with_reducible apply Sat_foldl | with_reducible intro _ | with_reducible apply enterBuffer_sat)

theorem recovery_sat (failA failB : Bool) (s : State) (hK : Clo 0x47f73a P) (hs0 : Sat P s) :
    Sat P (recovery failA failB s) := by
  unfold recovery; (try dsimp only)
  repeat' (first | with_reducible assumption | ((with_reducible refine Clo.mono hK ?_); rfl)
                 | with_reducible intro _ | with_reducible apply Sat_foldl | with_reducible apply discardSf_sat
                 | with_reducible apply modBoot_sat | with_reducible apply partitionReset_sat
                 | with_reducible apply recoverVes_sat | with_reducible apply safeState_sat
                 | with_reducible apply Sat_ite | split | (refine snd_sat (by with_reducible assumption) ?_)
                 | (refine some_sat (by with_reducible assumption) ?_)
                 | (refine some2_sat (by with_reducible assumption) ?_) | dsimp only)

theorem execControlRecovery_sat (failA failB : Bool) (s : State) (hK : Clo 0x47f73a P) (hs0 : Sat P s) :
    SatN P (execControlRecovery failA failB s) := by
  unfold execControlRecovery; (try dsimp only)
  repeat' (first | with_reducible assumption | ((with_reducible refine Clo.mono hK ?_); rfl)
                 | with_reducible intro _ | with_reducible apply onWf_sat | with_reducible apply recovery_sat
                 | (simp only [SatN_next]))

theorem teleRenew_sat (west east : Int) (blocks : List (Nat × Nat × Int)) (s : State) (hK : Clo 0x80 P) (hs0 :
    Sat P s) : Sat P (teleRenew west east blocks s) := by
  unfold teleRenew; (try dsimp only)
  repeat' (first | with_reducible assumption | ((with_reducible refine Clo.mono hK ?_); rfl)
                 | with_reducible intro _ | with_reducible apply Sat_foldl
                 | (simp only [Sat_mk]; refine clo_tele hK rfl (Sat_fold ?_)))

theorem execTelemetryRenewal_sat (west east : Int) (blocks : List (Nat × Nat × Int)) (s : State) (hK : Clo 0x80 P)
    (hs0 : Sat P s) : SatN P (execTelemetryRenewal west east blocks s) := by
  unfold execTelemetryRenewal; (try dsimp only)
  repeat' (first | with_reducible assumption | ((with_reducible refine Clo.mono hK ?_); rfl)
                 | with_reducible intro _ | with_reducible apply onWf_sat | with_reducible apply teleRenew_sat
                 | (simp only [SatN_next]))

/-! ### Ports -/

theorem modMgmt_sat (s : State) (m : Nat) (f : Mgmt → Mgmt) (hK : Clo 0x180000 P) (hs0 : Sat P s) :
    Sat P (modMgmt s m f) := by
  unfold modMgmt; (try dsimp only)
  repeat' (first | with_reducible assumption | ((with_reducible refine Clo.mono hK ?_); rfl)
                 | with_reducible intro _ | with_reducible apply setMgmt_sat)

theorem execEntdaa_sat (port addr : Nat) (s : State) (hK : Clo 0x180000 P) (hs0 : Sat P s) :
    SatN P (execEntdaa port addr s) := by
  unfold execEntdaa; (try dsimp only)
  repeat' (first | with_reducible assumption | ((with_reducible refine Clo.mono hK ?_); rfl)
                 | with_reducible intro _ | with_reducible apply modMgmt_sat | with_reducible apply onWf_sat | split
                 | (simp only [SatN_next]))

theorem execSetdasa_sat (port static addr : Nat) (s : State) (hK : Clo 0x180000 P) (hs0 : Sat P s) :
    SatN P (execSetdasa port static addr s) := by
  unfold execSetdasa; (try dsimp only)
  repeat' (first | with_reducible assumption | ((with_reducible refine Clo.mono hK ?_); rfl)
                 | with_reducible intro _ | with_reducible apply modMgmt_sat | with_reducible apply onWf_sat | split
                 | (simp only [SatN_next]))

theorem mctpRow_sat (port : Nat) (f : State → State × Nat × Nat × List Byte) (s : State) (hf : ∀ s, Sat P s →
    Sat P (f s).1)
    (hK : Clo 0x180010 P) (hs0 : Sat P s) : Sat P (mctpRow port f s) := by
  unfold mctpRow
  refine Sat_ite ?_ hs0
  exact send_sat _ _ _ (Clo.mono hK rfl) (hf _ (managerSeen_sat _ _ (Clo.mono hK rfl) hs0))

theorem setEid_sat (port op eid : Nat) (s : State) (hK : Clo 0x180000 P) (hs0 : Sat P s) :
    Sat P (setEid port op eid s).1 := by
  unfold setEid; (try dsimp only)
  repeat' (first | with_reducible assumption | ((with_reducible refine Clo.mono hK ?_); rfl)
                 | with_reducible intro _ | with_reducible apply modMgmt_sat | with_reducible apply Sat_ite | split)

theorem execSetEndpointId_sat (port op eid : Nat) (s : State) (hK : Clo 0x180010 P) (hs0 : Sat P s) :
    SatN P (execSetEndpointId port op eid s) := by
  unfold execSetEndpointId; (try dsimp only)
  repeat' (first | with_reducible assumption | ((with_reducible refine Clo.mono hK ?_); rfl)
                 | with_reducible intro _ | with_reducible apply mctpRow_sat | with_reducible apply onWf_sat
                 | with_reducible apply setEid_sat | (simp only [SatN_next]))

theorem execGetEndpointId_sat (port : Nat) (s : State) (hK : Clo 0x180010 P) (hs0 : Sat P s) :
    SatN P (execGetEndpointId port s) := by
  unfold execGetEndpointId; (try dsimp only)
  repeat' (first | with_reducible assumption | ((with_reducible refine Clo.mono hK ?_); rfl)
                 | with_reducible intro _ | with_reducible apply mctpRow_sat | with_reducible apply onWf_sat
                 | (simp only [SatN_next]))

theorem execGetMctpVersionSupport_sat (port msgType : Nat) (s : State) (hK : Clo 0x180010 P) (hs0 : Sat P s) :
    SatN P (execGetMctpVersionSupport port msgType s) := by
  unfold execGetMctpVersionSupport; (try dsimp only)
  repeat' (first | with_reducible assumption | ((with_reducible refine Clo.mono hK ?_); rfl)
                 | with_reducible intro _ | with_reducible apply mctpRow_sat | with_reducible apply onWf_sat
                 | with_reducible apply Sat_ite | split | (simp only [SatN_next])
                 | (refine snd_sat (by with_reducible assumption) ?_)
                 | (refine some_sat (by with_reducible assumption) ?_)
                 | (refine some2_sat (by with_reducible assumption) ?_) | dsimp only)

theorem execGetMessageTypeSupport_sat (port : Nat) (s : State) (hK : Clo 0x180010 P) (hs0 : Sat P s) :
    SatN P (execGetMessageTypeSupport port s) := by
  unfold execGetMessageTypeSupport; (try dsimp only)
  repeat' (first | with_reducible assumption | ((with_reducible refine Clo.mono hK ?_); rfl)
                 | with_reducible intro _ | with_reducible apply mctpRow_sat | with_reducible apply onWf_sat
                 | (simp only [SatN_next]))

theorem execMctpUnsupportedControl_sat (port code : Nat) (s : State) (hK : Clo 0x180010 P) (hs0 : Sat P s) :
    SatN P (execMctpUnsupportedControl port code s) := by
  unfold execMctpUnsupportedControl; (try dsimp only)
  repeat' (first | with_reducible assumption | ((with_reducible refine Clo.mono hK ?_); rfl)
                 | with_reducible intro _ | with_reducible apply mctpRow_sat | with_reducible apply onWf_sat | split
                 | (simp only [SatN_next]))

theorem managerLost_sat (m : Nat) (s : State) (hK : Clo 0x180018 P) (hs0 : Sat P s) : Sat P (managerLost m s) := by
  unfold managerLost; (try dsimp only)
  repeat' (first | with_reducible assumption | ((with_reducible refine Clo.mono hK ?_); rfl)
                 | with_reducible apply event_sat | with_reducible apply setMgmt_sat | with_reducible apply Sat_ite
                 | split | (refine snd_sat (by with_reducible assumption) ?_)
                 | (refine some_sat (by with_reducible assumption) ?_)
                 | (refine some2_sat (by with_reducible assumption) ?_) | dsimp only)

theorem execRackManagerLost_sat (m : Nat) (s : State) (hK : Clo 0x180018 P) (hs0 : Sat P s) :
    SatN P (execRackManagerLost m s) := by
  unfold execRackManagerLost; (try dsimp only)
  repeat' (first | with_reducible assumption | ((with_reducible refine Clo.mono hK ?_); rfl)
                 | with_reducible intro _ | with_reducible apply managerLost_sat | with_reducible apply onWf_sat
                 | (simp only [SatN_next]))

theorem noVersion_sat (s : State) (hK : Clo 0x40018 P) (hs0 : Sat P s) : Sat P (noVersion s) := by
  unfold noVersion; (try dsimp only)
  repeat' (first | with_reducible assumption | ((with_reducible refine Clo.mono hK ?_); rfl)
                 | with_reducible intro _ | with_reducible apply iberaineEvent_sat
                 | with_reducible apply modFabric_sat | with_reducible apply modLink_sat
                 | (refine snd_sat (by with_reducible assumption) ?_)
                 | (refine some_sat (by with_reducible assumption) ?_)
                 | (refine some2_sat (by with_reducible assumption) ?_) | dsimp only)

theorem iberainePass_sat (info : TrainInfo) (s : State) (hK : Clo 0x40018 P) (hs0 : Sat P s) :
    Sat P (iberainePass info s) := by
  unfold iberainePass; (try dsimp only)
  repeat' (first | with_reducible assumption | ((with_reducible refine Clo.mono hK ?_); rfl)
                 | with_reducible intro _ | with_reducible apply Sat_elim | with_reducible apply enterActivate_sat
                 | with_reducible apply noVersion_sat | with_reducible apply toState_sat
                 | with_reducible apply Sat_getD | with_reducible apply Sat_id | with_reducible apply Sat_ite
                 | split | (refine snd_sat (by with_reducible assumption) ?_)
                 | (refine some_sat (by with_reducible assumption) ?_)
                 | (refine some2_sat (by with_reducible assumption) ?_) | dsimp only)

theorem execIberaineStatePass_sat (info : TrainInfo) (s : State) (hK : Clo 0x40018 P) (hs0 : Sat P s) :
    SatN P (execIberaineStatePass info s) := by
  unfold execIberaineStatePass; (try dsimp only)
  repeat' (first | with_reducible assumption | ((with_reducible refine Clo.mono hK ?_); rfl)
                 | with_reducible intro _ | with_reducible apply iberainePass_sat | with_reducible apply onWf_sat
                 | (simp only [SatN_next]))

theorem iberaineOver_sat (s : State) (hK : Clo 0x40000 P) (hs0 : Sat P s) : Sat P (iberaineOver s) := by
  unfold iberaineOver; (try dsimp only)
  repeat' (first | with_reducible assumption | ((with_reducible refine Clo.mono hK ?_); rfl)
                 | with_reducible intro _ | with_reducible apply toState_sat | with_reducible apply Sat_id
                 | with_reducible apply Sat_ite | split | (refine snd_sat (by with_reducible assumption) ?_)
                 | (refine some_sat (by with_reducible assumption) ?_)
                 | (refine some2_sat (by with_reducible assumption) ?_) | dsimp only)

theorem execIberaineStateLimit_sat (s : State) (hK : Clo 0x40000 P) (hs0 : Sat P s) :
    SatN P (execIberaineStateLimit s) := by
  unfold execIberaineStateLimit; (try dsimp only)
  repeat' (first | with_reducible assumption | ((with_reducible refine Clo.mono hK ?_); rfl)
                 | with_reducible intro _ | with_reducible apply iberaineOver_sat | with_reducible apply onWf_sat
                 | (simp only [SatN_next]))

theorem lightRetry_sat (s : State) (hK : Clo 0x40000 P) (hs0 : Sat P s) : Sat P (lightRetry s) := by
  unfold lightRetry; (try dsimp only)
  repeat' (first | with_reducible assumption | ((with_reducible refine Clo.mono hK ?_); rfl)
                 | with_reducible intro _ | with_reducible apply modFabric_sat | with_reducible apply toState_sat
                 | with_reducible apply Sat_id | with_reducible apply Sat_ite | split)

theorem execIberaineLightRetry_sat (s : State) (hK : Clo 0x40000 P) (hs0 : Sat P s) :
    SatN P (execIberaineLightRetry s) := by
  unfold execIberaineLightRetry; (try dsimp only)
  repeat' (first | with_reducible assumption | ((with_reducible refine Clo.mono hK ?_); rfl)
                 | with_reducible intro _ | with_reducible apply lightRetry_sat | with_reducible apply onWf_sat
                 | (simp only [SatN_next]))

/-! ### Remote -/

theorem refuseRemote_sat (s : State) (t : Txn) (hK : Clo 0x118 P) (hs0 : Sat P s) : Sat P (refuseRemote s t) := by
  unfold refuseRemote; (try dsimp only)
  repeat' (first | with_reducible assumption | ((with_reducible refine Clo.mono hK ?_); rfl)
                 | with_reducible apply isolation_sat)

theorem serveRemote_sat (s : State) (t : Txn) (hK : Clo 0x60000 P) (hs0 : Sat P s) : Sat P (serveRemote s t) := by
  unfold serveRemote; (try dsimp only)
  repeat' (first | with_reducible assumption | ((with_reducible refine Clo.mono hK ?_); rfl)
                 | with_reducible intro _ | with_reducible apply modFabric_sat | with_reducible apply pend_sat
                 | with_reducible apply Sat_ite | split | (refine snd_sat (by with_reducible assumption) ?_)
                 | (refine some_sat (by with_reducible assumption) ?_)
                 | (refine some2_sat (by with_reducible assumption) ?_) | dsimp only)

theorem remoteAccess_sat (t : Txn) (ttype : Nat) (agree : Bool) (s : State) (hK : Clo 0x260158 P) (hs0 : Sat P s) :
    Sat P (remoteAccess t ttype agree s) := by
  unfold remoteAccess; (try dsimp only)
  repeat' (first | with_reducible assumption | ((with_reducible refine Clo.mono hK ?_); rfl)
                 | with_reducible intro _ | with_reducible apply refuseChecked_sat
                 | with_reducible apply refuseRemote_sat | with_reducible apply serveRemote_sat
                 | with_reducible apply takeTxn_sat | with_reducible apply Sat_ite | split)

theorem execRemoteRead_sat (t : Txn) (agree : Bool) (s : State) (hK : Clo 0x260158 P) (hs0 : Sat P s) :
    SatN P (execRemoteRead t agree s) := by
  unfold execRemoteRead; (try dsimp only)
  repeat' (first | with_reducible assumption | ((with_reducible refine Clo.mono hK ?_); rfl)
                 | with_reducible intro _ | with_reducible apply onWf_sat | with_reducible apply remoteAccess_sat
                 | (simp only [SatN_next]))

theorem execRemoteWrite_sat (t : Txn) (agree : Bool) (s : State) (hK : Clo 0x260158 P) (hs0 : Sat P s) :
    SatN P (execRemoteWrite t agree s) := by
  unfold execRemoteWrite; (try dsimp only)
  repeat' (first | with_reducible assumption | ((with_reducible refine Clo.mono hK ?_); rfl)
                 | with_reducible intro _ | with_reducible apply onWf_sat | with_reducible apply remoteAccess_sat
                 | (simp only [SatN_next]))

theorem execRemoteAtomic_sat (t : Txn) (agree : Bool) (s : State) (hK : Clo 0x260158 P) (hs0 : Sat P s) :
    SatN P (execRemoteAtomic t agree s) := by
  unfold execRemoteAtomic; (try dsimp only)
  repeat' (first | with_reducible assumption | ((with_reducible refine Clo.mono hK ?_); rfl)
                 | with_reducible intro _ | with_reducible apply onWf_sat | with_reducible apply remoteAccess_sat
                 | (simp only [SatN_next]))

theorem remoteFence_sat (t : Txn) (s : State) (hK : Clo 0x40118 P) (hs0 : Sat P s) : Sat P (remoteFence t s) := by
  unfold remoteFence; (try dsimp only)
  repeat' (first | with_reducible assumption | ((with_reducible refine Clo.mono hK ?_); rfl)
                 | with_reducible intro _ | with_reducible apply answerTxn_sat
                 | with_reducible apply refuseRemote_sat | with_reducible apply takeTxn_sat
                 | with_reducible apply Sat_ite | split)

theorem execRemoteFence_sat (t : Txn) (s : State) (hK : Clo 0x40118 P) (hs0 : Sat P s) :
    SatN P (execRemoteFence t s) := by
  unfold execRemoteFence; (try dsimp only)
  repeat' (first | with_reducible assumption | ((with_reducible refine Clo.mono hK ?_); rfl)
                 | with_reducible intro _ | with_reducible apply onWf_sat | with_reducible apply remoteFence_sat
                 | (simp only [SatN_next]))

theorem responseIn_sat (t : Txn) (s : State) (hK : Clo 0x46c51a P) (hs0 : Sat P s) : Sat P (responseIn t s) := by
  unfold responseIn; (try dsimp only)
  repeat' (first | with_reducible assumption | ((with_reducible refine Clo.mono hK ?_); rfl)
                 | with_reducible intro _ | with_reducible apply dropTransfer_sat
                 | with_reducible apply finishTransfer_sat | with_reducible apply modFabric_sat
                 | with_reducible apply Sat_id | with_reducible apply Sat_ite | split
                 | (refine snd_sat (by with_reducible assumption) ?_)
                 | (refine some_sat (by with_reducible assumption) ?_)
                 | (refine some2_sat (by with_reducible assumption) ?_) | dsimp only)

theorem execReadRsp_sat (t : Txn) (s : State) (hK : Clo 0x46c51a P) (hs0 : Sat P s) : SatN P (execReadRsp t s) := by
  unfold execReadRsp; (try dsimp only)
  repeat' (first | with_reducible assumption | ((with_reducible refine Clo.mono hK ?_); rfl)
                 | with_reducible intro _ | with_reducible apply onWf_sat | with_reducible apply responseIn_sat
                 | with_reducible apply takeTxn_sat | (simp only [SatN_next]))

theorem execWriteCpl_sat (t : Txn) (s : State) (hK : Clo 0x46c51a P) (hs0 : Sat P s) : SatN P (execWriteCpl t s) := by
  unfold execWriteCpl; (try dsimp only)
  repeat' (first | with_reducible assumption | ((with_reducible refine Clo.mono hK ?_); rfl)
                 | with_reducible intro _ | with_reducible apply onWf_sat | with_reducible apply responseIn_sat
                 | with_reducible apply takeTxn_sat | (simp only [SatN_next]))

theorem execAtomicRsp_sat (t : Txn) (s : State) (hK : Clo 0x46c51a P) (hs0 : Sat P s) : SatN P (execAtomicRsp t s)
    := by
  unfold execAtomicRsp; (try dsimp only)
  repeat' (first | with_reducible assumption | ((with_reducible refine Clo.mono hK ?_); rfl)
                 | with_reducible intro _ | with_reducible apply onWf_sat | with_reducible apply responseIn_sat
                 | with_reducible apply takeTxn_sat | (simp only [SatN_next]))

theorem execFenceCpl_sat (t : Txn) (s : State) (hK : Clo 0x46c51a P) (hs0 : Sat P s) : SatN P (execFenceCpl t s) := by
  unfold execFenceCpl; (try dsimp only)
  repeat' (first | with_reducible assumption | ((with_reducible refine Clo.mono hK ?_); rfl)
                 | with_reducible intro _ | with_reducible apply onWf_sat | with_reducible apply responseIn_sat
                 | with_reducible apply takeTxn_sat | (simp only [SatN_next]))

/-! ### Routing -/

theorem writeBits_sat (s : State) (q : Pick) (hK : Clo 0x400 P) (hs0 : Sat P s) : Sat P (writeBits s q) := by
  unfold writeBits; (try dsimp only)
  repeat' (first | with_reducible assumption | ((with_reducible refine Clo.mono hK ?_); rfl)
                 | with_reducible intro _ | with_reducible apply modVe_sat | with_reducible apply Sat_ite | split
                 | (refine snd_sat (by with_reducible assumption) ?_)
                 | (refine some_sat (by with_reducible assumption) ?_)
                 | (refine some2_sat (by with_reducible assumption) ?_) | dsimp only)

theorem dispatchOne_sat (p b acts : Nat) (k : Step) (m : Model) (l : LayerInfo) (s : State) (e : Nat × List Nat)
    (hK : Clo 0x40118 P) (hs0 : Sat P s) : Sat P (dispatchOne p b acts k m l s e) := by
  unfold dispatchOne; (try dsimp only)
  repeat' (first | with_reducible assumption | ((with_reducible refine Clo.mono hK ?_); rfl)
                 | with_reducible intro _ | with_reducible apply modPart_sat | with_reducible apply sendExpert_sat
                 | split | (refine snd_sat (by with_reducible assumption) ?_)
                 | (refine some_sat (by with_reducible assumption) ?_)
                 | (refine some2_sat (by with_reducible assumption) ?_) | with_reducible apply SatO_map
                 | with_reducible apply SatO_map2 | with_reducible apply SatO2_mapO
                 | with_reducible apply SatO2_map2 | dsimp only)

theorem dispatchLayer_sat (p b layer acts : Nat) (s : State) (hK : Clo 0x40518 P) (hs0 : Sat P s) :
    Sat P (dispatchLayer p b layer acts s) := by
  unfold dispatchLayer; (try dsimp only)
  repeat' (first | with_reducible assumption | ((with_reducible refine Clo.mono hK ?_); rfl)
                 | with_reducible intro _ | with_reducible apply Sat_foldl | with_reducible apply dispatchOne_sat
                 | with_reducible apply modPart_sat | with_reducible apply sendCloses_sat
                 | with_reducible apply writeBits_sat | with_reducible apply Sat_ite | split
                 | (refine snd_sat (by with_reducible assumption) ?_)
                 | (refine some_sat (by with_reducible assumption) ?_)
                 | (refine some2_sat (by with_reducible assumption) ?_) | with_reducible apply SatO_map
                 | with_reducible apply SatO_map2 | with_reducible apply SatO2_mapO
                 | with_reducible apply SatO2_map2 | dsimp only)

theorem routeSelect_sat (b : Nat) (last : Bool) (acts : Nat) (w : W64) (s : State) (hK : Clo 0x40518 P) (hs0 :
    Sat P s) : SatE P (routeSelect b last acts w s) := by
  unfold routeSelect; (try dsimp only)
  repeat' (first | with_reducible assumption | ((with_reducible refine Clo.mono hK ?_); rfl)
                 | with_reducible intro _ | with_reducible apply applyFailed_sat
                 | with_reducible apply dispatchLayer_sat | with_reducible apply modPart_sat
                 | with_reducible apply setVe_sat | with_reducible apply Sat_ite | with_reducible apply SatE_ite
                 | split | (simp only [SatE_error, SatE_none, SatE_some]) | with_reducible exact trivial
                 | (refine snd_sat (by with_reducible assumption) ?_)
                 | (refine some_sat (by with_reducible assumption) ?_)
                 | (refine some2_sat (by with_reducible assumption) ?_) | with_reducible apply SatO_map
                 | with_reducible apply SatO_map2 | with_reducible apply SatO2_mapO
                 | with_reducible apply SatO2_map2 | dsimp only)

theorem execRtsel_sat (b : Nat) (ecc : Ecc) (last : Bool) (acts : Nat) (s : State) (hK : Clo 0x66f75a P) (hs0 :
    Sat P s) : SatN P (execRtsel b ecc last acts s) := by
  unfold execRtsel; (try dsimp only)
  repeat' (first | with_reducible assumption | ((with_reducible refine Clo.mono hK ?_); rfl)
                 | with_reducible intro _ | with_reducible apply onWf_sat | with_reducible apply routeSelect_sat
                 | with_reducible apply veRead_sat | (simp only [SatN_next]))

theorem routeCount_sat (b : Nat) (w : W64) (s : State) (hK : Clo 0x500 P) (hs0 : Sat P s) :
    SatE P (routeCount b w s) := by
  unfold routeCount; (try dsimp only)
  repeat' (first | with_reducible assumption | ((with_reducible refine Clo.mono hK ?_); rfl)
                 | with_reducible intro _ | with_reducible apply Sat_foldl | with_reducible apply modPart_sat
                 | with_reducible apply setVe_sat | with_reducible apply Sat_ite | with_reducible apply SatE_ite
                 | split | (simp only [SatE_error, SatE_none, SatE_some]) | with_reducible exact trivial
                 | (refine snd_sat (by with_reducible assumption) ?_)
                 | (refine some_sat (by with_reducible assumption) ?_)
                 | (refine some2_sat (by with_reducible assumption) ?_) | with_reducible apply SatO_map
                 | with_reducible apply SatO_map2 | with_reducible apply SatO2_mapO
                 | with_reducible apply SatO2_map2 | dsimp only)

theorem execRtcnt_sat (b : Nat) (ecc : Ecc) (s : State) (hK : Clo 0x66f75a P) (hs0 : Sat P s) :
    SatN P (execRtcnt b ecc s) := by
  unfold execRtcnt; (try dsimp only)
  repeat' (first | with_reducible assumption | ((with_reducible refine Clo.mono hK ?_); rfl)
                 | with_reducible intro _ | with_reducible apply onWf_sat | with_reducible apply routeCount_sat
                 | with_reducible apply veRead_sat | (simp only [SatN_next]))

/-! ### Spares -/

theorem holdPart_sat (s : State) (p : Nat) (hK : Clo 0x30100 P) (hs0 : Sat P s) : Sat P (holdPart s p) := by
  unfold holdPart; (try dsimp only)
  repeat' (first | with_reducible assumption | ((with_reducible refine Clo.mono hK ?_); rfl)
                 | with_reducible intro _ | with_reducible apply dropAppended_sat | with_reducible apply modPart_sat
                 | with_reducible apply saveRecord_sat | (refine snd_sat (by with_reducible assumption) ?_)
                 | (refine some_sat (by with_reducible assumption) ?_)
                 | (refine some2_sat (by with_reducible assumption) ?_) | dsimp only)

theorem releasePart_sat (s : State) (p : Nat) (hK : Clo 0x100 P) (hs0 : Sat P s) : Sat P (releasePart s p) := by
  unfold releasePart; (try dsimp only)
  repeat' (first | with_reducible assumption | ((with_reducible refine Clo.mono hK ?_); rfl)
                 | with_reducible intro _ | with_reducible apply modPart_sat | with_reducible apply Sat_ite | split)

theorem setBlockSt_sat (s : State) (b n : Nat) (hK : Clo 0x80 P) (hs0 : Sat P s) : Sat P (setBlockSt s b n) := by
  unfold setBlockSt; (try dsimp only)
  repeat' (first | with_reducible assumption | ((with_reducible refine Clo.mono hK ?_); rfl)
                 | (simp only [Sat_mk]; refine clo_tele hK rfl (Sat_fold ?_)))

theorem sliceStart_sat (u : BistUnit) (s : State) (hK : Clo 0x230180 P) (hs0 : Sat P s) : Sat P (sliceStart u s) := by
  unfold sliceStart; (try dsimp only)
  repeat' (first | with_reducible assumption | ((with_reducible refine Clo.mono hK ?_); rfl)
                 | with_reducible intro _ | with_reducible apply Sat_foldl | with_reducible apply holdPart_sat
                 | with_reducible apply modSafety_sat | with_reducible apply setBlockSt_sat
                 | with_reducible apply Sat_ite | split | (refine snd_sat (by with_reducible assumption) ?_)
                 | (refine some_sat (by with_reducible assumption) ?_)
                 | (refine some2_sat (by with_reducible assumption) ?_) | with_reducible apply SatO_map
                 | with_reducible apply SatO_map2 | with_reducible apply SatO2_mapO
                 | with_reducible apply SatO2_map2 | dsimp only)

theorem execBistSliceStart_sat (u : BistUnit) (s : State) (hK : Clo 0x230180 P) (hs0 : Sat P s) :
    SatN P (execBistSliceStart u s) := by
  unfold execBistSliceStart; (try dsimp only)
  repeat' (first | with_reducible assumption | ((with_reducible refine Clo.mono hK ?_); rfl)
                 | with_reducible intro _ | with_reducible apply onWf_sat | with_reducible apply sliceStart_sat
                 | (simp only [SatN_next]))

theorem sliceBack_sat (s : State) (x : Slice) (hK : Clo 0x200682 P) (hs0 : Sat P s) : Sat P (sliceBack s x) := by
  unfold sliceBack; (try dsimp only)
  repeat' (first | with_reducible assumption | ((with_reducible refine Clo.mono hK ?_); rfl)
                 | with_reducible intro _ | with_reducible apply Sat_foldl | with_reducible apply modSafety_sat
                 | with_reducible apply modTile_sat | with_reducible apply restoreVes_sat
                 | with_reducible apply setBlockSt_sat | split | (refine snd_sat (by with_reducible assumption) ?_)
                 | (refine some_sat (by with_reducible assumption) ?_)
                 | (refine some2_sat (by with_reducible assumption) ?_) | dsimp only)

theorem slicePassed_sat (s : State) (u : BistUnit) (hK : Clo 0x200000 P) (hs0 : Sat P s) : Sat P (slicePassed s u)
    := by
  unfold slicePassed; (try dsimp only)
  repeat' (first | with_reducible assumption | ((with_reducible refine Clo.mono hK ?_); rfl)
                 | with_reducible intro _ | with_reducible apply modSafety_sat)

theorem noRetest_sat (s : State) (u : BistUnit) (hK : Clo 0x200000 P) (hs0 : Sat P s) : Sat P (noRetest s u) := by
  unfold noRetest; (try dsimp only)
  repeat' (first | with_reducible assumption | ((with_reducible refine Clo.mono hK ?_); rfl)
                 | with_reducible intro _ | with_reducible apply modSafety_sat)

theorem toPool_sat (s : State) (u : BistUnit) (hK : Clo 0x240000 P) (hs0 : Sat P s) : Sat P (toPool s u) := by
  unfold toPool; (try dsimp only)
  repeat' (first | with_reducible assumption | ((with_reducible refine Clo.mono hK ?_); rfl)
                 | with_reducible intro _ | with_reducible apply modSafety_sat | with_reducible apply sendPlain_sat
                 | with_reducible apply setLink_sat | with_reducible apply Sat_ite | split
                 | (refine snd_sat (by with_reducible assumption) ?_)
                 | (refine some_sat (by with_reducible assumption) ?_)
                 | (refine some2_sat (by with_reducible assumption) ?_) | with_reducible apply SatO_map
                 | with_reducible apply SatO_map2 | with_reducible apply SatO2_mapO
                 | with_reducible apply SatO2_map2 | dsimp only)

theorem unusable_sat (s : State) (u : BistUnit) (hK : Clo 0x260020 P) (hs0 : Sat P s) : Sat P (unusable s u) := by
  unfold unusable; (try dsimp only)
  repeat' (first | with_reducible assumption | ((with_reducible refine Clo.mono hK ?_); rfl)
                 | with_reducible intro _ | with_reducible apply channelFailure_sat
                 | with_reducible apply markBad_sat | with_reducible apply modBoot_sat
                 | with_reducible apply modLink_sat | with_reducible apply modSafety_sat
                 | with_reducible apply Sat_ite | split | (refine snd_sat (by with_reducible assumption) ?_)
                 | (refine some_sat (by with_reducible assumption) ?_)
                 | (refine some2_sat (by with_reducible assumption) ?_) | dsimp only)

theorem spareExhausted_sat (s : State) (b : Nat) (hK : Clo 0x67c35a P) (hs0 : Sat P s) : Sat P (spareExhausted s b)
    := by
  unfold spareExhausted; (try dsimp only)
  repeat' (first | with_reducible assumption | ((with_reducible refine Clo.mono hK ?_); rfl)
                 | with_reducible intro _ | with_reducible apply Sat_elim | with_reducible apply dropAppended_sat
                 | with_reducible apply modPart_sat | with_reducible apply modSafety_sat
                 | with_reducible apply recordFault_sat | with_reducible apply saveRecord_sat
                 | with_reducible apply stepAbandon_sat | with_reducible apply yieldCmd_sat
                 | with_reducible apply Sat_getD | with_reducible apply Sat_ite | split
                 | (refine snd_sat (by with_reducible assumption) ?_)
                 | (refine some_sat (by with_reducible assumption) ?_)
                 | (refine some2_sat (by with_reducible assumption) ?_) | dsimp only)

theorem sliceEnd_sat (u : BistUnit) (pass : Bool) (bad : List BistUnit) (s : State) (hK : Clo 0x67c7fa P) (hs0 :
    Sat P s) : Sat P (sliceEnd u pass bad s) := by
  unfold sliceEnd; (try dsimp only)
  repeat' (first | with_reducible assumption | ((with_reducible refine Clo.mono hK ?_); rfl)
                 | with_reducible intro _ | with_reducible apply Sat_foldl | with_reducible apply markBad_sat
                 | with_reducible apply modSafety_sat | with_reducible apply noRetest_sat
                 | with_reducible apply recordFault_sat | with_reducible apply releasePart_sat
                 | with_reducible apply setBlockSt_sat | with_reducible apply sliceBack_sat
                 | with_reducible apply slicePassed_sat | with_reducible apply spareExhausted_sat
                 | with_reducible apply toPool_sat | with_reducible apply unusable_sat
                 | with_reducible apply Sat_getD | with_reducible apply Sat_ite | split
                 | (refine snd_sat (by with_reducible assumption) ?_)
                 | (refine some_sat (by with_reducible assumption) ?_)
                 | (refine some2_sat (by with_reducible assumption) ?_) | with_reducible apply SatO_map
                 | with_reducible apply SatO_map2 | with_reducible apply SatO2_mapO
                 | with_reducible apply SatO2_map2 | dsimp only)

theorem execBistSliceEnd_sat (u : BistUnit) (pass : Bool) (bad : List BistUnit) (s : State) (hK : Clo 0x67c7fa P)
    (hs0 : Sat P s) : SatN P (execBistSliceEnd u pass bad s) := by
  unfold execBistSliceEnd; (try dsimp only)
  repeat' (first | with_reducible assumption | ((with_reducible refine Clo.mono hK ?_); rfl)
                 | with_reducible intro _ | with_reducible apply onWf_sat | with_reducible apply sliceEnd_sat
                 | (simp only [SatN_next]))

theorem sliceAbort_sat (u : BistUnit) (s : State) (hK : Clo 0x200782 P) (hs0 : Sat P s) : Sat P (sliceAbort u s) := by
  unfold sliceAbort; (try dsimp only)
  repeat' (first | with_reducible assumption | ((with_reducible refine Clo.mono hK ?_); rfl)
                 | with_reducible intro _ | with_reducible apply Sat_foldl | with_reducible apply modSafety_sat
                 | with_reducible apply releasePart_sat | with_reducible apply sliceBack_sat
                 | with_reducible apply Sat_ite | split | (refine snd_sat (by with_reducible assumption) ?_)
                 | (refine some_sat (by with_reducible assumption) ?_)
                 | (refine some2_sat (by with_reducible assumption) ?_) | dsimp only)

theorem execBistSliceAbort_sat (u : BistUnit) (s : State) (hK : Clo 0x200782 P) (hs0 : Sat P s) :
    SatN P (execBistSliceAbort u s) := by
  unfold execBistSliceAbort; (try dsimp only)
  repeat' (first | with_reducible assumption | ((with_reducible refine Clo.mono hK ?_); rfl)
                 | with_reducible intro _ | with_reducible apply onWf_sat | with_reducible apply sliceAbort_sat
                 | (simp only [SatN_next]))

theorem bistOverdue_sat (u : BistUnit) (s : State) (hK : Clo 0x200058 P) (hs0 : Sat P s) : Sat P (bistOverdue u s)
    := by
  unfold bistOverdue; (try dsimp only)
  repeat' (first | with_reducible assumption | ((with_reducible refine Clo.mono hK ?_); rfl)
                 | with_reducible intro _ | with_reducible apply modSafety_sat
                 | with_reducible apply recordFault_sat | with_reducible apply Sat_getD
                 | with_reducible apply Sat_ite | split | (refine snd_sat (by with_reducible assumption) ?_)
                 | (refine some_sat (by with_reducible assumption) ?_)
                 | (refine some2_sat (by with_reducible assumption) ?_) | with_reducible apply SatO_map
                 | with_reducible apply SatO_map2 | with_reducible apply SatO2_mapO
                 | with_reducible apply SatO2_map2 | dsimp only)

theorem execBistOverdue_sat (u : BistUnit) (s : State) (hK : Clo 0x200058 P) (hs0 : Sat P s) :
    SatN P (execBistOverdue u s) := by
  unfold execBistOverdue; (try dsimp only)
  repeat' (first | with_reducible assumption | ((with_reducible refine Clo.mono hK ?_); rfl)
                 | with_reducible intro _ | with_reducible apply bistOverdue_sat | with_reducible apply onWf_sat
                 | (simp only [SatN_next]))

theorem wearEvent_sat (s : State) (kind : Nat) (u : BistUnit) (code : Nat) (hK : Clo 0x18 P) (hs0 : Sat P s) :
    Sat P (wearEvent s kind u code) := by
  unfold wearEvent; (try dsimp only)
  repeat' (first | with_reducible assumption | ((with_reducible refine Clo.mono hK ?_); rfl)
                 | with_reducible intro _ | with_reducible apply event_sat | with_reducible apply Sat_ite | split
                 | (refine snd_sat (by with_reducible assumption) ?_)
                 | (refine some_sat (by with_reducible assumption) ?_)
                 | (refine some2_sat (by with_reducible assumption) ?_) | with_reducible apply SatO_map
                 | with_reducible apply SatO_map2 | with_reducible apply SatO2_mapO
                 | with_reducible apply SatO2_map2 | dsimp only)

theorem wearPoint_sat (s : State) (e : BistUnit × Nat) (hK : Clo 0x200018 P) (hs0 : Sat P s) : Sat P (wearPoint s e)
    := by
  unfold wearPoint; (try dsimp only)
  repeat' (first | with_reducible assumption | ((with_reducible refine Clo.mono hK ?_); rfl)
                 | with_reducible intro _ | with_reducible apply modSafety_sat | with_reducible apply wearEvent_sat
                 | with_reducible apply Sat_getD | with_reducible apply Sat_ite | split
                 | (refine snd_sat (by with_reducible assumption) ?_)
                 | (refine some_sat (by with_reducible assumption) ?_)
                 | (refine some2_sat (by with_reducible assumption) ?_) | with_reducible apply SatO_map
                 | with_reducible apply SatO_map2 | with_reducible apply SatO2_mapO
                 | with_reducible apply SatO2_map2 | dsimp only)

theorem execWearGaugeRenewal_sat (points : List (BistUnit × Nat)) (s : State) (hK : Clo 0x200018 P) (hs0 : Sat P s)
    : SatN P (execWearGaugeRenewal points s) := by
  unfold execWearGaugeRenewal; (try dsimp only)
  repeat' (first | with_reducible assumption | ((with_reducible refine Clo.mono hK ?_); rfl)
                 | with_reducible intro _ | with_reducible apply Sat_foldl | with_reducible apply onWf_sat
                 | with_reducible apply wearPoint_sat | (simp only [SatN_next]))

theorem schedule_sat (d r g : Nat) (s : State) (hK : Clo 0x67c35a P) (hs0 : Sat P s) : Sat P (schedule d r g s) := by
  unfold schedule; (try dsimp only)
  repeat' (first | with_reducible assumption | ((with_reducible refine Clo.mono hK ?_); rfl)
                 | with_reducible intro _ | with_reducible apply Sat_foldl | with_reducible apply markBad_sat
                 | with_reducible apply modPart_sat | with_reducible apply modSafety_sat
                 | with_reducible apply spareExhausted_sat | with_reducible apply Sat_ite | split
                 | (refine snd_sat (by with_reducible assumption) ?_)
                 | (refine some_sat (by with_reducible assumption) ?_)
                 | (refine some2_sat (by with_reducible assumption) ?_) | with_reducible apply SatO_map
                 | with_reducible apply SatO_map2 | with_reducible apply SatO2_mapO
                 | with_reducible apply SatO2_map2 | dsimp only)

theorem execSubstitutionSchedule_sat (die row seg : Nat) (s : State) (hK : Clo 0x67c35a P) (hs0 : Sat P s) :
    SatN P (execSubstitutionSchedule die row seg s) := by
  unfold execSubstitutionSchedule; (try dsimp only)
  repeat' (first | with_reducible assumption | ((with_reducible refine Clo.mono hK ?_); rfl)
                 | with_reducible intro _ | with_reducible apply onWf_sat | with_reducible apply schedule_sat
                 | (simp only [SatN_next]))

theorem substSave_sat (s : State) (hK : Clo 0x230118 P) (hs0 : Sat P s) : Sat P (substSave s) := by
  unfold substSave; (try dsimp only)
  repeat' (first | with_reducible assumption | ((with_reducible refine Clo.mono hK ?_); rfl)
                 | with_reducible intro _ | with_reducible apply Sat_foldl | with_reducible apply dropAppended_sat
                 | with_reducible apply modSafety_sat | with_reducible apply releasePart_sat
                 | with_reducible apply saveRecord_sat | with_reducible apply wearEvent_sat
                 | with_reducible apply Sat_ite | split | (refine snd_sat (by with_reducible assumption) ?_)
                 | (refine some_sat (by with_reducible assumption) ?_)
                 | (refine some2_sat (by with_reducible assumption) ?_) | with_reducible apply SatO_map
                 | with_reducible apply SatO_map2 | with_reducible apply SatO2_mapO
                 | with_reducible apply SatO2_map2 | dsimp only)

theorem execSubstitutionSave_sat (s : State) (hK : Clo 0x230118 P) (hs0 : Sat P s) : SatN P (execSubstitutionSave s)
    := by
  unfold execSubstitutionSave; (try dsimp only)
  repeat' (first | with_reducible assumption | ((with_reducible refine Clo.mono hK ?_); rfl)
                 | with_reducible intro _ | with_reducible apply onWf_sat | with_reducible apply substSave_sat
                 | (simp only [SatN_next]))

theorem writeMap_sat (s : State) (d r g c : Nat) (hK : Clo 0x200000 P) (hs0 : Sat P s) : Sat P (writeMap s d r g c)
    := by
  unfold writeMap; (try dsimp only)
  repeat' (first | with_reducible assumption | ((with_reducible refine Clo.mono hK ?_); rfl)
                 | with_reducible intro _ | with_reducible apply modSafety_sat | with_reducible apply SatO_map
                 | with_reducible apply SatO_map2 | with_reducible apply SatO2_mapO
                 | with_reducible apply SatO2_map2)

theorem releaseFor_sat (s : State) (u : BistUnit) (hK : Clo 0x200100 P) (hs0 : Sat P s) : Sat P (releaseFor s u) := by
  unfold releaseFor; (try dsimp only)
  repeat' (first | with_reducible assumption | ((with_reducible refine Clo.mono hK ?_); rfl)
                 | with_reducible intro _ | with_reducible apply Sat_foldl | with_reducible apply modSafety_sat
                 | with_reducible apply releasePart_sat | (refine snd_sat (by with_reducible assumption) ?_)
                 | (refine some_sat (by with_reducible assumption) ?_)
                 | (refine some2_sat (by with_reducible assumption) ?_) | with_reducible apply SatO_map
                 | with_reducible apply SatO_map2 | with_reducible apply SatO2_mapO
                 | with_reducible apply SatO2_map2 | dsimp only)

theorem substMap_sat (s : State) (hK : Clo 0x67c35a P) (hs0 : Sat P s) : Sat P (substMap s) := by
  unfold substMap; (try dsimp only)
  repeat' (first | with_reducible assumption | ((with_reducible refine Clo.mono hK ?_); rfl)
                 | with_reducible intro _ | with_reducible apply Sat_foldl | with_reducible apply markBad_sat
                 | with_reducible apply modSafety_sat | with_reducible apply releasePart_sat
                 | with_reducible apply spareExhausted_sat | with_reducible apply writeMap_sat
                 | with_reducible apply Sat_ite | split | (refine snd_sat (by with_reducible assumption) ?_)
                 | (refine some_sat (by with_reducible assumption) ?_)
                 | (refine some2_sat (by with_reducible assumption) ?_) | dsimp only)

theorem execSubstitutionMapWrite_sat (s : State) (hK : Clo 0x67c35a P) (hs0 : Sat P s) :
    SatN P (execSubstitutionMapWrite s) := by
  unfold execSubstitutionMapWrite; (try dsimp only)
  repeat' (first | with_reducible assumption | ((with_reducible refine Clo.mono hK ?_); rfl)
                 | with_reducible intro _ | with_reducible apply onWf_sat | with_reducible apply substMap_sat
                 | (simp only [SatN_next]))

theorem restoreEnded_sat (s : State) (r : TileRec) (hK : Clo 0x200 P) (hs0 : Sat P s) : Sat P (restoreEnded s r) := by
  unfold restoreEnded; (try dsimp only)
  repeat' (first | with_reducible assumption | ((with_reducible refine Clo.mono hK ?_); rfl)
                 | with_reducible intro _ | with_reducible apply modTile_sat)

theorem substDone_sat (s : State) (hK : Clo 0x200300 P) (hs0 : Sat P s) : Sat P (substDone s) := by
  unfold substDone; (try dsimp only)
  repeat' (first | with_reducible assumption | ((with_reducible refine Clo.mono hK ?_); rfl)
                 | with_reducible intro _ | with_reducible apply Sat_foldl | with_reducible apply modSafety_sat
                 | with_reducible apply releaseFor_sat | with_reducible apply releasePart_sat
                 | with_reducible apply restoreEnded_sat | with_reducible apply Sat_ite | split
                 | (refine snd_sat (by with_reducible assumption) ?_)
                 | (refine some_sat (by with_reducible assumption) ?_)
                 | (refine some2_sat (by with_reducible assumption) ?_) | dsimp only)

theorem execSubstitutionRestoreDone_sat (s : State) (hK : Clo 0x200300 P) (hs0 : Sat P s) :
    SatN P (execSubstitutionRestoreDone s) := by
  unfold execSubstitutionRestoreDone; (try dsimp only)
  repeat' (first | with_reducible assumption | ((with_reducible refine Clo.mono hK ?_); rfl)
                 | with_reducible intro _ | with_reducible apply onWf_sat | with_reducible apply substDone_sat
                 | (simp only [SatN_next]))

theorem evictNow_sat (s : State) (p : Nat) (hK : Clo 0x47f71a P) (hs0 : Sat P s) : Sat P (evictNow s p) := by
  unfold evictNow; (try dsimp only)
  repeat' (first | with_reducible assumption | ((with_reducible refine Clo.mono hK ?_); rfl)
                 | with_reducible apply quiesceEnd_sat | with_reducible apply saveComplete_sat)

theorem resumeNow_sat (before : State) (s : State) (p : Nat) (hK : Clo 0xf1a P) (hs0 : Sat P before) (hs1 : Sat P s)
    : Sat P (resumeNow before s p) := by
  unfold resumeNow; (try dsimp only)
  repeat' (first | with_reducible assumption | ((with_reducible refine Clo.mono hK ?_); rfl)
                 | with_reducible intro _ | with_reducible apply modPart_sat
                 | with_reducible apply reloadComplete_sat | (refine snd_sat (by with_reducible assumption) ?_)
                 | (refine some_sat (by with_reducible assumption) ?_)
                 | (refine some2_sat (by with_reducible assumption) ?_) | dsimp only)

theorem forced_sat (d r g : Nat) (s : State) (hK : Clo 0x67ff5a P) (hs0 : Sat P s) : Sat P (forced d r g s) := by
  unfold forced; (try dsimp only)
  repeat' (first | with_reducible assumption | ((with_reducible refine Clo.mono hK ?_); rfl)
                 | with_reducible intro _ | with_reducible apply Sat_foldl | with_reducible apply evictBegin_sat
                 | with_reducible apply evictNow_sat | with_reducible apply releaseFor_sat
                 | with_reducible apply resumeNow_sat | with_reducible apply spareExhausted_sat
                 | with_reducible apply writeMap_sat | with_reducible apply Sat_ite | split
                 | (refine snd_sat (by with_reducible assumption) ?_)
                 | (refine some_sat (by with_reducible assumption) ?_)
                 | (refine some2_sat (by with_reducible assumption) ?_) | with_reducible apply SatO_map
                 | with_reducible apply SatO_map2 | with_reducible apply SatO2_mapO
                 | with_reducible apply SatO2_map2 | dsimp only)

theorem execForcedSubstitution_sat (die row seg : Nat) (s : State) (hK : Clo 0x67ff5a P) (hs0 : Sat P s) :
    SatN P (execForcedSubstitution die row seg s) := by
  unfold execForcedSubstitution; (try dsimp only)
  repeat' (first | with_reducible assumption | ((with_reducible refine Clo.mono hK ?_); rfl)
                 | with_reducible intro _ | with_reducible apply forced_sat | with_reducible apply onWf_sat
                 | (simp only [SatN_next]))

theorem spareConnect_sat (s : State) (b image pc : Nat) (hK : Clo 0x220600 P) (hs0 : Sat P s) :
    Sat P (spareConnect s b image pc) := by
  unfold spareConnect; (try dsimp only)
  repeat' (first | with_reducible assumption | ((with_reducible refine Clo.mono hK ?_); rfl)
                 | with_reducible intro _ | with_reducible apply enterBuffer_sat
                 | with_reducible apply modSafety_sat | with_reducible apply setVe_sat)

theorem veForced_sat (b image pc : Nat) (s : State) (hK : Clo 0x67ff1a P) (hs0 : Sat P s) :
    Sat P (veForced b image pc s) := by
  unfold veForced; (try dsimp only)
  repeat' (first | with_reducible assumption | ((with_reducible refine Clo.mono hK ?_); rfl)
                 | with_reducible intro _ | with_reducible apply Sat_foldl | with_reducible apply evictBegin_sat
                 | with_reducible apply evictNow_sat | with_reducible apply modVe_sat
                 | with_reducible apply releaseFor_sat | with_reducible apply resumeNow_sat
                 | with_reducible apply spareConnect_sat | with_reducible apply Sat_ite | split
                 | (refine snd_sat (by with_reducible assumption) ?_)
                 | (refine some_sat (by with_reducible assumption) ?_)
                 | (refine some2_sat (by with_reducible assumption) ?_) | dsimp only)

theorem veScheduled_sat (b image pc : Nat) (s : State) (hK : Clo 0x230718 P) (hs0 : Sat P s) :
    Sat P (veScheduled b image pc s) := by
  unfold veScheduled; (try dsimp only)
  repeat' (first | with_reducible assumption | ((with_reducible refine Clo.mono hK ?_); rfl)
                 | with_reducible intro _ | with_reducible apply Sat_foldl | with_reducible apply dropAppended_sat
                 | with_reducible apply releaseFor_sat | with_reducible apply saveRecord_sat
                 | with_reducible apply spareConnect_sat | with_reducible apply wearEvent_sat
                 | with_reducible apply Sat_ite | split | (refine snd_sat (by with_reducible assumption) ?_)
                 | (refine some_sat (by with_reducible assumption) ?_)
                 | (refine some2_sat (by with_reducible assumption) ?_) | dsimp only)

theorem veSubst_sat (b image pc : Nat) (s : State) (hK : Clo 0x67ff5a P) (hs0 : Sat P s) :
    Sat P (veSubst b image pc s) := by
  unfold veSubst; (try dsimp only)
  repeat' (first | with_reducible assumption | ((with_reducible refine Clo.mono hK ?_); rfl)
                 | with_reducible apply releaseFor_sat | with_reducible apply spareExhausted_sat
                 | with_reducible apply veForced_sat | with_reducible apply veScheduled_sat
                 | with_reducible apply Sat_ite | split)

theorem execVeSubstitution_sat (b image pc : Nat) (s : State) (hK : Clo 0x67ff5a P) (hs0 : Sat P s) :
    SatN P (execVeSubstitution b image pc s) := by
  unfold execVeSubstitution; (try dsimp only)
  repeat' (first | with_reducible assumption | ((with_reducible refine Clo.mono hK ?_); rfl)
                 | with_reducible intro _ | with_reducible apply onWf_sat | with_reducible apply veSubst_sat
                 | (simp only [SatN_next]))

/-! ### Twin -/

theorem pairEvent_sat (s : State) (kind : Nat) (ps : BitVec 16) (hK : Clo 0x18 P) (hs0 : Sat P s) :
    Sat P (pairEvent s kind ps) := by
  unfold pairEvent; (try dsimp only)
  repeat' (first | with_reducible assumption | ((with_reducible refine Clo.mono hK ?_); rfl)
                 | with_reducible apply event_sat)

theorem takePair_sat (s : State) (m : PairMsg) (hK : Clo 0x40000 P) (hs0 : Sat P s) : Sat P (takePair s m) := by
  unfold takePair; (try dsimp only)
  repeat' (first | with_reducible assumption | ((with_reducible refine Clo.mono hK ?_); rfl)
                 | with_reducible intro _ | with_reducible apply ingress_sat | with_reducible apply modFabric_sat
                 | split | (refine snd_sat (by with_reducible assumption) ?_)
                 | (refine some_sat (by with_reducible assumption) ?_)
                 | (refine some2_sat (by with_reducible assumption) ?_) | dsimp only)

theorem releaseReplies_sat (s : State) (p v : Nat) (hK : Clo 0x110 P) (hs0 : Sat P s) : Sat P (releaseReplies s p v)
    := by
  unfold releaseReplies; (try dsimp only)
  repeat' (first | with_reducible assumption | ((with_reducible refine Clo.mono hK ?_); rfl)
                 | with_reducible intro _ | with_reducible apply Sat_foldl | with_reducible apply modPart_sat
                 | with_reducible apply sendReady_sat | (refine snd_sat (by with_reducible assumption) ?_)
                 | (refine some_sat (by with_reducible assumption) ?_)
                 | (refine some2_sat (by with_reducible assumption) ?_) | dsimp only)

theorem leavePair_sat (s : State) (p : Nat) (hK : Clo 0x47c11a P) (hs0 : Sat P s) : Sat P (leavePair s p) := by
  unfold leavePair; (try dsimp only)
  repeat' (first | with_reducible assumption | ((with_reducible refine Clo.mono hK ?_); rfl)
                 | with_reducible intro _ | with_reducible apply Sat_foldl | with_reducible apply modPart_sat
                 | with_reducible apply publishNow_sat | with_reducible apply sendReady_sat
                 | (refine snd_sat (by with_reducible assumption) ?_)
                 | (refine some_sat (by with_reducible assumption) ?_)
                 | (refine some2_sat (by with_reducible assumption) ?_) | dsimp only)

theorem lapseDone_sat (s : State) (p : Nat) (hK : Clo 0x47c11a P) (hs0 : Sat P s) : Sat P (lapseDone s p) := by
  unfold lapseDone; (try dsimp only)
  repeat' (first | with_reducible assumption | ((with_reducible refine Clo.mono hK ?_); rfl)
                 | with_reducible apply leavePair_sat | with_reducible apply pairEvent_sat)

theorem badMessage_sat (s : State) (m : PairMsg) (hK : Clo 0x640158 P) (hs0 : Sat P s) : Sat P (badMessage s m) := by
  unfold badMessage; (try dsimp only)
  repeat' (first | with_reducible assumption | ((with_reducible refine Clo.mono hK ?_); rfl)
                 | with_reducible intro _ | with_reducible apply badPair_sat | with_reducible apply modPair_sat)

theorem pairSeen_sat (s : State) (hK : Clo 0x400000 P) (hs0 : Sat P s) : Sat P (pairSeen s) := by
  unfold pairSeen; (try dsimp only)
  repeat' (first | with_reducible assumption | ((with_reducible refine Clo.mono hK ?_); rfl)
                 | with_reducible intro _ | with_reducible apply modPair_sat)

theorem pairMessage_sat (kind : Nat) (m : PairMsg) (f : State → State) (s : State) (hK : Clo 0x640158 P) (hf : ∀ x0,
    Sat P x0 → Sat P (f x0)) (hs0 : Sat P s) : Sat P (pairMessage kind m f s) := by
  unfold pairMessage; (try dsimp only)
  repeat' (first | with_reducible assumption | ((with_reducible refine Clo.mono hK ?_); rfl)
                 | with_reducible intro _ | with_reducible apply badMessage_sat | with_reducible apply modPair_sat
                 | with_reducible apply pairSeen_sat | with_reducible apply takePair_sat | with_reducible apply hf
                 | with_reducible apply Sat_ite | split | (refine snd_sat (by with_reducible assumption) ?_)
                 | (refine some_sat (by with_reducible assumption) ?_)
                 | (refine some2_sat (by with_reducible assumption) ?_) | dsimp only)

theorem sendSetup_sat (s : State) (hK : Clo 0x440118 P) (hs0 : Sat P s) : Sat P (sendSetup s) := by
  unfold sendSetup; (try dsimp only)
  repeat' (first | with_reducible assumption | ((with_reducible refine Clo.mono hK ?_); rfl)
                 | with_reducible intro _ | with_reducible apply modPair_sat | with_reducible apply sendPair_sat)

theorem setupEnd_sat (s : State) (status detail : Nat) (hK : Clo 0x400018 P) (hs0 : Sat P s) :
    Sat P (setupEnd s status detail) := by
  unfold setupEnd; (try dsimp only)
  repeat' (first | with_reducible assumption | ((with_reducible refine Clo.mono hK ?_); rfl)
                 | with_reducible intro _ | with_reducible apply finish_sat | with_reducible apply modPair_sat
                 | split | (refine snd_sat (by with_reducible assumption) ?_)
                 | (refine some_sat (by with_reducible assumption) ?_)
                 | (refine some2_sat (by with_reducible assumption) ?_) | dsimp only)

theorem setupDone_sat (s : State) (hK : Clo 0x400018 P) (hs0 : Sat P s) : Sat P (setupDone s) := by
  unfold setupDone; (try dsimp only)
  repeat' (first | with_reducible assumption | ((with_reducible refine Clo.mono hK ?_); rfl)
                 | with_reducible intro _ | with_reducible apply setupEnd_sat | with_reducible apply Sat_ite
                 | split)

theorem emptyPart_sat (s : State) (p : Nat) (hK : Clo 0x46c118 P) (hs0 : Sat P s) : Sat P (emptyPart s p) := by
  unfold emptyPart; (try dsimp only)
  repeat' (first | with_reducible assumption | ((with_reducible refine Clo.mono hK ?_); rfl)
                 | with_reducible intro _ | with_reducible apply Sat_foldl | with_reducible apply htFree_sat
                 | with_reducible apply modPart_sat | split
                 | (simp only [Sat_mk]; refine clo_drawers hK rfl (clo_regions hK rfl (Sat_fold ?_)))
                 | (refine snd_sat (by with_reducible assumption) ?_)
                 | (refine some_sat (by with_reducible assumption) ?_)
                 | (refine some2_sat (by with_reducible assumption) ?_) | dsimp only)

theorem becomeMirror_sat (s : State) (p : Nat) (hK : Clo 0x47f71a P) (hs0 : Sat P s) : Sat P (becomeMirror s p) := by
  unfold becomeMirror; (try dsimp only)
  repeat' (first | with_reducible assumption | ((with_reducible refine Clo.mono hK ?_); rfl)
                 | with_reducible intro _ | with_reducible apply emptyPart_sat | with_reducible apply modPart_sat
                 | with_reducible apply partitionReset_sat)

theorem syncGrainData_sat (p : Nat) (acc : Bool × State) (g : Nat) (hK : Clo 0x460118 P) (hs0 : Sat P acc.2) :
    Sat P (syncGrainData p acc g).2 := by
  unfold syncGrainData; (try dsimp only)
  repeat' (first | with_reducible assumption | ((with_reducible refine Clo.mono hK ?_); rfl)
                 | with_reducible intro _ | with_reducible apply modTiers_sat | with_reducible apply sendPair_sat
                 | split | (refine snd_sat (by with_reducible assumption) ?_)
                 | (refine some_sat (by with_reducible assumption) ?_)
                 | (refine some2_sat (by with_reducible assumption) ?_) | dsimp only)

theorem syncPart_sat (s : State) (p : Nat) (hK : Clo 0x460118 P) (hs0 : Sat P s) : Sat P (syncPart s p) := by
  unfold syncPart; (try dsimp only)
  repeat' (first | with_reducible assumption | ((with_reducible refine Clo.mono hK ?_); rfl)
                 | with_reducible intro _ | with_reducible apply Sat_foldl | with_reducible apply Sat_foldr
                 | with_reducible apply Sat_elim | with_reducible apply modPart_sat
                 | with_reducible apply sendAcked_sat | with_reducible apply sendPair_sat
                 | with_reducible apply syncGrainData_sat | with_reducible apply Sat_getD
                 | with_reducible apply Sat_id | with_reducible apply Sat_ite | with_reducible apply SatE_ite
                 | with_reducible apply Sat2_ite | split
                 | (simp only [SatE_error, SatE_none, SatE_some, SatO_none, SatO_some, SatN_next])
                 | with_reducible exact trivial | (refine snd_sat (by with_reducible assumption) ?_)
                 | (refine some_sat (by with_reducible assumption) ?_)
                 | (refine some2_sat (by with_reducible assumption) ?_) | with_reducible exact SatO2_none
                 | with_reducible apply SatO2_some | with_reducible apply SatO_map | with_reducible apply SatO_map2
                 | with_reducible apply SatO2_mapO | with_reducible apply SatO2_map2
                 | (refine snd2_sat (by with_reducible assumption) ?_) | with_reducible apply Sat_foldl2
                 | dsimp only)

theorem takeSetup_sat (s : State) (m : PairMsg) (hK : Clo 0x47f71a P) (hs0 : Sat P s) : Sat P (takeSetup s m) := by
  unfold takeSetup; (try dsimp only)
  repeat' (first | with_reducible assumption | ((with_reducible refine Clo.mono hK ?_); rfl)
                 | with_reducible intro _ | with_reducible apply Sat_foldl | with_reducible apply becomeMirror_sat
                 | with_reducible apply modPair_sat | with_reducible apply setupDone_sat
                 | with_reducible apply setupEnd_sat | with_reducible apply syncPart_sat
                 | with_reducible apply Sat_ite | split | (refine snd_sat (by with_reducible assumption) ?_)
                 | (refine some_sat (by with_reducible assumption) ?_)
                 | (refine some2_sat (by with_reducible assumption) ?_) | dsimp only)

theorem pairSetupCmd_sat (c : Cmd) (s : State) (hK : Clo 0x47f71a P) (hs0 : Sat P s) : Sat P (pairSetupCmd c s) := by
  unfold pairSetupCmd; (try dsimp only)
  repeat' (first | with_reducible assumption | ((with_reducible refine Clo.mono hK ?_); rfl)
                 | with_reducible intro _ | with_reducible apply finish_sat | with_reducible apply modPair_sat
                 | with_reducible apply sendSetup_sat | with_reducible apply takeSetup_sat
                 | with_reducible apply Sat_ite | split | (refine snd_sat (by with_reducible assumption) ?_)
                 | (refine some_sat (by with_reducible assumption) ?_)
                 | (refine some2_sat (by with_reducible assumption) ?_) | dsimp only)

theorem execPairSetup_sat (s : State) (hK : Clo 0x47f71a P) (hs0 : Sat P s) : SatN P (execPairSetup s) := by
  unfold execPairSetup; (try dsimp only)
  repeat' (first | with_reducible assumption | ((with_reducible refine Clo.mono hK ?_); rfl)
                 | with_reducible intro _ | with_reducible apply onWf_sat | with_reducible apply pairSetupCmd_sat
                 | with_reducible apply takeCmd_sat | split | (simp only [SatN_next]))

theorem setupAgain_sat (s : State) (hK : Clo 0x440118 P) (hs0 : Sat P s) : Sat P (setupAgain s) := by
  unfold setupAgain; (try dsimp only)
  repeat' (first | with_reducible assumption | ((with_reducible refine Clo.mono hK ?_); rfl)
                 | with_reducible apply sendSetup_sat | with_reducible apply Sat_ite | split)

theorem execPairSetupMessageSend_sat (s : State) (hK : Clo 0x440118 P) (hs0 : Sat P s) :
    SatN P (execPairSetupMessageSend s) := by
  unfold execPairSetupMessageSend; (try dsimp only)
  repeat' (first | with_reducible assumption | ((with_reducible refine Clo.mono hK ?_); rfl)
                 | with_reducible intro _ | with_reducible apply onWf_sat | with_reducible apply setupAgain_sat
                 | (simp only [SatN_next]))

theorem setupTimeout_sat (s : State) (hK : Clo 0x400018 P) (hs0 : Sat P s) : Sat P (setupTimeout s) := by
  unfold setupTimeout; (try dsimp only)
  repeat' (first | with_reducible assumption | ((with_reducible refine Clo.mono hK ?_); rfl)
                 | with_reducible apply setupEnd_sat | with_reducible apply Sat_ite | split)

theorem execPairSetupTimeout_sat (s : State) (hK : Clo 0x400018 P) (hs0 : Sat P s) : SatN P (execPairSetupTimeout s)
    := by
  unfold execPairSetupTimeout; (try dsimp only)
  repeat' (first | with_reducible assumption | ((with_reducible refine Clo.mono hK ?_); rfl)
                 | with_reducible intro _ | with_reducible apply onWf_sat | with_reducible apply setupTimeout_sat
                 | (simp only [SatN_next]))

theorem setupRecv_sat (m : PairMsg) (s : State) (hK : Clo 0x67f75a P) (hs0 : Sat P s) : Sat P (setupRecv m s) := by
  unfold setupRecv; (try dsimp only)
  repeat' (first | with_reducible assumption | ((with_reducible refine Clo.mono hK ?_); rfl)
                 | with_reducible intro _ | with_reducible apply badMessage_sat | with_reducible apply modPair_sat
                 | with_reducible apply pairSeen_sat | with_reducible apply takePair_sat
                 | with_reducible apply takeSetup_sat | with_reducible apply Sat_ite | split
                 | (refine snd_sat (by with_reducible assumption) ?_)
                 | (refine some_sat (by with_reducible assumption) ?_)
                 | (refine some2_sat (by with_reducible assumption) ?_) | dsimp only)

theorem execPairSetupRecv_sat (m : PairMsg) (s : State) (hK : Clo 0x67f75a P) (hs0 : Sat P s) :
    SatN P (execPairSetupRecv m s) := by
  unfold execPairSetupRecv; (try dsimp only)
  repeat' (first | with_reducible assumption | ((with_reducible refine Clo.mono hK ?_); rfl)
                 | with_reducible intro _ | with_reducible apply onWf_sat | with_reducible apply setupRecv_sat
                 | (simp only [SatN_next]))

theorem syncTimeout_sat (s : State) (p : Nat) (hK : Clo 0x400118 P) (hs0 : Sat P s) : Sat P (syncTimeout s p) := by
  unfold syncTimeout; (try dsimp only)
  repeat' (first | with_reducible assumption | ((with_reducible refine Clo.mono hK ?_); rfl)
                 | with_reducible intro _ | with_reducible apply modPart_sat | with_reducible apply setupEnd_sat
                 | with_reducible apply Sat_ite | split | (refine snd_sat (by with_reducible assumption) ?_)
                 | (refine some_sat (by with_reducible assumption) ?_)
                 | (refine some2_sat (by with_reducible assumption) ?_) | dsimp only)

theorem execSyncEndAckTimeout_sat (s : State) (hK : Clo 0x400118 P) (hs0 : Sat P s) :
    SatN P (execSyncEndAckTimeout s) := by
  unfold execSyncEndAckTimeout; (try dsimp only)
  repeat' (first | with_reducible assumption | ((with_reducible refine Clo.mono hK ?_); rfl)
                 | with_reducible intro _ | with_reducible apply Sat_foldl | with_reducible apply onWf_sat
                 | with_reducible apply syncTimeout_sat | (simp only [SatN_next]))

theorem applyFail_sat (s : State) (p status : Nat) (hK : Clo 0x100 P) (hs0 : Sat P s) : Sat P (applyFail s p status)
    := by
  unfold applyFail; (try dsimp only)
  repeat' (first | with_reducible assumption | ((with_reducible refine Clo.mono hK ?_); rfl)
                 | with_reducible intro _ | with_reducible apply modPart_sat | with_reducible apply Sat_ite | split)

theorem applyRecs_sat (m : PairMsg) (f : Nat → PairRec → State → Nat × State) (s : State) (hK : Clo 0x400100 P)
    (hf : ∀ x0 x1 x2, Sat P x2 → Sat P (f x0 x1 x2).2) (hs0 : Sat P s) : Sat P (applyRecs m f s) := by
  unfold applyRecs; (try dsimp only)
  repeat' (first | with_reducible assumption | ((with_reducible refine Clo.mono hK ?_); rfl)
                 | with_reducible intro _ | with_reducible apply Sat_foldl | with_reducible apply applyFail_sat
                 | with_reducible apply modPair_sat | with_reducible apply modPart_sat | with_reducible apply hf
                 | with_reducible apply Sat_ite | split | (refine snd_sat (by with_reducible assumption) ?_)
                 | (refine some_sat (by with_reducible assumption) ?_)
                 | (refine some2_sat (by with_reducible assumption) ?_) | dsimp only)

theorem sendAck_sat (s : State) (p : Nat) (hK : Clo 0x440118 P) (hs0 : Sat P s) : Sat P (sendAck s p) := by
  unfold sendAck; (try dsimp only)
  repeat' (first | with_reducible assumption | ((with_reducible refine Clo.mono hK ?_); rfl)
                 | with_reducible intro _ | with_reducible apply modPart_sat | with_reducible apply sendPair_sat
                 | (refine snd_sat (by with_reducible assumption) ?_)
                 | (refine some_sat (by with_reducible assumption) ?_)
                 | (refine some2_sat (by with_reducible assumption) ?_) | dsimp only)

theorem applyAlloc_sat (p : Nat) (r : PairRec) (s : State) (hK : Clo 0x47011a P) (hs0 : Sat P s) :
    Sat P (applyAlloc p r s).2 := by
  unfold applyAlloc; (try dsimp only)
  repeat' (first | with_reducible assumption | ((with_reducible refine Clo.mono hK ?_); rfl)
                 | with_reducible intro _ | with_reducible apply htAlloc_sat | with_reducible apply pick_sat
                 | with_reducible apply Sat_ite | with_reducible apply Sat2_ite | split
                 | (refine snd_sat (by with_reducible assumption) ?_)
                 | (refine some_sat (by with_reducible assumption) ?_)
                 | (refine some2_sat (by with_reducible assumption) ?_) | with_reducible apply SatO_map
                 | with_reducible apply SatO_map2 | with_reducible apply SatO2_mapO
                 | with_reducible apply SatO2_map2 | dsimp only)

theorem execPairAllocRecv_sat (m : PairMsg) (s : State) (hK : Clo 0x67015a P) (hs0 : Sat P s) :
    SatN P (execPairAllocRecv m s) := by
  unfold execPairAllocRecv; (try dsimp only)
  repeat' (first | with_reducible assumption | ((with_reducible refine Clo.mono hK ?_); rfl)
                 | with_reducible intro _ | with_reducible apply applyAlloc_sat | with_reducible apply applyRecs_sat
                 | with_reducible apply onWf_sat | with_reducible apply pairMessage_sat | (simp only [SatN_next]))

theorem applyFree_sat (p : Nat) (r : PairRec) (s : State) (hK : Clo 0x460118 P) (hs0 : Sat P s) :
    Sat P (applyFree p r s).2 := by
  unfold applyFree; (try dsimp only)
  repeat' (first | with_reducible assumption | ((with_reducible refine Clo.mono hK ?_); rfl)
                 | with_reducible apply htFree_sat | with_reducible apply Sat_ite | with_reducible apply Sat2_ite
                 | split | (refine snd_sat (by with_reducible assumption) ?_)
                 | (refine some_sat (by with_reducible assumption) ?_)
                 | (refine some2_sat (by with_reducible assumption) ?_) | dsimp only)

theorem execPairFreeRecv_sat (m : PairMsg) (s : State) (hK : Clo 0x660158 P) (hs0 : Sat P s) :
    SatN P (execPairFreeRecv m s) := by
  unfold execPairFreeRecv; (try dsimp only)
  repeat' (first | with_reducible assumption | ((with_reducible refine Clo.mono hK ?_); rfl)
                 | with_reducible intro _ | with_reducible apply applyFree_sat | with_reducible apply applyRecs_sat
                 | with_reducible apply onWf_sat | with_reducible apply pairMessage_sat | (simp only [SatN_next]))

theorem mirrorBytes_sat (p n off : Nat) (bs : List Byte) (s : State) (hK : Clo 0x30000 P) (hs0 : Sat P s) :
    Sat P (mirrorBytes p n off bs s).2 := by
  induction n generalizing off bs s with
  | zero => exact hs0
  | succ n ih =>
    rw [mirrorBytes]
    dsimp only
    refine Sat2_ite hs0 (Sat2_ite hs0 (Sat2_ite hs0 (Sat2_ite (ih _ _ _ (modTiers_sat _ _ (Clo.mono hK rfl) hs0)) ?_)))
    have h := writeHome_sat s (winGrain off) (winOff off) (bs.take (min bs.length (frameBytes - winOff off))) (Clo.mono hK rfl) hs0
    generalize writeHome s (winGrain off) (winOff off) (bs.take (min bs.length (frameBytes - winOff off))) = r at h ⊢
    split
    · exact ih _ _ _ h
    · exact h

theorem applyData_sat (p : Nat) (r : PairRec) (s : State) (hK : Clo 0x30000 P) (hs0 : Sat P s) :
    Sat P (applyData p r s).2 := by
  unfold applyData; (try dsimp only)
  repeat' (first | with_reducible assumption | ((with_reducible refine Clo.mono hK ?_); rfl)
                 | with_reducible apply mirrorBytes_sat | split | (refine snd_sat (by with_reducible assumption) ?_)
                 | (refine some_sat (by with_reducible assumption) ?_)
                 | (refine some2_sat (by with_reducible assumption) ?_) | dsimp only)

theorem execPairDataRecv_sat (m : PairMsg) (s : State) (hK : Clo 0x670158 P) (hs0 : Sat P s) :
    SatN P (execPairDataRecv m s) := by
  unfold execPairDataRecv; (try dsimp only)
  repeat' (first | with_reducible assumption | ((with_reducible refine Clo.mono hK ?_); rfl)
                 | with_reducible intro _ | with_reducible apply applyData_sat | with_reducible apply applyRecs_sat
                 | with_reducible apply onWf_sat | with_reducible apply pairMessage_sat | (simp only [SatN_next]))

theorem applyEntry_sat (p : Nat) (r : PairRec) (s : State) (hK : Clo 0xc100 P) (hs0 : Sat P s) :
    Sat P (applyEntry p r s).2 := by
  unfold applyEntry; (try dsimp only)
  repeat' (first | with_reducible assumption | ((with_reducible refine Clo.mono hK ?_); rfl)
                 | with_reducible apply setBudget_sat | with_reducible apply setDrawer_sat
                 | with_reducible apply setRegion_sat | with_reducible apply Sat_ite | with_reducible apply Sat2_ite
                 | split | (refine snd_sat (by with_reducible assumption) ?_)
                 | (refine some_sat (by with_reducible assumption) ?_)
                 | (refine some2_sat (by with_reducible assumption) ?_) | dsimp only)

theorem execPairEntryRecv_sat (m : PairMsg) (s : State) (hK : Clo 0x64c158 P) (hs0 : Sat P s) :
    SatN P (execPairEntryRecv m s) := by
  unfold execPairEntryRecv; (try dsimp only)
  repeat' (first | with_reducible assumption | ((with_reducible refine Clo.mono hK ?_); rfl)
                 | with_reducible intro _ | with_reducible apply applyEntry_sat | with_reducible apply applyRecs_sat
                 | with_reducible apply onWf_sat | with_reducible apply pairMessage_sat | (simp only [SatN_next]))

theorem applyRecord_sat (p : Nat) (r : PairRec) (s : State) (hK : Clo 0x100 P) (hs0 : Sat P s) :
    Sat P (applyRecord p r s).2 := by
  unfold applyRecord; (try dsimp only)
  repeat' (first | with_reducible assumption | ((with_reducible refine Clo.mono hK ?_); rfl)
                 | with_reducible intro _ | with_reducible apply modPart_sat | with_reducible apply Sat_ite
                 | with_reducible apply Sat2_ite | split | (refine snd_sat (by with_reducible assumption) ?_)
                 | (refine some_sat (by with_reducible assumption) ?_)
                 | (refine some2_sat (by with_reducible assumption) ?_) | dsimp only)

theorem recordRecv_sat (m : PairMsg) (s : State) (hK : Clo 0x640158 P) (hs0 : Sat P s) : Sat P (recordRecv m s) := by
  unfold recordRecv; (try dsimp only)
  repeat' (first | with_reducible assumption | ((with_reducible refine Clo.mono hK ?_); rfl)
                 | with_reducible intro _ | with_reducible apply applyRecord_sat
                 | with_reducible apply applyRecs_sat | with_reducible apply pairMessage_sat
                 | with_reducible apply sendAck_sat | with_reducible apply Sat_ite | split
                 | (refine snd_sat (by with_reducible assumption) ?_)
                 | (refine some_sat (by with_reducible assumption) ?_)
                 | (refine some2_sat (by with_reducible assumption) ?_) | dsimp only)

theorem execPairRecordRecv_sat (m : PairMsg) (s : State) (hK : Clo 0x640158 P) (hs0 : Sat P s) :
    SatN P (execPairRecordRecv m s) := by
  unfold execPairRecordRecv; (try dsimp only)
  repeat' (first | with_reducible assumption | ((with_reducible refine Clo.mono hK ?_); rfl)
                 | with_reducible intro _ | with_reducible apply onWf_sat | with_reducible apply recordRecv_sat
                 | (simp only [SatN_next]))

theorem applyCharge_sat (p : Nat) (r : PairRec) (s : State) (hK : Clo 0x100 P) (hs0 : Sat P s) :
    Sat P (applyCharge p r s).2 := by
  unfold applyCharge; (try dsimp only)
  repeat' (first | with_reducible assumption | ((with_reducible refine Clo.mono hK ?_); rfl)
                 | with_reducible apply setBudget_sat | split | (refine snd_sat (by with_reducible assumption) ?_)
                 | (refine some_sat (by with_reducible assumption) ?_)
                 | (refine some2_sat (by with_reducible assumption) ?_) | dsimp only)

theorem confirmRecv_sat (m : PairMsg) (s : State) (hK : Clo 0x640158 P) (hs0 : Sat P s) : Sat P (confirmRecv m s)
    := by
  unfold confirmRecv; (try dsimp only)
  repeat' (first | with_reducible assumption | ((with_reducible refine Clo.mono hK ?_); rfl)
                 | with_reducible intro _ | with_reducible apply applyCharge_sat
                 | with_reducible apply applyRecs_sat | with_reducible apply modPart_sat
                 | with_reducible apply pairMessage_sat | with_reducible apply sendAck_sat
                 | with_reducible apply Sat_ite | split | (refine snd_sat (by with_reducible assumption) ?_)
                 | (refine some_sat (by with_reducible assumption) ?_)
                 | (refine some2_sat (by with_reducible assumption) ?_) | dsimp only)

theorem execPairConfirmRecv_sat (m : PairMsg) (s : State) (hK : Clo 0x640158 P) (hs0 : Sat P s) :
    SatN P (execPairConfirmRecv m s) := by
  unfold execPairConfirmRecv; (try dsimp only)
  repeat' (first | with_reducible assumption | ((with_reducible refine Clo.mono hK ?_); rfl)
                 | with_reducible intro _ | with_reducible apply confirmRecv_sat | with_reducible apply onWf_sat
                 | (simp only [SatN_next]))

theorem invalRecv_sat (m : PairMsg) (s : State) (hK : Clo 0x640158 P) (hs0 : Sat P s) : Sat P (invalRecv m s) := by
  unfold invalRecv; (try dsimp only)
  repeat' (first | with_reducible assumption | ((with_reducible refine Clo.mono hK ?_); rfl)
                 | with_reducible intro _ | with_reducible apply modPair_sat | with_reducible apply modPart_sat
                 | with_reducible apply pairMessage_sat | with_reducible apply sendAck_sat
                 | with_reducible apply Sat_ite | split)

theorem execPairInvalRecv_sat (m : PairMsg) (s : State) (hK : Clo 0x640158 P) (hs0 : Sat P s) :
    SatN P (execPairInvalRecv m s) := by
  unfold execPairInvalRecv; (try dsimp only)
  repeat' (first | with_reducible assumption | ((with_reducible refine Clo.mono hK ?_); rfl)
                 | with_reducible intro _ | with_reducible apply invalRecv_sat | with_reducible apply onWf_sat
                 | (simp only [SatN_next]))

theorem syncBeginRecv_sat (m : PairMsg) (s : State) (hK : Clo 0x640158 P) (hs0 : Sat P s) :
    Sat P (syncBeginRecv m s) := by
  unfold syncBeginRecv; (try dsimp only)
  repeat' (first | with_reducible assumption | ((with_reducible refine Clo.mono hK ?_); rfl)
                 | with_reducible intro _ | with_reducible apply modPair_sat | with_reducible apply modPart_sat
                 | with_reducible apply pairMessage_sat | with_reducible apply Sat_ite | split)

theorem execPairSyncBeginRecv_sat (m : PairMsg) (s : State) (hK : Clo 0x640158 P) (hs0 : Sat P s) :
    SatN P (execPairSyncBeginRecv m s) := by
  unfold execPairSyncBeginRecv; (try dsimp only)
  repeat' (first | with_reducible assumption | ((with_reducible refine Clo.mono hK ?_); rfl)
                 | with_reducible intro _ | with_reducible apply onWf_sat | with_reducible apply syncBeginRecv_sat
                 | (simp only [SatN_next]))

theorem syncEndRecv_sat (m : PairMsg) (s : State) (hK : Clo 0x640158 P) (hs0 : Sat P s) : Sat P (syncEndRecv m s)
    := by
  unfold syncEndRecv; (try dsimp only)
  repeat' (first | with_reducible assumption | ((with_reducible refine Clo.mono hK ?_); rfl)
                 | with_reducible intro _ | with_reducible apply modPair_sat | with_reducible apply modPart_sat
                 | with_reducible apply pairMessage_sat | with_reducible apply sendAck_sat
                 | with_reducible apply setupDone_sat | with_reducible apply Sat_ite | split
                 | (refine snd_sat (by with_reducible assumption) ?_)
                 | (refine some_sat (by with_reducible assumption) ?_)
                 | (refine some2_sat (by with_reducible assumption) ?_) | dsimp only)

theorem execPairSyncEndRecv_sat (m : PairMsg) (s : State) (hK : Clo 0x640158 P) (hs0 : Sat P s) :
    SatN P (execPairSyncEndRecv m s) := by
  unfold execPairSyncEndRecv; (try dsimp only)
  repeat' (first | with_reducible assumption | ((with_reducible refine Clo.mono hK ?_); rfl)
                 | with_reducible intro _ | with_reducible apply onWf_sat | with_reducible apply syncEndRecv_sat
                 | (simp only [SatN_next]))

theorem execPairHeartbeatRecv_sat (m : PairMsg) (s : State) (hK : Clo 0x640158 P) (hs0 : Sat P s) :
    SatN P (execPairHeartbeatRecv m s) := by
  unfold execPairHeartbeatRecv; (try dsimp only)
  repeat' (first | with_reducible assumption | ((with_reducible refine Clo.mono hK ?_); rfl)
                 | with_reducible intro _ | with_reducible apply onWf_sat | with_reducible apply pairMessage_sat
                 | with_reducible apply Sat_id | (simp only [SatN_next]))

theorem syncAcked_sat (s : State) (p status : Nat) (hK : Clo 0x400118 P) (hs0 : Sat P s) :
    Sat P (syncAcked s p status) := by
  unfold syncAcked; (try dsimp only)
  repeat' (first | with_reducible assumption | ((with_reducible refine Clo.mono hK ?_); rfl)
                 | with_reducible intro _ | with_reducible apply modPart_sat | with_reducible apply setupDone_sat
                 | with_reducible apply setupEnd_sat | with_reducible apply Sat_ite | split)

theorem orderSeven_sat (s : State) (p k : Nat) (hK : Clo 0x47c11a P) (hs0 : Sat P s) : Sat P (orderSeven s p k) := by
  unfold orderSeven; (try dsimp only)
  repeat' (first | with_reducible assumption | ((with_reducible refine Clo.mono hK ?_); rfl)
                 | with_reducible apply publishNow_sat | with_reducible apply sendAcked_sat
                 | with_reducible apply Sat_id | with_reducible apply Sat_ite | split
                 | (refine snd_sat (by with_reducible assumption) ?_)
                 | (refine some_sat (by with_reducible assumption) ?_)
                 | (refine some2_sat (by with_reducible assumption) ?_) | dsimp only)

theorem ackRecv_sat (m : PairMsg) (s : State) (hK : Clo 0x67c15a P) (hs0 : Sat P s) : Sat P (ackRecv m s) := by
  unfold ackRecv; (try dsimp only)
  repeat' (first | with_reducible assumption | ((with_reducible refine Clo.mono hK ?_); rfl)
                 | with_reducible intro _ | with_reducible apply lapseDone_sat | with_reducible apply modPair_sat
                 | with_reducible apply modPart_sat | with_reducible apply orderSeven_sat
                 | with_reducible apply pairMessage_sat | with_reducible apply releaseReplies_sat
                 | with_reducible apply startLapse_sat | with_reducible apply syncAcked_sat
                 | with_reducible apply Sat_ite | split | (refine snd_sat (by with_reducible assumption) ?_)
                 | (refine some_sat (by with_reducible assumption) ?_)
                 | (refine some2_sat (by with_reducible assumption) ?_) | dsimp only)

theorem execPairAckRecv_sat (m : PairMsg) (s : State) (hK : Clo 0x67c15a P) (hs0 : Sat P s) :
    SatN P (execPairAckRecv m s) := by
  unfold execPairAckRecv; (try dsimp only)
  repeat' (first | with_reducible assumption | ((with_reducible refine Clo.mono hK ?_); rfl)
                 | with_reducible intro _ | with_reducible apply ackRecv_sat | with_reducible apply onWf_sat
                 | (simp only [SatN_next]))

theorem ackTimeout_sat (p : Nat) (s : State) (hK : Clo 0x640158 P) (hs0 : Sat P s) : Sat P (ackTimeout p s) := by
  unfold ackTimeout; (try dsimp only)
  repeat' (first | with_reducible assumption | ((with_reducible refine Clo.mono hK ?_); rfl)
                 | with_reducible apply startLapse_sat | with_reducible apply Sat_ite | split
                 | (refine snd_sat (by with_reducible assumption) ?_)
                 | (refine some_sat (by with_reducible assumption) ?_)
                 | (refine some2_sat (by with_reducible assumption) ?_) | dsimp only)

theorem execPairAckTimeout_sat (p : Nat) (s : State) (hK : Clo 0x640158 P) (hs0 : Sat P s) :
    SatN P (execPairAckTimeout p s) := by
  unfold execPairAckTimeout; (try dsimp only)
  repeat' (first | with_reducible assumption | ((with_reducible refine Clo.mono hK ?_); rfl)
                 | with_reducible intro _ | with_reducible apply ackTimeout_sat | with_reducible apply onWf_sat
                 | (simp only [SatN_next]))

theorem heartbeatMsg_sat (s : State) (hK : Clo 0x440118 P) (hs0 : Sat P s) : Sat P (heartbeatMsg s) := by
  unfold heartbeatMsg; (try dsimp only)
  repeat' (first | with_reducible assumption | ((with_reducible refine Clo.mono hK ?_); rfl)
                 | with_reducible apply sendPair_sat | with_reducible apply Sat_ite | split)

theorem execPairHeartbeatSend_sat (s : State) (hK : Clo 0x440118 P) (hs0 : Sat P s) :
    SatN P (execPairHeartbeatSend s) := by
  unfold execPairHeartbeatSend; (try dsimp only)
  repeat' (first | with_reducible assumption | ((with_reducible refine Clo.mono hK ?_); rfl)
                 | with_reducible intro _ | with_reducible apply heartbeatMsg_sat | with_reducible apply onWf_sat
                 | (simp only [SatN_next]))

theorem beatSend_sat (s : State) (hK : Clo 0x400000 P) (hs0 : Sat P s) : Sat P (beatSend s) := by
  unfold beatSend; (try dsimp only)
  repeat' (first | with_reducible assumption | ((with_reducible refine Clo.mono hK ?_); rfl)
                 | with_reducible intro _ | with_reducible apply modPair_sat | with_reducible apply Sat_ite | split
                 | (refine snd_sat (by with_reducible assumption) ?_)
                 | (refine some_sat (by with_reducible assumption) ?_)
                 | (refine some2_sat (by with_reducible assumption) ?_) | dsimp only)

theorem execHeartbeatFrameSend_sat (s : State) (hK : Clo 0x400000 P) (hs0 : Sat P s) :
    SatN P (execHeartbeatFrameSend s) := by
  unfold execHeartbeatFrameSend; (try dsimp only)
  repeat' (first | with_reducible assumption | ((with_reducible refine Clo.mono hK ?_); rfl)
                 | with_reducible intro _ | with_reducible apply beatSend_sat | with_reducible apply onWf_sat
                 | (simp only [SatN_next]))

theorem beatPart_sat (oldP oldM newP newM : BitVec 16) (s : State) (p : Nat) (hK : Clo 0x67c15a P) (hs0 : Sat P s) :
    Sat P (beatPart oldP oldM newP newM s p) := by
  unfold beatPart; (try dsimp only)
  repeat' (first | with_reducible assumption | ((with_reducible refine Clo.mono hK ?_); rfl)
                 | with_reducible intro _ | with_reducible apply lapseDone_sat | with_reducible apply modPart_sat
                 | with_reducible apply startLapse_sat | with_reducible apply Sat_ite | split
                 | (refine snd_sat (by with_reducible assumption) ?_)
                 | (refine some_sat (by with_reducible assumption) ?_)
                 | (refine some2_sat (by with_reducible assumption) ?_) | dsimp only)

theorem findTwoHomes_sat (s : State) (newP : BitVec 16) (hK : Clo 0x200158 P) (hs0 : Sat P s) :
    Sat P (findTwoHomes s newP) := by
  unfold findTwoHomes; (try dsimp only)
  repeat' (first | with_reducible assumption | ((with_reducible refine Clo.mono hK ?_); rfl)
                 | with_reducible intro _ | with_reducible apply Sat_foldl | with_reducible apply modPart_sat
                 | with_reducible apply pairEvent_sat | with_reducible apply recordFault_sat
                 | with_reducible apply Sat_ite | split | (refine snd_sat (by with_reducible assumption) ?_)
                 | (refine some_sat (by with_reducible assumption) ?_)
                 | (refine some2_sat (by with_reducible assumption) ?_) | dsimp only)

theorem beatRecv_sat (f : BitVec 64) (s : State) (hK : Clo 0x67c15a P) (hs0 : Sat P s) : Sat P (beatRecv f s) := by
  unfold beatRecv; (try dsimp only)
  repeat' (first | with_reducible assumption | ((with_reducible refine Clo.mono hK ?_); rfl)
                 | with_reducible intro _ | with_reducible apply Sat_foldl | with_reducible apply beatPart_sat
                 | with_reducible apply findTwoHomes_sat | with_reducible apply modPair_sat
                 | with_reducible apply Sat_ite | split | (refine snd_sat (by with_reducible assumption) ?_)
                 | (refine some_sat (by with_reducible assumption) ?_)
                 | (refine some2_sat (by with_reducible assumption) ?_) | dsimp only)

theorem execHeartbeatFrameRecv_sat (frame : BitVec 64) (s : State) (hK : Clo 0x67c15a P) (hs0 : Sat P s) :
    SatN P (execHeartbeatFrameRecv frame s) := by
  unfold execHeartbeatFrameRecv; (try dsimp only)
  repeat' (first | with_reducible assumption | ((with_reducible refine Clo.mono hK ?_); rfl)
                 | with_reducible intro _ | with_reducible apply beatRecv_sat | with_reducible apply onWf_sat
                 | (simp only [SatN_next]))

theorem pathLoss_sat (s : State) (hK : Clo 0x400018 P) (hs0 : Sat P s) : Sat P (pathLoss s) := by
  unfold pathLoss; (try dsimp only)
  repeat' (first | with_reducible assumption | ((with_reducible refine Clo.mono hK ?_); rfl)
                 | with_reducible intro _ | with_reducible apply modPair_sat | with_reducible apply pairEvent_sat
                 | with_reducible apply Sat_ite | split)

theorem execPairPathLoss_sat (s : State) (hK : Clo 0x400018 P) (hs0 : Sat P s) : SatN P (execPairPathLoss s) := by
  unfold execPairPathLoss; (try dsimp only)
  repeat' (first | with_reducible assumption | ((with_reducible refine Clo.mono hK ?_); rfl)
                 | with_reducible intro _ | with_reducible apply onWf_sat | with_reducible apply pathLoss_sat
                 | (simp only [SatN_next]))

theorem leftYielded_sat (s : State) (p : Nat) (hK : Clo 0x30100 P) (hs0 : Sat P s) : Sat P (leftYielded s p) := by
  unfold leftYielded; (try dsimp only)
  repeat' (first | with_reducible assumption | ((with_reducible refine Clo.mono hK ?_); rfl)
                 | with_reducible intro _ | with_reducible apply modPart_sat | with_reducible apply saveRecord_sat
                 | (refine snd_sat (by with_reducible assumption) ?_)
                 | (refine some_sat (by with_reducible assumption) ?_)
                 | (refine some2_sat (by with_reducible assumption) ?_) | dsimp only)

theorem takeOver_sat (s : State) (p : Nat) (hK : Clo 0x47c118 P) (hs0 : Sat P s) : Sat P (takeOver s p) := by
  unfold takeOver; (try dsimp only)
  repeat' (first | with_reducible assumption | ((with_reducible refine Clo.mono hK ?_); rfl)
                 | with_reducible intro _ | with_reducible apply Sat_foldl | with_reducible apply leftYielded_sat
                 | with_reducible apply modPart_sat | with_reducible apply modTiers_sat
                 | with_reducible apply releaseGrains_sat | with_reducible apply setRegion_sat
                 | with_reducible apply Sat_ite | split
                 | (simp only [Sat_mk]; refine clo_drawers hK rfl (clo_regions hK rfl (Sat_fold ?_)))
                 | (refine snd_sat (by with_reducible assumption) ?_)
                 | (refine some_sat (by with_reducible assumption) ?_)
                 | (refine some2_sat (by with_reducible assumption) ?_) | with_reducible apply SatO_map
                 | with_reducible apply SatO_map2 | with_reducible apply SatO2_mapO
                 | with_reducible apply SatO2_map2 | dsimp only)

theorem keepAlone_sat (s : State) (p : Nat) (hK : Clo 0x47c11a P) (hs0 : Sat P s) : Sat P (keepAlone s p) := by
  unfold keepAlone; (try dsimp only)
  repeat' (first | with_reducible assumption | ((with_reducible refine Clo.mono hK ?_); rfl)
                 | with_reducible intro _ | with_reducible apply leavePair_sat | with_reducible apply modPart_sat
                 | with_reducible apply Sat_ite | split)

theorem twinFailed_sat (s : State) (hK : Clo 0x67c15a P) (hs0 : Sat P s) : Sat P (twinFailed s) := by
  unfold twinFailed; (try dsimp only)
  repeat' (first | with_reducible assumption | ((with_reducible refine Clo.mono hK ?_); rfl)
                 | with_reducible intro _ | with_reducible apply Sat_foldl | with_reducible apply keepAlone_sat
                 | with_reducible apply modPair_sat | with_reducible apply pairEvent_sat
                 | with_reducible apply recordFault_sat | with_reducible apply setupEnd_sat
                 | with_reducible apply takeOver_sat | with_reducible apply Sat_ite | split
                 | (refine snd_sat (by with_reducible assumption) ?_)
                 | (refine some_sat (by with_reducible assumption) ?_)
                 | (refine some2_sat (by with_reducible assumption) ?_) | dsimp only)

theorem execTwinFailure_sat (s : State) (hK : Clo 0x67c15a P) (hs0 : Sat P s) : SatN P (execTwinFailure s) := by
  unfold execTwinFailure; (try dsimp only)
  repeat' (first | with_reducible assumption | ((with_reducible refine Clo.mono hK ?_); rfl)
                 | with_reducible intro _ | with_reducible apply onWf_sat | with_reducible apply twinFailed_sat
                 | (simp only [SatN_next]))

theorem endMirror_sat (s : State) (p : Nat) (hK : Clo 0x47f71a P) (hs0 : Sat P s) : Sat P (endMirror s p) := by
  unfold endMirror; (try dsimp only)
  repeat' (first | with_reducible assumption | ((with_reducible refine Clo.mono hK ?_); rfl)
                 | with_reducible intro _ | with_reducible apply emptyPart_sat
                 | with_reducible apply leftYielded_sat | with_reducible apply modPart_sat
                 | with_reducible apply partitionReset_sat | (refine snd_sat (by with_reducible assumption) ?_)
                 | (refine some_sat (by with_reducible assumption) ?_)
                 | (refine some2_sat (by with_reducible assumption) ?_) | dsimp only)

theorem endPart_sat (s : State) (p : Nat) (hK : Clo 0x47f71a P) (hs0 : Sat P s) : Sat P (endPart s p) := by
  unfold endPart; (try dsimp only)
  repeat' (first | with_reducible assumption | ((with_reducible refine Clo.mono hK ?_); rfl)
                 | with_reducible intro _ | with_reducible apply endMirror_sat | with_reducible apply leavePair_sat
                 | with_reducible apply modPart_sat | with_reducible apply Sat_ite | split)

theorem pairEndCmd_sat (c : Cmd) (s : State) (hK : Clo 0x47f71a P) (hs0 : Sat P s) : Sat P (pairEndCmd c s) := by
  unfold pairEndCmd; (try dsimp only)
  repeat' (first | with_reducible assumption | ((with_reducible refine Clo.mono hK ?_); rfl)
                 | with_reducible intro _ | with_reducible apply Sat_foldl | with_reducible apply endPart_sat
                 | with_reducible apply finish_sat | with_reducible apply modPair_sat
                 | with_reducible apply setupEnd_sat | with_reducible apply Sat_ite | split
                 | (refine snd_sat (by with_reducible assumption) ?_)
                 | (refine some_sat (by with_reducible assumption) ?_)
                 | (refine some2_sat (by with_reducible assumption) ?_) | dsimp only)

theorem execPairEnd_sat (s : State) (hK : Clo 0x47f71a P) (hs0 : Sat P s) : SatN P (execPairEnd s) := by
  unfold execPairEnd; (try dsimp only)
  repeat' (first | with_reducible assumption | ((with_reducible refine Clo.mono hK ?_); rfl)
                 | with_reducible intro _ | with_reducible apply onWf_sat | with_reducible apply pairEndCmd_sat
                 | with_reducible apply takeCmd_sat | (simp only [SatN_next]))

theorem twinReply_sat (pkt : List Byte) (s : State) (hK : Clo 0x440000 P) (hs0 : Sat P s) : Sat P (twinReply pkt s)
    := by
  unfold twinReply; (try dsimp only)
  repeat' (first | with_reducible assumption | ((with_reducible refine Clo.mono hK ?_); rfl)
                 | with_reducible intro _ | with_reducible apply ingress_sat | with_reducible apply modPair_sat
                 | with_reducible apply takeMessage_sat | with_reducible apply Sat_ite | split)

theorem execTwinReplyRecv_sat (pkt : List Byte) (s : State) (hK : Clo 0x440000 P) (hs0 : Sat P s) :
    SatN P (execTwinReplyRecv pkt s) := by
  unfold execTwinReplyRecv; (try dsimp only)
  repeat' (first | with_reducible assumption | ((with_reducible refine Clo.mono hK ?_); rfl)
                 | with_reducible intro _ | with_reducible apply onWf_sat | with_reducible apply twinReply_sat
                 | (simp only [SatN_next]))

end Sys2Proof.Machine
end

