-- ==== Sys2Proof/Laws/Tables.lean ====
section
/-! SUPPORT. Tables: what is read after an entry is written, for the entries of State that tables hold. -/

namespace Sys2Proof.Machine

@[simp] theorem tget_tset_self (d : α) (t : Tab α) (k : Nat) (v : α) : tget d (tset t k v) k = v := by
  induction t with
  | nil => simp [tset, tget]
  | cons e r ih =>
    obtain ⟨i, w⟩ := e
    by_cases h : k < i
    · simp [tset, tget, h]
    · by_cases h2 : k = i <;> simp [tset, tget, h, h2, ih]

theorem tget_tset_ne (d : α) (t : Tab α) {k j : Nat} (v : α) (h : j ≠ k) : tget d (tset t k v) j = tget d t j := by
  induction t with
  | nil => simp [tset, tget, h]
  | cons e r ih =>
    obtain ⟨i, w⟩ := e
    by_cases h1 : k < i
    · simp only [tset, h1, if_true, tget]
      by_cases h2 : j < k
      · simp [h2, Nat.lt_trans h2 h1]
      · simp [h2, h]
    · by_cases h2 : k = i
      · subst h2; simp [tset, tget, h]
      · simp only [tset, h1, h2, if_false, tget, ih]

theorem tget_tset (d : α) (t : Tab α) (k j : Nat) (v : α) : tget d (tset t k v) j = if j = k then v else tget d t j := by
  by_cases h : j = k
  · subst h; simp
  · simp [h, tget_tset_ne]

theorem map_tset (f : α → β) (t : Tab α) (k : Nat) (v : α) :
    (tset t k v).map (fun e => (e.1, f e.2)) = tset (t.map fun e => (e.1, f e.2)) k (f v) := by
  induction t with
  | nil => rfl
  | cons e r ih =>
    obtain ⟨i, w⟩ := e
    simp only [tset, List.map_cons]
    split
    · rfl
    · split
      · rfl
      · simp only [List.map_cons, ih]

theorem tfind_tset (t : Tab α) (k j : Nat) (v : α) : tfind (tset t k v) j = if j = k then some v else tfind t j := by
  simp only [tfind, map_tset, tget_tset]

@[simp] theorem part_setPart_self (s : State) (p : Nat) (x : Part) : part (setPart s p x) p = x := tget_tset_self ..
theorem part_setPart_ne (s : State) {p q : Nat} (x : Part) (h : q ≠ p) : part (setPart s p x) q = part s q :=
  tget_tset_ne _ _ _ h
@[simp] theorem part_modPart_self (s : State) (p : Nat) (f : Part → Part) : part (modPart s p f) p = f (part s p) :=
  part_setPart_self ..
theorem part_modPart_ne (s : State) {p q : Nat} (f : Part → Part) (h : q ≠ p) : part (modPart s p f) q = part s q :=
  part_setPart_ne _ _ h

@[simp] theorem tile_setTile_self (s : State) (t : Nat) (x : Tile) : tile (setTile s t x) t = x := tget_tset_self ..
theorem tile_setTile_ne (s : State) {t u : Nat} (x : Tile) (h : u ≠ t) : tile (setTile s t x) u = tile s u :=
  tget_tset_ne _ _ _ h
@[simp] theorem tile_modTile_self (s : State) (t : Nat) (f : Tile → Tile) : tile (modTile s t f) t = f (tile s t) :=
  tile_setTile_self ..
theorem tile_modTile_ne (s : State) {t u : Nat} (f : Tile → Tile) (h : u ≠ t) : tile (modTile s t f) u = tile s u :=
  tile_setTile_ne _ _ h

@[simp] theorem ve_setVe_self (s : State) (b : Nat) (x : Ve) : ve (setVe s b x) b = x := tget_tset_self ..
theorem ve_setVe_ne (s : State) {b c : Nat} (x : Ve) (h : c ≠ b) : ve (setVe s b x) c = ve s c := tget_tset_ne _ _ _ h
@[simp] theorem ve_modVe_self (s : State) (b : Nat) (f : Ve → Ve) : ve (modVe s b f) b = f (ve s b) := ve_setVe_self ..
theorem ve_modVe_ne (s : State) {b c : Nat} (f : Ve → Ve) (h : c ≠ b) : ve (modVe s b f) c = ve s c :=
  ve_setVe_ne _ _ h

@[simp] theorem link_setLink_self (s : State) (l : Nat) (x : Link) : link (setLink s l x) l = x := tget_tset_self ..
theorem link_setLink_ne (s : State) {l m : Nat} (x : Link) (h : m ≠ l) : link (setLink s l x) m = link s m :=
  tget_tset_ne _ _ _ h
@[simp] theorem link_modLink_self (s : State) (l : Nat) (f : Link → Link) : link (modLink s l f) l = f (link s l) :=
  link_setLink_self ..

@[simp] theorem drawer_setDrawer_self (s : State) (i : Nat) (x : Drawer) : drawer (setDrawer s i x) i = x :=
  tget_tset_self ..
theorem drawer_setDrawer_ne (s : State) {i j : Nat} (x : Drawer) (h : j ≠ i) : drawer (setDrawer s i x) j = drawer s j :=
  tget_tset_ne _ _ _ h

@[simp] theorem region_setRegion_self (s : State) (p i : Nat) (x : Region) : region (setRegion s p i x) p i = x :=
  tget_tset_self ..

@[simp] theorem ht_setHt_self (s : State) (g : Nat) (e : HtEntry) : ht (setHt s g e) g = e := tget_tset_self ..
theorem ht_setHt_ne (s : State) {g h : Nat} (e : HtEntry) (n : h ≠ g) : ht (setHt s g e) h = ht s h :=
  tget_tset_ne _ _ _ n

@[simp] theorem frameSt_setFrame_self (s : State) (t f : Nat) (x : FrameState) : frameSt (setFrame s t f x) t f = x :=
  tget_tset_self ..

@[simp] theorem slot_setSlot_self (s : State) (t k : Nat) (x : Slot) : slot (setSlot s t k x) t k = x :=
  tget_tset_self ..

end Sys2Proof.Machine
end

