-- ==== Sys2Proof/Laws/Lines.lean ====
section
/-! SUPPORT. Lines: 32-bit lanes of a 512-bit line, tables written by a list, and integer codes. -/

set_option linter.unusedSimpArgs false
set_option linter.unusedVariables false

namespace Sys2Proof.Machine

theorem ofLanes_lt (ws : List W32) : ofLanes ws < 2 ^ (32 * ws.length) := by
  induction ws with
  | nil => simp [ofLanes]
  | cons w r ih =>
    simp only [ofLanes, List.length_cons]
    have := w.isLt
    have e : 2 ^ (32 * (r.length + 1)) = 2 ^ 32 * 2 ^ (32 * r.length) := by rw [← Nat.pow_add]; congr 1; omega
    rw [e]
    generalize 2 ^ (32 * r.length) = k at *
    nlinarith

theorem ofLanes_div (ws : List W32) (i : Nat) : ofLanes ws / 2 ^ (32 * i) % 2 ^ 32 = (ws.getD i 0).toNat := by
  induction ws generalizing i with
  | nil => simp [ofLanes]
  | cons w r ih =>
    cases i with
    | zero => simp [ofLanes, Nat.add_mul_mod_self_left, Nat.mod_eq_of_lt w.isLt]
    | succ i =>
      have e : 2 ^ (32 * (i + 1)) = 2 ^ 32 * 2 ^ (32 * i) := by rw [← Nat.pow_add]; congr 1; omega
      have q : (w.toNat + 2 ^ 32 * ofLanes r) / 2 ^ 32 = ofLanes r := by have := w.isLt; omega
      simp only [ofLanes, List.getD_cons_succ]
      rw [e, ← Nat.div_div_eq_div_mul, q, ih]

theorem lane_lineOf (ws : List W32) {i : Nat} (h : i < 16) : lane (lineOf ws) i = ws.getD i 0 := by
  have hb := ofLanes_lt (ws.take 16)
  have hl : (ws.take 16).length ≤ 16 := by simp
  have hp : 2 ^ (32 * (ws.take 16).length) ≤ 2 ^ 512 := Nat.pow_le_pow_right (by omega) (by omega)
  apply BitVec.eq_of_toNat_eq
  unfold lane lineOf
  rw [BitVec.extractLsb'_toNat, BitVec.toNat_ofNat, Nat.mod_eq_of_lt (lt_of_lt_of_le hb hp), Nat.shiftRight_eq_div_pow, ofLanes_div]
  simp [List.getD_eq_getElem?_getD, List.getElem?_take, h]

theorem tfind_foldl_tset (g : Nat → Nat) (inj : ∀ i j, g i = g j → i = j) (ls : List α) (n : Nat) (t : Tab α) (i : Nat) :
    tfind ((ls.zipIdx n).foldl (fun m e => tset m (g e.2) e.1) t) (g i) =
      if n ≤ i ∧ i < n + ls.length then ls[i - n]? else tfind t (g i) := by
  induction ls generalizing n t with
  | nil => simp
  | cons l r ih =>
    simp only [List.zipIdx_cons, List.foldl_cons]
    rw [ih, tfind_tset]
    by_cases e : i = n
    · subst e; simp
    · rw [if_neg (fun h => e (inj _ _ h))]
      by_cases h : n + 1 ≤ i ∧ i < n + 1 + r.length
      · rw [if_pos h, if_pos (by simp; omega), show i - n = (i - (n + 1)) + 1 by omega]; simp
      · rw [if_neg h, if_neg (by simp; omega)]

theorem sgn8 (w : Nat) : sgn 8 (w % 256) = (BitVec.ofNat 8 w).toInt := by
  simp only [sgn, BitVec.toInt_eq_toNat_cond, BitVec.toNat_ofNat]
  split <;> split <;> omega
theorem sgn4 (w : Nat) : sgn 4 (w % 16) = (BitVec.ofNat 4 w).toInt := by
  simp only [sgn, BitVec.toInt_eq_toNat_cond, BitVec.toNat_ofNat]
  split <;> split <;> omega

end Sys2Proof.Machine
end

