-- ==== Sys2Proof/Laws/Links.lean ====
section
/-! SUPPORT. Links: what ingress, sending and one link's update leave of the others. -/

set_option linter.unusedSimpArgs false
set_option linter.unusedVariables false

namespace Sys2Proof.Machine

theorem ingress_links (s : State) (t : Txn) : (ingress s t).fabric.links = s.fabric.links ∧
    (ingress s t).fabric.fwd = s.fabric.fwd ∧ (ingress s t).fabric.waiting = s.fabric.waiting := by
  unfold ingress; split <;> exact ⟨rfl, rfl, rfl⟩

theorem link_of_links {s u : State} (h : u.fabric.links = s.fabric.links) (k : Nat) : link u k = link s k := by
  unfold link; rw [h]

theorem link_setLink (s : State) (l k : Nat) (x : Link) : link (setLink s l x) k = if k = l then x else link s k := by
  by_cases h : k = l
  · subst h; simp
  · rw [if_neg h]; exact link_setLink_ne _ _ h

theorem link_modFabric (s : State) (f : Fabric → Fabric) (h : (f s.fabric).links = s.fabric.links) :
    (modFabric s f).fabric.links = s.fabric.links := h

theorem deliverTxn_links (s : State) (t : Txn) (h : ¬ (t.ttype = 0x12 ∧ follows s t = false)) :
    deliverTxn s t = ingress s t := by
  unfold deliverTxn; dsimp only
  rw [if_neg]
  intro hb
  simp only [Bool.and_eq_true, decide_eq_true_eq, Bool.not_eq_true'] at hb
  exact h hb.1.1

theorem send_expect (s : State) (m : Nat) (k : Packet) : (send s m k).cs = s.cs := by
  unfold send; repeat' split
  all_goals rfl

end Sys2Proof.Machine
end

