-- ==== Sys2Proof/Laws/Ranks.lean ====
section
/-! SUPPORT. Ranks: the order of biased scores, and the first of the highest (08 R166, R167). -/

set_option linter.unusedSimpArgs false
set_option linter.unusedVariables false

namespace Sys2Proof.Machine

def nval (s : Bool) (m : Nat) (e : Int) : ℚ := (if s then -(m : ℚ) else m) * (2 : ℚ) ^ e
def nrank : Sys2Proof.Num → Nat
  | .nan => 0
  | .inf s => if s then 1 else 3
  | .fin .. => 2
def nkey : Sys2Proof.Num → ℚ
  | .fin s m e => nval s m e
  | _ => 0
def klt (x y : Sys2Proof.Num) : Prop := nrank x < nrank y ∨ (nrank x = nrank y ∧ nkey x < nkey y)

theorem signedAt_val (s : Bool) (m : Nat) (e q : Int) (h : q ≤ e) : ((signedAt s m e q : Int) : ℚ) * (2 : ℚ) ^ q = nval s m e := by
  unfold signedAt nval
  have : (2 : ℚ) ^ e = 2 ^ (e - q).toNat * 2 ^ q := by
    rw [← zpow_natCast, ← zpow_add₀ (by norm_num)]; congr 1; omega
  rw [this]
  split <;> push_cast <;> ring

theorem ranks_iff (a c : W32) : ranks a c = true ↔ klt (num32 c) (num32 a) := by
  unfold ranks isNan
  generalize num32 a = x
  generalize num32 c = y
  cases x with
  | nan =>
    cases y with
    | inf t => cases t <;> simp [numCmp, klt, nrank]
    | nan => simp [numCmp, klt, nrank]
    | fin t n f => simp [numCmp, klt, nrank]
  | inf s =>
    cases y with
    | nan => cases s <;> simp [numCmp, klt, nrank]
    | inf t => cases s <;> cases t <;> simp [numCmp, klt, nrank, nkey]
    | fin t n f => cases s <;> simp [numCmp, klt, nrank]
  | fin s m e =>
    cases y with
    | nan => simp [numCmp, klt, nrank]
    | inf t => cases t <;> simp [numCmp, klt, nrank]
    | fin t n f =>
      simp only [numCmp, klt, nrank, nkey, decide_eq_true_eq, Int.sign_pos_iff, lt_irrefl, true_and, false_or]
      rw [← signedAt_val s m e (min e f) (min_le_left _ _), ← signedAt_val t n f (min e f) (min_le_right _ _),
        mul_lt_mul_iff_left₀ (by positivity), Int.cast_lt]
      omega

theorem klt_not_trans {x y z : Sys2Proof.Num} (h : ¬ klt x y) (g : ¬ klt y z) : ¬ klt x z := by
  unfold klt at *
  push Not at *
  refine ⟨by omega, fun e => ?_⟩
  have e1 : nrank x = nrank y := by omega
  have e2 : nrank y = nrank z := by omega
  exact le_trans (g.2 e2) (h.2 e1)
theorem klt_asymm {x y : Sys2Proof.Num} (h : klt x y) : ¬ klt y x := by
  unfold klt at *
  rcases h with h | h
  · push Not; exact ⟨by omega, fun e => by omega⟩
  · push Not; exact ⟨by omega, fun e => le_of_lt h.2⟩

/-- Stated with `nb a c` for "a does not rank above c". -/
theorem first_spec (l : List (Nat × W32)) (b : Nat × W32) (hs : (b :: l).Pairwise fun x y => x.1 < y.1) :
    ∃ r, l.foldl (fun best e => if ranks e.2 best.2 then e else best) b = r ∧ r ∈ b :: l ∧
      ∀ e ∈ b :: l, ranks e.2 r.2 = false ∧ (e.1 < r.1 → ranks r.2 e.2 = true) := by
  induction l generalizing b with
  | nil =>
    refine ⟨b, rfl, by simp, ?_⟩
    intro e he
    simp at he; subst he
    refine ⟨?_, fun h => absurd h (lt_irrefl _)⟩
    rw [Bool.eq_false_iff]; intro h; rw [ranks_iff] at h; exact klt_asymm h h
  | cons a l ih =>
    rw [List.pairwise_cons] at hs
    obtain ⟨hb, hs⟩ := hs
    rw [List.foldl_cons]
    by_cases h : ranks a.2 b.2 = true
    · rw [if_pos h]
      obtain ⟨r, e, m, p⟩ := ih a hs
      refine ⟨r, e, List.mem_cons_of_mem _ m, ?_⟩
      intro k hk
      rcases List.mem_cons.mp hk with rfl | hk
      · have pa := (p a (by simp)).1
        have hk : ranks r.2 k.2 = true := by
          rw [ranks_iff] at h ⊢
          rw [Bool.eq_false_iff, ne_eq, ranks_iff] at pa
          by_contra hn
          exact klt_not_trans hn pa h
        refine ⟨?_, fun _ => hk⟩
        rw [Bool.eq_false_iff, ne_eq, ranks_iff]; rw [ranks_iff] at hk; exact klt_asymm hk
      · exact p k hk
    · rw [if_neg h]
      have hs' : (b :: l).Pairwise fun x y => x.1 < y.1 := by
        rw [List.pairwise_cons] at hs ⊢
        exact ⟨fun k hk => hb k (by simp [hk]), hs.2⟩
      obtain ⟨r, e, m, p⟩ := ih b hs'
      refine ⟨r, e, ?_, ?_⟩
      · rcases List.mem_cons.mp m with rfl | m <;> simp [*]
      · intro k hk
        rcases List.mem_cons.mp hk with rfl | hk
        · exact p _ (by simp)
        · rcases List.mem_cons.mp hk with rfl | hk
          · have pb := p b (by simp)
            refine ⟨?_, ?_⟩
            · have h1 := pb.1
              rw [Bool.eq_false_iff, ne_eq, ranks_iff] at h1 ⊢
              rw [ranks_iff] at h
              exact klt_not_trans h1 h
            · intro hlt
              rcases List.mem_cons.mp m with rfl | m
              · exact absurd (hb k (by simp)) (by omega)
              · have hbr := pb.2 (hb r (by simp [m]))
                rw [ranks_iff] at hbr ⊢ h
                by_contra hn
                exact klt_not_trans h hn hbr
          · exact p k (by simp [hk])

theorem rankFirst_spec (l : List (Nat × W32)) (h : l ≠ []) (hs : l.Pairwise fun x y => x.1 < y.1) :
    ∃ r, rankFirst l = r.1 ∧ r ∈ l ∧ ∀ e ∈ l, ranks e.2 r.2 = false ∧ (e.1 < r.1 → ranks r.2 e.2 = true) := by
  cases l with
  | nil => exact absurd rfl h
  | cons b l =>
    obtain ⟨r, e, m, p⟩ := first_spec l b hs
    exact ⟨r, by simp [rankFirst, e], m, p⟩

end Sys2Proof.Machine
end

