-- ==== Sys2Proof/Laws/Rows.lean ====
section
/-! SUPPORT. Rows: what the operations around the rows answer, once each. -/

set_option linter.unusedSimpArgs false
set_option linter.unusedVariables false

namespace Sys2Proof.Machine

/-- A partition command that begins outside a pre-emption phase is interpreted. -/
theorem row_begins_settled {i : Instr} {s : State} {q : Nat} {c : Cmd} (h : Begins i s q c) {mine : Cmd → Bool}
    (hm : mine c = true) (f : Cmd → State → State) (p) (z : prePhase (part s p) = false) :
    onWf i s (settled p (takeCmd q mine f)) = .next (f c (taken s q c)) := by
  rw [onWf_acts h.1]; simp [settled, z, takeCmd_begins h hm]

/-- A VE at an instruction of the row, whose operation answers a state, issues it. -/
theorem veRead_ready {s b opc w rs f} (h : VeReady s b opc w) {t : State} (hf : f w s = .ok (some t)) :
    veRead b opc .ok rs f s = issued t b := by
  obtain ⟨a, c, d, e⟩ := h
  unfold veRead
  simp only [a, c, d]
  rw [if_neg (by simp), if_neg (by
    intro hh
    rcases hh with hh | ⟨h1, h2⟩
    · exact hh rfl
    · have := e h1
      rcases h2 with h2 | h2
      · simp [this.1] at h2
      · omega)]
  simp [hf]

/-- What the VE at an instruction of the row does: fault, wait, or issue under what its reads meet. -/
theorem veRead_cases {s b opc w} (h : VeReady s b opc w) (ecc reads f) :
    veRead b opc ecc reads f s = match f w s with
      | .error s => veProgramFault s b w
      | .ok none => modVe s b fun x => { x with waitSince := some (x.waitSince.getD s.time.watch) }
      | .ok (some t) =>
        if (ecc = .bad ∨ (ecc = .corrected ∧ (ve s b).buffer)) ∧ reads w s then veStorageFault s b
        else if ecc = .corrected ∧ reads w s then
          modVe (issued t b) b fun x => { x with softErrors := x.softErrors + 1 }
        else issued t b := by
  obtain ⟨a, c, d, e⟩ := h
  unfold veRead
  simp only [a, c, d]
  rw [if_neg (by simp), if_neg (by
    intro hh
    rcases hh with hh | ⟨h1, h2⟩
    · exact hh rfl
    · have := e h1
      rcases h2 with h2 | h2
      · simp [this.1] at h2
      · omega)] <;> rfl

/-- As `veRead_ready`, for a row that reads no storage. -/
theorem veIssue_ready {s b opc w f} (h : VeReady s b opc w) {t : State} (hf : f w s = .ok (some t)) :
    veIssue b opc f s = issued t b := veRead_ready h hf

/-- A register operation that answers a VE puts it in place. -/
theorem regOp_some {b f w s y} (h : f w (ve s b) = some y) : regOp b f w s = .ok (some (setVe s b y)) := by
  simp [regOp, h]

/-- A vector operation writes its register. -/
theorem vecOp_value {b f w s y} (h : f w (ve s b) = y) : vecOp b f w s = .ok (some (setVe s b (setVr (ve s b) (iD w) y))) := by
  simp [vecOp, regOp, h]

/-- A row of a VE instruction completes. -/
theorem ve_row {i : Instr} {s b opc w f t} (ha : Acts i s) (h : VeReady s b opc w) (hf : f w s = .ok (some t)) :
    onWf i s (veIssue b opc f) = .next (issued t b) := by rw [onWf_acts ha, veIssue_ready h hf]

/-- As `ve_row`, for a row that reads a storage. -/
theorem ve_row_read {i : Instr} {s b opc w rs f t} (ha : Acts i s) (h : VeReady s b opc w) (hf : f w s = .ok (some t)) :
    onWf i s (veRead b opc .ok rs f) = .next (issued t b) := by rw [onWf_acts ha, veRead_ready h hf]

/-- A lane operation, as a function of the lane. -/
theorem laneOp_eq (b : Nat) (f : W32 → W32 → W32 → W32) (w : W64) (s : State) :
    laneOp b f w s = .ok (some (setVe s b (setVr (ve s b) (iD w) (masked (ve s b) w fun i =>
      f (lane64 (vr (ve s b) (iA w)) i) (lane64 (vr (ve s b) (iB w)) i) (lane64 (vr (ve s b) (iC w)) i))))) := rfl

/-- A row of the arithmetic unit or the expander acts on the pass in progress. -/
theorem onPass_live {t : Nat} {s : State} {x : Tile} {p : Pass} {f : Tile → Line → Pass → State} (a : x = tile s t) (b : x.pass = some p)
    (c : live x p.slot = true) (d : drainStuck x p.slot (passNeeds x (ctxOf x p.slot) p) = false) :
    onPass t s f = f x (ctxOf x p.slot) p := by
  subst a; simp [onPass, b, c, d]

/-- A descriptor that may be taken next is taken. -/
theorem takeDesc_takes {s : State} {p k : Nat} {d : BitVec 256} (h : TakesDesc s p k d) (z : 1 ≤ k ∧ k ≤ 6) (f) :
    takeDesc p k f s = f (part s p).stream.next d s := by
  obtain ⟨a, b, c, e⟩ := h
  have : ¬ (dKind d = 0 ∨ 6 < dKind d) := by omega
  unfold takeDesc; simp only [a]; simp [b, c, e, this]
  omega

/-- An expert message from a member of the group reaches its meaning. -/
theorem takeExpert_member {msg : ExpertMsg} {n : Nat} {s : State} {m : Model} {i : Nat} (t : msg.mtype = n)
   (b : expertBad msg = false) (a : isPrimary (takeMessage s 15 (expertBytes msg)) (msg.dstPart % 16) = true)
   (c : activeModel (part (takeMessage s 15 (expertBytes msg)) (msg.dstPart % 16)) = some m)
   (d : memberOf m msg.schip msg.srcPart = some i) (f) :
   takeExpert msg n f s = f m i (takeMessage s 15 (expertBytes msg)) := by
  simp [takeExpert, t, b, a, c, d]

/-- A start-up phase whose needs are done ends. -/
theorem phaseEnd_ready {x : Phase} {needs : List Phase} {ok : State → Bool} {f : State → State} {s : State} 
  (a : s.boot.safe = false) (b : phaseDone s x = false) (c : needs.all (phaseDone s) = true) (d : ok s = true) :
  phaseEnd x needs ok f s = f (modBoot s fun b => { b with done := b.done ++ [x] }) := by
  simp only [phaseEnd, a, b, c, d]; rfl

theorem takePair_pair (s m) : (takePair s m).pair = s.pair := by
  unfold takePair; split <;> rfl

/-- A message of the twin of the row's kind reaches its meaning. -/
theorem pairMessage_twin {s : State} {m : PairMsg} {k : Nat} (h : FromTwin s m) (hk : m.pkind = k) (f) :
    pairMessage k m f s = f (heard s m) := by
  obtain ⟨a, b, c, d⟩ := h
  simp [pairMessage, a, b, c, d, hk, takePair_pair, heard]

end Sys2Proof.Machine
end

