-- ==== Sys2Proof/Laws/State.lean ====
section
/-! SUPPORT. State: what each of the updates of one component leaves, and what it makes of that component. -/

namespace Sys2Proof.Machine

@[simp] theorem setPart_pending (s : State) (p : Nat) (x : Part) : (setPart s p x).pending = s.pending := rfl
@[simp] theorem setPart_draw (s : State) (p : Nat) (x : Part) : (setPart s p x).draw = s.draw := rfl
@[simp] theorem setPart_time (s : State) (p : Nat) (x : Part) : (setPart s p x).time = s.time := rfl
@[simp] theorem setPart_cs (s : State) (p : Nat) (x : Part) : (setPart s p x).cs = s.cs := rfl
@[simp] theorem setPart_out (s : State) (p : Nat) (x : Part) : (setPart s p x).out = s.out := rfl
@[simp] theorem setPart_boot (s : State) (p : Nat) (x : Part) : (setPart s p x).boot = s.boot := rfl
@[simp] theorem setPart_lands (s : State) (p : Nat) (x : Part) : (setPart s p x).lands = s.lands := rfl
@[simp] theorem setPart_tele (s : State) (p : Nat) (x : Part) : (setPart s p x).tele = s.tele := rfl
@[simp] theorem setPart_tiles (s : State) (p : Nat) (x : Part) : (setPart s p x).tiles = s.tiles := rfl
@[simp] theorem setPart_ves (s : State) (p : Nat) (x : Part) : (setPart s p x).ves = s.ves := rfl
@[simp] theorem setPart_codebook (s : State) (p : Nat) (x : Part) : (setPart s p x).codebook = s.codebook := rfl
@[simp] theorem setPart_veNet (s : State) (p : Nat) (x : Part) : (setPart s p x).veNet = s.veNet := rfl
@[simp] theorem setPart_injectOut (s : State) (p : Nat) (x : Part) : (setPart s p x).injectOut = s.injectOut := rfl
@[simp] theorem setPart_drawers (s : State) (p : Nat) (x : Part) : (setPart s p x).drawers = s.drawers := rfl
@[simp] theorem setPart_regions (s : State) (p : Nat) (x : Part) : (setPart s p x).regions = s.regions := rfl
@[simp] theorem setPart_mem (s : State) (p : Nat) (x : Part) : (setPart s p x).mem = s.mem := rfl
@[simp] theorem setPart_tiers (s : State) (p : Nat) (x : Part) : (setPart s p x).tiers = s.tiers := rfl
@[simp] theorem setPart_fabric (s : State) (p : Nat) (x : Part) : (setPart s p x).fabric = s.fabric := rfl
@[simp] theorem setPart_mgmtA (s : State) (p : Nat) (x : Part) : (setPart s p x).mgmtA = s.mgmtA := rfl
@[simp] theorem setPart_mgmtB (s : State) (p : Nat) (x : Part) : (setPart s p x).mgmtB = s.mgmtB := rfl
@[simp] theorem setPart_safety (s : State) (p : Nat) (x : Part) : (setPart s p x).safety = s.safety := rfl
@[simp] theorem setPart_pair (s : State) (p : Nat) (x : Part) : (setPart s p x).pair = s.pair := rfl
@[simp] theorem setPart_power (s : State) (p : Nat) (x : Part) : (setPart s p x).power = s.power := rfl
@[simp] theorem modPart_pending (s : State) (p : Nat) (f : Part → Part) : (modPart s p f).pending = s.pending := rfl
@[simp] theorem modPart_draw (s : State) (p : Nat) (f : Part → Part) : (modPart s p f).draw = s.draw := rfl
@[simp] theorem modPart_time (s : State) (p : Nat) (f : Part → Part) : (modPart s p f).time = s.time := rfl
@[simp] theorem modPart_cs (s : State) (p : Nat) (f : Part → Part) : (modPart s p f).cs = s.cs := rfl
@[simp] theorem modPart_out (s : State) (p : Nat) (f : Part → Part) : (modPart s p f).out = s.out := rfl
@[simp] theorem modPart_boot (s : State) (p : Nat) (f : Part → Part) : (modPart s p f).boot = s.boot := rfl
@[simp] theorem modPart_lands (s : State) (p : Nat) (f : Part → Part) : (modPart s p f).lands = s.lands := rfl
@[simp] theorem modPart_tele (s : State) (p : Nat) (f : Part → Part) : (modPart s p f).tele = s.tele := rfl
@[simp] theorem modPart_tiles (s : State) (p : Nat) (f : Part → Part) : (modPart s p f).tiles = s.tiles := rfl
@[simp] theorem modPart_ves (s : State) (p : Nat) (f : Part → Part) : (modPart s p f).ves = s.ves := rfl
@[simp] theorem modPart_codebook (s : State) (p : Nat) (f : Part → Part) : (modPart s p f).codebook = s.codebook := rfl
@[simp] theorem modPart_veNet (s : State) (p : Nat) (f : Part → Part) : (modPart s p f).veNet = s.veNet := rfl
@[simp] theorem modPart_injectOut (s : State) (p : Nat) (f : Part → Part) : (modPart s p f).injectOut = s.injectOut := rfl
@[simp] theorem modPart_drawers (s : State) (p : Nat) (f : Part → Part) : (modPart s p f).drawers = s.drawers := rfl
@[simp] theorem modPart_regions (s : State) (p : Nat) (f : Part → Part) : (modPart s p f).regions = s.regions := rfl
@[simp] theorem modPart_mem (s : State) (p : Nat) (f : Part → Part) : (modPart s p f).mem = s.mem := rfl
@[simp] theorem modPart_tiers (s : State) (p : Nat) (f : Part → Part) : (modPart s p f).tiers = s.tiers := rfl
@[simp] theorem modPart_fabric (s : State) (p : Nat) (f : Part → Part) : (modPart s p f).fabric = s.fabric := rfl
@[simp] theorem modPart_mgmtA (s : State) (p : Nat) (f : Part → Part) : (modPart s p f).mgmtA = s.mgmtA := rfl
@[simp] theorem modPart_mgmtB (s : State) (p : Nat) (f : Part → Part) : (modPart s p f).mgmtB = s.mgmtB := rfl
@[simp] theorem modPart_safety (s : State) (p : Nat) (f : Part → Part) : (modPart s p f).safety = s.safety := rfl
@[simp] theorem modPart_pair (s : State) (p : Nat) (f : Part → Part) : (modPart s p f).pair = s.pair := rfl
@[simp] theorem modPart_power (s : State) (p : Nat) (f : Part → Part) : (modPart s p f).power = s.power := rfl
@[simp] theorem setTile_pending (s : State) (t : Nat) (x : Tile) : (setTile s t x).pending = s.pending := rfl
@[simp] theorem setTile_draw (s : State) (t : Nat) (x : Tile) : (setTile s t x).draw = s.draw := rfl
@[simp] theorem setTile_time (s : State) (t : Nat) (x : Tile) : (setTile s t x).time = s.time := rfl
@[simp] theorem setTile_cs (s : State) (t : Nat) (x : Tile) : (setTile s t x).cs = s.cs := rfl
@[simp] theorem setTile_out (s : State) (t : Nat) (x : Tile) : (setTile s t x).out = s.out := rfl
@[simp] theorem setTile_boot (s : State) (t : Nat) (x : Tile) : (setTile s t x).boot = s.boot := rfl
@[simp] theorem setTile_lands (s : State) (t : Nat) (x : Tile) : (setTile s t x).lands = s.lands := rfl
@[simp] theorem setTile_tele (s : State) (t : Nat) (x : Tile) : (setTile s t x).tele = s.tele := rfl
@[simp] theorem setTile_parts (s : State) (t : Nat) (x : Tile) : (setTile s t x).parts = s.parts := rfl
@[simp] theorem setTile_ves (s : State) (t : Nat) (x : Tile) : (setTile s t x).ves = s.ves := rfl
@[simp] theorem setTile_codebook (s : State) (t : Nat) (x : Tile) : (setTile s t x).codebook = s.codebook := rfl
@[simp] theorem setTile_veNet (s : State) (t : Nat) (x : Tile) : (setTile s t x).veNet = s.veNet := rfl
@[simp] theorem setTile_injectOut (s : State) (t : Nat) (x : Tile) : (setTile s t x).injectOut = s.injectOut := rfl
@[simp] theorem setTile_drawers (s : State) (t : Nat) (x : Tile) : (setTile s t x).drawers = s.drawers := rfl
@[simp] theorem setTile_regions (s : State) (t : Nat) (x : Tile) : (setTile s t x).regions = s.regions := rfl
@[simp] theorem setTile_mem (s : State) (t : Nat) (x : Tile) : (setTile s t x).mem = s.mem := rfl
@[simp] theorem setTile_tiers (s : State) (t : Nat) (x : Tile) : (setTile s t x).tiers = s.tiers := rfl
@[simp] theorem setTile_fabric (s : State) (t : Nat) (x : Tile) : (setTile s t x).fabric = s.fabric := rfl
@[simp] theorem setTile_mgmtA (s : State) (t : Nat) (x : Tile) : (setTile s t x).mgmtA = s.mgmtA := rfl
@[simp] theorem setTile_mgmtB (s : State) (t : Nat) (x : Tile) : (setTile s t x).mgmtB = s.mgmtB := rfl
@[simp] theorem setTile_safety (s : State) (t : Nat) (x : Tile) : (setTile s t x).safety = s.safety := rfl
@[simp] theorem setTile_pair (s : State) (t : Nat) (x : Tile) : (setTile s t x).pair = s.pair := rfl
@[simp] theorem setTile_power (s : State) (t : Nat) (x : Tile) : (setTile s t x).power = s.power := rfl
@[simp] theorem modTile_pending (s : State) (t : Nat) (f : Tile → Tile) : (modTile s t f).pending = s.pending := rfl
@[simp] theorem modTile_draw (s : State) (t : Nat) (f : Tile → Tile) : (modTile s t f).draw = s.draw := rfl
@[simp] theorem modTile_time (s : State) (t : Nat) (f : Tile → Tile) : (modTile s t f).time = s.time := rfl
@[simp] theorem modTile_cs (s : State) (t : Nat) (f : Tile → Tile) : (modTile s t f).cs = s.cs := rfl
@[simp] theorem modTile_out (s : State) (t : Nat) (f : Tile → Tile) : (modTile s t f).out = s.out := rfl
@[simp] theorem modTile_boot (s : State) (t : Nat) (f : Tile → Tile) : (modTile s t f).boot = s.boot := rfl
@[simp] theorem modTile_lands (s : State) (t : Nat) (f : Tile → Tile) : (modTile s t f).lands = s.lands := rfl
@[simp] theorem modTile_tele (s : State) (t : Nat) (f : Tile → Tile) : (modTile s t f).tele = s.tele := rfl
@[simp] theorem modTile_parts (s : State) (t : Nat) (f : Tile → Tile) : (modTile s t f).parts = s.parts := rfl
@[simp] theorem modTile_ves (s : State) (t : Nat) (f : Tile → Tile) : (modTile s t f).ves = s.ves := rfl
@[simp] theorem modTile_codebook (s : State) (t : Nat) (f : Tile → Tile) : (modTile s t f).codebook = s.codebook := rfl
@[simp] theorem modTile_veNet (s : State) (t : Nat) (f : Tile → Tile) : (modTile s t f).veNet = s.veNet := rfl
@[simp] theorem modTile_injectOut (s : State) (t : Nat) (f : Tile → Tile) : (modTile s t f).injectOut = s.injectOut := rfl
@[simp] theorem modTile_drawers (s : State) (t : Nat) (f : Tile → Tile) : (modTile s t f).drawers = s.drawers := rfl
@[simp] theorem modTile_regions (s : State) (t : Nat) (f : Tile → Tile) : (modTile s t f).regions = s.regions := rfl
@[simp] theorem modTile_mem (s : State) (t : Nat) (f : Tile → Tile) : (modTile s t f).mem = s.mem := rfl
@[simp] theorem modTile_tiers (s : State) (t : Nat) (f : Tile → Tile) : (modTile s t f).tiers = s.tiers := rfl
@[simp] theorem modTile_fabric (s : State) (t : Nat) (f : Tile → Tile) : (modTile s t f).fabric = s.fabric := rfl
@[simp] theorem modTile_mgmtA (s : State) (t : Nat) (f : Tile → Tile) : (modTile s t f).mgmtA = s.mgmtA := rfl
@[simp] theorem modTile_mgmtB (s : State) (t : Nat) (f : Tile → Tile) : (modTile s t f).mgmtB = s.mgmtB := rfl
@[simp] theorem modTile_safety (s : State) (t : Nat) (f : Tile → Tile) : (modTile s t f).safety = s.safety := rfl
@[simp] theorem modTile_pair (s : State) (t : Nat) (f : Tile → Tile) : (modTile s t f).pair = s.pair := rfl
@[simp] theorem modTile_power (s : State) (t : Nat) (f : Tile → Tile) : (modTile s t f).power = s.power := rfl
@[simp] theorem setVe_pending (s : State) (b : Nat) (x : Ve) : (setVe s b x).pending = s.pending := rfl
@[simp] theorem setVe_draw (s : State) (b : Nat) (x : Ve) : (setVe s b x).draw = s.draw := rfl
@[simp] theorem setVe_time (s : State) (b : Nat) (x : Ve) : (setVe s b x).time = s.time := rfl
@[simp] theorem setVe_cs (s : State) (b : Nat) (x : Ve) : (setVe s b x).cs = s.cs := rfl
@[simp] theorem setVe_out (s : State) (b : Nat) (x : Ve) : (setVe s b x).out = s.out := rfl
@[simp] theorem setVe_boot (s : State) (b : Nat) (x : Ve) : (setVe s b x).boot = s.boot := rfl
@[simp] theorem setVe_lands (s : State) (b : Nat) (x : Ve) : (setVe s b x).lands = s.lands := rfl
@[simp] theorem setVe_tele (s : State) (b : Nat) (x : Ve) : (setVe s b x).tele = s.tele := rfl
@[simp] theorem setVe_parts (s : State) (b : Nat) (x : Ve) : (setVe s b x).parts = s.parts := rfl
@[simp] theorem setVe_tiles (s : State) (b : Nat) (x : Ve) : (setVe s b x).tiles = s.tiles := rfl
@[simp] theorem setVe_codebook (s : State) (b : Nat) (x : Ve) : (setVe s b x).codebook = s.codebook := rfl
@[simp] theorem setVe_veNet (s : State) (b : Nat) (x : Ve) : (setVe s b x).veNet = s.veNet := rfl
@[simp] theorem setVe_injectOut (s : State) (b : Nat) (x : Ve) : (setVe s b x).injectOut = s.injectOut := rfl
@[simp] theorem setVe_drawers (s : State) (b : Nat) (x : Ve) : (setVe s b x).drawers = s.drawers := rfl
@[simp] theorem setVe_regions (s : State) (b : Nat) (x : Ve) : (setVe s b x).regions = s.regions := rfl
@[simp] theorem setVe_mem (s : State) (b : Nat) (x : Ve) : (setVe s b x).mem = s.mem := rfl
@[simp] theorem setVe_tiers (s : State) (b : Nat) (x : Ve) : (setVe s b x).tiers = s.tiers := rfl
@[simp] theorem setVe_fabric (s : State) (b : Nat) (x : Ve) : (setVe s b x).fabric = s.fabric := rfl
@[simp] theorem setVe_mgmtA (s : State) (b : Nat) (x : Ve) : (setVe s b x).mgmtA = s.mgmtA := rfl
@[simp] theorem setVe_mgmtB (s : State) (b : Nat) (x : Ve) : (setVe s b x).mgmtB = s.mgmtB := rfl
@[simp] theorem setVe_safety (s : State) (b : Nat) (x : Ve) : (setVe s b x).safety = s.safety := rfl
@[simp] theorem setVe_pair (s : State) (b : Nat) (x : Ve) : (setVe s b x).pair = s.pair := rfl
@[simp] theorem setVe_power (s : State) (b : Nat) (x : Ve) : (setVe s b x).power = s.power := rfl
@[simp] theorem modVe_pending (s : State) (b : Nat) (f : Ve → Ve) : (modVe s b f).pending = s.pending := rfl
@[simp] theorem modVe_draw (s : State) (b : Nat) (f : Ve → Ve) : (modVe s b f).draw = s.draw := rfl
@[simp] theorem modVe_time (s : State) (b : Nat) (f : Ve → Ve) : (modVe s b f).time = s.time := rfl
@[simp] theorem modVe_cs (s : State) (b : Nat) (f : Ve → Ve) : (modVe s b f).cs = s.cs := rfl
@[simp] theorem modVe_out (s : State) (b : Nat) (f : Ve → Ve) : (modVe s b f).out = s.out := rfl
@[simp] theorem modVe_boot (s : State) (b : Nat) (f : Ve → Ve) : (modVe s b f).boot = s.boot := rfl
@[simp] theorem modVe_lands (s : State) (b : Nat) (f : Ve → Ve) : (modVe s b f).lands = s.lands := rfl
@[simp] theorem modVe_tele (s : State) (b : Nat) (f : Ve → Ve) : (modVe s b f).tele = s.tele := rfl
@[simp] theorem modVe_parts (s : State) (b : Nat) (f : Ve → Ve) : (modVe s b f).parts = s.parts := rfl
@[simp] theorem modVe_tiles (s : State) (b : Nat) (f : Ve → Ve) : (modVe s b f).tiles = s.tiles := rfl
@[simp] theorem modVe_codebook (s : State) (b : Nat) (f : Ve → Ve) : (modVe s b f).codebook = s.codebook := rfl
@[simp] theorem modVe_veNet (s : State) (b : Nat) (f : Ve → Ve) : (modVe s b f).veNet = s.veNet := rfl
@[simp] theorem modVe_injectOut (s : State) (b : Nat) (f : Ve → Ve) : (modVe s b f).injectOut = s.injectOut := rfl
@[simp] theorem modVe_drawers (s : State) (b : Nat) (f : Ve → Ve) : (modVe s b f).drawers = s.drawers := rfl
@[simp] theorem modVe_regions (s : State) (b : Nat) (f : Ve → Ve) : (modVe s b f).regions = s.regions := rfl
@[simp] theorem modVe_mem (s : State) (b : Nat) (f : Ve → Ve) : (modVe s b f).mem = s.mem := rfl
@[simp] theorem modVe_tiers (s : State) (b : Nat) (f : Ve → Ve) : (modVe s b f).tiers = s.tiers := rfl
@[simp] theorem modVe_fabric (s : State) (b : Nat) (f : Ve → Ve) : (modVe s b f).fabric = s.fabric := rfl
@[simp] theorem modVe_mgmtA (s : State) (b : Nat) (f : Ve → Ve) : (modVe s b f).mgmtA = s.mgmtA := rfl
@[simp] theorem modVe_mgmtB (s : State) (b : Nat) (f : Ve → Ve) : (modVe s b f).mgmtB = s.mgmtB := rfl
@[simp] theorem modVe_safety (s : State) (b : Nat) (f : Ve → Ve) : (modVe s b f).safety = s.safety := rfl
@[simp] theorem modVe_pair (s : State) (b : Nat) (f : Ve → Ve) : (modVe s b f).pair = s.pair := rfl
@[simp] theorem modVe_power (s : State) (b : Nat) (f : Ve → Ve) : (modVe s b f).power = s.power := rfl
@[simp] theorem setLink_pending (s : State) (l : Nat) (x : Link) : (setLink s l x).pending = s.pending := rfl
@[simp] theorem setLink_draw (s : State) (l : Nat) (x : Link) : (setLink s l x).draw = s.draw := rfl
@[simp] theorem setLink_time (s : State) (l : Nat) (x : Link) : (setLink s l x).time = s.time := rfl
@[simp] theorem setLink_cs (s : State) (l : Nat) (x : Link) : (setLink s l x).cs = s.cs := rfl
@[simp] theorem setLink_out (s : State) (l : Nat) (x : Link) : (setLink s l x).out = s.out := rfl
@[simp] theorem setLink_boot (s : State) (l : Nat) (x : Link) : (setLink s l x).boot = s.boot := rfl
@[simp] theorem setLink_lands (s : State) (l : Nat) (x : Link) : (setLink s l x).lands = s.lands := rfl
@[simp] theorem setLink_tele (s : State) (l : Nat) (x : Link) : (setLink s l x).tele = s.tele := rfl
@[simp] theorem setLink_parts (s : State) (l : Nat) (x : Link) : (setLink s l x).parts = s.parts := rfl
@[simp] theorem setLink_tiles (s : State) (l : Nat) (x : Link) : (setLink s l x).tiles = s.tiles := rfl
@[simp] theorem setLink_ves (s : State) (l : Nat) (x : Link) : (setLink s l x).ves = s.ves := rfl
@[simp] theorem setLink_codebook (s : State) (l : Nat) (x : Link) : (setLink s l x).codebook = s.codebook := rfl
@[simp] theorem setLink_veNet (s : State) (l : Nat) (x : Link) : (setLink s l x).veNet = s.veNet := rfl
@[simp] theorem setLink_injectOut (s : State) (l : Nat) (x : Link) : (setLink s l x).injectOut = s.injectOut := rfl
@[simp] theorem setLink_drawers (s : State) (l : Nat) (x : Link) : (setLink s l x).drawers = s.drawers := rfl
@[simp] theorem setLink_regions (s : State) (l : Nat) (x : Link) : (setLink s l x).regions = s.regions := rfl
@[simp] theorem setLink_mem (s : State) (l : Nat) (x : Link) : (setLink s l x).mem = s.mem := rfl
@[simp] theorem setLink_tiers (s : State) (l : Nat) (x : Link) : (setLink s l x).tiers = s.tiers := rfl
@[simp] theorem setLink_mgmtA (s : State) (l : Nat) (x : Link) : (setLink s l x).mgmtA = s.mgmtA := rfl
@[simp] theorem setLink_mgmtB (s : State) (l : Nat) (x : Link) : (setLink s l x).mgmtB = s.mgmtB := rfl
@[simp] theorem setLink_safety (s : State) (l : Nat) (x : Link) : (setLink s l x).safety = s.safety := rfl
@[simp] theorem setLink_pair (s : State) (l : Nat) (x : Link) : (setLink s l x).pair = s.pair := rfl
@[simp] theorem setLink_power (s : State) (l : Nat) (x : Link) : (setLink s l x).power = s.power := rfl
@[simp] theorem modLink_pending (s : State) (l : Nat) (f : Link → Link) : (modLink s l f).pending = s.pending := rfl
@[simp] theorem modLink_draw (s : State) (l : Nat) (f : Link → Link) : (modLink s l f).draw = s.draw := rfl
@[simp] theorem modLink_time (s : State) (l : Nat) (f : Link → Link) : (modLink s l f).time = s.time := rfl
@[simp] theorem modLink_cs (s : State) (l : Nat) (f : Link → Link) : (modLink s l f).cs = s.cs := rfl
@[simp] theorem modLink_out (s : State) (l : Nat) (f : Link → Link) : (modLink s l f).out = s.out := rfl
@[simp] theorem modLink_boot (s : State) (l : Nat) (f : Link → Link) : (modLink s l f).boot = s.boot := rfl
@[simp] theorem modLink_lands (s : State) (l : Nat) (f : Link → Link) : (modLink s l f).lands = s.lands := rfl
@[simp] theorem modLink_tele (s : State) (l : Nat) (f : Link → Link) : (modLink s l f).tele = s.tele := rfl
@[simp] theorem modLink_parts (s : State) (l : Nat) (f : Link → Link) : (modLink s l f).parts = s.parts := rfl
@[simp] theorem modLink_tiles (s : State) (l : Nat) (f : Link → Link) : (modLink s l f).tiles = s.tiles := rfl
@[simp] theorem modLink_ves (s : State) (l : Nat) (f : Link → Link) : (modLink s l f).ves = s.ves := rfl
@[simp] theorem modLink_codebook (s : State) (l : Nat) (f : Link → Link) : (modLink s l f).codebook = s.codebook := rfl
@[simp] theorem modLink_veNet (s : State) (l : Nat) (f : Link → Link) : (modLink s l f).veNet = s.veNet := rfl
@[simp] theorem modLink_injectOut (s : State) (l : Nat) (f : Link → Link) : (modLink s l f).injectOut = s.injectOut := rfl
@[simp] theorem modLink_drawers (s : State) (l : Nat) (f : Link → Link) : (modLink s l f).drawers = s.drawers := rfl
@[simp] theorem modLink_regions (s : State) (l : Nat) (f : Link → Link) : (modLink s l f).regions = s.regions := rfl
@[simp] theorem modLink_mem (s : State) (l : Nat) (f : Link → Link) : (modLink s l f).mem = s.mem := rfl
@[simp] theorem modLink_tiers (s : State) (l : Nat) (f : Link → Link) : (modLink s l f).tiers = s.tiers := rfl
@[simp] theorem modLink_mgmtA (s : State) (l : Nat) (f : Link → Link) : (modLink s l f).mgmtA = s.mgmtA := rfl
@[simp] theorem modLink_mgmtB (s : State) (l : Nat) (f : Link → Link) : (modLink s l f).mgmtB = s.mgmtB := rfl
@[simp] theorem modLink_safety (s : State) (l : Nat) (f : Link → Link) : (modLink s l f).safety = s.safety := rfl
@[simp] theorem modLink_pair (s : State) (l : Nat) (f : Link → Link) : (modLink s l f).pair = s.pair := rfl
@[simp] theorem modLink_power (s : State) (l : Nat) (f : Link → Link) : (modLink s l f).power = s.power := rfl
@[simp] theorem setDrawer_pending (s : State) (i : Nat) (x : Drawer) : (setDrawer s i x).pending = s.pending := rfl
@[simp] theorem setDrawer_draw (s : State) (i : Nat) (x : Drawer) : (setDrawer s i x).draw = s.draw := rfl
@[simp] theorem setDrawer_time (s : State) (i : Nat) (x : Drawer) : (setDrawer s i x).time = s.time := rfl
@[simp] theorem setDrawer_cs (s : State) (i : Nat) (x : Drawer) : (setDrawer s i x).cs = s.cs := rfl
@[simp] theorem setDrawer_out (s : State) (i : Nat) (x : Drawer) : (setDrawer s i x).out = s.out := rfl
@[simp] theorem setDrawer_boot (s : State) (i : Nat) (x : Drawer) : (setDrawer s i x).boot = s.boot := rfl
@[simp] theorem setDrawer_lands (s : State) (i : Nat) (x : Drawer) : (setDrawer s i x).lands = s.lands := rfl
@[simp] theorem setDrawer_tele (s : State) (i : Nat) (x : Drawer) : (setDrawer s i x).tele = s.tele := rfl
@[simp] theorem setDrawer_parts (s : State) (i : Nat) (x : Drawer) : (setDrawer s i x).parts = s.parts := rfl
@[simp] theorem setDrawer_tiles (s : State) (i : Nat) (x : Drawer) : (setDrawer s i x).tiles = s.tiles := rfl
@[simp] theorem setDrawer_ves (s : State) (i : Nat) (x : Drawer) : (setDrawer s i x).ves = s.ves := rfl
@[simp] theorem setDrawer_codebook (s : State) (i : Nat) (x : Drawer) : (setDrawer s i x).codebook = s.codebook := rfl
@[simp] theorem setDrawer_veNet (s : State) (i : Nat) (x : Drawer) : (setDrawer s i x).veNet = s.veNet := rfl
@[simp] theorem setDrawer_injectOut (s : State) (i : Nat) (x : Drawer) : (setDrawer s i x).injectOut = s.injectOut := rfl
@[simp] theorem setDrawer_regions (s : State) (i : Nat) (x : Drawer) : (setDrawer s i x).regions = s.regions := rfl
@[simp] theorem setDrawer_mem (s : State) (i : Nat) (x : Drawer) : (setDrawer s i x).mem = s.mem := rfl
@[simp] theorem setDrawer_tiers (s : State) (i : Nat) (x : Drawer) : (setDrawer s i x).tiers = s.tiers := rfl
@[simp] theorem setDrawer_fabric (s : State) (i : Nat) (x : Drawer) : (setDrawer s i x).fabric = s.fabric := rfl
@[simp] theorem setDrawer_mgmtA (s : State) (i : Nat) (x : Drawer) : (setDrawer s i x).mgmtA = s.mgmtA := rfl
@[simp] theorem setDrawer_mgmtB (s : State) (i : Nat) (x : Drawer) : (setDrawer s i x).mgmtB = s.mgmtB := rfl
@[simp] theorem setDrawer_safety (s : State) (i : Nat) (x : Drawer) : (setDrawer s i x).safety = s.safety := rfl
@[simp] theorem setDrawer_pair (s : State) (i : Nat) (x : Drawer) : (setDrawer s i x).pair = s.pair := rfl
@[simp] theorem setDrawer_power (s : State) (i : Nat) (x : Drawer) : (setDrawer s i x).power = s.power := rfl
@[simp] theorem setRegion_pending (s : State) (p i : Nat) (x : Region) : (setRegion s p i x).pending = s.pending := rfl
@[simp] theorem setRegion_draw (s : State) (p i : Nat) (x : Region) : (setRegion s p i x).draw = s.draw := rfl
@[simp] theorem setRegion_time (s : State) (p i : Nat) (x : Region) : (setRegion s p i x).time = s.time := rfl
@[simp] theorem setRegion_cs (s : State) (p i : Nat) (x : Region) : (setRegion s p i x).cs = s.cs := rfl
@[simp] theorem setRegion_out (s : State) (p i : Nat) (x : Region) : (setRegion s p i x).out = s.out := rfl
@[simp] theorem setRegion_boot (s : State) (p i : Nat) (x : Region) : (setRegion s p i x).boot = s.boot := rfl
@[simp] theorem setRegion_lands (s : State) (p i : Nat) (x : Region) : (setRegion s p i x).lands = s.lands := rfl
@[simp] theorem setRegion_tele (s : State) (p i : Nat) (x : Region) : (setRegion s p i x).tele = s.tele := rfl
@[simp] theorem setRegion_parts (s : State) (p i : Nat) (x : Region) : (setRegion s p i x).parts = s.parts := rfl
@[simp] theorem setRegion_tiles (s : State) (p i : Nat) (x : Region) : (setRegion s p i x).tiles = s.tiles := rfl
@[simp] theorem setRegion_ves (s : State) (p i : Nat) (x : Region) : (setRegion s p i x).ves = s.ves := rfl
@[simp] theorem setRegion_codebook (s : State) (p i : Nat) (x : Region) : (setRegion s p i x).codebook = s.codebook := rfl
@[simp] theorem setRegion_veNet (s : State) (p i : Nat) (x : Region) : (setRegion s p i x).veNet = s.veNet := rfl
@[simp] theorem setRegion_injectOut (s : State) (p i : Nat) (x : Region) : (setRegion s p i x).injectOut = s.injectOut := rfl
@[simp] theorem setRegion_drawers (s : State) (p i : Nat) (x : Region) : (setRegion s p i x).drawers = s.drawers := rfl
@[simp] theorem setRegion_mem (s : State) (p i : Nat) (x : Region) : (setRegion s p i x).mem = s.mem := rfl
@[simp] theorem setRegion_tiers (s : State) (p i : Nat) (x : Region) : (setRegion s p i x).tiers = s.tiers := rfl
@[simp] theorem setRegion_fabric (s : State) (p i : Nat) (x : Region) : (setRegion s p i x).fabric = s.fabric := rfl
@[simp] theorem setRegion_mgmtA (s : State) (p i : Nat) (x : Region) : (setRegion s p i x).mgmtA = s.mgmtA := rfl
@[simp] theorem setRegion_mgmtB (s : State) (p i : Nat) (x : Region) : (setRegion s p i x).mgmtB = s.mgmtB := rfl
@[simp] theorem setRegion_safety (s : State) (p i : Nat) (x : Region) : (setRegion s p i x).safety = s.safety := rfl
@[simp] theorem setRegion_pair (s : State) (p i : Nat) (x : Region) : (setRegion s p i x).pair = s.pair := rfl
@[simp] theorem setRegion_power (s : State) (p i : Nat) (x : Region) : (setRegion s p i x).power = s.power := rfl
@[simp] theorem setHt_pending (s : State) (g : Nat) (e : HtEntry) : (setHt s g e).pending = s.pending := rfl
@[simp] theorem setHt_draw (s : State) (g : Nat) (e : HtEntry) : (setHt s g e).draw = s.draw := rfl
@[simp] theorem setHt_time (s : State) (g : Nat) (e : HtEntry) : (setHt s g e).time = s.time := rfl
@[simp] theorem setHt_cs (s : State) (g : Nat) (e : HtEntry) : (setHt s g e).cs = s.cs := rfl
@[simp] theorem setHt_out (s : State) (g : Nat) (e : HtEntry) : (setHt s g e).out = s.out := rfl
@[simp] theorem setHt_boot (s : State) (g : Nat) (e : HtEntry) : (setHt s g e).boot = s.boot := rfl
@[simp] theorem setHt_lands (s : State) (g : Nat) (e : HtEntry) : (setHt s g e).lands = s.lands := rfl
@[simp] theorem setHt_tele (s : State) (g : Nat) (e : HtEntry) : (setHt s g e).tele = s.tele := rfl
@[simp] theorem setHt_parts (s : State) (g : Nat) (e : HtEntry) : (setHt s g e).parts = s.parts := rfl
@[simp] theorem setHt_tiles (s : State) (g : Nat) (e : HtEntry) : (setHt s g e).tiles = s.tiles := rfl
@[simp] theorem setHt_ves (s : State) (g : Nat) (e : HtEntry) : (setHt s g e).ves = s.ves := rfl
@[simp] theorem setHt_codebook (s : State) (g : Nat) (e : HtEntry) : (setHt s g e).codebook = s.codebook := rfl
@[simp] theorem setHt_veNet (s : State) (g : Nat) (e : HtEntry) : (setHt s g e).veNet = s.veNet := rfl
@[simp] theorem setHt_injectOut (s : State) (g : Nat) (e : HtEntry) : (setHt s g e).injectOut = s.injectOut := rfl
@[simp] theorem setHt_drawers (s : State) (g : Nat) (e : HtEntry) : (setHt s g e).drawers = s.drawers := rfl
@[simp] theorem setHt_regions (s : State) (g : Nat) (e : HtEntry) : (setHt s g e).regions = s.regions := rfl
@[simp] theorem setHt_mem (s : State) (g : Nat) (e : HtEntry) : (setHt s g e).mem = s.mem := rfl
@[simp] theorem setHt_fabric (s : State) (g : Nat) (e : HtEntry) : (setHt s g e).fabric = s.fabric := rfl
@[simp] theorem setHt_mgmtA (s : State) (g : Nat) (e : HtEntry) : (setHt s g e).mgmtA = s.mgmtA := rfl
@[simp] theorem setHt_mgmtB (s : State) (g : Nat) (e : HtEntry) : (setHt s g e).mgmtB = s.mgmtB := rfl
@[simp] theorem setHt_safety (s : State) (g : Nat) (e : HtEntry) : (setHt s g e).safety = s.safety := rfl
@[simp] theorem setHt_pair (s : State) (g : Nat) (e : HtEntry) : (setHt s g e).pair = s.pair := rfl
@[simp] theorem setHt_power (s : State) (g : Nat) (e : HtEntry) : (setHt s g e).power = s.power := rfl
@[simp] theorem setFrame_pending (s : State) (t f : Nat) (x : FrameState) : (setFrame s t f x).pending = s.pending := rfl
@[simp] theorem setFrame_draw (s : State) (t f : Nat) (x : FrameState) : (setFrame s t f x).draw = s.draw := rfl
@[simp] theorem setFrame_time (s : State) (t f : Nat) (x : FrameState) : (setFrame s t f x).time = s.time := rfl
@[simp] theorem setFrame_cs (s : State) (t f : Nat) (x : FrameState) : (setFrame s t f x).cs = s.cs := rfl
@[simp] theorem setFrame_out (s : State) (t f : Nat) (x : FrameState) : (setFrame s t f x).out = s.out := rfl
@[simp] theorem setFrame_boot (s : State) (t f : Nat) (x : FrameState) : (setFrame s t f x).boot = s.boot := rfl
@[simp] theorem setFrame_lands (s : State) (t f : Nat) (x : FrameState) : (setFrame s t f x).lands = s.lands := rfl
@[simp] theorem setFrame_tele (s : State) (t f : Nat) (x : FrameState) : (setFrame s t f x).tele = s.tele := rfl
@[simp] theorem setFrame_parts (s : State) (t f : Nat) (x : FrameState) : (setFrame s t f x).parts = s.parts := rfl
@[simp] theorem setFrame_tiles (s : State) (t f : Nat) (x : FrameState) : (setFrame s t f x).tiles = s.tiles := rfl
@[simp] theorem setFrame_ves (s : State) (t f : Nat) (x : FrameState) : (setFrame s t f x).ves = s.ves := rfl
@[simp] theorem setFrame_codebook (s : State) (t f : Nat) (x : FrameState) : (setFrame s t f x).codebook = s.codebook := rfl
@[simp] theorem setFrame_veNet (s : State) (t f : Nat) (x : FrameState) : (setFrame s t f x).veNet = s.veNet := rfl
@[simp] theorem setFrame_injectOut (s : State) (t f : Nat) (x : FrameState) : (setFrame s t f x).injectOut = s.injectOut := rfl
@[simp] theorem setFrame_drawers (s : State) (t f : Nat) (x : FrameState) : (setFrame s t f x).drawers = s.drawers := rfl
@[simp] theorem setFrame_regions (s : State) (t f : Nat) (x : FrameState) : (setFrame s t f x).regions = s.regions := rfl
@[simp] theorem setFrame_mem (s : State) (t f : Nat) (x : FrameState) : (setFrame s t f x).mem = s.mem := rfl
@[simp] theorem setFrame_fabric (s : State) (t f : Nat) (x : FrameState) : (setFrame s t f x).fabric = s.fabric := rfl
@[simp] theorem setFrame_mgmtA (s : State) (t f : Nat) (x : FrameState) : (setFrame s t f x).mgmtA = s.mgmtA := rfl
@[simp] theorem setFrame_mgmtB (s : State) (t f : Nat) (x : FrameState) : (setFrame s t f x).mgmtB = s.mgmtB := rfl
@[simp] theorem setFrame_safety (s : State) (t f : Nat) (x : FrameState) : (setFrame s t f x).safety = s.safety := rfl
@[simp] theorem setFrame_pair (s : State) (t f : Nat) (x : FrameState) : (setFrame s t f x).pair = s.pair := rfl
@[simp] theorem setFrame_power (s : State) (t f : Nat) (x : FrameState) : (setFrame s t f x).power = s.power := rfl
@[simp] theorem setSlot_pending (s : State) (t k : Nat) (x : Slot) : (setSlot s t k x).pending = s.pending := rfl
@[simp] theorem setSlot_draw (s : State) (t k : Nat) (x : Slot) : (setSlot s t k x).draw = s.draw := rfl
@[simp] theorem setSlot_time (s : State) (t k : Nat) (x : Slot) : (setSlot s t k x).time = s.time := rfl
@[simp] theorem setSlot_cs (s : State) (t k : Nat) (x : Slot) : (setSlot s t k x).cs = s.cs := rfl
@[simp] theorem setSlot_out (s : State) (t k : Nat) (x : Slot) : (setSlot s t k x).out = s.out := rfl
@[simp] theorem setSlot_boot (s : State) (t k : Nat) (x : Slot) : (setSlot s t k x).boot = s.boot := rfl
@[simp] theorem setSlot_lands (s : State) (t k : Nat) (x : Slot) : (setSlot s t k x).lands = s.lands := rfl
@[simp] theorem setSlot_tele (s : State) (t k : Nat) (x : Slot) : (setSlot s t k x).tele = s.tele := rfl
@[simp] theorem setSlot_parts (s : State) (t k : Nat) (x : Slot) : (setSlot s t k x).parts = s.parts := rfl
@[simp] theorem setSlot_tiles (s : State) (t k : Nat) (x : Slot) : (setSlot s t k x).tiles = s.tiles := rfl
@[simp] theorem setSlot_ves (s : State) (t k : Nat) (x : Slot) : (setSlot s t k x).ves = s.ves := rfl
@[simp] theorem setSlot_codebook (s : State) (t k : Nat) (x : Slot) : (setSlot s t k x).codebook = s.codebook := rfl
@[simp] theorem setSlot_veNet (s : State) (t k : Nat) (x : Slot) : (setSlot s t k x).veNet = s.veNet := rfl
@[simp] theorem setSlot_injectOut (s : State) (t k : Nat) (x : Slot) : (setSlot s t k x).injectOut = s.injectOut := rfl
@[simp] theorem setSlot_drawers (s : State) (t k : Nat) (x : Slot) : (setSlot s t k x).drawers = s.drawers := rfl
@[simp] theorem setSlot_regions (s : State) (t k : Nat) (x : Slot) : (setSlot s t k x).regions = s.regions := rfl
@[simp] theorem setSlot_mem (s : State) (t k : Nat) (x : Slot) : (setSlot s t k x).mem = s.mem := rfl
@[simp] theorem setSlot_fabric (s : State) (t k : Nat) (x : Slot) : (setSlot s t k x).fabric = s.fabric := rfl
@[simp] theorem setSlot_mgmtA (s : State) (t k : Nat) (x : Slot) : (setSlot s t k x).mgmtA = s.mgmtA := rfl
@[simp] theorem setSlot_mgmtB (s : State) (t k : Nat) (x : Slot) : (setSlot s t k x).mgmtB = s.mgmtB := rfl
@[simp] theorem setSlot_safety (s : State) (t k : Nat) (x : Slot) : (setSlot s t k x).safety = s.safety := rfl
@[simp] theorem setSlot_pair (s : State) (t k : Nat) (x : Slot) : (setSlot s t k x).pair = s.pair := rfl
@[simp] theorem setSlot_power (s : State) (t k : Nat) (x : Slot) : (setSlot s t k x).power = s.power := rfl
@[simp] theorem modTiers_pending (s : State) (f : Tiers → Tiers) : (modTiers s f).pending = s.pending := rfl
@[simp] theorem modTiers_draw (s : State) (f : Tiers → Tiers) : (modTiers s f).draw = s.draw := rfl
@[simp] theorem modTiers_time (s : State) (f : Tiers → Tiers) : (modTiers s f).time = s.time := rfl
@[simp] theorem modTiers_cs (s : State) (f : Tiers → Tiers) : (modTiers s f).cs = s.cs := rfl
@[simp] theorem modTiers_out (s : State) (f : Tiers → Tiers) : (modTiers s f).out = s.out := rfl
@[simp] theorem modTiers_boot (s : State) (f : Tiers → Tiers) : (modTiers s f).boot = s.boot := rfl
@[simp] theorem modTiers_lands (s : State) (f : Tiers → Tiers) : (modTiers s f).lands = s.lands := rfl
@[simp] theorem modTiers_tele (s : State) (f : Tiers → Tiers) : (modTiers s f).tele = s.tele := rfl
@[simp] theorem modTiers_parts (s : State) (f : Tiers → Tiers) : (modTiers s f).parts = s.parts := rfl
@[simp] theorem modTiers_tiles (s : State) (f : Tiers → Tiers) : (modTiers s f).tiles = s.tiles := rfl
@[simp] theorem modTiers_ves (s : State) (f : Tiers → Tiers) : (modTiers s f).ves = s.ves := rfl
@[simp] theorem modTiers_codebook (s : State) (f : Tiers → Tiers) : (modTiers s f).codebook = s.codebook := rfl
@[simp] theorem modTiers_veNet (s : State) (f : Tiers → Tiers) : (modTiers s f).veNet = s.veNet := rfl
@[simp] theorem modTiers_injectOut (s : State) (f : Tiers → Tiers) : (modTiers s f).injectOut = s.injectOut := rfl
@[simp] theorem modTiers_drawers (s : State) (f : Tiers → Tiers) : (modTiers s f).drawers = s.drawers := rfl
@[simp] theorem modTiers_regions (s : State) (f : Tiers → Tiers) : (modTiers s f).regions = s.regions := rfl
@[simp] theorem modTiers_mem (s : State) (f : Tiers → Tiers) : (modTiers s f).mem = s.mem := rfl
@[simp] theorem modTiers_tiers (s : State) (f : Tiers → Tiers) : (modTiers s f).tiers = f s.tiers := rfl
@[simp] theorem modTiers_fabric (s : State) (f : Tiers → Tiers) : (modTiers s f).fabric = s.fabric := rfl
@[simp] theorem modTiers_mgmtA (s : State) (f : Tiers → Tiers) : (modTiers s f).mgmtA = s.mgmtA := rfl
@[simp] theorem modTiers_mgmtB (s : State) (f : Tiers → Tiers) : (modTiers s f).mgmtB = s.mgmtB := rfl
@[simp] theorem modTiers_safety (s : State) (f : Tiers → Tiers) : (modTiers s f).safety = s.safety := rfl
@[simp] theorem modTiers_pair (s : State) (f : Tiers → Tiers) : (modTiers s f).pair = s.pair := rfl
@[simp] theorem modTiers_power (s : State) (f : Tiers → Tiers) : (modTiers s f).power = s.power := rfl
@[simp] theorem modFabric_pending (s : State) (f : Fabric → Fabric) : (modFabric s f).pending = s.pending := rfl
@[simp] theorem modFabric_draw (s : State) (f : Fabric → Fabric) : (modFabric s f).draw = s.draw := rfl
@[simp] theorem modFabric_time (s : State) (f : Fabric → Fabric) : (modFabric s f).time = s.time := rfl
@[simp] theorem modFabric_cs (s : State) (f : Fabric → Fabric) : (modFabric s f).cs = s.cs := rfl
@[simp] theorem modFabric_out (s : State) (f : Fabric → Fabric) : (modFabric s f).out = s.out := rfl
@[simp] theorem modFabric_boot (s : State) (f : Fabric → Fabric) : (modFabric s f).boot = s.boot := rfl
@[simp] theorem modFabric_lands (s : State) (f : Fabric → Fabric) : (modFabric s f).lands = s.lands := rfl
@[simp] theorem modFabric_tele (s : State) (f : Fabric → Fabric) : (modFabric s f).tele = s.tele := rfl
@[simp] theorem modFabric_parts (s : State) (f : Fabric → Fabric) : (modFabric s f).parts = s.parts := rfl
@[simp] theorem modFabric_tiles (s : State) (f : Fabric → Fabric) : (modFabric s f).tiles = s.tiles := rfl
@[simp] theorem modFabric_ves (s : State) (f : Fabric → Fabric) : (modFabric s f).ves = s.ves := rfl
@[simp] theorem modFabric_codebook (s : State) (f : Fabric → Fabric) : (modFabric s f).codebook = s.codebook := rfl
@[simp] theorem modFabric_veNet (s : State) (f : Fabric → Fabric) : (modFabric s f).veNet = s.veNet := rfl
@[simp] theorem modFabric_injectOut (s : State) (f : Fabric → Fabric) : (modFabric s f).injectOut = s.injectOut := rfl
@[simp] theorem modFabric_drawers (s : State) (f : Fabric → Fabric) : (modFabric s f).drawers = s.drawers := rfl
@[simp] theorem modFabric_regions (s : State) (f : Fabric → Fabric) : (modFabric s f).regions = s.regions := rfl
@[simp] theorem modFabric_mem (s : State) (f : Fabric → Fabric) : (modFabric s f).mem = s.mem := rfl
@[simp] theorem modFabric_tiers (s : State) (f : Fabric → Fabric) : (modFabric s f).tiers = s.tiers := rfl
@[simp] theorem modFabric_fabric (s : State) (f : Fabric → Fabric) : (modFabric s f).fabric = f s.fabric := rfl
@[simp] theorem modFabric_mgmtA (s : State) (f : Fabric → Fabric) : (modFabric s f).mgmtA = s.mgmtA := rfl
@[simp] theorem modFabric_mgmtB (s : State) (f : Fabric → Fabric) : (modFabric s f).mgmtB = s.mgmtB := rfl
@[simp] theorem modFabric_safety (s : State) (f : Fabric → Fabric) : (modFabric s f).safety = s.safety := rfl
@[simp] theorem modFabric_pair (s : State) (f : Fabric → Fabric) : (modFabric s f).pair = s.pair := rfl
@[simp] theorem modFabric_power (s : State) (f : Fabric → Fabric) : (modFabric s f).power = s.power := rfl
@[simp] theorem modPower_pending (s : State) (f : Power → Power) : (modPower s f).pending = s.pending := rfl
@[simp] theorem modPower_draw (s : State) (f : Power → Power) : (modPower s f).draw = s.draw := rfl
@[simp] theorem modPower_time (s : State) (f : Power → Power) : (modPower s f).time = s.time := rfl
@[simp] theorem modPower_cs (s : State) (f : Power → Power) : (modPower s f).cs = s.cs := rfl
@[simp] theorem modPower_out (s : State) (f : Power → Power) : (modPower s f).out = s.out := rfl
@[simp] theorem modPower_boot (s : State) (f : Power → Power) : (modPower s f).boot = s.boot := rfl
@[simp] theorem modPower_lands (s : State) (f : Power → Power) : (modPower s f).lands = s.lands := rfl
@[simp] theorem modPower_tele (s : State) (f : Power → Power) : (modPower s f).tele = s.tele := rfl
@[simp] theorem modPower_parts (s : State) (f : Power → Power) : (modPower s f).parts = s.parts := rfl
@[simp] theorem modPower_tiles (s : State) (f : Power → Power) : (modPower s f).tiles = s.tiles := rfl
@[simp] theorem modPower_ves (s : State) (f : Power → Power) : (modPower s f).ves = s.ves := rfl
@[simp] theorem modPower_codebook (s : State) (f : Power → Power) : (modPower s f).codebook = s.codebook := rfl
@[simp] theorem modPower_veNet (s : State) (f : Power → Power) : (modPower s f).veNet = s.veNet := rfl
@[simp] theorem modPower_injectOut (s : State) (f : Power → Power) : (modPower s f).injectOut = s.injectOut := rfl
@[simp] theorem modPower_drawers (s : State) (f : Power → Power) : (modPower s f).drawers = s.drawers := rfl
@[simp] theorem modPower_regions (s : State) (f : Power → Power) : (modPower s f).regions = s.regions := rfl
@[simp] theorem modPower_mem (s : State) (f : Power → Power) : (modPower s f).mem = s.mem := rfl
@[simp] theorem modPower_tiers (s : State) (f : Power → Power) : (modPower s f).tiers = s.tiers := rfl
@[simp] theorem modPower_fabric (s : State) (f : Power → Power) : (modPower s f).fabric = s.fabric := rfl
@[simp] theorem modPower_mgmtA (s : State) (f : Power → Power) : (modPower s f).mgmtA = s.mgmtA := rfl
@[simp] theorem modPower_mgmtB (s : State) (f : Power → Power) : (modPower s f).mgmtB = s.mgmtB := rfl
@[simp] theorem modPower_safety (s : State) (f : Power → Power) : (modPower s f).safety = s.safety := rfl
@[simp] theorem modPower_pair (s : State) (f : Power → Power) : (modPower s f).pair = s.pair := rfl
@[simp] theorem modPower_power (s : State) (f : Power → Power) : (modPower s f).power = f s.power := rfl
@[simp] theorem modSafety_pending (s : State) (f : Safety → Safety) : (modSafety s f).pending = s.pending := rfl
@[simp] theorem modSafety_draw (s : State) (f : Safety → Safety) : (modSafety s f).draw = s.draw := rfl
@[simp] theorem modSafety_time (s : State) (f : Safety → Safety) : (modSafety s f).time = s.time := rfl
@[simp] theorem modSafety_cs (s : State) (f : Safety → Safety) : (modSafety s f).cs = s.cs := rfl
@[simp] theorem modSafety_out (s : State) (f : Safety → Safety) : (modSafety s f).out = s.out := rfl
@[simp] theorem modSafety_boot (s : State) (f : Safety → Safety) : (modSafety s f).boot = s.boot := rfl
@[simp] theorem modSafety_lands (s : State) (f : Safety → Safety) : (modSafety s f).lands = s.lands := rfl
@[simp] theorem modSafety_tele (s : State) (f : Safety → Safety) : (modSafety s f).tele = s.tele := rfl
@[simp] theorem modSafety_parts (s : State) (f : Safety → Safety) : (modSafety s f).parts = s.parts := rfl
@[simp] theorem modSafety_tiles (s : State) (f : Safety → Safety) : (modSafety s f).tiles = s.tiles := rfl
@[simp] theorem modSafety_ves (s : State) (f : Safety → Safety) : (modSafety s f).ves = s.ves := rfl
@[simp] theorem modSafety_codebook (s : State) (f : Safety → Safety) : (modSafety s f).codebook = s.codebook := rfl
@[simp] theorem modSafety_veNet (s : State) (f : Safety → Safety) : (modSafety s f).veNet = s.veNet := rfl
@[simp] theorem modSafety_injectOut (s : State) (f : Safety → Safety) : (modSafety s f).injectOut = s.injectOut := rfl
@[simp] theorem modSafety_drawers (s : State) (f : Safety → Safety) : (modSafety s f).drawers = s.drawers := rfl
@[simp] theorem modSafety_regions (s : State) (f : Safety → Safety) : (modSafety s f).regions = s.regions := rfl
@[simp] theorem modSafety_mem (s : State) (f : Safety → Safety) : (modSafety s f).mem = s.mem := rfl
@[simp] theorem modSafety_tiers (s : State) (f : Safety → Safety) : (modSafety s f).tiers = s.tiers := rfl
@[simp] theorem modSafety_fabric (s : State) (f : Safety → Safety) : (modSafety s f).fabric = s.fabric := rfl
@[simp] theorem modSafety_mgmtA (s : State) (f : Safety → Safety) : (modSafety s f).mgmtA = s.mgmtA := rfl
@[simp] theorem modSafety_mgmtB (s : State) (f : Safety → Safety) : (modSafety s f).mgmtB = s.mgmtB := rfl
@[simp] theorem modSafety_safety (s : State) (f : Safety → Safety) : (modSafety s f).safety = f s.safety := rfl
@[simp] theorem modSafety_pair (s : State) (f : Safety → Safety) : (modSafety s f).pair = s.pair := rfl
@[simp] theorem modSafety_power (s : State) (f : Safety → Safety) : (modSafety s f).power = s.power := rfl
@[simp] theorem modPair_pending (s : State) (f : Pair → Pair) : (modPair s f).pending = s.pending := rfl
@[simp] theorem modPair_draw (s : State) (f : Pair → Pair) : (modPair s f).draw = s.draw := rfl
@[simp] theorem modPair_time (s : State) (f : Pair → Pair) : (modPair s f).time = s.time := rfl
@[simp] theorem modPair_cs (s : State) (f : Pair → Pair) : (modPair s f).cs = s.cs := rfl
@[simp] theorem modPair_out (s : State) (f : Pair → Pair) : (modPair s f).out = s.out := rfl
@[simp] theorem modPair_boot (s : State) (f : Pair → Pair) : (modPair s f).boot = s.boot := rfl
@[simp] theorem modPair_lands (s : State) (f : Pair → Pair) : (modPair s f).lands = s.lands := rfl
@[simp] theorem modPair_tele (s : State) (f : Pair → Pair) : (modPair s f).tele = s.tele := rfl
@[simp] theorem modPair_parts (s : State) (f : Pair → Pair) : (modPair s f).parts = s.parts := rfl
@[simp] theorem modPair_tiles (s : State) (f : Pair → Pair) : (modPair s f).tiles = s.tiles := rfl
@[simp] theorem modPair_ves (s : State) (f : Pair → Pair) : (modPair s f).ves = s.ves := rfl
@[simp] theorem modPair_codebook (s : State) (f : Pair → Pair) : (modPair s f).codebook = s.codebook := rfl
@[simp] theorem modPair_veNet (s : State) (f : Pair → Pair) : (modPair s f).veNet = s.veNet := rfl
@[simp] theorem modPair_injectOut (s : State) (f : Pair → Pair) : (modPair s f).injectOut = s.injectOut := rfl
@[simp] theorem modPair_drawers (s : State) (f : Pair → Pair) : (modPair s f).drawers = s.drawers := rfl
@[simp] theorem modPair_regions (s : State) (f : Pair → Pair) : (modPair s f).regions = s.regions := rfl
@[simp] theorem modPair_mem (s : State) (f : Pair → Pair) : (modPair s f).mem = s.mem := rfl
@[simp] theorem modPair_tiers (s : State) (f : Pair → Pair) : (modPair s f).tiers = s.tiers := rfl
@[simp] theorem modPair_fabric (s : State) (f : Pair → Pair) : (modPair s f).fabric = s.fabric := rfl
@[simp] theorem modPair_mgmtA (s : State) (f : Pair → Pair) : (modPair s f).mgmtA = s.mgmtA := rfl
@[simp] theorem modPair_mgmtB (s : State) (f : Pair → Pair) : (modPair s f).mgmtB = s.mgmtB := rfl
@[simp] theorem modPair_safety (s : State) (f : Pair → Pair) : (modPair s f).safety = s.safety := rfl
@[simp] theorem modPair_pair (s : State) (f : Pair → Pair) : (modPair s f).pair = f s.pair := rfl
@[simp] theorem modPair_power (s : State) (f : Pair → Pair) : (modPair s f).power = s.power := rfl
@[simp] theorem modBoot_pending (s : State) (f : Boot → Boot) : (modBoot s f).pending = s.pending := rfl
@[simp] theorem modBoot_draw (s : State) (f : Boot → Boot) : (modBoot s f).draw = s.draw := rfl
@[simp] theorem modBoot_time (s : State) (f : Boot → Boot) : (modBoot s f).time = s.time := rfl
@[simp] theorem modBoot_cs (s : State) (f : Boot → Boot) : (modBoot s f).cs = s.cs := rfl
@[simp] theorem modBoot_out (s : State) (f : Boot → Boot) : (modBoot s f).out = s.out := rfl
@[simp] theorem modBoot_boot (s : State) (f : Boot → Boot) : (modBoot s f).boot = f s.boot := rfl
@[simp] theorem modBoot_lands (s : State) (f : Boot → Boot) : (modBoot s f).lands = s.lands := rfl
@[simp] theorem modBoot_tele (s : State) (f : Boot → Boot) : (modBoot s f).tele = s.tele := rfl
@[simp] theorem modBoot_parts (s : State) (f : Boot → Boot) : (modBoot s f).parts = s.parts := rfl
@[simp] theorem modBoot_tiles (s : State) (f : Boot → Boot) : (modBoot s f).tiles = s.tiles := rfl
@[simp] theorem modBoot_ves (s : State) (f : Boot → Boot) : (modBoot s f).ves = s.ves := rfl
@[simp] theorem modBoot_codebook (s : State) (f : Boot → Boot) : (modBoot s f).codebook = s.codebook := rfl
@[simp] theorem modBoot_veNet (s : State) (f : Boot → Boot) : (modBoot s f).veNet = s.veNet := rfl
@[simp] theorem modBoot_injectOut (s : State) (f : Boot → Boot) : (modBoot s f).injectOut = s.injectOut := rfl
@[simp] theorem modBoot_drawers (s : State) (f : Boot → Boot) : (modBoot s f).drawers = s.drawers := rfl
@[simp] theorem modBoot_regions (s : State) (f : Boot → Boot) : (modBoot s f).regions = s.regions := rfl
@[simp] theorem modBoot_mem (s : State) (f : Boot → Boot) : (modBoot s f).mem = s.mem := rfl
@[simp] theorem modBoot_tiers (s : State) (f : Boot → Boot) : (modBoot s f).tiers = s.tiers := rfl
@[simp] theorem modBoot_fabric (s : State) (f : Boot → Boot) : (modBoot s f).fabric = s.fabric := rfl
@[simp] theorem modBoot_mgmtA (s : State) (f : Boot → Boot) : (modBoot s f).mgmtA = s.mgmtA := rfl
@[simp] theorem modBoot_mgmtB (s : State) (f : Boot → Boot) : (modBoot s f).mgmtB = s.mgmtB := rfl
@[simp] theorem modBoot_safety (s : State) (f : Boot → Boot) : (modBoot s f).safety = s.safety := rfl
@[simp] theorem modBoot_pair (s : State) (f : Boot → Boot) : (modBoot s f).pair = s.pair := rfl
@[simp] theorem modBoot_power (s : State) (f : Boot → Boot) : (modBoot s f).power = s.power := rfl
@[simp] theorem modLands_pending (s : State) (f : Lands → Lands) : (modLands s f).pending = s.pending := rfl
@[simp] theorem modLands_draw (s : State) (f : Lands → Lands) : (modLands s f).draw = s.draw := rfl
@[simp] theorem modLands_time (s : State) (f : Lands → Lands) : (modLands s f).time = s.time := rfl
@[simp] theorem modLands_cs (s : State) (f : Lands → Lands) : (modLands s f).cs = s.cs := rfl
@[simp] theorem modLands_out (s : State) (f : Lands → Lands) : (modLands s f).out = s.out := rfl
@[simp] theorem modLands_boot (s : State) (f : Lands → Lands) : (modLands s f).boot = s.boot := rfl
@[simp] theorem modLands_lands (s : State) (f : Lands → Lands) : (modLands s f).lands = f s.lands := rfl
@[simp] theorem modLands_tele (s : State) (f : Lands → Lands) : (modLands s f).tele = s.tele := rfl
@[simp] theorem modLands_parts (s : State) (f : Lands → Lands) : (modLands s f).parts = s.parts := rfl
@[simp] theorem modLands_tiles (s : State) (f : Lands → Lands) : (modLands s f).tiles = s.tiles := rfl
@[simp] theorem modLands_ves (s : State) (f : Lands → Lands) : (modLands s f).ves = s.ves := rfl
@[simp] theorem modLands_codebook (s : State) (f : Lands → Lands) : (modLands s f).codebook = s.codebook := rfl
@[simp] theorem modLands_veNet (s : State) (f : Lands → Lands) : (modLands s f).veNet = s.veNet := rfl
@[simp] theorem modLands_injectOut (s : State) (f : Lands → Lands) : (modLands s f).injectOut = s.injectOut := rfl
@[simp] theorem modLands_drawers (s : State) (f : Lands → Lands) : (modLands s f).drawers = s.drawers := rfl
@[simp] theorem modLands_regions (s : State) (f : Lands → Lands) : (modLands s f).regions = s.regions := rfl
@[simp] theorem modLands_mem (s : State) (f : Lands → Lands) : (modLands s f).mem = s.mem := rfl
@[simp] theorem modLands_tiers (s : State) (f : Lands → Lands) : (modLands s f).tiers = s.tiers := rfl
@[simp] theorem modLands_fabric (s : State) (f : Lands → Lands) : (modLands s f).fabric = s.fabric := rfl
@[simp] theorem modLands_mgmtA (s : State) (f : Lands → Lands) : (modLands s f).mgmtA = s.mgmtA := rfl
@[simp] theorem modLands_mgmtB (s : State) (f : Lands → Lands) : (modLands s f).mgmtB = s.mgmtB := rfl
@[simp] theorem modLands_safety (s : State) (f : Lands → Lands) : (modLands s f).safety = s.safety := rfl
@[simp] theorem modLands_pair (s : State) (f : Lands → Lands) : (modLands s f).pair = s.pair := rfl
@[simp] theorem modLands_power (s : State) (f : Lands → Lands) : (modLands s f).power = s.power := rfl
@[simp] theorem modCs_pending (s : State) (f : Seqr → Seqr) : (modCs s f).pending = s.pending := rfl
@[simp] theorem modCs_draw (s : State) (f : Seqr → Seqr) : (modCs s f).draw = s.draw := rfl
@[simp] theorem modCs_time (s : State) (f : Seqr → Seqr) : (modCs s f).time = s.time := rfl
@[simp] theorem modCs_cs (s : State) (f : Seqr → Seqr) : (modCs s f).cs = f s.cs := rfl
@[simp] theorem modCs_out (s : State) (f : Seqr → Seqr) : (modCs s f).out = s.out := rfl
@[simp] theorem modCs_boot (s : State) (f : Seqr → Seqr) : (modCs s f).boot = s.boot := rfl
@[simp] theorem modCs_lands (s : State) (f : Seqr → Seqr) : (modCs s f).lands = s.lands := rfl
@[simp] theorem modCs_tele (s : State) (f : Seqr → Seqr) : (modCs s f).tele = s.tele := rfl
@[simp] theorem modCs_parts (s : State) (f : Seqr → Seqr) : (modCs s f).parts = s.parts := rfl
@[simp] theorem modCs_tiles (s : State) (f : Seqr → Seqr) : (modCs s f).tiles = s.tiles := rfl
@[simp] theorem modCs_ves (s : State) (f : Seqr → Seqr) : (modCs s f).ves = s.ves := rfl
@[simp] theorem modCs_codebook (s : State) (f : Seqr → Seqr) : (modCs s f).codebook = s.codebook := rfl
@[simp] theorem modCs_veNet (s : State) (f : Seqr → Seqr) : (modCs s f).veNet = s.veNet := rfl
@[simp] theorem modCs_injectOut (s : State) (f : Seqr → Seqr) : (modCs s f).injectOut = s.injectOut := rfl
@[simp] theorem modCs_drawers (s : State) (f : Seqr → Seqr) : (modCs s f).drawers = s.drawers := rfl
@[simp] theorem modCs_regions (s : State) (f : Seqr → Seqr) : (modCs s f).regions = s.regions := rfl
@[simp] theorem modCs_mem (s : State) (f : Seqr → Seqr) : (modCs s f).mem = s.mem := rfl
@[simp] theorem modCs_tiers (s : State) (f : Seqr → Seqr) : (modCs s f).tiers = s.tiers := rfl
@[simp] theorem modCs_fabric (s : State) (f : Seqr → Seqr) : (modCs s f).fabric = s.fabric := rfl
@[simp] theorem modCs_mgmtA (s : State) (f : Seqr → Seqr) : (modCs s f).mgmtA = s.mgmtA := rfl
@[simp] theorem modCs_mgmtB (s : State) (f : Seqr → Seqr) : (modCs s f).mgmtB = s.mgmtB := rfl
@[simp] theorem modCs_safety (s : State) (f : Seqr → Seqr) : (modCs s f).safety = s.safety := rfl
@[simp] theorem modCs_pair (s : State) (f : Seqr → Seqr) : (modCs s f).pair = s.pair := rfl
@[simp] theorem modCs_power (s : State) (f : Seqr → Seqr) : (modCs s f).power = s.power := rfl

end Sys2Proof.Machine
end

