-- ==== Sys2Proof/Laws/Stores.lean ====
section
/-! SUPPORT. Stores: what copies of bytes leave, the poison bits, and bytes as numbers. -/

set_option linter.unusedSimpArgs false
set_option linter.unusedVariables false

namespace Sys2Proof.Machine

theorem Agrees.wf {K : Nat} {s t : State} (h : Agrees K s t) (w : s.mem.wf = true) : t.mem.wf = true := by
  exact h.2 w

theorem mget_foldl_mcopy (a b n x y : Nat) (hy : y = x - b + a) {src : Memory} {lo : Nat} (h : Memory.wfFrom lo src = true)
    {m : Memory} (hm : m.wf = true) :
    mget ((src.filter fun c => decide (a ≤ c.1) && decide (c.1 < a + n)).foldl (fun m c => mput m (c.1 - a + b) c.2) m) x =
      if b ≤ x ∧ x < b + n then (if mget src y = 0#8 then mget m x else mget src y) else mget m x := by
  induction src generalizing lo m with
  | nil => simp [mget, tget]
  | cons c r ih =>
    obtain ⟨i, w⟩ := c
    simp only [Memory.wfFrom, Bool.and_eq_true, decide_eq_true_eq] at h
    have hz : ∀ y, y ≤ i → mget r y = 0#8 := fun y hy => mget_below h.2 (by omega)
    have tri := Nat.lt_trichotomy y i
    have hc := mget_cons i w r y
    generalize mget ((i, w) :: r) y = z at hc ⊢
    rw [List.filter_cons]
    dsimp only
    by_cases e : a ≤ i ∧ i < a + n
    · simp only [e.1, e.2, decide_true, Bool.and_self, if_true, List.foldl_cons]
      rw [ih h.2 (wf_mput _ _ hm), mget_mput_wf hm]
      by_cases hx : b ≤ x ∧ x < b + n
      · rw [if_pos hx, if_pos hx]
        rcases tri with q | q | q
        · rw [if_pos q] at hc
          subst hc
          rw [hz y (by omega), if_neg (show ¬ x = i - a + b by omega)]
        · rw [if_neg (show ¬ y < i by omega), if_pos q] at hc
          subst hc
          rw [hz y (by omega), if_pos (show x = i - a + b by omega), if_pos rfl, if_neg h.1.2]
        · rw [if_neg (show ¬ y < i by omega), if_neg (show ¬ y = i by omega)] at hc
          subst hc
          rw [if_neg (show ¬ x = i - a + b by omega)]
      · rw [if_neg hx, if_neg hx, if_neg (show ¬ x = i - a + b by omega)]
    · have e' : (decide (a ≤ i) && decide (i < a + n)) = false := by simpa using e
      simp only [e', Bool.false_eq_true, if_false]
      rw [ih h.2 hm]
      by_cases hx : b ≤ x ∧ x < b + n
      · rw [if_pos hx, if_pos hx]
        rcases tri with q | q | q
        · rw [if_pos q] at hc
          subst hc
          rw [hz y (by omega)]
        · omega
        · rw [if_neg (show ¬ y < i by omega), if_neg (show ¬ y = i by omega)] at hc
          subst hc
          rfl
      · rw [if_neg hx, if_neg hx]

/-- A byte after a copy. -/
theorem mget_mcopy {src dst : Memory} (hs : src.wf = true) (hd : dst.wf = true) (a b n x : Nat) :
    mget (mcopy src a dst b n) x = if b ≤ x ∧ x < b + n then mget src (x - b + a) else mget dst x := by
  unfold mcopy
  rw [mget_foldl_mcopy a b n x _ rfl hs (wf_mzero b n hd), mget_mzero hd]
  by_cases hx : b ≤ x ∧ x < b + n
  · rw [if_pos hx, if_pos hx, if_pos hx]
    split
    · rename_i e; exact e.symm
    · rfl
  · rw [if_neg hx, if_neg hx, if_neg hx]

theorem clearPoison_mem (s : State) (t o n : Nat) : (clearPoison s t o n).mem = s.mem := by
  have h : Agrees 0x20000 s (clearPoison s t o n) := agrees_of_op (fun P hK hs => clearPoison_sat _ _ _ _ hK hs)
  exact h.1 .mem rfl
theorem unverifyRun_mem (s : State) (t o n : Nat) : (unverifyRun s t o n).mem = s.mem := by
  unfold unverifyRun; split <;> rfl
theorem setPoison_mem (s : State) (t o : Nat) (b : Bool) : (setPoison s t o b).mem = s.mem := by
  have h : Agrees 0x20000 s (setPoison s t o b) := agrees_of_op (fun P hK hs => setPoison_sat _ _ _ _ hK hs)
  exact h.1 .mem rfl
theorem setPoisons_mem (s : State) (t : Nat) (g : Nat → Nat) (l : List Nat) :
    (l.foldl (fun s c => setPoison s t (g c) true) s).mem = s.mem := by
  induction l generalizing s with
  | nil => rfl
  | cons c r ih => exact (ih _).trans (setPoison_mem ..)
theorem tierMem_of_mem {s u : State} (h : u.mem = s.mem) (t : Nat) : tierMem u t = tierMem s t := by unfold tierMem; rw [h]
theorem tierMem_set (s : State) {t u : Nat} (ht : t ≤ 2) (hu : u ≤ 2) (m : Memory) :
    tierMem (setTierMem s t m) u = if u = t then m else tierMem s u := by
  unfold setTierMem tierMem
  have h1 : t = 0 ∨ t = 1 ∨ t = 2 := by omega
  have h2 : u = 0 ∨ u = 1 ∨ u = 2 := by omega
  rcases h1 with rfl | rfl | rfl <;> rcases h2 with rfl | rfl | rfl <;> simp

theorem leNat_lt : ∀ bs : List Byte, leNat bs < 256 ^ bs.length := by
  intro bs; induction bs with
  | nil => simp [leNat]
  | cons b bs ih => simp [leNat, pow_succ]; have := b.isLt; omega

theorem pf_lt (c : Cmd) (o n : Nat) : pf c o n < 256 ^ n := by
  unfold pf fld
  refine lt_of_lt_of_le (leNat_lt _) (Nat.pow_le_pow_right (by norm_num) ?_)
  simp [sub]

end Sys2Proof.Machine
end

