-- ==== Sys2Proof/Tests/Slice0.lean ====
section
/-! SUPPORT. Tests: for every statement with hypotheses a witness that meets them (one conjunct a clause), an ill-formed term
for every kind of well-formedness check, and a few worked values of the spec. -/

set_option Elab.async false

namespace Sys2Proof.Tests

open Sys2Proof Sys2Proof.Machine

/-! ### Small states -/

/-- A partition table entry: block column 0, grains 0 to 63, drawers 0 to 15, save area in frames 0 to 18, frames 0 to 63 of
tiers 0 and 1. -/
def anEntry : PartEntry :=
  { PartEntry.zero with
    bcols := 1, gbase := 0, gcount := 64, dbase := 0, dlimit := 16, savefirst := 0, saveframes := 19
    ranges := [(0, { ro := false, tier := 0, first := 0, count := 64 }), (1, { ro := false, tier := 1, first := 0, count := 64 })] }

def aPart : Part := { Part.reset with role := .primary, entry := anEntry, nextStep := 1 }

/-- A device in service, with no partition. -/
def bare : State :=
  { State.reset with
    time := { count := 100, lost := false, bridging := false, watch := 100 }
    boot := { Boot.reset with
      resetN := true, done := [.a, .b, .c, .d, .e, .f, .g, .h, .j, .k, .l, .m], start := true, ready := true, sfRunning := true }
    lands := { Lands.reset with phase := 2 }
    power := { Power.reset with good := BitVec.allOnes 13, vcw := 750, vce := 750 }
    fabric := { Fabric.reset with chip := 7, accepted := true }
    tiers := { Tiers.reset with up0 := true, up1 := true, up2 := true, n1 := 1000, n2 := 1000 } }

/-- The same with partition 1. -/
def up : State := setPart bare 1 aPart

def cmd (opc p : Nat) (ps : List Byte) : Cmd :=
  { port := 0, opc := opc, part := p, flags := 0, seq := 0, budget := 0, tag := 0, plen := ps.length, params := ps, acount := 0,
    order := 65536 }

/-- The state with one command waiting in its queue. -/
def asks (s : State) (c : Cmd) : State := modCs s fun x => { x with queues := tset x.queues (queueOf c.part) [c] }

/-- Partition 1 in another state. -/
def up1 (f : Part → Part) : State := modPart up 1 f

/-- A model of one routed layer of two experts, its window in frames 20 to 27, its expert map in frame 40. -/
def aModel : Model :=
  { pmax := 64, maxreq := 4, ch := 16, tbpp := 0, stepest := 1000, inW := 1, outW := 1, gsize := 1, gmem := 0, wfirst := 20,
    wlayer := 6, wadapt := 2, pkg := 0, xmap := 40 * 2097152, obuf := 0, rlim := 2500, group := [(7, 1)], dstop := [0, 0, 0, 0],
    tadp := 41 * 2097152, vocab := 1000, layers := [{ layer := 0, experts := 2, k2 := false, afmt := 0, rbytes := 64, retFmt := 0, retBytes := 64, bias := [] }],
    bal := [(0, newBalance 0 true 4 1 2 { layer := 0, experts := 2, k2 := false, afmt := 0, rbytes := 64, retFmt := 0, retBytes := 64, bias := [] })] }

def aReq : Req :=
  { cmd := cmd 0x301 1 [], tenant := 5, skipb := false, adpt := false, stops := [], drawer := none, region := none, i := 2, g := 2,
    input := [3, 4], index := 0, admitCount := 50, openReady := 50, adapterReady := 50, inW := 1, outW := 1, charged := 0,
    done := 0, toks := [], npos := 0, first := 0, lastStep := 0, lastCount := 0, joined := false, skips := [], cancel := [] }

/-- A step of request 0 with two positions. -/
def aStep : Step :=
  { id := 1, round := 0, gen := 0, begin := 60, since := 60
    members := [{ index := 0, slot := 0, n := 2, decode := false, ended := none, skipped := false }], npos := 2, riders := []
    ended := false, fenced := false, fenceAt := 0, verdicts := [], failedVe := [], skip := [], picks := [], routed := [], failed := []
    demand := [], dispatches := [], filters := [], tbeats := 0, veissue := 0, tierb := [], fabSent := 0, fabRecv := 0
    toks := [], sel := [] }

/-- Partition 1 with the model active. -/
def served (f : Part → Part) : State := up1 fun x => f { x with models := [(3, aModel)], active := some 3 }

/-- Drawer 2 of partition 1 in a state, its summary in grain 0. -/
def drawn (st : Nat) (f : Part → Part) : State :=
  let s := served f
  let s := setHt s 0 { HtEntry.zero with v := true, part := 1, htier := 0, hf := 30 }
  let s := setFrame s 0 30 .home
  setDrawer s 2 { Drawer.zero with state := st, size := 16, slen := 4, tbase := 512, tcap := 8 }

def le (n v : Nat) : List Byte := leBytes n v

/-- Equal weight objects of one matrix in frames 30 and 31 of tier 0, the first verified. -/
def objects : State :=
  let s := modTiers up fun m => { m with verified := [(30 * 2097152, 128)] }
  setTierMem s 0 (mwrite (mwrite [] (30 * 2097152) ([1, 0, 1, 0] ++ le 4 9 ++ le 4 128)) (31 * 2097152)
    ([1, 0, 1, 0] ++ le 4 9 ++ le 4 128))

/-- A structure of `n` bytes with fields (offset, bytes, value), the rest 0. -/
def fields (n : Nat) (vs : List (Nat × Nat × Nat)) : List Byte :=
  vs.foldl (fun b v => b.take v.1 ++ le v.2.1 v.2.2 ++ b.drop (v.1 + v.2.1)) (zeros n)

/-- A stream descriptor by its fields. -/
def desc (vs : List (Nat × Nat × Nat)) : BitVec 256 := BitVec.ofNat 256 (leNat (fields 32 vs))

def aGrant : Grant :=
  { id := 0, gid := 0, tier := 0, first := 60, frames := 1, src := [], fwd := [], expires := 200, failed := 0, toFwd := [], opened := true }

def aRequest : Cmd :=
  cmd 0x301 1 (fields 44 [(0, 1, 5), (4, 4, 0xffffffff), (8, 2, 1), (10, 2, 1), (16, 4, 0x3f800000), (0x28, 4, 999)])

def rich : State := served fun x => { x with budgets := [(5, { Budget.zero with bal := 2 })] }

def cAlloc : Cmd := cmd 0x501 1 (fields 16 [(0, 4, 63), (8, 4, 63)])
def cMove : Cmd := cmd 0x502 1 (fields 16 [(4, 1, 1), (8, 4, 63)])
def cFree : Cmd := cmd 0x503 1 (zeros 16)

def replaceCmd : Cmd := cmd 0x206 255 (fields 16 [(0, 8, 30 * 2097152), (8, 8, 31 * 2097152)])

/-- Partition 1 running a step whose program is one descriptor. -/
def fed (d : BitVec 256) (f : Stream → Stream) : State :=
  served fun x => { x with step := some aStep, reqs := [aReq], stream := f { x.stream with prog := [d] } }

/-- Global address of a byte of tier `t` on this chip. -/
def at7 (t o : Nat) : Nat := 2 ^ 50 * 7 + 2 ^ 48 * t + o

def feedD : BitVec 256 :=
  desc [(0, 1, 1), (8, 8, at7 0 (30 * 2097152)), (16, 2, 4095), (18, 2, 1), (20, 2, 1), (24, 2, 1)]
def stageD : BitVec 256 :=
  desc [(0, 1, 2), (8, 8, at7 1 0), (16, 8, at7 0 (27 * 2097152)), (24, 4, 2097152)]
def markD : BitVec 256 := desc [(0, 1, 3), (4, 2, 9), (16, 1, 64)]
def drainD : BitVec 256 := desc [(0, 1, 4)]
def configD : BitVec 256 := desc [(0, 1, 5), (8, 8, at7 0 (30 * 2097152))]
def endD : BitVec 256 := desc [(0, 1, 6)]

def aTransfer (issued : Option Nat) : Transfer :=
  { mkTransfer 1 0 false (40 * 2097152) 64 false [] .none .discard with id := 4, issued := issued }

def flying (issued : Option Nat) : State := modTiers up fun m => { m with transfers := [aTransfer issued] }

def aMove : Move :=
  { grain := 0, srcTier := 0, srcFrame := 30, dstTier := 1, dstFrame := 5, limit := 101, copying := false,
    switched := false, part := 1, purpose := .own }

/-- Drawer 2's grain 0 is moved. -/
def moving (m : Move) : State := modTiers (drawn 1 id) fun t => { t with moves := [m] }

def loadTxn : Txn :=
  { ttype := 5, strm := 12, dchip := 7, schip := 9, srcPart := 1, dstPart := 1, last := false
    addr := BitVec.ofNat 64 (at7 0 (60 * 2097152)), len := 64, tid := 0, status := 0, aop := 0, operand := 0
    data := zeros 64 }

def openGrant : Grant :=
  { id := 15, gid := 15, tier := 0, first := 60, frames := 1, src := [9], fwd := [at7 0 0], expires := 101, failed := 0
    toFwd := [(64, [1])], opened := true }

def granted : State := up1 fun x => { x with grants := [openGrant] }

def aReplace (phase : Nat) : Replace :=
  { cmd := cmd 0x206 255 [], src := BitVec.ofNat 64 (30 * 2097152), dst := BitVec.ofNat 64 (31 * 2097152), len := 128
    phase := phase, retried := false, past := [] }

def replacing (phase : Nat) : State := modTiers objects fun m => { m with replaces := [aReplace phase] }

/-- Expert 1 of layer 0 has an object in frame 30. -/
def mapped7 : State :=
  let s := modTiers (served id) fun m => { m with verified := [(at7 0 (30 * 2097152), 128)] }
  setTierMem s 0 (mwrite [] (40 * 2097152 + 16) (le 8 (at7 0 (30 * 2097152)) ++ le 4 128 ++ [0, 1]))

def aMigration (phase : Nat) : Migration :=
  { layer := 0, expert := 1, model := 3, src := BitVec.ofNat 64 (at7 0 (30 * 2097152))
    dst := BitVec.ofNat 64 (at7 0 (50 * 2097152)), len := 128, phase := phase, fresh := [] }

def fenced (f : Step → Step) : State := served fun x => { x with reqs := [aReq], step := some (f aStep) }

def aMsg (mtype : Nat) : ExpertMsg :=
  { mtype := mtype, ver := 1, expert := 1, schip := 7, srcPart := 1, dstPart := 1, round := 0, gen := 0, layer := 0, step := 1,
    nrow := 1, rfmt := 0, rbytes := 64, status := 0, beats := 0, tbytes := 0, rows := if mtype ≤ 2 then zeros 64 else [] }

def aDispatch : Dispatch := { layer := 0, expert := 1, home := 0, ve := 2, slots := [0], returned := false }

/-- A step with layer 0 open and one dispatch under way. -/
def sentStep (limit : Nat) : Step :=
  { aStep with dispatches := [aDispatch], filters := [{ layer := 0, opened := true, limit := limit }] }
def routedStep (limit : Nat) : State := fenced fun _ => sentStep limit

def readyLayer : State :=
  served fun x =>
    { x with step := some aStep, ingress := { x.ingress with dispatches := [aMsg 1], closes := [(0, 0, 0, 0, 1)] } }

/-- A configuration image without records in frame 30. -/
def configured : State :=
  setTierMem (fed configD id) 0 (mwrite [] (30 * 2097152) ([1, 1, 0, 0] ++ le 4 9 ++ le 4 192))

def aScan : ScanJob :=
  { id := 2, addr := BitVec.ofNat 64 (at7 0 (30 * 2097152)), len := 64, expect := 0, alg := 1, cmp := false, zw := false,
    fg := false, zoff := 0, serves := .replace 0, started := 1, finished := 0 }
def scanning : State := modTiers up fun m => { m with scans := [aScan], engines := [(7, (2, 0))] }

def ripeBal : Balance := { newBalance 0 true 4 1 2 { layer := 0, experts := 2, k2 := false, afmt := 0, rbytes := 64, retFmt := 0, retBytes := 64, bias := [] } with active := true, gathered := 4 }
def ripe : Model := { aModel with bal := [(0, ripeBal)] }

def aSwitch : Switch := { mcid := 3, cmd := cmd 0x202 1 [], phase := 2 }
def filled : State :=
  up1 fun x =>
    { x with
      models := [(3, aModel)], switching := some aSwitch, filling := true
      stream := { x.stream with prog := [configD, markD], next := 1 } }
def doneStep : Step := { aStep with fenced := true, verdicts := (List.range 8).map fun b => (b, true) }
def silentStep : Step := { aStep with fenced := true, fenceAt := 5, verdicts := [(0, true)] }
def silent : State := { fenced (fun _ => silentStep) with time := { bare.time with watch := watchdog + 5 } }

def powered (f : Power → Power) : State := modPower up f

/-- The device with time at `n` counts. -/
def late (s : State) (n : Nat) : State := { s with time := { s.time with count := n } }

def lost (f : Time → Time) : State := { up with time := f up.time }

def rails13 : List (Nat × Nat × Nat) := List.replicate 13 (750, 1000, 1000)

/-- The management ports in service. -/
def managed (f : Mgmt → Mgmt) : State :=
  { up with mgmtA := f { Mgmt.reset with enabled := true }, mgmtB := f { Mgmt.reset with enabled := true } }

def iber (st : LinkState) (since : Nat) : State := modLink up 18 fun x => { x with st := st, since := since }

/-- An ECHO of rack manager B with 4 parameter bytes. -/
def echoB : List Byte := fields 36 [(0, 1, 1), (2, 2, 1), (4, 1, 255), (5, 1, 2), (24, 4, 4)]

def mirror1 : State := up1 fun x => { x with role := .mirror }
def mirrorSeed : Cmd := cmd 0x702 1 (fields 40 [(0, 1, 1), (2, 2, 0x107), (4, 1, 1), (24, 4, 8), (32, 8, 77)])
def mirrorAt : State := taken (asks mirror1 mirrorSeed) 1 mirrorSeed

/-- A transaction of member 0's partition to partition 1, its address the last 64 bytes of frame 63. -/
def aTxn (ttype : Nat) : Txn :=
  { ttype := ttype, strm := 0, dchip := 7, schip := 7, srcPart := 1, dstPart := 1, last := true
    addr := BitVec.ofNat 64 (at7 0 (64 * 2097152 - 64)), len := if ttype = 1 ∨ ttype = 2 ∨ ttype = 0x81 then 64 else 0
    tid := 3, status := 0, aop := 0, operand := 0, data := if ttype = 2 ∨ ttype = 0x81 then zeros 64 else [] }

def arrived (ttype : Nat) : State := modFabric (served id) fun f => { f with ingress := [aTxn ttype] }

def outwards (q : Nat) : Transfer :=
  { mkTransfer 1 3 false 0 64 false [] .none (.outward 0 0 0 (aTxn q)) with id := 4, issued := some 100 }

/-- A request of type `q` is outstanding and its response has arrived. -/
def replied (q : Nat) : State :=
  modTiers (modFabric up fun f => { f with ingress := [aTxn (q + 0x80)] }) fun m => { m with transfers := [outwards q] }

def emptied (s : State) (t : Txn) : State := modFabric s fun f => { f with ingress := f.ingress.erase t }

/-- An ECHO of the host with 4 parameter bytes. -/
def echoHost : List Byte := fields 36 [(0, 1, 1), (2, 2, 1), (4, 1, 255), (5, 1, 0), (24, 4, 4)]

/-- A MIRROR_CMD of twin 9 to partition 1, and the fabric message that carries it. -/
def fromNine : List Byte :=
  fields 72 [(0, 1, 1), (2, 2, 0x702), (4, 1, 1), (5, 1, 3), (24, 4, 40), (32, 1, 1), (34, 2, 0x107), (36, 1, 1), (56, 4, 8)]
def nineTxn : Txn :=
  { ttype := 0x11, strm := 14, dchip := 7, schip := 9, srcPart := 0, dstPart := 0, last := true, addr := 0
    len := 72, tid := 0, status := 0, aop := 0, operand := 0, data := fromNine }
def nineSent : State :=
  modFabric (modPair mirror1 fun x => { x with on := true, twin := 9 }) fun f => { f with ingress := [nineTxn] }

/-- Supplies good, RESET_N low. -/
def inResetS : State := { State.reset with power := { Power.reset with good := BitVec.allOnes 13 }, time := bare.time }

def starting (done : List Phase) (f : Boot → Boot) : State :=
  { bare with boot := f { Boot.reset with resetN := true, done := done } }

def lostRail : State :=
  modPower up fun w => { w with good := w.good &&& ~~~(1#13 <<< 8), lostRails := w.lostRails ||| (1#13 <<< 8) }

def booting (bt : Nat) : List Byte := fields 16 [(0, 1, 0xb1), (1, 1, bt)]

/-- Start-up with the Iberaine port up. -/
def ported (f : Boot → Boot) : State := modLink (starting [.a, .b, .e] f) 18 fun x => { x with st := .up }

def warm : State := { up with tele := { up.tele with west := 1520 } }

def aSlice : Slice := { unit := .segment 0 7 65, parts := [], tiles := [], ves := [] }
def sliced : State := modSafety up fun f => { f with slices := [aSlice] }

def aSubst (phase : Nat) : Subst :=
  { die := 0, row := 7, seg := 3, repl := 64, phase := phase, parts := [1], recs := [], forced := false }
def substing (phase : Nat) : State := modSafety up fun f => { f with subst := some (aSubst phase) }

/-- One rail gone with its content, and the fault recorded. -/
def lostOne (rail : Nat) : Nat × State :=
  let v := loseContent rail (modPower up fun w => { w with good := w.good &&& ~~~(1#13 <<< rail) })
  recordFault (modPower v fun w => { w with lostRails := w.lostRails ||| (1#13 <<< rail) }) 20 0xff 0xffff 0 rail 0 [] none
def badVe127 : State := modSafety up fun f => { f with badVes := [127] }
def segBad7 : State := modSafety up fun f => { f with badSegs := [899] }

def linked (f : Link → Link) : State := modLink up 5 fun x => f { x with st := .up, width := 4, lanes := [0, 1, 2, 3] }

def anEnt : LinkEnt := { en := true, glb := false, port := 0, maxr := 0, pchip := 9, plink := 17 }

/-- Link 5 in SIDEBAND in the train phase. -/
def sideState : State :=
  modLands (modFabric (modLink (late up 25000) 5 fun x => { x with st := .sideband }) fun f =>
    { f with ents := List.replicate 6 anEnt }) fun l => { l with phase := 1 }

/-- What the partner of link 5 sends in SIDEBAND. -/
def partnerMsg : List Byte :=
  let b := [0x5b, 1] ++ le 2 7 ++ [5, 17] ++ le 2 9 ++ [31, 0]
  b ++ le 2 (crc16 b)

def frame (ftype : Nat) : List Byte := mkFrame 0 ftype 0 0 0 0 0 []

def sends : State := linked fun x => { x with txq := [(5, [[29, 1]])], credits := [(5, 1)] }
def sendLink : Link := link (frameOut sends) 5

/-- The lanes that bring a frame. -/
def brings (f : List Byte) : List (List Byte) := spread 4 (fecEncode f)

def crossFrame : FwdFrame := { link := 5, chan := 0, txn := { aTxn 4 with dchip := 9 }, first := true, last := true, payload := zeros 40, owed := true }
def crossing : State := modFabric up fun f => { f with fwd := [crossFrame] }

def setupCmd : Cmd := cmd 0x701 255 (fields 12 [(0, 2, 9), (2, 2, 2), (8, 4, 1000000)])
def routed9 : State := modFabric up fun f => { f with routes := [(9, 1)] }

def aPair (kind : Nat) (recs : List PairRec) : PairMsg :=
  { pkind := kind, ver := 1, part := 1, step := 5, vstep := 0, status := 0, recs := recs }

def pairTxn (m : PairMsg) : Txn :=
  { ttype := 0x12, strm := 13, dchip := 7, schip := 9, srcPart := 0, dstPart := 0, last := true, addr := 0
    len := (pairBytes m).length, tid := 0, status := 0, aop := 0, operand := 0, data := pairBytes m }

/-- A message of the twin 9 waits; partition 1 is as given, its only frame 60 of tier 0. -/
def twinned (f : Part → Part) (on : Bool) (m : PairMsg) : State :=
  let s := modPair up fun x => { x with on := on, twin := 9, setting := some setupCmd }
  let e : PartEntry := { anEntry with ranges := [(0, { ro := false, tier := 0, first := 60, count := 1 })] }
  let s := modPart s 1 fun x => f { x with role := .mirror, entry := e, mirrorValid := true }
  modFabric s fun x => { x with ingress := [pairTxn m] }

/-- The mirror holds grain 63. -/
def holds63 (s : State) : State :=
  setFrame (setHt s 63 { HtEntry.zero with v := true, mir := true, part := 1, htier := 0, hf := 60 }) 0 60 .home

def allocM : PairMsg := aPair 2 [.grain 63]
def freeM : PairMsg := aPair 3 [.grain 63]
def dataM : PairMsg := aPair 4 [.data (winBase + 63 * 2097152 + 2097151) [7]]
def entryM : PairMsg := aPair 5 [.entry 2 255 (zeros 64)]
def recordM : PairMsg := aPair 6 [.record (zeros 64)]
def ackM : PairMsg := aPair 7 []

def syncing1 (m : PairMsg) : State := modPart (twinned id true m) 1 fun x => { x with syncing := true, mirrorValid := false }

/-- Partition 1 primary, its last acknowledgement due. -/
def acked (f : Part → Part) : State := modPart (twinned id true ackM) 1 fun x => f { x with role := .primary, acksDue := 1 }
def countedAck (s : State) : State := modPart (heard s ackM) 1 fun x => { x with acksDue := x.acksDue - 1 }

def aPub : PubWait := { step := aStep, ccount := 90, sentAt := 90, ends := [], charges := [], before := [] }
def lapsed : State := up1 fun x => { x with pub := some aPub }

def paired2 (f : Pair → Pair) : State := modPair (late up 2500) fun x => f { x with on := true, twin := 9 }

def replyTxn : Txn :=
  { ttype := 0x11, strm := 14, dchip := 7, schip := 9, srcPart := 0, dstPart := 0, last := true, addr := 0, len := 1, tid := 0
    status := 0, aop := 0, operand := 0, data := [1] }

def setupM : PairMsg := aPair 1 [.setup 0 0 (List.replicate 16 (0, 0, 0, 0, 0))]
def chargeM : PairMsg := aPair 8 [.charge 5 7]

/-- A link in a training state with time left. -/
def trains (st : LinkState) (f : Link → Link) : State := modLink up 0 fun x => f { x with st := st, since := 100 }

def heardBeat : State :=
  modPair up fun x => { x with rxSeq := some 0, lastFrame := 100, twinP := 0, twinM := 0, pathLost := false }

/-- A VE instruction. -/
def ins (opc d a b c imm : Nat) : W64 :=
  BitVec.ofNat 64 (2 ^ 56 * opc + 2 ^ 51 * d + 2 ^ 46 * a + 2 ^ 41 * b + 2 ^ 36 * c + imm)

/-- The VE of block 2 at an instruction, in normal service. -/
def veAt (w : W64) (f : Ve → Ve) : State :=
  setVe (served fun x => { x with step := some aStep }) 2
    (f { Ve.reset with
      buffer := false, running := true, cacheInit := true, cache := [(0, w.extractLsb' 0 32), (1, w.extractLsb' 32 32)] })

/-- The same for a block of no partition. -/
def veOut (w : W64) (f : Ve → Ve) : State :=
  setVe up 127
    (f { Ve.reset with
      buffer := false, running := true, cacheInit := true, cache := [(0, w.extractLsb' 0 32), (1, w.extractLsb' 32 32)] })

/-- A word of 512 bits by its fields (lowest bit, value). -/
def word (vs : List (Nat × Nat)) : Line := BitVec.ofNat 512 (vs.foldl (fun n v => n + v.2 * 2 ^ v.1) 0)

def token (k e : Nat) (p : Line) : Chan := { payload := p, loop := 9, kind := BitVec.ofNat 2 k, epoch := BitVec.ofNat 4 e, ctx := 0 }

/-- Tile 0 of block 0 in partition 1. -/
def tileAt (f : Tile → Tile) : State := setTile up 0 (f Tile.reset)

def routed58 : State :=
  veAt (ins 0x58 31 1 15 15 0) fun x =>
    { x with s := [(1, 8)], cache := x.cache ++ [(8, 65537), (9, 1), (10, 100), (11, 200), (12, 300), (13, 400)] }

/-- The parameter block: MODE 0, two experts, capacity 1, one position. -/
def routePs : List W32 := [65537, 1, 100, 200, 300, 400, 0]

def collWord (k : Nat) : Coll := { word := token k 0 5, label := 7, role := 3 }
def collected : State := setTile (veAt (ins 0x4c 31 0 15 0 63) id) 471 { Tile.reset with coll := [collWord 0, collWord 2] }
def popped : State := setTile (veAt (ins 0x4d 31 0 0 0 63) id) 471 { Tile.reset with checkFifo := [5] }

def routedY : Ve :=
  let x := Sys2Proof.Machine.ve routed58 2
  rtSelect routePs (placeBias (stepTable routed58 2 (rtField routePs 6)) routePs x)
def routedT : State := applyFailed (modPart (setVe routed58 2 routedY) 1 fun z => { z with step := z.step.map (keepPicks routePs 2 routedY) }) 1

/-- A matrix context word: E4M3, FP32 output, activations and sums from the scratchpad, one row group and weight tile of 32. -/
def matCtx : Line := word [(511, 1), (504, 1), (489, 31), (447, 1), (434, 1), (422, 1), (413, 32)]

def inSlot (c : Line) (f : Tile → Tile) : State := tileAt fun x => f { x with ctxA := [(0, c)] }

def aPass : Pass := { Pass.fresh 0 1 0 true with rep := 1, nrg := 1, nkt := 1 }

def passing (p : Pass) (q : Tab (List Chan)) : State := inSlot matCtx fun x => { x with pass := some p, q := q }

def mStart : State := inSlot matCtx fun x => { x with q := [(1, [token 0 0 5])] }
def mWait : Pass := { aPass with waitGnxt := true }
def mGnxt : State := passing mWait [(3, [token 1 0 0])]
def mWord : State := passing aPass [(1, [token 0 0 5])]
def mFrame : Pass := { aPass with frame := [5, 6, 7, 8] }
def mDec : State := passing mFrame []
def mDecoded : List Weight × W32 := decodeRun mDec 0 matCtx (frameNat mFrame.frame) 0 16 0
def mHalf : Half := Half.mk 0 mDecoded.1 (scalesFor mDec 0 matCtx (frameNat mFrame.frame) 0)
def mHalved : Pass :=
  { mFrame with halves := [mHalf], ktStarted := 1, frame := [5, 6, 7, 8], decoded := 16 }
def mReady : Pass := { aPass with ktStarted := 1, halves := [Half.mk 0 (List.replicate 256 (Weight.mk 0 false)) []] }
def mBeat : State := passing mReady []
def mWeights : Half := Half.mk 0 (List.replicate 256 (Weight.mk 0 false)) []
def mStage : Tile × Pass := stageIn matCtx (tile mBeat 0) mReady
def mLoad : Tile × Pass := loadNext mBeat.draw matCtx mStage.1 mStage.2
def mCheck : Pass := checkBeat (mBeat.draw + 512) mLoad.1 matCtx mWeights mLoad.2
def mNext : Tile × Pass :=
  loopAdvance matCtx (bankSet mLoad.1 (mCheck.rg % 2) (bankLines (beatAcc mLoad.1 matCtx mLoad.2 mWeights))) mCheck
def mIdle : State := passing aPass []
def mIdleStage : Tile × Pass := stageIn matCtx (tile mIdle 0) aPass
def mIdleLoad : Tile × Pass := loadNext mIdle.draw matCtx mIdleStage.1 mIdleStage.2
def mOut : Pass := { aPass with outw := [5], finished := [(0, 0, true)] }
def mStore : Pass := { aPass with finished := [(0, 0, false)] }
def mConv : Pass := { aPass with finished := [(0, 0, true)] }
def mEnd : State := inSlot matCtx fun x => { x with q := [(1, [token 2 0 0])] }

/-- A steering context that forwards queue A to local out 0, a counter, a triggered counter, a move within the scratchpad. -/
def steerCtx : Line := word [(511, 1), (504, 3), (445, 1)]
def countCtx : Line := word [(511, 1), (504, 4), (430, 3), (414, 2)]
def trigCtx : Line := word [(511, 1), (504, 4), (447, 1), (430, 3)]
def moveCtx : Line := word [(511, 1), (504, 2), (446, 1), (444, 1), (412, 2)]
def sFire : State := inSlot steerCtx fun x => { x with q := [(0, [token 0 0 5])] }
def kStart : State := inSlot countCtx id
def kTrigged : State := inSlot trigCtx fun x => { x with q := [(3, [token 1 0 7])] }
def kRun : CtrRun := { n := 3, i := 0, run := 0, endTok := false }
def kEmit : State := inSlot countCtx fun x => { x with slots := [(0, { SlotRun.reset with ctr := some kRun })] }
def vMove : State := inSlot moveCtx id
def vMoved : Tile := { tile vMove 0 with scratch := tset [] 0 0 }

/-- A router word with the entry of input 0 and label 0. -/
def routerWord (lbl out : Nat) : Line := word ([(511, 1), (0, 16 * lbl + out)] ++ (List.range 55).map fun i => (7 * i + 7, 127))
def rHop : State := tileAt fun x => { x with rwA := routerWord 2 1, inq := [(0, [token 0 0 5])] }
def rLocal : State := inSlot (word [(511, 1), (504, 3)]) fun x => { x with rwA := routerWord 0 8, inq := [(0, [token 0 0 5])] }
def rGo (s : State) : Tile := passMark s.time.watch 0 0 (token 0 0 5) { tile s 0 with inq := tset (tile s 0).inq 0 [] }
def toEnter : Chan := { token 0 0 5 with ctx := 0 }
def rNext : State :=
  setTile (setTile up 0 { Tile.reset with latch := [(1, [toEnter])] }) 64 { Tile.reset with passed := 0, rwA := word [(511, 1)] }
def rOwn : State := tileAt fun x => { x with passed := 0, rwA := word [(511, 1)], lout := [(0, [toEnter])] }
def cfgWord (k : Nat) (p : Line) : Chan := { payload := p, loop := BitVec.ofNat 16 (8192 * k), kind := 3, epoch := 1, ctx := 0 }
def rInj : State := { up with injectOut := [(0, cfgWord 1 (word [(507, 1)]))] }
def rEnter : State := tileAt fun x => { x with passed := 0, rwA := word [(511, 1)] }
def rCfg (k : Nat) : State := tileAt fun x => { x with cfgq := [(0, [cfgWord k (word [(507, 1)])])] }
def anInject : Inject := { image := 0, epoch := 1, recs := [(0, [(8192, 0, 0)])], left := 0 }
def rSend : State := up1 fun x => { x with inject := some anInject }
def rSwitch : State := tileAt fun x => { x with rwP := some 0 }

def anItem (d : Option Nat) : PortItem := PortItem.mk 0 d 3 (token 0 0 5)
def dPort (d : Option Nat) : State := setVe up 0 { Ve.reset with lanes := [(0, [anItem d])] }
def aDrain : Active :=
  { idx := 0, desc := desc [(0, 1, 4)], issued := 0, left := 0, got := [], words := [], done := 0, epoch := 0, waited := false }
def dStream : State := up1 fun x => { x with stream := { x.stream with active := [aDrain] } }
def later (s : State) : State := { s with time := { s.time with watch := 60000 } }
def wTile : State := later (tileAt fun x => { x with firstMark := some 0 })
def wVe : State := later (setVe up 0 { Ve.reset with waitSince := some 0 })
def wSlot : State := later (tileAt fun x => { x with slots := [(0, { SlotRun.reset with waitSince := some 0 })] })

/-- A fork, a check of LOOP, a fork under way, a second word under way. -/
def forkCtx : Line := word [(511, 1), (504, 3), (446, 2), (445, 1)]
def loopCtx : Line := word [(511, 1), (504, 3), (426, 1), (445, 1)]
def sFork : State := inSlot forkCtx fun x => { x with q := [(0, [token 0 0 5])] }
def sLoop : State := inSlot loopCtx fun x => { x with q := [(0, [token 0 0 5])] }
def sCopies : State := inSlot forkCtx fun x => { x with slots := [(0, { SlotRun.reset with fork := some (0, 2, token 0 0 5, 1) })] }
def sSecond : State := inSlot steerCtx fun x => { x with slots := [(0, { SlotRun.reset with second := some (token 0 0 5) })] }
def mStuck : State := inSlot matCtx fun x => { x with q := [(0, [token 0 0 5]), (1, [token 2 0 0])], rwA := routerWord 0 8 }
def rColl : State :=
  setVe (tileAt fun x => { x with rwA := routerWord 0 8, inq := [(0, [token 0 0 5])] }) 0 { Ve.reset with buffer := false }
def rLost : State := tileAt fun x => { x with rwA := routerWord 0 8, inq := [(8, [token 0 0 5])] }
def goesEast : Chan := { payload := word [(507, 1)], loop := 64, kind := 3, epoch := 1, ctx := 0 }
def rCfgHop : State := tileAt fun x => { x with cfgq := [(0, [goesEast])] }

/-! ### Witnesses of the completion statements: one state for each clause -/

theorem witness_ReportCommandsComplete :
    (∃ s q c, Begins (.echo q) s q c ∧ c.opc = 0x0001) ∧
    (∃ s q c, Begins (.identity q) s q c ∧ c.opc = 0x0002) ∧
    (∃ s q c, Begins (.telemetry q) s q c ∧ c.opc = 0x0003 ∧ pf c 0 4 ≤ 4) ∧
    (∃ s c, Begins .powerRead s 16 c ∧ c.opc = 0x0605) ∧
    (∃ s p c, Begins (.acctRead p) s p c ∧ c.opc = 0x0106 ∧ pf c 0 1 = 0) ∧
    (∃ s p c, Begins (.acctReadClear p) s p c ∧ c.opc = 0x0106 ∧ pf c 0 1 = 1 ∧ c.port = 0) ∧
    (∃ s p c, Begins (.budgetRead p) s p c ∧ c.opc = 0x0304) :=
  ⟨⟨asks up (cmd 1 1 []), 1, cmd 1 1 [], by decide +kernel⟩,
    ⟨asks up (cmd 2 1 (zeros 32)), 1, cmd 2 1 (zeros 32), by decide +kernel⟩,
    ⟨asks up (cmd 3 1 [4, 0, 0, 0]), 1, cmd 3 1 [4, 0, 0, 0], by decide +kernel⟩,
    ⟨asks up (cmd 0x605 255 []), cmd 0x605 255 [], by decide +kernel⟩,
    ⟨asks up (cmd 0x106 1 [0]), 1, cmd 0x106 1 [0], by decide +kernel⟩,
    ⟨asks up (cmd 0x106 1 [1]), 1, cmd 0x106 1 [1], by decide +kernel⟩,
    ⟨asks up (cmd 0x304 1 [0, 5]), 1, cmd 0x304 1 [0, 5], by decide +kernel⟩⟩

theorem witness_PartitionCommandsComplete :
    (∃ s c, Begins .partDefine s 16 c ∧ c.opc = 0x0101 ∧ prePhase (part s (pf c 1 1 % 16)) = false ∧
      defined (taken s 16 c) (pf c 1 1 % 16) = false ∧ defineRefused (taken s 16 c) c = none ∧ pf c 4 2 ≠ 0) ∧
    (∃ s p c, Begins (.partReset p) s p c ∧ c.opc = 0x0102 ∧ prePhase (part s p) = false) ∧
    (∃ s p c, Begins (.partYield p) s p c ∧ c.opc = 0x0103 ∧ (part (taken s p c) p).pre = .running ∧
      prePhase (part s p) = false) ∧
    (∃ s p c, Begins (.partEvict p) s p c ∧ c.opc = 0x0104 ∧ prePhase (part s p) = false ∧
      (part (taken s p c) p).pre ≠ .evicted) ∧
    (∃ s p c, Begins (.partResume p) s p c ∧ c.opc = 0x0105 ∧ prePhase (part s p) = false ∧
      (part (taken s p c) p).pre = .yielded ∧ (part (taken s p c) p).stuck ≠ 2) ∧
    (∃ s p c, Begins (.partResume p) s p c ∧ c.opc = 0x0105 ∧ prePhase (part s p) = false ∧
      (part (taken s p c) p).pre = .evicted) :=
  ⟨⟨asks up (cmd 0x101 255 (fields 160 [(0, 1, 1), (1, 1, 15), (4, 2, 2), (8, 4, 64), (12, 4, 8388544), (16, 4,
      16), (20, 4, 1), (24, 4, 64), (28, 4, 19), (0x20, 4, 64), (0x24, 4, 0x80000013)])),
      cmd 0x101 255 (fields 160 [(0, 1, 1), (1, 1, 15), (4, 2, 2), (8, 4, 64), (12, 4, 8388544), (16, 4, 16),
      (20, 4, 1), (24, 4, 64), (28, 4, 19), (0x20, 4, 64), (0x24, 4, 0x80000013)]), by decide +kernel⟩,
    ⟨asks up (cmd 0x102 1 []), 1, cmd 0x102 1 [], by decide +kernel⟩,
    ⟨asks up (cmd 0x103 1 []), 1, cmd 0x103 1 [], by decide +kernel⟩,
    ⟨asks up (cmd 0x104 1 []), 1, cmd 0x104 1 [], by decide +kernel⟩,
    ⟨asks (up1 fun x => { x with pre := .yielded }) (cmd 0x105 1 []), 1, cmd 0x105 1 [], by decide +kernel⟩,
    ⟨asks (up1 fun x => { x with pre := .evicted }) (cmd 0x105 1 []), 1, cmd 0x105 1 [], by decide +kernel⟩⟩

theorem witness_PreemptionPhasesComplete :
    (∃ s p, Acts (.yieldBoundary p) s ∧ (part s p).pre = .yielding ∧ (part s p).step = none) ∧
    (∃ s p, Acts (.evictQuiesceEnd p) s ∧ (part s p).pre = .quiescing ∧ stillFlying s p = false) ∧
    (∃ s p, Acts (.evictSaveComplete p) s ∧ (part s p).pre = .saving ∧ (part s p).evictCmd = none) ∧
    (∃ s p, Acts (.resumeReloadComplete p) s ∧ (part s p).pre = .reloading) :=
  ⟨⟨up1 fun x => { x with pre := .yielding }, 1, by decide +kernel⟩,
    ⟨up1 fun x => { x with pre := .quiescing }, 1, by decide +kernel⟩,
    ⟨up1 fun x => { x with pre := .saving }, 1, by decide +kernel⟩,
    ⟨up1 fun x => { x with pre := .reloading }, 1, by decide +kernel⟩⟩

theorem witness_ModelCommandsComplete :
    (∃ s p c, Begins (.seed p) s p c ∧ c.opc = 0x0107) ∧
    (∃ s p c pkg, Begins (.modelInstall p pkg) s p c ∧ c.opc = 0x0201 ∧ installReserved c (taken s p c) = none ∧
      isVerified s (pf c 0x20 8) = true ∧ (part (taken s p c) c.part).active ≠ some (pf c 0 2) ∧
      switchTarget (taken s p c) c.part (pf c 0 2) = false ∧
      framesInRanges (part (taken s p c) c.part) 0 (pf c 0x14 4) (pf c 0x18 4 + pf c 0x1c 4) false = true ∧
      tablesInRanges (taken s p c) c.part pkg c = true) ∧
    (∃ s p c m, Begins (.modelRemove p) s p c ∧ c.opc = 0x0203 ∧ pf c 0 2 ≤ 1023 ∧
      tfind (part (taken s p c) c.part).models (pf c 0 2) = some m ∧
      (part (taken s p c) c.part).active ≠ some (pf c 0 2) ∧
      switchTarget (taken s p c) c.part (pf c 0 2) = false) ∧
    (∃ s p addr prog c m, Begins (.modelSwitch p addr prog) s p c ∧ c.opc = 0x0202 ∧
      switchFree s p addr prog = true ∧ pf c 0 2 ≤ 1023 ∧
      tfind (part (taken s p c) c.part).models (pf c 0 2) = some m) ∧
    (∃ s p c m, Begins (.expertMap p) s p c ∧ c.opc = 0x0204 ∧ (part s p).step = none ∧
      activeModel (part (taken s p c) c.part) = some m ∧ nfld (pf c 2 2) 0 10 < expertsOf m (pf c 0 2) ∧
      (let ent := entryBytes (parseX (sub c.params 8 16)); ((parseX ent).v = true → (parseX ent).hmem < m.gsize)
      ∧ bytesInRanges (part (taken s p c) c.part) 0 (mapOffset m (pf c 0 2) (nfld (pf c 2 2) 0 10)) 16 false =
      true ∧ tierAccess (taken s p c) 0 (mapOffset m (pf c 0 2) (nfld (pf c 2 2) 0 10)) 16 true = 0)) ∧
    (∃ s p c m id, Begins (.balance p) s p c ∧ c.opc = 0x0205 ∧ balanceReserved c = none ∧
      (part (taken s p c) c.part).active = some id ∧ activeModel (part (taken s p c) c.part) = some m ∧
      (pf c 0 2 = 0xffff ∨ thas m.bal (pf c 0 2) = true)) :=
  ⟨⟨asks up (cmd 0x107 1 (zeros 8)), 1, cmd 0x107 1 (zeros 8), by decide +kernel⟩,
    ⟨asks (modTiers up fun m => { m with verified := [5] }) (cmd 0x201 1 (fields 152 [(0, 2, 4), (4, 2, 16), (6, 2,
      1), (8, 2, 16), (10, 2, 1), (12, 4, 1), (0x12, 1, 1), (0x14, 4, 20), (0x18, 4, 6), (0x1c, 4, 2), (0x20, 8,
      5), (0x34, 4, 2500), (0x3a, 2, 1), (0x3c, 2, 1), (0x3e, 2, 1), (0x40, 4, 0x10007)])), 1,
      cmd 0x201 1 (fields 152 [(0, 2, 4), (4, 2, 16), (6, 2, 1), (8, 2, 16), (10, 2, 1), (12, 4, 1), (0x12, 1,
      1), (0x14, 4, 20), (0x18, 4, 6), (0x1c, 4, 2), (0x20, 8, 5), (0x34, 4, 2500), (0x3a, 2, 1), (0x3c, 2, 1),
      (0x3e, 2, 1), (0x40, 4, 0x10007)]), { vocab := 10, layers := [] }, by decide +kernel⟩,
    ⟨asks (up1 fun x => { x with models := [(3, aModel)] }) (cmd 0x203 1 (fields 8 [(0, 2, 3)])), 1,
      cmd 0x203 1 (fields 8 [(0, 2, 3)]), aModel, by decide +kernel⟩,
    ⟨asks (up1 fun x => { x with models := [(1023, aModel)] }) (cmd 0x202 1 (fields 8 [(0, 2, 1023)])), 1,
      0x2000000, [desc [(0, 1, 5)]], cmd 0x202 1 (fields 8 [(0, 2, 1023)]), aModel, by decide +kernel⟩,
    ⟨asks (served id) (cmd 0x204 1 (fields 24 [(2, 2, 1), (21, 1, 1)])), 1, cmd 0x204 1 (fields 24 [(2, 2, 1), (21,
      1, 1)]), aModel, by decide +kernel⟩,
    ⟨asks (served id) (cmd 0x205 1 (fields 16 [(0, 2, 0xffff), (4, 2, 1), (6, 2, 1), (8, 2, 1)])), 1,
      cmd 0x205 1 (fields 16 [(0, 2, 0xffff), (4, 2, 1), (6, 2, 1), (8, 2, 1)]), aModel, 3, by decide +kernel⟩⟩

theorem witness_ServingCommandsComplete :
    (∃ s p adapters c m reg u b, Begins (.request p adapters) s p c ∧ c.opc = 0x0301 ∧ switchWaits s p = false ∧
      requestReserved c none = none ∧ activeModel (part (taken s p c) c.part) = some m ∧
      requestReserved c (some m.vocab) = none ∧ (let v := taken s p c;
      let w := takeWeights v c.part (pf c 0 1) m;
      let d := if pf c 4 4 = 0xffffffff then none else some (drawerIdx v c.part (pf c 4 4));
      let lines := (pf c 8 2 + pf c 10 2) * m.tbpp; let index := freeIndex (part v c.part);
      let objs := objectsFor v m c adapters; let area := adapterRoom v c.part m (objs.map fun e => e.2).sum;
      admitChecks v c.part m c d (pf c 4 4) ((placeFor v c.part index d lines).isSome && (decide (objs = []) ||
      area.isSome)) = 0 ∧ placeFor w c.part index d lines = some (reg, u) ∧
      b = budget (part w c.part) (pf c 0 1) ∧
      ((b.inW * pf c 8 2 + b.outW * pf c 10 2 : Nat) : Int) ≤ b.bal - b.res)) ∧
    (∃ s p c r, Begins (.cancel p) s p c ∧ c.opc = 0x0302 ∧ (part (taken s p c) c.part).cancelDone = [] ∧
      (part (taken s p c) c.part).step = none ∧ (part (taken s p c) c.part).pub = none ∧
      (part (taken s p c) c.part).reqs.find? (fun r => decide (r.cmd.port = pf c 0 1 ∧
      r.cmd.seq = pf c 4 4)) = some r) ∧
    (∃ s p c, Begins (.budgetSet p) s p c ∧ c.opc = 0x0303 ∧ pf c 1 1 = 0) ∧
    (∃ s p c, Begins (.budgetAdd p) s p c ∧ c.opc = 0x0303 ∧ pf c 1 1 = 1) ∧
    (∃ s p c, Begins (.budgetSetWeights p) s p c ∧ c.opc = 0x0303 ∧ pf c 1 1 = 2) :=
  ⟨⟨asks rich aRequest, 1, [], aRequest, aModel, some 1,
      ((placeFor (takeWeights (taken (asks rich aRequest) 1 aRequest) 1 5 aModel) 1 0 none 0).getD (none,
      up)).2, { Budget.zero with bal := 2, inW := 1, outW := 1, wset := true }, by decide +kernel⟩,
    ⟨asks (served fun x => { x with reqs := [aReq] }) (cmd 0x302 1 (zeros 8)), 1, cmd 0x302 1 (zeros 8), aReq,
      by decide +kernel⟩,
    ⟨asks up (cmd 0x303 1 (zeros 16)), 1, cmd 0x303 1 (zeros 16), by decide +kernel⟩,
    ⟨asks up (cmd 0x303 1 (fields 16 [(1, 1, 1)])), 1, cmd 0x303 1 (fields 16 [(1, 1, 1)]), by decide +kernel⟩,
    ⟨asks up (cmd 0x303 1 (fields 16 [(1, 1, 2)])), 1, cmd 0x303 1 (fields 16 [(1, 1, 2)]), by decide +kernel⟩⟩

theorem witness_DrawerCommandsComplete :
    (∃ s p c, Begins (.drawerCreate p) s p c ∧ c.opc = 0x0401 ∧ 0 < pf c 4 4 ∧ pf c 4 4 ≤ 16384 ∧
      drawerRefused (taken s p c) c.part (pf c 0 4) [0] = 0) ∧
    (∃ s p c, Begins (.drawerDelete p) s p c ∧ c.opc = 0x0406 ∧ isMirror (taken s p c) c.part = false ∧
      drawerRefused (taken s p c) c.part (pf c 0 4) [1, 6] = 0 ∧
      (let i := drawerIdx (taken s p c) c.part (pf c 0 4); isMirror (setDrawer (taken s p c) i Drawer.zero)
      c.part = false)) ∧
    (∃ s p c, Begins (.drawerOpen p) s p c ∧ c.opc = 0x0402 ∧
      drawerRefused (taken s p c) c.part (pf c 0 4) [1] = 0 ∧
      (let i := drawerIdx (taken s p c) c.part (pf c 0 4); let d := drawer (taken s p c) i;
      let v := (part (taken s p c) c.part).crec.cstep; 0 < visSlen d v)) ∧
    (∃ s p c, Begins (.drawerClose p) s p c ∧ c.opc = 0x0403 ∧ pf c 4 1 ≤ 2 ∧
      hasTier (part (taken s p c) c.part) (pf c 4 1) = true ∧
      drawerRefused (taken s p c) c.part (pf c 0 4) [3] = 0 ∧
      (let i := drawerIdx (taken s p c) c.part (pf c 0 4); (drawer (taken s p c) i).held = false)) ∧
    (∃ s p c, Begins (.drawerCommit p) s p c ∧ c.opc = 0x0404 ∧
      drawerRefused (taken s p c) c.part (pf c 0 4) [3] = 0 ∧
      (let i := drawerIdx (taken s p c) c.part (pf c 0 4); let d := drawer (taken s p c) i; d.held = false ∧
      visTlen d (visStep (part (taken s p c) c.part) false) ≤ pf c 4 4 ∧ pf c 4 4 ≤ d.tcap)) ∧
    (∃ s p c, Begins (.drawerMove p) s p c ∧ c.opc = 0x0405 ∧ pf c 4 1 ≤ 2 ∧
      hasTier (part (taken s p c) c.part) (pf c 4 1) = true ∧
      drawerRefused (taken s p c) c.part (pf c 0 4) [1] = 0) ∧
    (∃ s p c, Begins (.drawerRead p) s p c ∧ c.opc = 0x0407 ∧ pf c 4 1 ≤ 1 ∧ 0 < pf c 12 4 ∧ pf c 12 4 ≤ 4096 ∧
      drawerRefused (taken s p c) c.part (pf c 0 4) [1, 2, 3, 6] = 0 ∧
      (let d := drawer (taken s p c) (drawerIdx (taken s p c) c.part (pf c 0 4));
      let v := visStep (part (taken s p c) c.part) false;
      let space := if pf c 4 1 = 0 then (visSbase d v, visSlen d v) else (d.tbase, visTlen d v); d.state ≠ 6 ∧
      pf c 8 4 + pf c 12 4 ≤ space.2)) :=
  ⟨⟨asks up (cmd 0x401 1 (fields 16 [(0, 4, 15), (4, 4, 16384)])), 1, cmd 0x401 1 (fields 16 [(0, 4, 15), (4, 4,
      16384)]), by decide +kernel⟩,
    ⟨asks (drawn 1 id) (cmd 0x406 1 (fields 8 [(0, 4, 2)])), 1, cmd 0x406 1 (fields 8 [(0, 4, 2)]),
      by decide +kernel⟩,
    ⟨asks (drawn 1 id) (cmd 0x402 1 (fields 8 [(0, 4, 2)])), 1, cmd 0x402 1 (fields 8 [(0, 4, 2)]),
      by decide +kernel⟩,
    ⟨asks (drawn 3 id) (cmd 0x403 1 (fields 8 [(0, 4, 2), (4, 1, 1)])), 1, cmd 0x403 1 (fields 8 [(0, 4, 2), (4, 1,
      1)]), by decide +kernel⟩,
    ⟨asks (drawn 3 id) (cmd 0x404 1 (fields 8 [(0, 4, 2), (4, 4, 8)])), 1, cmd 0x404 1 (fields 8 [(0, 4, 2), (4, 4,
      8)]), by decide +kernel⟩,
    ⟨asks (drawn 1 id) (cmd 0x405 1 (fields 8 [(0, 4, 2), (4, 1, 1)])), 1, cmd 0x405 1 (fields 8 [(0, 4, 2), (4, 1,
      1)]), by decide +kernel⟩,
    ⟨asks (drawn 1 id) (cmd 0x407 1 (fields 16 [(0, 4, 2), (8, 4, 3), (12, 4, 1)])), 1, cmd 0x407 1 (fields 16 [(0,
      4, 2), (8, 4, 3), (12, 4, 1)]), by decide +kernel⟩⟩

theorem witness_MemoryCommandsComplete :
    (∃ s p c t, Begins (.grainAlloc p) s p c ∧ c.opc = 0x0501 ∧ grainRefused c (taken s p c) true = none ∧
      htAlloc (taken s p c) (pf c 0 4) c.part (pf c 4 1) (pf c 8 4) (isMirror (taken s p c) c.part) = (0, t)) ∧
    (∃ s p c t, Begins (.grainMove p) s p c ∧ c.opc = 0x0502 ∧ grainRefused c (taken s p c) true = none ∧
      htMove (taken s p c) (pf c 0 4) (pf c 4 1) (pf c 8 4) (.command c) = (0, t)) ∧
    (∃ s p c t, Begins (.grainFree p) s p c ∧ c.opc = 0x0503 ∧ grainRefused c (taken s p c) false = none ∧
      htFree (taken s p c) (pf c 0 4) = (0, t)) ∧
    (∃ s p c, Begins (.loadGrant p) s p c ∧ c.opc = 0x0504 ∧ grantReserved c = none ∧ (let u := taken s p c;
      let t := nfld (pf c 1 1) 0 2; framesInRanges (part u c.part) t (pf c 4 4) (pf c 8 4) true = true ∧
      ((List.range (pf c 8 4)).any fun i => heldFrame u t (pf c 4 4 + i)) = false ∧
      (t = 0 → ∀ w ∈ windowsOf (part u c.part), meets (pf c 4 4) (pf c 8 4) w.1 w.2 = false) ∧
      (∀ g ∈ (part u c.part).grants, grantOpen u g = true → g.gid ≠ pf c 0 1 → g.tier = t → meets (pf c 4 4) (pf
      c 8 4) g.first g.frames = false))) ∧
    (∃ s p c g, Begins (.loadData p) s p c ∧ c.opc = 0x0505 ∧ pf c 0 1 ≤ 15 ∧ pf c 8 8 % 64 = 0 ∧
      findGrant (taken s p c) c.part (pf c 0 1) = some g ∧ grantOpen (taken s p c) g = true ∧
      pf c 8 8 + (c.plen - 16) ≤ frameBytes * g.frames) ∧
    (∃ s p c g, Begins (.loadCheck p) s p c ∧ c.opc = 0x0506 ∧ checkReserved c = none ∧
      findGrant (taken s p c) c.part (pf c 0 1) = some g ∧
      (let offs := (List.range (pf c 1 1)).map fun i => pf c (8 + 8 * i) 8; (∀ o ∈ offs,
      o + 64 ≤ frameBytes * g.frames))) ∧
    (∃ s c h g, Begins .layerReplace s 16 c ∧ c.opc = 0x0206 ∧ isVerified s (pf c 0 8) = true ∧
      headerAt (taken s 16 c) (pf c 0 8) = (0, h) ∧ headerAt (taken s 16 c) (pf c 8 8) = (0, g) ∧
      headerBad h = false ∧ fld h 1 1 = 0 ∧ 64 + 32 * fld h 2 1 ≤ objLen h ∧ shape h = shape g ∧
      (readGlobal (taken s 16 c) (pf c 0 8) (64 + 32 * fld h 2 1)).1 = 0 ∧
      (readGlobal (taken s 16 c) (pf c 8 8) (64 + 32 * fld h 2 1)).1 = 0 ∧
      dirShape (readGlobal (taken s 16 c) (pf c 0 8) (64 + 32 * fld h 2 1)).2 (fld h 2 1) = dirShape (readGlobal
      (taken s 16 c) (pf c 8 8) (64 + 32 * fld h 2 1)).2 (fld h 2 1) ∧
      underMigration (taken s 16 c) (pf c 8 8) = false ∧ s.tiers.replaces = []) :=
  ⟨⟨asks up cAlloc, 1, cAlloc, (htAlloc (taken (asks up cAlloc) 1 cAlloc) 63 1 0 63 false).2, by decide +kernel⟩,
    ⟨asks (drawn 1 id) cMove, 1, cMove, (htMove (taken (asks (drawn 1 id) cMove) 1 cMove) 0 1 63 (.command
      cMove)).2, by decide +kernel⟩,
    ⟨asks (drawn 1 id) cFree, 1, cFree, (htFree (taken (asks (drawn 1 id) cFree) 1 cFree) 0).2, by decide +kernel⟩,
    ⟨asks up (cmd 0x504 1 (fields 64 [(0, 1, 15), (4, 4, 60), (8, 4, 4), (12, 4, 86400000)])), 1,
      cmd 0x504 1 (fields 64 [(0, 1, 15), (4, 4, 60), (8, 4, 4), (12, 4, 86400000)]), by decide +kernel⟩,
    ⟨asks (up1 fun x => { x with grants := [aGrant] }) (cmd 0x505 1 (fields 80 [(8, 8, 2097088)])), 1,
      cmd 0x505 1 (fields 80 [(8, 8, 2097088)]), aGrant, by decide +kernel⟩,
    ⟨asks (up1 fun x => { x with grants := [aGrant] }) (cmd 0x506 1 (fields 16 [(1, 1, 1), (8, 8, 2097088)])), 1,
      cmd 0x506 1 (fields 16 [(1, 1, 1), (8, 8, 2097088)]), aGrant, by decide +kernel⟩,
    ⟨asks objects replaceCmd, replaceCmd, (headerAt objects (30 * 2097152)).2, (headerAt objects (31 * 2097152)).2,
      by decide +kernel⟩⟩

theorem witness_PowerCommandsComplete :
    (∃ s c, Begins .capSet s 16 c ∧ c.opc = 0x0601 ∧ c.port = 0 ∧ pf c 0 4 ≤ 2200 ∧
      (let u := modPower (taken s 16 c) fun x => { x with capC := pf c 0 4 }; (effCap u = 0 ∨ (effCap (taken s
      16 c) ≠ 0 ∧ effCap (taken s 16 c) ≤ effCap u)))) ∧
    (∃ s c, Begins .brakeCfg s 16 c ∧ c.opc = 0x0602 ∧ 320 ≤ pf c 0 4 ∧ pf c 0 4 ≤ 2200) ∧
    (∃ s c, Begins .orphanCfg s 16 c ∧ c.opc = 0x0603 ∧ 10 ≤ pf c 0 1 ∧ pf c 0 1 ≤ 100) ∧
    (∃ s c, Begins .emergencyRelease s 16 c ∧ c.opc = 0x0604 ∧ pf c 0 1 = 0) ∧
    (∃ s c, Begins .emergencyHold s 16 c ∧ c.opc = 0x0604 ∧ pf c 0 1 = 1) ∧
    (∃ s c, Begins .emergencyShed s 16 c ∧ c.opc = 0x0604 ∧ pf c 0 1 = 2) ∧
    (∃ s c, Begins .emergencyStop s 16 c ∧ c.opc = 0x0604 ∧ pf c 0 1 = 3) :=
  ⟨⟨asks up (cmd 0x601 255 (fields 8 [(0, 4, 0)])), cmd 0x601 255 (fields 8 [(0, 4, 0)]), by decide +kernel⟩,
    ⟨asks up (cmd 0x602 255 (fields 8 [(0, 4, 2200)])), cmd 0x602 255 (fields 8 [(0, 4, 2200)]), by decide +kernel⟩,
    ⟨asks up (cmd 0x603 255 [100, 0, 0, 0]), cmd 0x603 255 [100, 0, 0, 0], by decide +kernel⟩,
    ⟨asks up (cmd 0x604 255 [0]), cmd 0x604 255 [0], by decide +kernel⟩,
    ⟨asks up (cmd 0x604 255 [1]), cmd 0x604 255 [1], by decide +kernel⟩,
    ⟨asks up (cmd 0x604 255 [2]), cmd 0x604 255 [2], by decide +kernel⟩,
    ⟨asks up (cmd 0x604 255 [3]), cmd 0x604 255 [3], by decide +kernel⟩⟩

theorem witness_StreamDescriptorsComplete :
    (∃ s p d, Acts (.streamFeed p true) s ∧ TakesDesc s p 1 d ∧ nfld (dfld d 1 1) 0 2 ≠ 3 ∧ 0 < dWpf d ∧
      dWpf d ≤ 4095 ∧ 0 < dCpw d ∧ gChip (dSrc d) = s.fabric.chip ∧ gTierOf (dSrc d) = 0 ∧
      ((List.range (feedFrames d)).all fun j => bytesInRanges (part s p) 0 (gOff (feedAddr d j)) (64 * dWpf d)
      true) = true ∧ destOk (part s p) d = true ∧ 0 < feedFrames d) ∧
    (∃ s p d, Acts (.streamStage p true) s ∧ TakesDesc s p 2 d ∧ nfld (dfld d 1 1) 0 2 ≠ 3 ∧
      (gTierOf (dSrc d) = 1 ∨ gTierOf (dSrc d) = 2) ∧ dLen d % 64 = 0 ∧ 0 < dLen d ∧
      gChip (dSrc d) = s.fabric.chip ∧ bytesInRanges (part s p) (gTierOf (dSrc d)) (gOff (dSrc d)) (dLen d) true
      = true ∧ gTierOf (dDst d) = 0 ∧ bytesInRanges (part s p) 0 (gOff (dDst d)) (dLen d) false = true ∧
      inStreamWindow (part s p) (dDst d) (dLen d) = true) ∧
    (∃ s p d i, Acts (.streamStage p true) s ∧
      (((part s p).stream.prog[(part s p).stream.next]?).any fun d => decide (dKind d = 2)) = false ∧
      earlyStage s p = some (i, d) ∧ stageFault s p d = none ∧ 0 < dLen d) ∧
    (∃ s p d r, Acts (.streamMark p) s ∧ TakesDesc s p 3 d ∧ nfld (dfld d 16 1) 0 7 ≤ 64 ∧
      (part s p).stream.releases.find? (fun r => decide (r.1 = dfld d 4 2)) = some r) ∧
    (∃ s p d, Acts (.streamDrain p true) s ∧ TakesDesc s p 4 d ∧ destOk (part s p) d = true ∧
      markedQueue s p (destBlock (dDest d)) (nfld (dDest d) 0 6) (destSlot (dDest d)) (nfld (dfld d 16 1) 0 2)
      (part s p).stream.epoch = false) ∧
    (∃ s p d h, Acts (.streamConfig p true) s ∧ TakesDesc s p 5 d ∧ gChip (dSrc d) = s.fabric.chip ∧
      gTierOf (dSrc d) ≠ 3 ∧ bytesInRanges (part s p) (gTierOf (dSrc d)) (gOff (dSrc d)) 0xc0 true = true ∧
      injectorsIdle (part s p) = true ∧ (∀ x ∈ s.tiers.transfers, x.purpose ≠ .config p) ∧
      headerAt s (dSrc d) = (0, h) ∧ headerBad h = false ∧ fld h 1 1 = 1 ∧
      (let dir := readTier s (gTierOf (dSrc d)) (gOff (dSrc d) + 0x40) 128;
      let used := (List.range 16).filter fun j => fld dir (8 * j + 4) 4 ≠ 0; (∀ j ∈ used,
      j < (colsOf (part s p)).length ∧ fld dir (8 * j) 4 + 80 * fld dir (8 * j + 4) 4 ≤ objLen h) ∧
      bytesInRanges (part s p) (gTierOf (dSrc d)) (gOff (dSrc d)) (objLen h) true = true)) ∧
    (∃ s p d k, Acts (.streamEnd p) s ∧ TakesDesc s p 6 d ∧ (part s p).step = some k ∧
      (part s p).stream.active = []) ∧
    (∃ s p d, Acts (.streamFeed p false) s ∧ TakesDesc s p 1 d ∧ nfld (dfld d 1 1) 0 2 ≠ 3 ∧ 0 < dWpf d ∧
      dWpf d ≤ 4095 ∧ 0 < dCpw d) ∧
    (∃ s p d, Acts (.streamStage p false) s ∧ TakesDesc s p 2 d ∧ stageFault s p d ≠ some .program) ∧
    (∃ s p d, Acts (.streamDrain p false) s ∧ TakesDesc s p 4 d) ∧
    (∃ s p d, Acts (.streamConfig p false) s ∧ TakesDesc s p 5 d) :=
  ⟨⟨fed feedD id, 1, feedD, by decide +kernel⟩,
    ⟨fed stageD id, 1, stageD, by decide +kernel⟩,
    ⟨served fun x =>
      { x with step := some aStep, reqs := [aReq], stream := { x.stream with prog := [endD, stageD] } }, 1,
      stageD, 1, by decide +kernel⟩,
    ⟨fed markD fun m => { m with releases := [(9, 5)] }, 1, markD, (9, 5), by decide +kernel⟩,
    ⟨fed drainD id, 1, drainD, by decide +kernel⟩,
    ⟨configured, 1, configD, (headerAt configured (at7 0 (30 * 2097152))).2, by decide +kernel⟩,
    ⟨fed endD id, 1, endD, aStep, by decide +kernel⟩,
    ⟨fed feedD id, 1, feedD, by decide +kernel⟩,
    ⟨fed stageD id, 1, stageD, by decide +kernel⟩,
    ⟨fed drainD id, 1, drainD, by decide +kernel⟩,
    ⟨fed configD id, 1, configD, by decide +kernel⟩⟩

theorem witness_StreamHappeningsComplete :
    (∃ s p w r, Acts (.markReleaseWrite p) s ∧ (part s p).stream.relWrites = w :: r ∧
      bfld w 0 16 ∉ (part s p).stream.usedMarks ∧ (∀ e ∈ (part s p).stream.releases, e.1 ≠ bfld w 0 16)) ∧
    (∃ s p c, Acts (.streamStallExpiry p) s ∧ (part s p).stream.markAt = some c ∧ c + watchdog ≤ s.time.watch ∧
      releaseHere (part s p).stream = false) ∧
    (∃ s p w m, Acts (.firstFillComplete p) s ∧ (part s p).switching = some w ∧
      tfind (part s p).models w.mcid = some m ∧ (part s p).filling = true ∧ (part s p).stream.prog ≠ [] ∧
      (let fill := fillStages (frameBytes * m.wlayer) 0 (part s p).stream.prog.zipIdx; (fill.all fun i =>
      descTaken (part s p).stream i) = true ∧
      ((part s p).stream.active.any fun a => decide (a.idx ∈ fill)) = false)) ∧
    (∃ s p tenant, Acts (.adapterStageComplete p tenant) s ∧ (∃ a ∈ (part s p).adapters, a.tenant = tenant ∧
      a.staged = false) ∧ (∀ t ∈ s.tiers.transfers, t.purpose ≠ .adapter p tenant ∧ ∀ d,
      t.purpose ≠ .adapterRead p tenant d)) :=
  ⟨⟨fed markD fun m => { m with relWrites := [9] }, 1, 9, [], by decide +kernel⟩,
    ⟨{ fed markD (fun m => { m with markAt := some 0 }) with time := { bare.time with watch := watchdog } }, 1, 0,
      by decide +kernel⟩,
    ⟨filled, 1, aSwitch, aModel, by decide +kernel⟩,
    ⟨served fun x => { x with adapters := [{ tenant := 255, staged := false, base := 0, size := 0, stamp := 0 }] },
      1, 255, by decide +kernel, by decide +kernel, by intro t h; cases h⟩⟩

theorem witness_TransfersAndMovesComplete :
    (∃ s t e x, Acts (.transferGrant t e) s ∧ chosen s t e = some x) ∧
    (∃ s id st x c, Acts (.transferCompletion id st) s ∧ findTransfer s id = some x ∧ x.issued = some c ∧
      isOutward x = false ∧ atGate s id = false ∧ count s < c + limitOf x ∧ (let place := placeOf s x;
      (st = 0 ∨ st = 1 ∨ st = memStatus place.1 1))) ∧
    (∃ s id x c, Acts (.transferLate id) s ∧ findTransfer s id = some x ∧ x.issued = some c ∧ atGate s id = false ∧
      c + limitOf x ≤ count s) ∧
    (∃ s g own m, Acts (.moveCopyStart g own) s ∧ (let u := ownMove s g own; findMove u g = some m ∧
      m.copying = false ∧ writeOutstanding u g = false ∧ copyWaits u m = false ∧ enginesBusy u < 32)) ∧
    (∃ s g st m, Acts (.moveSwitch g st) s ∧ findMove s g = some m ∧ m.copying = true ∧ m.switched = false ∧
      copyWaits s m = false ∧ count s < m.limit ∧ copyEnd s m st = 0) ∧
    (∃ s g st m, Acts (.moveSwitch g st) s ∧ findMove s g = some m ∧ m.copying = true ∧ m.switched = false ∧
      copyWaits s m = false ∧ count s < m.limit ∧ copyEnd s m st ≠ 0) ∧
    (∃ s g m, Acts (.moveRelease g) s ∧ findMove s g = some m ∧ m.switched = true ∧
      readOutstanding (freedDone s g) m.srcTier m.srcFrame = false) ∧
    (∃ s g, Acts (.moveRelease g) s ∧ findMove s g = none) ∧
    (∃ s g m, Acts (.moveLimitReached g) s ∧ findMove s g = some m ∧ m.switched = false ∧ m.limit ≤ count s) :=
  ⟨⟨flying none, 0, none, aTransfer none, by decide +kernel⟩,
    ⟨flying (some 100), 4, 0, aTransfer (some 100), 100, by decide +kernel⟩,
    ⟨{ flying (some 0) with time := { bare.time with count := 250 } }, 4, aTransfer (some 0), 0, by decide +kernel⟩,
    ⟨moving aMove, 0, none, aMove, by decide +kernel⟩,
    ⟨moving { aMove with copying := true }, 0, 0, { aMove with copying := true }, by decide +kernel⟩,
    ⟨moving { aMove with copying := true }, 0, 0x4002, { aMove with copying := true }, by decide +kernel⟩,
    ⟨moving { aMove with switched := true }, 0, { aMove with switched := true }, by decide +kernel⟩,
    ⟨up, 0, by decide +kernel⟩,
    ⟨moving { aMove with limit := 100 }, 0, { aMove with limit := 100 }, by decide +kernel⟩⟩

theorem witness_TierHappeningsComplete :
    (∃ s bad, Acts (.htScrub bad) s) ∧
    (∃ s t k u mask r, Acts (.pageRetirementDone t k) s ∧ (slot s t k).copying = (u, mask) :: r) ∧
    (∃ s t k, Acts (.channelFailure t k) s ∧ t ≠ 2 ∧ k < tierSlots s t ∧ (slot s t k).state = 0 ∧
      0 < tierFrames s t) ∧
    (∃ s k, Acts (.channelFailure 2 k) s ∧ k < s.tiers.cxl.length) ∧
    (∃ s e id seg j, Acts (.scanSegmentDone e 0) s ∧ tfind s.tiers.engines e = some (id, seg) ∧
      (let u := modTiers s fun m => { m with engines := tdel m.engines e }; u.tiers.scans.find? (fun j => decide
      (j.id = id)) = some j ∧ (readGlobal u (j.addr.toNat + segBytes * seg) (min segBytes (j.len - segBytes *
      seg))).1 = 0)) ∧
    (∃ s e st id seg j, Acts (.scanSegmentDone e st) s ∧ st / 1024 = 16 ∧ st % 256 ∈ [1, 2, 3] ∧
      tfind s.tiers.engines e = some (id, seg) ∧
      (let u := modTiers s fun m => { m with engines := tdel m.engines e }; u.tiers.scans.find? (fun j => decide
      (j.id = id)) = some j ∧ (readGlobal u (j.addr.toNat + segBytes * seg) (min segBytes (j.len - segBytes *
      seg))).1 = 0)) :=
  ⟨⟨setHt up 8388607 { HtEntry.zero with v := true, part := 1 }, [(8388607, true), (5, false)], by decide +kernel⟩,
    ⟨setSlot up 0 255 { Slot.reset with copying := [(3, 0)], poison := [48] }, 0, 255, 3, 0, [], by decide +kernel⟩,
    ⟨up, 1, 63, by decide +kernel⟩,
    ⟨modTiers up fun m => { m with cxl := [{ port := 0, half := 0, bytes := 2 ^ 30 }] }, 0, by decide +kernel⟩,
    ⟨scanning, 7, 2, 0, aScan, by decide +kernel⟩,
    ⟨scanning, 7, 0x4001, 2, 0, aScan, by decide +kernel⟩⟩

theorem witness_LoadHappeningsComplete :
    (∃ s t g, Acts (.loadWriteIngress t true) s ∧ t.ttype = 5 ∧ firstOfStream s t = true ∧ txnOk t = true ∧
      (let u := modFabric s fun x => { x with ingress := x.ingress.erase t }; admitting u t = some g)) ∧
    (∃ s t, Acts (.loadWriteIngress t false) s ∧ t.ttype = 5 ∧ firstOfStream s t = true ∧ txnOk t = true) ∧
    (∃ s p gid g off bs r, Acts (.loadForward p gid) s ∧
      (part s p).grants.find? (fun g => decide (g.gid = gid) && !g.toFwd.isEmpty) = some g ∧ g.toFwd = (off,
      bs) :: r) ∧
    (∃ s p gid, Acts (.loadGrantExpiry p gid) s) ∧
    (∃ s r, Acts .replaceCopyStart s ∧ s.tiers.replaces.find? (fun r => decide (r.phase = 1) && barrierClear s r) =
      some r ∧ enginesBusy s < 32) ∧
    (∃ s r h, Acts .replaceCopyDone s ∧ s.tiers.replaces.find? (fun r => decide (r.phase = 2)) = some r ∧
      (let a := r.src.toNat; let b := r.dst.toNat; let u := modReplace s r fun r => { r with phase := 3 };
      tierAccess u (gTierOf a) (gOff a) r.len true = 0 ∧ tierAccess u (gTierOf b) (gOff b) r.len true = 0 ∧
      (let v := unverify (copyBytes u (gTierOf a) (gOff a) (gTierOf b) (gOff b) r.len) b;
      let p := rangeOwner v (gTierOf b) (gOff b);
      let w := countTier (countTier v p (gTierOf a) false r.len) p (gTierOf b) true r.len; headerAt w b = (0,
      h)))) ∧
    (∃ s p l x target id m e a t fs, Acts (.migrationStart p l x target) s ∧ (part s p).active = some id ∧
      activeModel (part s p) = some m ∧ e = mapEntry s m l x ∧ a = e.addr.toNat ∧ t = gTierOf target ∧
      fs = framesOf (gOff target) e.len ∧ x < expertsOf m l ∧ isPrimary s p = true ∧ e.v = true ∧
      e.hmem = m.gmem ∧ e.len ≠ 0 ∧ gChip a = s.fabric.chip ∧ gChip target = s.fabric.chip ∧ gTierOf a < 3 ∧
      t < 3 ∧ target % 64 = 0 ∧ isVerified s a = true ∧
      (s.tiers.replaces.any fun r => decide (r.dst.toNat = a)) = false ∧
      ((part s p).migrations.any fun g => decide (g.src.toNat = a)) = false ∧ enginesBusy s < 32 ∧
      targetFree s p t (gOff target) e.len = true ∧ tierAccess s (gTierOf a) (gOff a) e.len true = 0 ∧
      tierAccess s t (gOff target) e.len true = 0) ∧
    (∃ s p g m, Acts (.migrationMapUpdate p) s ∧
      (part s p).migrations.find? (fun g => decide (g.phase = 2)) = some g ∧
      tfind (part s p).models g.model = some m ∧ (part s p).step = none ∧
      bytesInRanges (part s p) 0 (mapOffset m g.layer g.expert) 8 false = true ∧
      tierAccess s 0 (mapOffset m g.layer g.expert) 8 true = 0) ∧
    (∃ s p g, Acts (.migrationRelease p) s ∧
      (part s p).migrations.find? (fun g => decide (g.phase = 3) && !(s.tiers.transfers.any (transferReads
      g.src.toNat g.len))) = some g) :=
  ⟨⟨modFabric granted fun x => { x with ingress := [loadTxn] }, loadTxn, openGrant, by decide +kernel⟩,
    ⟨modFabric granted fun x => { x with ingress := [loadTxn] }, loadTxn, by decide +kernel⟩,
    ⟨granted, 1, 15, openGrant, 64, [1], [], by decide +kernel⟩,
    ⟨granted, 1, 15, by decide +kernel⟩,
    ⟨replacing 1, aReplace 1, by decide +kernel⟩,
    ⟨replacing 2, aReplace 2, (headerAt (replacing 2) (31 * 2097152)).2, by decide +kernel⟩,
    ⟨mapped7, 1, 0, 1, at7 0 (50 * 2097152), 3, aModel, mapEntry mapped7 aModel 0 1, at7 0 (30 * 2097152), 0, [50],
      by decide +kernel⟩,
    ⟨served fun x => { x with migrations := [aMigration 2] }, 1, aMigration 2, aModel, by decide +kernel⟩,
    ⟨served fun x => { x with migrations := [aMigration 3] }, 1, aMigration 3, by decide +kernel⟩⟩

theorem witness_StepRowsComplete :
    (∃ s p k m toks fails, Acts (.stepCommit p toks fails) s ∧ (part s p).step = some k ∧
      activeModel (part s p) = some m ∧ k.fenced = true ∧ failedVerdicts k = [] ∧ missingVerdicts s p k = [] ∧
      (part s p).pub = none ∧ (part s p).twoHomes = false ∧ closeChecked s p = true ∧
      toks.map (fun e => e.1) = sampling s p k) ∧
    (∃ s p sums k, Acts (.publishFence p sums) s ∧ (part s p).step = some k ∧ k.ended = true ∧ k.fenced = false ∧
      stepWrites s p = false ∧ failedVerdicts k = [] ∧
      (let closes := (ridersOf s p).filter fun o => decide (o.kind = 3); (∀ o ∈ closes,
      (sums.lookup o.drawer).isSome = true))) ∧
    (∃ s p k b bs, Acts (.verdictWatchdogExpiry p) s ∧ (part s p).step = some k ∧ missingVerdicts s p k = b :: bs ∧
      k.fenced = true ∧ k.fenceAt + watchdog ≤ s.time.watch) ∧
    (∃ s p, Acts (.deadlineJudgement p) s ∧ (part s p).step = none) ∧
    (∃ s p l id m b, Acts (.biasUpdate p l) s ∧ (part s p).active = some id ∧ tfind (part s p).models id = some m ∧
      tfind m.bal l = some b ∧ (part s p).step = none ∧ b.active = true ∧ b.period ≤ b.gathered) ∧
    (∃ s p addr prog more m t fresh, Acts (.stepBegin p addr prog more) s ∧ activeModel (part s p) = some m ∧
      stepFree s p = true ∧ memberCount s (part s p) = (t, fresh) ∧
      (let rs := (part s p).reqs.filter (ready (part s p) t fresh); let riders := waitingRiders (part s p);
      (rs ≠ [] ∨ riders ≠ [] ∨ closeWaits (part s p) = true) ∧ programFits s p addr prog = true ∧
      moreFits s p more = true ∧ (part (cutProgram s p) p).stream.needConfig = false)) :=
  ⟨⟨fenced fun _ => doneStep, 1, doneStep, aModel, [(0, 17)], [], by decide +kernel⟩,
    ⟨fenced fun k => { k with ended := true }, 1, [], { aStep with ended := true }, by decide +kernel⟩,
    ⟨silent, 1, silentStep, 1, [2, 3, 4, 5, 6, 7], by decide +kernel⟩,
    ⟨up1 fun x => { x with reqs := [aReq] }, 1, by decide +kernel⟩,
    ⟨up1 fun x => { x with models := [(3, ripe)], active := some 3 }, 1, 0, 3, ripe, ripeBal, by decide +kernel⟩,
    ⟨served fun x => { x with ingress := { x.ingress with closes := [(1, 0, 0, 0, 0)] } }, 1, 0x2000000, [endD],
      none, aModel, 100, true, by decide +kernel⟩⟩

theorem witness_ExpertRowsComplete :
    (∃ s msg m i, Acts (.expertDispatchRecv msg) s ∧ msg.mtype = 1 ∧ expertBad msg = false ∧
      (let u := takeMessage s 15 (expertBytes msg); let p := msg.dstPart % 16; isPrimary u p = true ∧
      activeModel (part u p) = some m ∧ memberOf m msg.schip msg.srcPart = some i ∧
      tooOld (part u p) msg.round msg.layer = false ∧ isCancelled (part u p) i msg.round msg.gen = false)) ∧
    (∃ s msg m i, Acts (.expertCloseRecv msg) s ∧ msg.mtype = 4 ∧ expertBad msg = false ∧
      (let u := takeMessage s 15 (expertBytes msg); let p := msg.dstPart % 16; isPrimary u p = true ∧
      activeModel (part u p) = some m ∧ memberOf m msg.schip msg.srcPart = some i ∧
      tooOld (part u p) msg.round msg.layer = false ∧ isCancelled (part u p) i msg.round msg.gen = false)) ∧
    (∃ s msg m i, Acts (.expertCancelRecv msg) s ∧ msg.mtype = 3 ∧ expertBad msg = false ∧
      (let u := takeMessage s 15 (expertBytes msg); let p := msg.dstPart % 16; isPrimary u p = true ∧
      activeModel (part u p) = some m ∧ memberOf m msg.schip msg.srcPart = some i ∧
      roundBefore msg.round (roundOf (part u p)) = false ∧ (i, msg.round,
      msg.gen) ∉ (part u p).ingress.cancels)) ∧
    (∃ s msg m i k d, Acts (.expertReturnRecv msg) s ∧ msg.mtype = 2 ∧ expertBad msg = false ∧
      (let u := takeMessage s 15 (expertBytes msg); let p := msg.dstPart % 16; isPrimary u p = true ∧
      activeModel (part u p) = some m ∧ memberOf m msg.schip msg.srcPart = some i ∧ (part u p).step = some k ∧
      msg.gen = (part u p).gen ∧ msg.round = k.round ∧
      k.dispatches.find? (fun d => decide (d.layer = msg.layer ∧ d.expert = msg.expert ∧
      d.returned = false)) = some d ∧ (k.filters.any fun f => decide (f.layer = msg.layer ∧ f.opened = true ∧
      count u < f.limit)) = true)) ∧
    (∃ s p l k m, Acts (.returnLimitExpiry p l) s ∧ (part s p).step = some k ∧ activeModel (part s p) = some m ∧
      (k.filters.any fun f => decide (f.layer = l ∧ f.opened = true ∧ f.limit ≤ count s)) = true) ∧
    (∃ s p l k m, Acts (.homeCloseLimitExpiry p l) s ∧ (part s p).step = some k ∧ activeModel (part s p) = some m ∧
      (k.filters.any fun f => decide (f.layer = l ∧ f.limit ≤ count s)) = true ∧ (k.round,
      l) ∉ (part s p).ingress.served) ∧
    (∃ s p l work k m, Acts (.expertLayerServe p l work) s ∧ (part s p).step = some k ∧
      activeModel (part s p) = some m ∧ layerReady (part s p) m k.round l = true ∧ (k.round,
      l) ∉ (part s p).ingress.served ∧
      (let ds := (List.range m.gsize).flatMap fun i => (heldFrom (part s p) m k.round l i).take (closeCount (part s p) k.round l i);
      work.length = ds.length ∧ (∀ e ∈ ds.zip work, workOk m e.1 e.2 = true))) :=
  ⟨⟨served id, aMsg 1, aModel, 0, by decide +kernel⟩,
    ⟨served id, aMsg 4, aModel, 0, by decide +kernel⟩,
    ⟨served id, aMsg 3, aModel, 0, by decide +kernel⟩,
    ⟨routedStep 101, aMsg 2, aModel, 0, sentStep 101, aDispatch, by decide +kernel⟩,
    ⟨routedStep 100, 1, 0, sentStep 100, aModel, by decide +kernel⟩,
    ⟨routedStep 100, 1, 0, sentStep 100, aModel, by decide +kernel⟩,
    ⟨readyLayer, 1, 0, [{ beats := 5, tbytes := 6, status := 0, rows := zeros 64 }], aStep, aModel,
      by decide +kernel⟩⟩

theorem witness_TimeAndIntervalRowsComplete :
    (∃ s gap, Acts (.timerefEdge gap) s ∧ s.time.lost = false ∧ (s.time.bridging = false ∨ 20 ≤ gap)) ∧
    (∃ s gap, Acts (.timerefEdge gap) s ∧ s.time.lost = false ∧ s.time.bridging = true ∧ gap < 20) ∧
    (∃ s gap, Acts (.oscillatorAdvance gap) s ∧ (s.time.lost = true ∨ s.time.bridging = true ∨ 60 ≤ gap)) ∧
    (∃ s gap, Acts (.timerefLoss gap) s ∧ s.time.lost = false ∧ 1000 ≤ gap) ∧
    (∃ s present gap, Acts (.timerefReturn present gap) s ∧ s.time.lost = true ∧ 100000 ≤ present) ∧
    (∃ s, Acts .accountingInterval s ∧ s.power.intervalEnd + 25000 ≤ count s) ∧
    (∃ s, Acts .alertPulseEnd s ∧ s.lands.alertLow = true ∧ s.lands.alertUntil ≤ count s) ∧
    (∃ s, Acts .capResponseElapsed s) ∧
    (∃ s, Acts .shedComplete s ∧ s.power.shed = 3 ∧ (∀ x ∈ s.tiers.transfers,
      x.issued.isSome = true → (x.tier = 1 ∨ x.tier = 2) → atGate s x.id = true)) ∧
    (∃ s, Acts .unshedComplete s ∧ s.power.shed = 4) :=
  ⟨⟨up, 40, by decide +kernel⟩,
    ⟨lost fun t => { t with bridging := true }, 10, by decide +kernel⟩,
    ⟨up, 60, by decide +kernel⟩,
    ⟨up, 1000, by decide +kernel⟩,
    ⟨lost fun t => { t with lost := true }, 100000, 19, by decide +kernel⟩,
    ⟨late up 25000, by decide +kernel⟩,
    ⟨modLands up fun l => { l with alertLow := true, alertUntil := 100 }, by decide +kernel⟩,
    ⟨powered fun w => { w with capWait := [(cmd 0x601 255 [], 100, 500)] }, by decide +kernel⟩,
    ⟨powered fun w => { w with shed := 3 }, by decide +kernel⟩,
    ⟨powered fun w => { w with shed := 4 }, by decide +kernel⟩⟩

theorem witness_PowerAndThermalRowsComplete :
    (∃ s rails above, Acts (.powerSample rails above) s ∧ rails.length = 13 ∧ count s % 25 = 0 ∧
      s.power.sampledAt < count s ∧ overRamp rails s = false ∧ overLimit rails s = false) ∧
    (∃ s die up answered, Acts (.coreVoltageStep die up answered) s ∧ s.power.avsStopped.getLsbD die = false ∧
      (let v := if die = 0 then s.power.vcw else s.power.vce; let new := if up = true then v + 5 else v - 5;
      650 ≤ new ∧ new ≤ 850 ∧ (∀ c, tfind s.power.lastVolt die = some c → c + 2500 ≤ count s) ∧
      (up = true ∨ (s.power.limited = true ∧ worn s die = false)))) ∧
    (∃ s held, Acts (.brakeAssert held) s ∧ 25 ≤ held ∧ s.lands.phase ≠ 0) ∧
    (∃ s, Acts .brakeRelease s) ∧
    (∃ s w e t, Acts (.thermalSample (w, w) (e, e) t) s ∧ reaches [w, e] t 100 95 = true ∧ reaches [w,
      e] t 105 100 = false ∧ s.power.stage = 0 ∧ s.power.entryHolds = false) ∧
    (∃ s w e t, Acts (.thermalSample w e t) s) ∧
    (∃ s, Acts .thermalLimitStep s ∧ s.power.thermOn = true ∧ s.power.stage ≠ 3 ∧
      (s.power.entryHolds = true → count s < s.power.thermStep + 25000) ∧ s.power.leaveHolds = true ∧
      s.power.thermStep + 250000 ≤ count s) ∧
    (∃ s, Acts .thermalLimitStep s ∧ s.power.thermOn = true ∧ s.power.stage ≠ 3 ∧ s.power.entryHolds = true ∧
      s.power.thermStep + 25000 ≤ count s) ∧
    (∃ s die t, Acts (.thermalTrip die t) s ∧ 16 * (if die then 115 else 110) ≤ t ∧ s.boot.safe = false) ∧
    (∃ s m u, Acts (.orphanCapApply m) s ∧ (mgmtOf s m).lost = true ∧ (mgmtOf s m).lostAt + 250000000 ≤ count s ∧
      (if m = 1 then s.power.orphA else s.power.orphB) = false ∧
      u = modPower s (fun w => if m = 1 then { w with orphA := true } else { w with orphB := true })) :=
  ⟨⟨up, rails13, true, by decide +kernel⟩,
    ⟨late up 2500, 0, true, true, by decide +kernel⟩,
    ⟨up, 25, by decide +kernel⟩,
    ⟨up, by decide +kernel⟩,
    ⟨up, 1600, 1600, [1590, 1500], by decide +kernel⟩,
    ⟨up, (1600, 1700), (1600, 1600), [1500], by decide +kernel⟩,
    ⟨late (powered fun w => { w with thermOn := true, leaveHolds := true }) 250000, by decide +kernel⟩,
    ⟨late (powered fun w => { w with thermOn := true, entryHolds := true }) 25000, by decide +kernel⟩,
    ⟨up, true, 1840, by decide +kernel⟩,
    ⟨late (managed fun x => { x with lost := true }) 250000000, 2,
      modPower (late (managed fun x => { x with lost := true }) 250000000) fun w => { w with orphB := true },
      by decide +kernel⟩⟩

theorem witness_ManagementRowsComplete :
    (∃ s port a, Acts (.entdaa port a) s ∧ portAnswers s port = true ∧ (mgmtOf s port).dynAddr = none) ∧
    (∃ s port a, Acts (.setdasa port (staticAddr s) a) s ∧ portAnswers s port = true ∧
      (mgmtOf s port).dynAddr = none) ∧
    (∃ s port op eid, Acts (.setEndpointId port op eid) s ∧ portAnswers s port = true ∧ op ≤ 1 ∧ eid ≠ 0 ∧
      eid ≠ 255) ∧
    (∃ s port, Acts (.getEndpointId port) s ∧ portAnswers s port = true) ∧
    (∃ s port t, Acts (.getMctpVersionSupport port t) s ∧ portAnswers s port = true ∧ knownType t = true) ∧
    (∃ s port, Acts (.getMessageTypeSupport port) s ∧ portAnswers s port = true) ∧
    (∃ s port code, Acts (.mctpUnsupportedControl port code) s ∧ portAnswers s port = true ∧ code ∉ [1, 2, 4, 5]) ∧
    (∃ s m, Acts (.rackManagerLost m) s ∧ (mgmtOf s m).enabled = true ∧ (mgmtOf s m).lost = false ∧
      (mgmtOf s m).lastMsg + 12500000 ≤ count s) :=
  ⟨⟨managed id, 1, 127, by decide +kernel⟩,
    ⟨managed id, 2, 8, by decide +kernel⟩,
    ⟨managed id, 1, 1, 254, by decide +kernel⟩,
    ⟨managed id, 2, by decide +kernel⟩,
    ⟨managed id, 1, 0x7f, by decide +kernel⟩,
    ⟨managed id, 2, by decide +kernel⟩,
    ⟨managed id, 1, 3, by decide +kernel⟩,
    ⟨late (managed id) 12500000, 1, by decide +kernel⟩⟩

theorem witness_HostPortRowsComplete :
    (∃ s info, Acts (.iberaineStatePass info) s ∧ (link s 18).st = .light ∧ s.power.good.getLsbD 10 = true ∧
      s.power.good.getLsbD 11 = true ∧ 2 ≤ (threeLanes info.lanes).length) ∧
    (∃ s info, Acts (.iberaineStatePass info) s ∧ (link s 18).st = .lane ∧ s.power.good.getLsbD 10 = true ∧
      s.power.good.getLsbD 11 = true ∧ count s < (link s 18).since + 125000) ∧
    (∃ s info, Acts (.iberaineStatePass info) s ∧ (link s 18).st = .power ∧ s.power.good.getLsbD 10 = true ∧
      s.power.good.getLsbD 11 = true ∧ count s < (link s 18).since + 250000 ∧ info.pass = true) ∧
    (∃ s info w r ls sp, Acts (.iberaineStatePass info) s ∧ (link s 18).st = .rate ∧
      s.power.good.getLsbD 10 = true ∧ s.power.good.getLsbD 11 = true ∧ count s < (link s 18).since + 250000 ∧
      iberaineChoice (threeLanes (((link s 18).goods[0]?).elim 0 fun g => g.2)) (threeLanes
      ((info.good[1]?).getD 0)) = some (w, r, ls, sp)) ∧
    (∃ s info, Acts (.iberaineStatePass info) s ∧ (link s 18).st = .version ∧ s.power.good.getLsbD 10 = true ∧
      s.power.good.getLsbD 11 = true ∧ count s < (link s 18).since + 25000) ∧
    (∃ s n, Acts .iberaineStateLimit s ∧ iberaineLimit (link s 18).st = some n ∧ (link s 18).since + n ≤ count s) ∧
    (∃ s, Acts .iberaineLightRetry s ∧ s.fabric.versionFail = true ∧ s.fabric.lightAt + 25000000 ≤ count s) ∧
    (∃ s port pkt, Acts (.commandPacketArrival port pkt) s ∧ portOpen s port = true ∧ (port = 1 ∨ port = 2) ∧
      32 ≤ pkt.length ∧ headerCheck (managerSeen s port) port pkt = 0) ∧
    (∃ s pkt, Acts (.commandPacketArrival 0 pkt) s ∧ portOpen s 0 = true ∧
      (s.boot.ready = true ∨ fld pkt 0 1 ≠ 0xb1) ∧ 32 ≤ pkt.length ∧
      headerCheck (takeMessage s 16 pkt) 0 pkt = 0) ∧
    (∃ s pkt t, Acts (.commandPacketArrival 3 pkt) s ∧ portOpen s 3 = true ∧ cmdMessage s pkt = some t ∧
      fromTwin s t = true ∧
      (let u := modFabric s fun b => { b with ingress := dropMessage (streamKey t) b.ingress }; 32 ≤ pkt.length
      ∧ headerCheck u 3 pkt = 0)) ∧
    (∃ s p pkg c st detail body t, Begins (.mirrorCmd p pkg) s p c ∧ c.opc = 0x0702 ∧
      innerBegin pkg c (taken s p c) = some (st, detail, body, t) ∧ (innerCmd c).plen + 32 = c.plen) :=
  ⟨⟨iber .light 0, { lanes := 3, good := [], versions := 0, pass := true }, by decide +kernel⟩,
    ⟨iber .lane 0, { lanes := 3, good := [3], versions := 0, pass := true }, by decide +kernel⟩,
    ⟨iber .power 0, { lanes := 3, good := [], versions := 0, pass := true }, by decide +kernel⟩,
    ⟨modLink (iber .rate 0) 18 fun x => { x with goods := [(1, 3)] },
      { lanes := 3, good := [0, 1], versions := 0, pass := true }, 2, 2, [0, 1], 5, by decide +kernel⟩,
    ⟨iber .version 0, { lanes := 3, good := [], versions := 2, pass := true }, by decide +kernel⟩,
    ⟨late (iber .version 0) 25000, 25000, by decide +kernel⟩,
    ⟨late (modFabric up fun f => { f with versionFail := true }) 25000000, by decide +kernel⟩,
    ⟨up, 2, echoB, by decide +kernel⟩,
    ⟨modLink up 18 (fun x => { x with st := .up }), echoHost, by decide +kernel⟩,
    ⟨nineSent, fromNine, nineTxn, by decide +kernel⟩,
    ⟨asks mirror1 mirrorSeed, 1, { vocab := 0, layers := [] }, mirrorSeed, 0, 0, [],
      modPart mirrorAt 1 fun x => { x with seed := 77 }, by decide +kernel⟩⟩

theorem witness_RemoteRowsComplete :
    (∃ s t, Acts (.remoteRead t true) s ∧ t.ttype = 1 ∧ firstOfStream s t = true ∧ txnOk t = true ∧
      sameUnitOpen s t = false ∧ remoteAllowed (modFabric s fun f => { f with ingress := f.ingress.erase t }) t
      = true) ∧
    (∃ s t, Acts (.remoteWrite t true) s ∧ t.ttype = 2 ∧ firstOfStream s t = true ∧ txnOk t = true ∧
      sameUnitOpen s t = false ∧ remoteAllowed (modFabric s fun f => { f with ingress := f.ingress.erase t }) t
      = true) ∧
    (∃ s t, Acts (.remoteAtomic t true) s ∧ t.ttype = 3 ∧ firstOfStream s t = true ∧ txnOk t = true ∧
      sameUnitOpen s t = false ∧ remoteAllowed (modFabric s fun f => { f with ingress := f.ingress.erase t }) t
      = true) ∧
    (∃ s t u, Acts (.remoteFence t) s ∧ t.ttype = 4 ∧ firstOfStream s t = true ∧ txnOk t = true ∧
      (s.fabric.remoteOpen.any fun r => decide (streamKey r = streamKey t)) = false ∧
      u = modFabric s (fun f => { f with ingress := f.ingress.erase t }) ∧ defined u t.dstPart = true ∧
      remoteSource (part u t.dstPart) t = true) ∧
    (∃ s t i, ((i = .remoteRead t false ∧ t.ttype = 1) ∨ (i = .remoteWrite t false ∧
      t.ttype = 2) ∨ (i = .remoteAtomic t false ∧ t.ttype = 3)) ∧ Acts i s ∧ firstOfStream s t = true ∧
      txnOk t = true ∧ sameUnitOpen s t = false) ∧
    (∃ s t u x, Acts (.readRsp t) s ∧ t.ttype = 0x81 ∧ firstOfStream s t = true ∧ txnOk t = true ∧
      u = modFabric s (fun f => { f with ingress := f.ingress.erase t }) ∧ answered u t = some x ∧
      t.len = x.len) ∧
    (∃ s t u x, Acts (.writeCpl t) s ∧ t.ttype = 0x82 ∧ firstOfStream s t = true ∧ txnOk t = true ∧
      u = modFabric s (fun f => { f with ingress := f.ingress.erase t }) ∧ answered u t = some x) ∧
    (∃ s t u x, Acts (.atomicRsp t) s ∧ t.ttype = 0x83 ∧ firstOfStream s t = true ∧ txnOk t = true ∧
      u = modFabric s (fun f => { f with ingress := f.ingress.erase t }) ∧ answered u t = some x) ∧
    (∃ s t u x, Acts (.fenceCpl t) s ∧ t.ttype = 0x84 ∧ firstOfStream s t = true ∧ txnOk t = true ∧
      u = modFabric s (fun f => { f with ingress := f.ingress.erase t }) ∧ answered u t = some x) :=
  ⟨⟨arrived 1, aTxn 1, by decide +kernel⟩,
    ⟨arrived 2, aTxn 2, by decide +kernel⟩,
    ⟨arrived 3, aTxn 3, by decide +kernel⟩,
    ⟨arrived 4, aTxn 4, emptied (arrived 4) (aTxn 4), by decide +kernel⟩,
    ⟨arrived 3, aTxn 3, .remoteAtomic (aTxn 3) false, by decide +kernel⟩,
    ⟨replied 1, aTxn 129, emptied (replied 1) (aTxn 129), outwards 1, by decide +kernel⟩,
    ⟨replied 2, aTxn 130, emptied (replied 2) (aTxn 130), outwards 2, by decide +kernel⟩,
    ⟨replied 3, aTxn 0x83, emptied (replied 3) (aTxn 0x83), outwards 3, by decide +kernel⟩,
    ⟨replied 4, aTxn 132, emptied (replied 4) (aTxn 132), outwards 4, by decide +kernel⟩⟩

theorem witness_SupplyRowsComplete :
    (∃ s straps, Acts (.resetNRise straps) s ∧ s.boot.resetN = false ∧ mgmtPowered s = true) ∧
    (∃ s, Acts .resetNFall s) ∧
    (∃ s, Acts .trainPhaseStart s ∧ s.lands.phase = 0 ∧ s.boot.resetN = true ∧ mgmtPowered s = true ∧
      s.lands.sampledAt + 250 ≤ count s) ∧
    (∃ s rail straps, Acts (.supplyGood rail straps) s ∧ s.power.good.getLsbD rail = false) ∧
    (∃ s rail n u, Acts (.railLoss rail) s ∧ s.power.good.getLsbD rail = true ∧ rail ≠ 3 ∧
      (let v := loseContent rail (modPower s fun w => { w with good := w.good &&& ~~~(1#13 <<< rail) });
      v.power.good.getLsbD 3 = true ∧ v.boot.resetN = true ∧
      recordFault (modPower v fun w => { w with lostRails := w.lostRails ||| (1#13 <<< rail) }) 20 0xff 0xffff 0
      rail 0 [] none = (n, u))) ∧
    (∃ s rail, Acts (.railLoss rail) s ∧ s.power.good.getLsbD rail = true ∧ rail ≠ 3 ∧
      (let v := loseContent rail (modPower s fun w => { w with good := w.good &&& ~~~(1#13 <<< rail) });
      (v.power.good.getLsbD 3 = false ∨ v.boot.resetN = false))) ∧
    (∃ s, Acts (.railLoss 3) s ∧ s.power.good.getLsbD 3 = true) ∧
    (∃ s n u, Acts (.railLoss 8) s ∧ s.power.good.getLsbD 8 = true ∧ s.power.good.getLsbD 3 = true ∧
      s.boot.resetN = true ∧ recordFault (modPower s fun w =>
      { w with good := w.good &&& ~~~(1#13 <<< 8), lostRails := w.lostRails ||| (1#13 <<< 8) }) 20 0xff 0xffff 0
      8 0 [] none = (n, u)) :=
  ⟨⟨inResetS, 0, by decide +kernel⟩,
    ⟨up, by decide +kernel⟩,
    ⟨modLands (late up 250) fun l => { l with phase := 0 }, by decide +kernel⟩,
    ⟨modPower up (fun w => { w with good := 8 }), 0, 0, by decide +kernel⟩,
    ⟨up, 0, (lostOne 0).1, (lostOne 0).2, by decide +kernel⟩,
    ⟨modPower up (fun w => { w with good := 1 }), 0, by decide +kernel⟩,
    ⟨up, by decide +kernel⟩,
    ⟨up, (lostOne 8).1, (lostOne 8).2, by decide +kernel⟩⟩

theorem witness_StartupPhasesComplete :
    (∃ s rom sram bad, Acts (.startupSelfTest rom sram bad) s ∧ s.boot.safe = false ∧ phaseDone s .a = false) ∧
    (∃ s, Acts .startupIdentity s ∧ s.boot.safe = false ∧ phaseDone s .b = false ∧ phaseDone s .a = true) ∧
    (∃ s, Acts .startupManagement s ∧ s.boot.safe = false ∧ phaseDone s .c = false ∧ phaseDone s .b = true) ∧
    (∃ s segs vs helper, Acts (.startupDomains segs vs helper) s ∧ s.boot.safe = false ∧ phaseDone s .d = false ∧
      phaseDone s .c = true ∧ s.power.good = BitVec.allOnes 13) ∧
    (∃ s rates b0 b1 caps, Acts (.startupMemory rates b0 b1 caps) s ∧ s.boot.safe = false ∧ phaseDone s .h = false ∧
      phaseDone s .d = true) ∧
    (∃ s ready, Acts (.startupTier2 ready) s ∧ s.boot.safe = false ∧ phaseDone s .k = false ∧ phaseDone s .d = true) ∧
    (∃ s, Acts .startupIberaine s ∧ s.boot.safe = false ∧ phaseDone s .b = true ∧ (link s 18).st = .down) ∧
    (∃ s, Acts .startupIberaine s ∧ s.boot.safe = false ∧ phaseDone s .b = true ∧ phaseDone s .e = false ∧
      (link s 18).st = .up) :=
  ⟨⟨starting [] id, true, true, [], by decide +kernel⟩,
    ⟨starting [.a] id, by decide +kernel⟩,
    ⟨starting [.a, .b] id, by decide +kernel⟩,
    ⟨starting [.a, .b, .c] id, [], [], false, by decide +kernel⟩,
    ⟨starting [.d] id, List.replicate 8 64, [], [], List.replicate 64 (2 ^ 35), by decide +kernel⟩,
    ⟨starting [.d] id, [], by decide +kernel⟩,
    ⟨starting [.a, .b] id, by decide +kernel⟩,
    ⟨modLink (starting [.a, .b] id) 18 fun x => { x with st := .up }, by decide +kernel⟩⟩

theorem witness_BootRowsComplete :
    (∃ s, Acts .bootExchangeHello s ∧ phaseDone s .e = true ∧ s.boot.hello = false ∧ s.boot.ready = false ∧
      s.boot.safe = false) ∧
    (∃ s pkt, Acts (.bootImagePiece pkt) s ∧ portOpen s 0 = true ∧ s.boot.ready = false ∧ isBoot pkt = true ∧
      bootType pkt = 3) ∧
    (∃ s pkt, Acts (.bootFabcfgPiece pkt) s ∧ portOpen s 0 = true ∧ s.boot.ready = false ∧ isBoot pkt = true ∧
      bootType pkt = 4) ∧
    (∃ s pkt, Acts (.bootRetirePiece pkt) s ∧ portOpen s 0 = true ∧ s.boot.ready = false ∧ isBoot pkt = true ∧
      bootType pkt = 5) ∧
    (∃ s pkt, Acts (.bootStart pkt) s ∧ portOpen s 0 = true ∧ s.boot.ready = false ∧ isBoot pkt = true ∧
      bootType pkt = 7) ∧
    (∃ s, Acts .startupVerification s ∧ s.boot.start = true ∧ s.boot.safe = false ∧ s.boot.ready = false ∧
      s.boot.imageOk = true ∧ s.boot.fabOk = true ∧ s.boot.retireOk = true ∧ Phase.g ∉ s.boot.done) ∧
    (∃ s, Acts .startupFabric s ∧ s.boot.safe = false ∧ phaseDone s .d = true ∧ s.fabric.accepted = true ∧
      s.lands.phase = 1 ∧ (enabledLinks s).filter (fun l => decide ((link s l).st = .down)) ≠ []) ∧
    (∃ s, Acts .startupServiceFirmware s ∧ s.boot.safe = false ∧ phaseDone s .l = false ∧ phaseDone s .g = true ∧
      phaseDone s .h = true) ∧
    (∃ s, Acts .startupReady s ∧ s.boot.safe = false ∧ phaseDone s .m = false ∧ phaseDone s .j = true ∧
      phaseDone s .k = true ∧ phaseDone s .l = true) :=
  ⟨⟨ported id, by decide +kernel⟩,
    ⟨ported id, booting 3, by decide +kernel⟩,
    ⟨ported id, booting 4, by decide +kernel⟩,
    ⟨ported id, booting 5, by decide +kernel⟩,
    ⟨ported id, booting 7, by decide +kernel⟩,
    ⟨starting [.e] fun b => { b with start := true, imageOk := true, fabOk := true, retireOk := true },
      by decide +kernel⟩,
    ⟨modFabric (modLands (starting [.d] id) fun l => { l with phase := 1 }) fun f =>
      { f with ents := [{ en := true, glb := false, port := 0, maxr := 0, pchip := 1, plink := 1 }] },
      by decide +kernel⟩,
    ⟨starting [.g, .h] id, by decide +kernel⟩,
    ⟨starting [.j, .k, .l] id, by decide +kernel⟩⟩

theorem witness_RecoveryRowsComplete :
    (∃ s, Acts .lockstepDivergence s ∧ phaseDone s .a = true ∧ s.boot.stopped = false ∧ s.boot.safe = false) ∧
    (∃ s a b, Acts (.controlRecovery a b) s ∧ s.boot.stopped = true ∧ s.boot.safe = false ∧ ¬ (a = true ∧
      b = true) ∧ (a = b ∨ s.boot.spareUsed = false)) ∧
    (∃ s a b, Acts (.controlRecovery a b) s ∧ s.boot.stopped = true ∧ s.boot.safe = false ∧ ((a = true ∧
      b = true) ∨ (a ≠ b ∧ s.boot.spareUsed = true))) ∧
    (∃ s w e bs, Acts (.telemetryRenewal w e bs) s) :=
  ⟨⟨up, by decide +kernel⟩,
    ⟨modBoot bare (fun b => { b with stopped := true, sfRunning := false }), false, true, by decide +kernel⟩,
    ⟨modBoot bare (fun b => { b with stopped := true, sfRunning := false }), true, true, by decide +kernel⟩,
    ⟨up, 400, 400, [], by decide +kernel⟩⟩

theorem witness_SelfTestAndSubstitutionRowsComplete :
    (∃ s u, Acts (.bistSliceStart u) s ∧ s.boot.ready = true ∧ s.boot.safe = false ∧ (∀ x ∈ s.safety.slices,
      trackOf x.unit ≠ trackOf u) ∧ inTestRange s u = true ∧ isolable s u = true ∧ sliceTurn s u = true) ∧
    (∃ s u bad x, Acts (.bistSliceEnd u true bad) s ∧ s.safety.slices.find? (fun x => decide (x.unit = u)) = some x) ∧
    (∃ s u bad x, Acts (.bistSliceEnd u false bad) s ∧
      s.safety.slices.find? (fun x => decide (x.unit = u)) = some x) ∧
    (∃ s u x, Acts (.bistSliceAbort u) s ∧ s.safety.slices.find? (fun x => decide (x.unit = u)) = some x ∧
      inTestRange s u = false) ∧
    (∃ s u, Acts (.bistOverdue u) s ∧ s.boot.ready = true ∧ u ∉ s.safety.overdue ∧ inSweep s u = true ∧
      ((s.safety.passes.find? fun e => decide (e.1 = u)).map fun e => e.2).getD s.safety.bistSince + 45000000000
      ≤ count s) ∧
    (∃ s ps, Acts (.wearGaugeRenewal ps) s) ∧
    (∃ s d r g c ps, Acts (.substitutionSchedule d r g) s ∧ s.boot.ready = true ∧ s.boot.safe = false ∧
      s.safety.subst = none ∧ mapped s d r g = true ∧ replacement s d r g = some c ∧ ps = affected s d r g c) ∧
    (∃ s x ts u, Acts .substitutionSave s ∧ s.safety.subst = some x ∧ x.phase = 1 ∧
      ts = movingTiles s x.die x.row x.seg x.repl ∧ allStopped s x.parts = true ∧ (∀ t ∈ ts,
      holdsToken (tile s t) = false ∧ epochEnded (tile s t) = true) ∧
      u = x.parts.foldl (fun s p => saveRecord (dropAppended s p) p ((part s p).pre = .evicted)) s) ∧
    (∃ s x, Acts .substitutionMapWrite s ∧ s.safety.subst = some x ∧ x.phase = 2 ∧
      replacement s x.die x.row x.seg = some x.repl) ∧
    (∃ s x, Acts .substitutionRestoreDone s ∧ s.safety.subst = some x ∧ x.phase = 3) ∧
    (∃ s d r g c, Acts (.forcedSubstitution d r g) s ∧ s.boot.ready = true ∧ s.boot.safe = false ∧
      s.safety.subst = none ∧ mapped s d r g = true ∧ mustGo s (.segment d r g) = true ∧
      replacement s d r g = some c ∧ (∀ p ∈ affected s d r g c, prePhase (part s p) = false) ∧
      (let ps := (affected s d r g c).filter fun p => decide ((part s p).pre ≠ .evicted);
      let u := ps.foldl evictBegin s; (∀ p ∈ ps, stillFlying u p = false))) ∧
    (∃ s b image pc, Acts (.veSubstitution b image pc) s ∧ s.boot.ready = true ∧ s.boot.safe = false ∧
      tierAccess s 0 image 262144 false = 0 ∧ spareVeFree s (b / 64) = true ∧ mustGo s (.ve b) = false ∧
      allStopped s (partOfBlock s b).toList = true ∧ (∀ t ∈ tilesOfBlock b, holdsToken (tile s t) = false ∧
      epochEnded (tile s t) = true)) ∧
    (∃ s b image pc, Acts (.veSubstitution b image pc) s ∧ s.boot.ready = true ∧ s.boot.safe = false ∧
      tierAccess s 0 image 262144 false = 0 ∧ spareVeFree s (b / 64) = true ∧ mustGo s (.ve b) = true ∧
      (∀ p ∈ partOfBlock s b, prePhase (part s p) = false) ∧
      (let ps := (partOfBlock s b).toList.filter fun p => decide ((part s p).pre ≠ .evicted);
      let u := ps.foldl evictBegin s; (∀ p ∈ ps, stillFlying u p = false))) :=
  ⟨⟨warm, .segment 0 7 65, by decide +kernel⟩,
    ⟨sliced, .segment 0 7 65, [], aSlice, by decide +kernel⟩,
    ⟨sliced, .segment 0 7 65, [], aSlice, by decide +kernel⟩,
    ⟨sliced, .segment 0 7 65, aSlice, by decide +kernel⟩,
    ⟨late up 45000000000, .tier0 63, by decide +kernel⟩,
    ⟨up, [(.segment 0 0 0, 14)], by decide +kernel⟩,
    ⟨up, 0, 7, 3, 64, [1], by decide +kernel⟩,
    ⟨substing 1, aSubst 1, movingTiles (substing 1) 0 7 3 64, saveRecord (dropAppended (substing 1) 1) 1 false,
      by decide +kernel⟩,
    ⟨substing 2, aSubst 2, by decide +kernel⟩,
    ⟨substing 3, aSubst 3, by decide +kernel⟩,
    ⟨segBad7, 0, 7, 3, 64, by decide +kernel⟩,
    ⟨up, 127, 0, 32767, by decide +kernel⟩,
    ⟨badVe127, 127, 0, 32767, by decide +kernel⟩⟩

theorem witness_TrainingRowsComplete :
    (∃ s l info, Acts (.linkTrainStatePass l info) s ∧ l ≠ 18 ∧ (link s l).st = .sideband ∧
      count s < (link s l).since + 1250000 ∧ (link s l).sideOk = true) ∧
    (∃ s l info, Acts (.linkTrainStatePass l info) s ∧ l ≠ 18 ∧ (link s l).st = .detect ∧
      count s < (link s l).since + 25000 ∧ trainable (link s l) info.lanes ≠ []) ∧
    (∃ s l info, Acts (.linkTrainStatePass l info) s ∧ l ≠ 18 ∧ (link s l).st = .lock ∧
      count s < (link s l).since + 50000 ∧ info.pass = true) ∧
    (∃ s l info, Acts (.linkTrainStatePass l info) s ∧ l ≠ 18 ∧ (link s l).st = .equalise ∧
      count s < (link s l).since + 250000 ∧ info.pass = true) ∧
    (∃ s l info found gs, Acts (.linkTrainStatePass l info) s ∧ l ≠ 18 ∧ (link s l).st = .qualify ∧
      count s < (link s l).since + 250000 ∧ found = (link s l).lanes.foldl (fun (b : BitVec 5) n => b |||
      ((info.good[0]?).getD 0 &&& (1#5 <<< n))) 0 ∧ gs = (link s l).goods ++ [((link s l).rateIdx, found)]) ∧
    (∃ s l info, Acts (.linkTrainStatePass l info) s ∧ l ≠ 18 ∧ (link s l).st = .select) ∧
    (∃ s l n, Acts (.linkTrainLimit l) s ∧ l ≠ 18 ∧ trainLimit (link s l).st = some n ∧
      (link s l).since + n ≤ count s) ∧
    (∃ s l e, Acts (.sidebandSend l) s ∧ s.fabric.ents[l]? = some e ∧ (link s l).st = .sideband ∧
      s.lands.phase = 1 ∧ ((link s l).lastSent < (link s l).since ∨ (link s l).lastSent + 25000 ≤ count s)) ∧
    (∃ s m l e, Acts (.sidebandRecv m) s ∧ s.lands.phase = 1 ∧ sideBad s m = false ∧ l = fld m 4 1 % 32 ∧
      s.fabric.ents[l]? = some e ∧ (link s l).st = .sideband ∧ fld m 6 2 % 16384 = e.pchip ∧
      fld m 5 1 % 32 = e.plink) :=
  ⟨⟨trains .sideband (fun x => { x with sideOk := true }), 0,
      { lanes := 31, good := [31, 31, 31], versions := 0, pass := true }, by decide +kernel⟩,
    ⟨trains .detect id, 0, { lanes := 31, good := [31, 31, 31], versions := 0, pass := true }, by decide +kernel⟩,
    ⟨trains .lock id, 0, { lanes := 31, good := [31, 31, 31], versions := 0, pass := true }, by decide +kernel⟩,
    ⟨trains .equalise id, 0, { lanes := 31, good := [31, 31, 31], versions := 0, pass := true }, by decide +kernel⟩,
    ⟨trains .qualify (fun x => { x with lanes := [0, 1, 2, 3] }), 0,
      { lanes := 31, good := [31, 31, 31], versions := 0, pass := true }, 15, [(0, 15)], by decide +kernel⟩,
    ⟨trains .select (fun x => { x with goods := [(2, 15)] }), 0,
      { lanes := 31, good := [31, 31, 31], versions := 0, pass := true }, by decide +kernel⟩,
    ⟨late (modLink up 0 fun x => { x with st := .detect }) 25000, 0, 25000, by decide +kernel⟩,
    ⟨sideState, 5, anEnt, by decide +kernel⟩,
    ⟨sideState, partnerMsg, 5, anEnt, by decide +kernel⟩⟩

theorem witness_FrameRowsComplete :
    (∃ s l lanes f u, Acts (.dataFrameRecv l lanes) s ∧ isUp s l = true ∧ received (link s l) lanes = some f ∧
      fType f = 1 ∧ frameValid l f = true ∧ u = takeAck s l (fAseq f) ∧ fSeq f = (link u l).expSeq) ∧
    (∃ s l lanes, Acts (.dataFrameRecv l lanes) s ∧ isUp s l = true ∧ received (link s l) lanes = none) ∧
    (∃ s l lanes f, Acts (.idleFrameRecv l lanes) s ∧ (isUp s l = true ∨ (link s l).st = .activate) ∧
      received (link s l) lanes = some f ∧ fType f = 0) ∧
    (∃ s l lanes f, Acts (.nakFrameRecv l lanes) s ∧ isUp s l = true ∧ received (link s l) lanes = some f ∧
      fType f = 2) ∧
    (∃ s l ch u x y v p r, Acts (.frameTransmit l ch) s ∧ u = frameOut s ∧ x = link u l ∧ x.st = .up ∧
      sendTurn x = some ch ∧ x.replay.length < 512 ∧ tget [] x.txq ch = (v :: p) :: r ∧
      y = credTaken x (credByte x)) ∧
    (∃ s l, Acts (.idleFrameTimer l) s ∧ (isUp (frameOut s) l = true ∧
      sendTurn (link (frameOut s) l) = none ∨ (link (frameOut s) l).st = .activate)) ∧
    (∃ s l e, Acts (.transactionForward l) s ∧ nextForward s l = some e) :=
  ⟨⟨linked id, 5, brings (frame 1), frame 1, takeAck (linked id) 5 0, by decide +kernel⟩,
    ⟨linked id, 5, [[], [1]], by decide +kernel⟩,
    ⟨linked id, 5, brings (frame 0), frame 0, by decide +kernel⟩,
    ⟨linked id, 5, brings (frame 2), frame 2, by decide +kernel⟩,
    ⟨sends, 5, 5, frameOut sends, sendLink, credTaken sendLink (credByte sendLink), 29, [1], [], by decide +kernel⟩,
    ⟨linked id, 5, by decide +kernel⟩,
    ⟨crossing, 5, crossFrame, by decide +kernel⟩⟩

theorem witness_LaneRowsComplete :
    (∃ s l lane, Acts (.laneLockLoss l lane) s ∧ isUp s l = true) ∧
    (∃ s l lane k n, Acts (.laneErrorInterval l lane k n) s ∧ isUp s l = true ∧ lane ∈ (link s l).lanes ∧
      n < 1000000 * k) ∧
    (∃ s l lanes f, Acts (.laneSwapFrameRecv l lanes) s ∧ isUp s l = true ∧ received (link s l) lanes = some f ∧
      fType f = 3) ∧
    (∃ s l r sp, Acts (.laneSwapEffect l) s ∧ isUp s l = true ∧ (link s l).swap = some (r, sp, true, true)) ∧
    (∃ s l lanes f, Acts (.linkUpFrameRecv l lanes) s ∧ received (link s l) lanes = some f ∧ fType f = 4 ∧
      ((link s l).st = .activate ∧ count s < (link s l).since + 25000 ∨ (link s l).st = .recovery ∧
      count s < (link s l).downAt + 5000 ∧ 0 < (link s l).width)) ∧
    (∃ s l, Acts (.ackProgressTimeout l) s ∧ isUp s l = true ∧ (link s l).replay ≠ [] ∧
      (link s l).progressAt + 250 ≤ count s) ∧
    (∃ s l, Acts (.codewordAlignmentLoss l) s ∧ isUp s l = true) ∧
    (∃ s l, Acts (.fastRecoveryTimeout l) s ∧ (link s l).st = .recovery ∧ (link s l).downAt + 5000 ≤ count s) :=
  ⟨⟨linked id, 5, 4, by decide +kernel⟩,
    ⟨linked fun x => { x with lanes := [4] }, 5, 4, 1, 999999, by decide +kernel⟩,
    ⟨linked id, 5, brings (frame 3), frame 3, by decide +kernel⟩,
    ⟨linked fun x => { x with swap := some (0, 4, true, true) }, 5, 0, 4, by decide +kernel⟩,
    ⟨late (linked fun x => { x with st := .recovery, downAt := 90 }) 100, 5, brings (frame 4), frame 4,
      by decide +kernel⟩,
    ⟨late (linked fun x => { x with replay := [(0, [0])] }) 250, 5, by decide +kernel⟩,
    ⟨linked id, 5, by decide +kernel⟩,
    ⟨late (modLink up 5 fun x => { x with st := .recovery }) 5000, 5, by decide +kernel⟩⟩

theorem witness_PairSetupRowsComplete :
    (∃ s c, Begins .pairSetup s 16 c ∧ c.opc = 0x0701 ∧ s.pair.setting = none) ∧
    (∃ s c, setupBad s c = none ∧ (tfind s.fabric.routes (pf c 0 2 % 16384)).isSome = true ∧
      pf c 0 2 % 16384 ≠ s.fabric.chip ∧ s.pair.early = none) ∧
    (∃ s, Acts .pairSetupMessageSend s ∧ s.pair.setting.isSome = true ∧ s.pair.twinSetup = false ∧
      s.pair.setupLast + 25000 ≤ count s ∧ s.boot.safe = false) ∧
    (∃ s c, Acts .pairSetupTimeout s ∧ s.pair.setting = some c ∧ s.pair.twinSetup = false ∧
      s.pair.setupStart + 25000000 ≤ count s) ∧
    (∃ s m chip u, Acts (.pairSetupRecv m) s ∧ s.boot.safe = false ∧ pairSource s m = some chip ∧
      knownMsg m = true ∧ m.pkind = 1 ∧ u = (if s.pair.on = true ∧
      chip = s.pair.twin then pairSeen (takePair s m) else takePair s m)) ∧
    (∃ s, Acts .syncEndAckTimeout s) ∧
    (∃ s c, Begins .pairEnd s 16 c ∧ c.opc = 0x0703) :=
  ⟨⟨asks routed9 setupCmd, setupCmd, by decide +kernel⟩,
    ⟨taken (asks routed9 setupCmd) 16 setupCmd, setupCmd, by decide +kernel⟩,
    ⟨late (modPair up fun x => { x with setting := some setupCmd }) 25000, by decide +kernel⟩,
    ⟨late (modPair up fun x => { x with setting := some setupCmd }) 25000000, setupCmd, by decide +kernel⟩,
    ⟨twinned id false setupM, setupM, 9, takePair (twinned id false setupM) setupM, by decide +kernel⟩,
    ⟨up, by decide +kernel⟩,
    ⟨asks up (cmd 0x703 255 []), cmd 0x703 255 [], by decide +kernel⟩⟩

theorem witness_MirrorRowsComplete :
    (∃ s m, Acts (.pairAllocRecv m) s ∧ FromTwin s m ∧ m.pkind = 2) ∧
    (∃ s m, Acts (.pairFreeRecv m) s ∧ FromTwin s m ∧ m.pkind = 3) ∧
    (∃ s m, Acts (.pairDataRecv m) s ∧ FromTwin s m ∧ m.pkind = 4) ∧
    (∃ s m, Acts (.pairEntryRecv m) s ∧ FromTwin s m ∧ m.pkind = 5) ∧
    (∃ (s : State) (m : PairMsg) (f : Nat → PairRec → State → Nat × State) (r : PairRec) (rs : List PairRec),
      receiving s m.part = true ∧ m.recs = r :: rs) ∧
    (∃ (s : State) (m : PairMsg) (f : Nat → PairRec → State → Nat × State), isMirror s m.part = true ∧
      receiving s m.part = false) ∧
    (∃ s m, Acts (.pairRecordRecv m) s ∧ gateWaits s m.part = false ∧ FromTwin s m ∧ m.pkind = 6) ∧
    (∃ s m u, Acts (.pairConfirmRecv m) s ∧ FromTwin s m ∧ m.pkind = 8 ∧ isMirror (heard s m) m.part = true ∧
      u = applyRecs m applyCharge (heard s m)) ∧
    (∃ s m, Acts (.pairInvalRecv m) s ∧ FromTwin s m ∧ m.pkind = 10) ∧
    (∃ s m, Acts (.pairSyncBeginRecv m) s ∧ FromTwin s m ∧ m.pkind = 11) ∧
    (∃ s m, Acts (.pairSyncEndRecv m) s ∧ gateWaits s m.part = false ∧ FromTwin s m ∧ m.pkind = 12) ∧
    (∃ s m, Acts (.pairHeartbeatRecv m) s ∧ FromTwin s m ∧ m.pkind = 9) :=
  ⟨⟨(twinned id true allocM), allocM, by decide +kernel⟩,
    ⟨(holds63 (twinned id true freeM)), freeM, by decide +kernel⟩,
    ⟨(holds63 (twinned id true dataM)), dataM, by decide +kernel⟩,
    ⟨(holds63 (twinned id true entryM)), entryM, by decide +kernel⟩,
    ⟨twinned id true allocM, allocM, applyAlloc, .grain 63, [], by decide +kernel⟩,
    ⟨modPart (twinned id true allocM) 1 (fun x => { x with mirrorValid := false }), allocM, applyAlloc,
      by decide +kernel⟩,
    ⟨twinned id true recordM, recordM, by decide +kernel⟩,
    ⟨twinned id true chargeM, chargeM, applyRecs chargeM applyCharge (heard (twinned id true chargeM) chargeM),
      by decide +kernel⟩,
    ⟨twinned id true (aPair 10 []), aPair 10 [], by decide +kernel⟩,
    ⟨twinned id true (aPair 11 []), aPair 11 [], by decide +kernel⟩,
    ⟨syncing1 (aPair 12 []), aPair 12 [], by decide +kernel⟩,
    ⟨twinned id true (aPair 9 []), aPair 9 [], by decide +kernel⟩⟩

theorem witness_PrimaryRowsComplete :
    (∃ s m u, Acts (.pairAckRecv m) s ∧ FromTwin s m ∧ m.pkind = 7 ∧ m.status = 0 ∧
      u = modPart (heard s m) m.part (fun x => { x with acksDue := x.acksDue - 1 }) ∧
      isPrimary u m.part = true ∧ (part u m.part).syncing = true) ∧
    (∃ s m u, Acts (.pairAckRecv m) s ∧ FromTwin s m ∧ m.pkind = 7 ∧
      u = modPart (heard s m) m.part (fun x => { x with acksDue := x.acksDue - 1 }) ∧
      isPrimary u m.part = true ∧ (part u m.part).syncing = false ∧ (part u m.part).paired = true) ∧
    (∃ s p w, Acts (.pairAckTimeout p) s ∧ (part s p).pub = some w ∧ w.sentAt + s.pair.ackCounts ≤ count s ∧
      s.boot.safe = false) ∧
    (∃ s, Acts .pairHeartbeatSend s ∧ s.pair.on = true ∧ s.pair.lastSent + 500 ≤ count s ∧ s.boot.safe = false) ∧
    (∃ s, Acts .heartbeatFrameSend s ∧ s.lands.phase = 2 ∧ s.boot.safe = false ∧ count s % 250 = 0 ∧
      s.pair.lastBeat ≠ count s) ∧
    (∃ s f u, Acts (.heartbeatFrameRecv f) s ∧ s.lands.phase = 2 ∧ s.boot.safe = false ∧ beatValid s f = true ∧
      u = modPair s (fun x =>
      { x with rxSeq := some (nfld f.toNat 48 8), lastFrame := count s, twinP := BitVec.ofNat 16 (nfld f.toNat 32 16), twinM := BitVec.ofNat 16 (nfld f.toNat 16 16), pathLost := x.pathLost && decide (x.lastRecv + 2500 ≤ count s) })) ∧
    (∃ s, Acts .pairPathLoss s ∧ s.pair.on = true ∧ s.pair.failed = false ∧ s.pair.pathLost = false ∧
      s.boot.safe = false ∧ beatsSilent s ≠ linksSilent s) ∧
    (∃ s u, Acts .twinFailure s ∧ s.pair.on = true ∧ s.pair.failed = false ∧ s.boot.safe = false ∧
      beatsSilent s = true ∧ linksSilent s = true ∧
      u = setupEnd (modPair (recordFault s 26 0xff 0xffff 0 0 0 [] none).2 fun x => { x with failed := true })
      0x5201 0) ∧
    (∃ s pkt, Acts (.twinReplyRecv pkt) s ∧ s.pair.on = true ∧ s.boot.safe = false ∧
      (s.fabric.ingress.any fun t => decide (t.strm = 14 ∧ t.ttype = 0x11 ∧ t.schip = s.pair.twin ∧
      collect (streamKey t) s.fabric.ingress = some pkt)) = true) :=
  ⟨⟨acked fun x => { x with syncing := true }, ackM, countedAck (acked fun x => { x with syncing := true }),
      by decide +kernel⟩,
    ⟨acked fun x => { x with paired := true }, ackM, countedAck (acked fun x => { x with paired := true }),
      by decide +kernel⟩,
    ⟨lapsed, 1, aPub, by decide +kernel⟩,
    ⟨paired2 id, by decide +kernel⟩,
    ⟨paired2 fun x => { x with lastBeat := 1 }, by decide +kernel⟩,
    ⟨up, beatFrame 0 0 0, heardBeat, by decide +kernel⟩,
    ⟨paired2 fun x => { x with lastRecv := 1 }, by decide +kernel⟩,
    ⟨paired2 id, setupEnd (modPair (recordFault (paired2 id) 26 0xff 0xffff 0 0 0 [] none).2 fun x =>
      { x with failed := true }) 0x5201 0, by decide +kernel⟩,
    ⟨modFabric (paired2 id) fun f => { f with ingress := [replyTxn] }, [1], by decide +kernel⟩⟩

theorem witness_ScalarAndMaskRowsComplete :
    (∃ s b w x, Acts (.nop b) s ∧ VeReady s b 0x00 w ∧ x = ve s b) ∧
    (∃ s b w x, Acts (.halt b) s ∧ VeReady s b 0x01 w ∧ x = ve s b) ∧
    (∃ s b w x, Acts (.sbnz b) s ∧ VeReady s b 0x02 w ∧ x = ve s b ∧ iA w ≤ 15) ∧
    (∃ s b w x, Acts (.sli b) s ∧ VeReady s b 0x03 w ∧ x = ve s b ∧ iD w ≤ 15) ∧
    (∃ s b w x, Acts (.sadd b) s ∧ VeReady s b 0x04 w ∧ x = ve s b ∧ iD w ≤ 15 ∧ iA w ≤ 15 ∧ iB w ≤ 15) ∧
    (∃ s b w x, Acts (.smul b) s ∧ VeReady s b 0x05 w ∧ x = ve s b ∧ iD w ≤ 15 ∧ iA w ≤ 15 ∧ iB w ≤ 15) ∧
    (∃ s b w x, Acts (.vext b) s ∧ VeReady s b 0x08 w ∧ x = ve s b ∧ iD w ≤ 15) ∧
    (∃ s b w x, Acts (.vcmp b) s ∧ VeReady s b 0x18 w ∧ x = ve s b ∧ iD w ≤ 7 ∧ nfld (iImm w) 0 3 ≤ 4) ∧
    (∃ s b w x, Acts (.mtail b) s ∧ VeReady s b 0x20 w ∧ x = ve s b ∧ iD w ≤ 7 ∧ iA w ≤ 15) ∧
    (∃ s b w x, Acts (.mop b) s ∧ VeReady s b 0x21 w ∧ x = ve s b ∧ iD w ≤ 7 ∧ iA w ≤ 7 ∧ iB w ≤ 7) ∧
    (∃ s b w x, Acts (.mset b) s ∧ VeReady s b 0x22 w ∧ x = ve s b ∧ iD w ≤ 7 ∧ iA w ≤ 15 ∧ iB w ≤ 15) :=
  ⟨⟨veAt (ins 0x0 31 15 15 15 0) id, 2, ins 0x0 31 15 15 15 0,
      Sys2Proof.Machine.ve (veAt (ins 0x0 31 15 15 15 0) id) 2, by decide +kernel⟩,
    ⟨veAt (ins 0x1 31 15 15 15 0) id, 2, ins 0x1 31 15 15 15 0,
      Sys2Proof.Machine.ve (veAt (ins 0x1 31 15 15 15 0) id) 2, by decide +kernel⟩,
    ⟨veAt (ins 0x2 31 15 15 15 0) id, 2, ins 0x2 31 15 15 15 0,
      Sys2Proof.Machine.ve (veAt (ins 0x2 31 15 15 15 0) id) 2, by decide +kernel⟩,
    ⟨veAt (ins 0x3 15 15 15 15 0) id, 2, ins 0x3 15 15 15 15 0,
      Sys2Proof.Machine.ve (veAt (ins 0x3 15 15 15 15 0) id) 2, by decide +kernel⟩,
    ⟨veAt (ins 0x4 15 15 15 15 0) id, 2, ins 0x4 15 15 15 15 0,
      Sys2Proof.Machine.ve (veAt (ins 0x4 15 15 15 15 0) id) 2, by decide +kernel⟩,
    ⟨veAt (ins 0x5 15 15 15 15 0) id, 2, ins 0x5 15 15 15 15 0,
      Sys2Proof.Machine.ve (veAt (ins 0x5 15 15 15 15 0) id) 2, by decide +kernel⟩,
    ⟨veAt (ins 0x8 15 31 15 15 0) id, 2, ins 0x8 15 31 15 15 0,
      Sys2Proof.Machine.ve (veAt (ins 0x8 15 31 15 15 0) id) 2, by decide +kernel⟩,
    ⟨veAt (ins 0x18 7 15 15 15 4) id, 2, ins 0x18 7 15 15 15 4,
      Sys2Proof.Machine.ve (veAt (ins 0x18 7 15 15 15 4) id) 2, by decide +kernel⟩,
    ⟨veAt (ins 0x20 7 15 15 15 0) id, 2, ins 0x20 7 15 15 15 0,
      Sys2Proof.Machine.ve (veAt (ins 0x20 7 15 15 15 0) id) 2, by decide +kernel⟩,
    ⟨veAt (ins 0x21 7 7 7 15 0) id, 2, ins 0x21 7 7 7 15 0, Sys2Proof.Machine.ve (veAt (ins 0x21 7 7 7 15 0) id) 2,
      by decide +kernel⟩,
    ⟨veAt (ins 0x22 7 15 15 15 0) id, 2, ins 0x22 7 15 15 15 0,
      Sys2Proof.Machine.ve (veAt (ins 0x22 7 15 15 15 0) id) 2, by decide +kernel⟩⟩

theorem witness_LaneRowsOfVeComplete :
    (∃ s b w x, Acts (.vbcast b) s ∧ VeReady s b 0x09 w ∧ x = ve s b ∧ iA w ≤ 15) ∧
    (∃ s b w x, Acts (.viota b) s ∧ VeReady s b 0x0a w ∧ x = ve s b) ∧
    (∃ s b w x, Acts (.vadd b) s ∧ VeReady s b 0x10 w ∧ x = ve s b) ∧
    (∃ s b w x, Acts (.vsub b) s ∧ VeReady s b 0x11 w ∧ x = ve s b) ∧
    (∃ s b w x, Acts (.vmul b) s ∧ VeReady s b 0x12 w ∧ x = ve s b) ∧
    (∃ s b w x, Acts (.vfma b) s ∧ VeReady s b 0x13 w ∧ x = ve s b) ∧
    (∃ s b w x, Acts (.vmax b) s ∧ VeReady s b 0x14 w ∧ x = ve s b) ∧
    (∃ s b w x, Acts (.vmin b) s ∧ VeReady s b 0x15 w ∧ x = ve s b) ∧
    (∃ s b w x, Acts (.vabs b) s ∧ VeReady s b 0x16 w ∧ x = ve s b) ∧
    (∃ s b w x, Acts (.vneg b) s ∧ VeReady s b 0x17 w ∧ x = ve s b) ∧
    (∃ s b w x, Acts (.vsel b) s ∧ VeReady s b 0x19 w ∧ x = ve s b) ∧
    (∃ s b w x, Acts (.viadd b) s ∧ VeReady s b 0x1a w ∧ x = ve s b) ∧
    (∃ s b w x, Acts (.vlog b) s ∧ VeReady s b 0x1b w ∧ x = ve s b) ∧
    (∃ s b w x, Acts (.vshf b) s ∧ VeReady s b 0x1c w ∧ x = ve s b) ∧
    (∃ s b w x, Acts (.vcvti b) s ∧ VeReady s b 0x1d w ∧ x = ve s b) :=
  ⟨⟨veAt (ins 0x9 31 15 15 15 0) id, 2, ins 0x9 31 15 15 15 0,
      Sys2Proof.Machine.ve (veAt (ins 0x9 31 15 15 15 0) id) 2, by decide +kernel⟩,
    ⟨veAt (ins 0xa 31 31 31 15 0) id, 2, ins 0xa 31 31 31 15 0,
      Sys2Proof.Machine.ve (veAt (ins 0xa 31 31 31 15 0) id) 2, by decide +kernel⟩,
    ⟨veAt (ins 0x10 31 31 31 15 0) id, 2, ins 0x10 31 31 31 15 0,
      Sys2Proof.Machine.ve (veAt (ins 0x10 31 31 31 15 0) id) 2, by decide +kernel⟩,
    ⟨veAt (ins 0x11 31 31 31 15 0) id, 2, ins 0x11 31 31 31 15 0,
      Sys2Proof.Machine.ve (veAt (ins 0x11 31 31 31 15 0) id) 2, by decide +kernel⟩,
    ⟨veAt (ins 0x12 31 31 31 15 0) id, 2, ins 0x12 31 31 31 15 0,
      Sys2Proof.Machine.ve (veAt (ins 0x12 31 31 31 15 0) id) 2, by decide +kernel⟩,
    ⟨veAt (ins 0x13 31 31 31 15 0) id, 2, ins 0x13 31 31 31 15 0,
      Sys2Proof.Machine.ve (veAt (ins 0x13 31 31 31 15 0) id) 2, by decide +kernel⟩,
    ⟨veAt (ins 0x14 31 31 31 15 0) id, 2, ins 0x14 31 31 31 15 0,
      Sys2Proof.Machine.ve (veAt (ins 0x14 31 31 31 15 0) id) 2, by decide +kernel⟩,
    ⟨veAt (ins 0x15 31 31 31 15 0) id, 2, ins 0x15 31 31 31 15 0,
      Sys2Proof.Machine.ve (veAt (ins 0x15 31 31 31 15 0) id) 2, by decide +kernel⟩,
    ⟨veAt (ins 0x16 31 31 31 15 0) id, 2, ins 0x16 31 31 31 15 0,
      Sys2Proof.Machine.ve (veAt (ins 0x16 31 31 31 15 0) id) 2, by decide +kernel⟩,
    ⟨veAt (ins 0x17 31 31 31 15 0) id, 2, ins 0x17 31 31 31 15 0,
      Sys2Proof.Machine.ve (veAt (ins 0x17 31 31 31 15 0) id) 2, by decide +kernel⟩,
    ⟨veAt (ins 0x19 31 31 31 15 0) id, 2, ins 0x19 31 31 31 15 0,
      Sys2Proof.Machine.ve (veAt (ins 0x19 31 31 31 15 0) id) 2, by decide +kernel⟩,
    ⟨veAt (ins 0x1a 31 31 31 15 0) id, 2, ins 0x1a 31 31 31 15 0,
      Sys2Proof.Machine.ve (veAt (ins 0x1a 31 31 31 15 0) id) 2, by decide +kernel⟩,
    ⟨veAt (ins 0x1b 31 31 31 15 0) id, 2, ins 0x1b 31 31 31 15 0,
      Sys2Proof.Machine.ve (veAt (ins 0x1b 31 31 31 15 0) id) 2, by decide +kernel⟩,
    ⟨veAt (ins 0x1c 31 31 31 15 0) id, 2, ins 0x1c 31 31 31 15 0,
      Sys2Proof.Machine.ve (veAt (ins 0x1c 31 31 31 15 0) id) 2, by decide +kernel⟩,
    ⟨veAt (ins 0x1d 31 31 31 15 0) id, 2, ins 0x1d 31 31 31 15 0,
      Sys2Proof.Machine.ve (veAt (ins 0x1d 31 31 31 15 0) id) 2, by decide +kernel⟩⟩

theorem witness_FunctionRowsComplete :
    (∃ s b w x, Acts (.vfn b) s ∧ VeReady s b 0x28 w ∧ x = ve s b ∧ nfld (iImm w) 0 4 ≤ 13) ∧
    (∃ s b w x, Acts (.vrsum b) s ∧ VeReady s b 0x30 w ∧ x = ve s b) ∧
    (∃ s b w x, Acts (.vrmax b) s ∧ VeReady s b 0x31 w ∧ x = ve s b) ∧
    (∃ s b w x, Acts (.vrargmax b) s ∧ VeReady s b 0x32 w ∧ x = ve s b) ∧
    (∃ s b w x, Acts (.vscan b) s ∧ VeReady s b 0x33 w ∧ x = ve s b) ∧
    (∃ s b w x, Acts (.vperm b) s ∧ VeReady s b 0x34 w ∧ x = ve s b) ∧
    (∃ s b w x, Acts (.vrand b) s ∧ VeReady s b 0x5a w ∧ x = ve s b) ∧
    (∃ s b w x p, Acts (.vepoch b) s ∧ VeReady s b 0x4e w ∧ x = ve s b ∧ p = partOfBlock s b) ∧
    (∃ s b w x, Acts (.vcvt b) s ∧ VeReady s b 0x38 w ∧ x = ve s b ∧ nfld (iImm w) 0 5 ∈ [0x00, 0x01, 0x09, 0x0a,
      0x0b, 0x0c]) ∧
    (∃ s b w x, Acts (.vmxq b) s ∧ VeReady s b 0x39 w ∧ x = ve s b ∧ 2 ≤ nfld (iImm w) 0 5 ∧ nfld (iImm w) 0 5 ≤ 8) :=
  ⟨⟨veAt (ins 0x28 31 15 15 15 13) id, 2, ins 0x28 31 15 15 15 13,
      Sys2Proof.Machine.ve (veAt (ins 0x28 31 15 15 15 13) id) 2, by decide +kernel⟩,
    ⟨veAt (ins 0x30 31 15 15 15 0) id, 2, ins 0x30 31 15 15 15 0,
      Sys2Proof.Machine.ve (veAt (ins 0x30 31 15 15 15 0) id) 2, by decide +kernel⟩,
    ⟨veAt (ins 0x31 31 15 15 15 0) id, 2, ins 0x31 31 15 15 15 0,
      Sys2Proof.Machine.ve (veAt (ins 0x31 31 15 15 15 0) id) 2, by decide +kernel⟩,
    ⟨veAt (ins 0x32 31 15 15 15 0) id, 2, ins 0x32 31 15 15 15 0,
      Sys2Proof.Machine.ve (veAt (ins 0x32 31 15 15 15 0) id) 2, by decide +kernel⟩,
    ⟨veAt (ins 0x33 31 15 15 15 0) id, 2, ins 0x33 31 15 15 15 0,
      Sys2Proof.Machine.ve (veAt (ins 0x33 31 15 15 15 0) id) 2, by decide +kernel⟩,
    ⟨veAt (ins 0x34 31 15 15 15 0) id, 2, ins 0x34 31 15 15 15 0,
      Sys2Proof.Machine.ve (veAt (ins 0x34 31 15 15 15 0) id) 2, by decide +kernel⟩,
    ⟨veAt (ins 0x5a 31 15 15 15 0) id, 2, ins 0x5a 31 15 15 15 0,
      Sys2Proof.Machine.ve (veAt (ins 0x5a 31 15 15 15 0) id) 2, by decide +kernel⟩,
    ⟨veAt (ins 0x4e 31 15 15 15 0) id, 2, ins 0x4e 31 15 15 15 0,
      Sys2Proof.Machine.ve (veAt (ins 0x4e 31 15 15 15 0) id) 2, some 1, by decide +kernel⟩,
    ⟨veAt (ins 0x38 31 15 15 15 12) id, 2, ins 0x38 31 15 15 15 12,
      Sys2Proof.Machine.ve (veAt (ins 0x38 31 15 15 15 12) id) 2, by decide +kernel⟩,
    ⟨veAt (ins 0x39 31 15 15 15 8) id, 2, ins 0x39 31 15 15 15 8,
      Sys2Proof.Machine.ve (veAt (ins 0x39 31 15 15 15 8) id) 2, by decide +kernel⟩⟩

theorem witness_OperandRowsComplete :
    (∃ s b w x, Acts (.sld b .ok) s ∧ VeReady s b 0x06 w ∧ x = ve s b ∧ iD w ≤ 15 ∧ iA w ≤ 15 ∧
      inSpace x [baseAddr x w] = true) ∧
    (∃ s b w x, Acts (.sst b) s ∧ VeReady s b 0x07 w ∧ x = ve s b ∧ iD w ≤ 15 ∧ iA w ≤ 15 ∧
      inSpace x [baseAddr x w] = true) ∧
    (∃ s b w x, Acts (.vld b .ok) s ∧ VeReady s b 0x40 w ∧ x = ve s b ∧ iA w ≤ 15 ∧
      inSpace x ((activeLanes x w).map (addrNext x w)) = true) ∧
    (∃ s b w x, Acts (.vst b) s ∧ VeReady s b 0x41 w ∧ x = ve s b ∧ iA w ≤ 15 ∧
      inSpace x ((activeLanes x w).map (addrNext x w)) = true) ∧
    (∃ s b w x, Acts (.vlds b .ok) s ∧ VeReady s b 0x42 w ∧ x = ve s b ∧ iA w ≤ 15 ∧ iB w ≤ 15 ∧
      inSpace x ((activeLanes x w).map (addrStride x w)) = true) ∧
    (∃ s b w x, Acts (.vsts b) s ∧ VeReady s b 0x43 w ∧ x = ve s b ∧ iA w ≤ 15 ∧ iB w ≤ 15 ∧
      inSpace x ((activeLanes x w).map (addrStride x w)) = true) ∧
    (∃ s b w x, Acts (.vldx b .ok) s ∧ VeReady s b 0x44 w ∧ x = ve s b ∧ iA w ≤ 15 ∧
      inSpace x ((activeLanes x w).map (addrIndex x w)) = true) ∧
    (∃ s b w x, Acts (.vstx b) s ∧ VeReady s b 0x45 w ∧ x = ve s b ∧ iA w ≤ 15 ∧
      inSpace x ((activeLanes x w).map (addrIndex x w)) = true) ∧
    (∃ s b w x a n ws, Acts (.epld b .ok) s ∧ VeReady s b 0x29 w ∧ x = ve s b ∧ iA w ≤ 15 ∧
      a = (sr x (iA w)).toNat ∧ n = slotLen (cacheWords x a 1) ∧ ws = cacheWords x a (5 + n) ∧ 0 < n ∧ n ≤ 48 ∧
      slotInputs ws ≠ 0 ∧ (ws.drop 5).all elemOk = true) ∧
    (∃ s b w x ws n bases, Acts (.eprun b .ok) s ∧ VeReady s b 0x2a w ∧ x = ve s b ∧ iD w ≤ 15 ∧ iA w ≤ 15 ∧
      iB w ≤ 15 ∧ iC w ≤ 15 ∧ ws = tget [] x.slots (nfld (iImm w) 0 2) ∧ n = nfld (iImm w) 2 16 ∧
      bases = ([sr x (iA w), sr x (iB w), sr x (iC w)].take (slotInputs ws)).map (·.toNat)) :=
  ⟨⟨veAt (ins 0x6 15 15 15 15 65535) id, 2, ins 0x6 15 15 15 15 65535,
      Sys2Proof.Machine.ve (veAt (ins 0x6 15 15 15 15 65535) id) 2, by decide +kernel⟩,
    ⟨veAt (ins 0x7 15 15 15 15 65535) id, 2, ins 0x7 15 15 15 15 65535,
      Sys2Proof.Machine.ve (veAt (ins 0x7 15 15 15 15 65535) id) 2, by decide +kernel⟩,
    ⟨veAt (ins 0x40 31 15 15 15 0) id, 2, ins 0x40 31 15 15 15 0,
      Sys2Proof.Machine.ve (veAt (ins 0x40 31 15 15 15 0) id) 2, by decide +kernel⟩,
    ⟨veAt (ins 0x41 31 15 15 15 0) id, 2, ins 0x41 31 15 15 15 0,
      Sys2Proof.Machine.ve (veAt (ins 0x41 31 15 15 15 0) id) 2, by decide +kernel⟩,
    ⟨veAt (ins 0x42 31 15 15 15 0) id, 2, ins 0x42 31 15 15 15 0,
      Sys2Proof.Machine.ve (veAt (ins 0x42 31 15 15 15 0) id) 2, by decide +kernel⟩,
    ⟨veAt (ins 0x43 31 15 15 15 0) id, 2, ins 0x43 31 15 15 15 0,
      Sys2Proof.Machine.ve (veAt (ins 0x43 31 15 15 15 0) id) 2, by decide +kernel⟩,
    ⟨veAt (ins 0x44 31 15 15 15 0) id, 2, ins 0x44 31 15 15 15 0,
      Sys2Proof.Machine.ve (veAt (ins 0x44 31 15 15 15 0) id) 2, by decide +kernel⟩,
    ⟨veAt (ins 0x45 31 15 15 15 0) id, 2, ins 0x45 31 15 15 15 0,
      Sys2Proof.Machine.ve (veAt (ins 0x45 31 15 15 15 0) id) 2, by decide +kernel⟩,
    ⟨veAt (ins 0x29 31 1 15 15 0) (fun x => { x with s := [(1, 8)], cache := x.cache ++ [(8, 65)] }), 2,
      ins 0x29 31 1 15 15 0, Sys2Proof.Machine.ve (veAt (ins 0x29 31 1 15 15 0) (fun x =>
      { x with s := [(1, 8)], cache := x.cache ++ [(8, 65)] })) 2, 8, 1,
      cacheWords (Sys2Proof.Machine.ve (veAt (ins 0x29 31 1 15 15 0) (fun x =>
      { x with s := [(1, 8)], cache := x.cache ++ [(8, 65)] })) 2) 8 6, by decide +kernel⟩,
    ⟨veAt (ins 0x2a 15 15 15 15 256) (fun x => { x with slots := [(0, [65, 0, 0, 0, 0, 0])] }), 2,
      ins 0x2a 15 15 15 15 256, Sys2Proof.Machine.ve (veAt (ins 0x2a 15 15 15 15 256) (fun x =>
      { x with slots := [(0, [65, 0, 0, 0, 0, 0])] })) 2, [65, 0, 0, 0, 0, 0], 64, [0], by decide +kernel⟩⟩

theorem witness_PortRowsComplete :
    (∃ s b w x a is, Acts (.pput b) s ∧ VeReady s b 0x48 w ∧ x = ve s b ∧ iA w ≤ 15 ∧ iB w ≤ 15 ∧
      nfld (iImm w) 2 2 ≤ 1 ∧ a = (sr x (iA w)).toNat ∧ portMarked s b a = false ∧
      is = (List.range (quartersOf w)).map (fun q => PortItem.mk (portTile a) (some (4 * portSlot a + portRole
      a)) 0 (veChan x (quarter (vr x (iD w)) q) (nfld (iImm w) 2 2) ((sr x (iB w)).toNat + q) (portSlot a)))) ∧
    (∃ s b w x a is, Acts (.pwr b) s ∧ VeReady s b 0x49 w ∧ x = ve s b ∧ iA w ≤ 15 ∧ a = (sr x (iA w)).toNat ∧
      is = (List.range (quartersOf w)).map (fun q => PortItem.mk (nfld a 0 6) none ((nfld a 6 10 + q) % 1024)
      (veChan x (quarter (vr x (iD w)) q) 0 0 0))) ∧
    (∃ s b w x a ls, Acts (.prd b .ok) s ∧ VeReady s b 0x4a w ∧ x = ve s b ∧ iA w ≤ 15 ∧ a = (sr x (iA w)).toNat ∧
      portHolds x (nfld a 0 6) = false ∧ ls = (List.range (quartersOf w)).map (fun q => scratchAt (tile s
      (tileIn b (nfld a 0 6))) (nfld a 6 10 + q))) ∧
    (∃ s b w x a i y, Acts (.pmark b) s ∧ VeReady s b 0x4b w ∧ x = ve s b ∧ iA w ≤ 15 ∧ a = (sr x (iA w)).toNat ∧
      portMarked s b a = false ∧ i = PortItem.mk (portTile a) (some (4 * portSlot a + portRole a)) 0 (veChan x 0
      2 0 (portSlot a)) ∧ y = toPort x (portTile a) [i]) ∧
    (∃ s b w x y y' t e r ds mark sb, Acts (.coll b) s ∧ VeReady s b 0x4c w ∧ x = ve s b ∧ iA w ≤ 15 ∧ iB w ≤ 15 ∧
      t = tileIn b (baseAddr x w % 64) ∧ portHolds x (baseAddr x w % 64) = false ∧ y = tile s t ∧
      y.coll = e :: r ∧ collTake y.coll = some (ds, mark) ∧
      sb = ds.length + (if mark then 8 else 0) + 16 * (e.label % 8) + 128 * (e.role % 4) + 65536 *
      e.word.loop.toNat ∧ y' = { y with coll := y.coll.drop (ds.length + if mark then 1 else 0) }) ∧
    (∃ s b w x y y' t l r, Acts (.ckpop b) s ∧ VeReady s b 0x4d w ∧ x = ve s b ∧ iA w ≤ 15 ∧
      t = tileIn b (baseAddr x w % 64) ∧ portHolds x (baseAddr x w % 64) = false ∧ y = tile s t ∧
      y.checkFifo = l :: r ∧ y' = { y with checkFifo := r }) :=
  ⟨⟨veAt (ins 0x48 31 15 15 15 4) id, 2, ins 0x48 31 15 15 15 4,
      Sys2Proof.Machine.ve (veAt (ins 0x48 31 15 15 15 4) id) 2, 0,
      (List.range (quartersOf (ins 0x48 31 15 15 15 4))).map fun q => PortItem.mk 0 (some 0) 0 (veChan
      (Sys2Proof.Machine.ve (veAt (ins 0x48 31 15 15 15 4) id) 2) (quarter (vr (Sys2Proof.Machine.ve (veAt (ins
      0x48 31 15 15 15 4) id) 2) 31) q) 1 q 0), by decide +kernel⟩,
    ⟨veAt (ins 0x49 31 15 15 15 0) id, 2, ins 0x49 31 15 15 15 0,
      Sys2Proof.Machine.ve (veAt (ins 0x49 31 15 15 15 0) id) 2, 0,
      (List.range (quartersOf (ins 0x49 31 15 15 15 0))).map fun q => PortItem.mk 0 none q (veChan
      (Sys2Proof.Machine.ve (veAt (ins 0x49 31 15 15 15 0) id) 2) (quarter (vr (Sys2Proof.Machine.ve (veAt (ins
      0x49 31 15 15 15 0) id) 2) 31) q) 0 0 0), by decide +kernel⟩,
    ⟨veAt (ins 0x4a 31 15 15 15 0) id, 2, ins 0x4a 31 15 15 15 0,
      Sys2Proof.Machine.ve (veAt (ins 0x4a 31 15 15 15 0) id) 2, 0,
      List.replicate (quartersOf (ins 0x4a 31 15 15 15 0)) 0, by decide +kernel⟩,
    ⟨veAt (ins 0x4b 31 15 15 15 0) id, 2, ins 0x4b 31 15 15 15 0,
      Sys2Proof.Machine.ve (veAt (ins 0x4b 31 15 15 15 0) id) 2, 0,
      PortItem.mk 0 (some 0) 0 (veChan (Sys2Proof.Machine.ve (veAt (ins 0x4b 31 15 15 15 0) id) 2) 0 2 0 0),
      toPort (Sys2Proof.Machine.ve (veAt (ins 0x4b 31 15 15 15 0) id) 2) 0 [PortItem.mk 0 (some 0) 0 (veChan
      (Sys2Proof.Machine.ve (veAt (ins 0x4b 31 15 15 15 0) id) 2) 0 2 0 0)], by decide +kernel⟩,
    ⟨collected, 2, ins 0x4c 31 0 15 0 63, Sys2Proof.Machine.ve collected 2, tile collected 471,
      { tile collected 471 with coll := [] }, 471, collWord 0, [collWord 2], [collWord 0], true,
      1 + 8 + 16 * 7 + 128 * 3 + 65536 * 9, by decide +kernel⟩,
    ⟨popped, 2, ins 0x4d 31 0 0 0 63, Sys2Proof.Machine.ve popped 2, tile popped 471,
      { tile popped 471 with checkFifo := [] }, 471, 5, [], by decide +kernel⟩⟩

theorem witness_NetworkRowsComplete :
    (∃ s b w x dst ns, Acts (.nsend b) s ∧ VeReady s b 0x50 w ∧ x = ve s b ∧ iA w ≤ 15 ∧
      dst = nfld (sr x (iA w)).toNat 0 7 ∧ (partOfBlock s b).isSome = true ∧
      partOfBlock s dst = partOfBlock s b ∧ ns = (List.range (quartersOf w)).map (fun q => NetWord.mk b dst
      (nfld (iImm w) 2 3) (veChan x (quarter (vr x (iD w)) q) 0 0 0))) ∧
    (∃ s b w x y m ws, Acts (.nrecv b) s ∧ VeReady s b 0x51 w ∧ x = ve s b ∧ m = nfld (iImm w) 2 3 ∧
      ws = (tget [] x.mail m).take (quartersOf w) ∧ ws ≠ [] ∧
      y = { x with mail := tset x.mail m ((tget [] x.mail m).drop ws.length) }) ∧
    (∃ s b w x slot base v, Acts (.cbwr b) s ∧ VeReady s b 0x54 w ∧ x = ve s b ∧ iA w ≤ 15 ∧
      slot = nfld (iImm w) 0 1 ∧ (∀ i, i < 64 → namesCodebook (tile s (tileIn b i)) slot = false) ∧
      base = 8192 * b + 4096 * slot + (sr x (iA w)).toNat % 4096 / 32 * 32 ∧ v = vr x (iD w)) ∧
    (∃ s b who w x p n wr a id sa, Acts (.txf b true .ok who) s ∧ VeReady s b 0x52 w ∧ x = ve s b ∧ iA w ≤ 15 ∧
      iB w ≤ 15 ∧ iC w ≤ 15 ∧ partOfBlock s b = some p ∧ n = nfld (iImm w) 0 16 ∧
      sa = (if x.buffer then (sr x (iA w)).toNat else (sr x (iA w)).toNat % 65536) ∧
      (x.buffer = true → sa + 16 * n ≤ 4096) ∧ wr = decide (nfld (iImm w) 16 1 = 1) ∧
      a = ((sr x (iC w)).append (sr x (iB w))).toNat ∧ 0 < n ∧ txfRefused s p a (64 * n) wr = none ∧
      x.txOut.length < 16 ∧ (List.range 17).find? (fun i => decide (i ∉ x.txOut)) = some id) ∧
    (∃ s b who w x p, Acts (.txf b true .ok who) s ∧ VeReady s b 0x52 w ∧ x = ve s b ∧ iA w ≤ 15 ∧ iB w ≤ 15 ∧
      iC w ≤ 15 ∧ partOfBlock s b = some p ∧ nfld (iImm w) 0 16 = 0) ∧
    (∃ s b ecc who a, Acts (.txf b false ecc who) s ∧ txfJudged s b = some a) ∧
    (∃ s b w x, Acts (.txwait b) s ∧ VeReady s b 0x53 w ∧ x = ve s b ∧ iD w ≤ 15 ∧ x.txOut = []) :=
  ⟨⟨veAt (ins 0x50 31 15 15 15 28) id, 2, ins 0x50 31 15 15 15 28,
      Sys2Proof.Machine.ve (veAt (ins 0x50 31 15 15 15 28) id) 2, 0,
      (List.range (quartersOf (ins 0x50 31 15 15 15 28))).map fun q => NetWord.mk 2 0 7 (veChan
      (Sys2Proof.Machine.ve (veAt (ins 0x50 31 15 15 15 28) id) 2) (quarter (vr (Sys2Proof.Machine.ve (veAt (ins
      0x50 31 15 15 15 28) id) 2) 31) q) 0 0 0), by decide +kernel⟩,
    ⟨veAt (ins 0x51 31 15 15 15 28) (fun x => { x with mail := [(7, [token 0 0 5])] }), 2, ins 0x51 31 15 15 15 28,
      Sys2Proof.Machine.ve (veAt (ins 0x51 31 15 15 15 28) (fun x => { x with mail := [(7, [token 0 0 5])] }))
      2,
      { (Sys2Proof.Machine.ve (veAt (ins 0x51 31 15 15 15 28) (fun x => { x with mail := [(7, [token 0 0 5])] })) 2) with mail := [(7, [])] },
      7, [token 0 0 5], by decide +kernel⟩,
    ⟨veAt (ins 0x54 31 15 15 15 1) id, 2, ins 0x54 31 15 15 15 1,
      Sys2Proof.Machine.ve (veAt (ins 0x54 31 15 15 15 1) id) 2, 1, 8192 * 2 + 4096,
      vr (Sys2Proof.Machine.ve (veAt (ins 0x54 31 15 15 15 1) id) 2) 31, by decide +kernel⟩,
    ⟨veAt (ins 0x52 31 1 2 3 65537) (fun x => { x with s := [(1, 65535), (2, 63 * 2097152), (3, 7 * 2 ^ 18)] }), 2,
      none, ins 0x52 31 1 2 3 65537, Sys2Proof.Machine.ve (veAt (ins 0x52 31 1 2 3 65537) (fun x =>
      { x with s := [(1, 65535), (2, 63 * 2097152), (3, 7 * 2 ^ 18)] })) 2, 1, 1, true, at7 0 (63 * 2097152), 0,
      65535, by decide +kernel⟩,
    ⟨veAt (ins 0x52 31 15 15 15 0) id, 2, none, ins 0x52 31 15 15 15 0,
      Sys2Proof.Machine.ve (veAt (ins 0x52 31 15 15 15 0) id) 2, 1, by decide +kernel⟩,
    ⟨veAt (ins 0x52 31 1 2 3 65537) (fun x => { x with s := [(1, 65535), (2, 63 * 2097152), (3, 7 * 2 ^ 18)] }), 2,
      .ok, none, at7 0 (63 * 2097152), by decide +kernel⟩,
    ⟨veAt (ins 0x53 15 15 15 15 0) id, 2, ins 0x53 15 15 15 15 0,
      Sys2Proof.Machine.ve (veAt (ins 0x53 15 15 15 15 0) id) 2, by decide +kernel⟩⟩

theorem witness_CheckRowsComplete :
    (∃ s b w x, Acts (.cktol b) s ∧ VeReady s b 0x60 w ∧ x = ve s b ∧ iA w ≤ 15 ∧
      ofmtOk (nfld (iImm w) 0 5) = true ∧ (nfld (iImm w) 5 5 = 0x1f ∨ (wfmtOk (nfld (iImm w) 5 5) = true ∧
      afmtOk (nfld (iImm w) 10 5) = true ∧ isPacked (nfld (iImm w) 5 5) = false))) ∧
    (∃ s b w x, Acts (.ckcmp b) s ∧ VeReady s b 0x61 w ∧ x = ve s b ∧ failing w x = []) ∧
    (∃ s b w x y i r, Acts (.ckcmp b) s ∧ VeReady s b 0x61 w ∧ x = ve s b ∧ failing w x = i :: r ∧
      partOfBlock s b = none ∧ y = { x with ckFailed := true }) ∧
    (∃ s b w x, Acts (.ckdone b) s ∧ VeReady s b 0x62 w ∧ x = ve s b ∧ partOfBlock s b = none) ∧
    (∃ s b w x p k k' z, Acts (.ckdone b) s ∧ VeReady s b 0x62 w ∧ x = ve s b ∧ partOfBlock s b = some p ∧
      (part s p).step = some k ∧ k.id % 65536 = nfld (iImm w) 0 16 ∧
      k' = { k with verdicts := tset k.verdicts b (!x.ckFailed && tget true k.verdicts b) } ∧
      z = { part s p with step := some k' }) ∧
    (∃ s b w last acts x y ps p t, Acts (.rtsel b .ok last acts) s ∧ VeReady s b 0x58 w ∧ x = ve s b ∧ iA w ≤ 15 ∧
      ps = rtBlock x w ∧ rtOk ps = true ∧ y = rtSelect ps (placeBias (stepTable s b (rtField ps 6)) ps x) ∧
      partOfBlock s b = some p ∧ t = applyFailed (modPart (setVe s b y) p fun z =>
      { z with step := z.step.map (keepPicks ps b y) }) p) ∧
    (∃ s b w x a y, Acts (.rtcnt b .ok) s ∧ VeReady s b 0x59 w ∧ x = ve s b ∧ iA w ≤ 15 ∧ partOfBlock s b = none ∧
      a = (sr x (iA w)).toNat ∧ y = x.lastRt.e1.foldl (fun x e => bump x (a + 2 * e)) x) ∧
    (∃ s b w x p k k' a r y z dm, Acts (.rtcnt b .ok) s ∧ VeReady s b 0x59 w ∧ x = ve s b ∧ iA w ≤ 15 ∧
      partOfBlock s b = some p ∧ (part s p).step = some k ∧ a = (sr x (iA w)).toNat ∧ r = x.lastRt ∧
      y = r.e2.foldl (fun x e => bump x (a + 2 * e + 1)) (r.e1.foldl (fun x e => bump x (a + 2 * e)) x) ∧
      dm = (r.e1 ++ r.e2).foldl (fun d e => tset d (1024 * r.layer + e) (tget 0 d (1024 * r.layer + e) + 1))
      k.demand ∧ k' = { k with demand := dm } ∧ z = { part s p with step := some k' }) :=
  ⟨⟨veAt (ins 0x60 31 15 15 15 1023) id, 2, ins 0x60 31 15 15 15 1023,
      Sys2Proof.Machine.ve (veAt (ins 0x60 31 15 15 15 1023) id) 2, by decide +kernel⟩,
    ⟨veAt (ins 0x61 31 0 0 0 0) id, 2, ins 0x61 31 0 0 0 0, Sys2Proof.Machine.ve (veAt (ins 0x61 31 0 0 0 0) id) 2,
      by decide +kernel⟩,
    ⟨veOut (ins 0x61 31 1 2 3 0) (fun x => { x with v := [(1, Vector.replicate 64 0x3f800000)] }), 127,
      ins 0x61 31 1 2 3 0, Sys2Proof.Machine.ve (veOut (ins 0x61 31 1 2 3 0) (fun x =>
      { x with v := [(1, Vector.replicate 64 0x3f800000)] })) 127,
      { (Sys2Proof.Machine.ve (veOut (ins 0x61 31 1 2 3 0) (fun x => { x with v := [(1, Vector.replicate 64 0x3f800000)] })) 127) with ckFailed := true },
      0, (failing (ins 0x61 31 1 2 3 0) (Sys2Proof.Machine.ve (veOut (ins 0x61 31 1 2 3 0) (fun x =>
      { x with v := [(1, Vector.replicate 64 0x3f800000)] })) 127)).tail, by decide +kernel⟩,
    ⟨veOut (ins 0x62 31 15 15 15 0) id, 127, ins 0x62 31 15 15 15 0,
      Sys2Proof.Machine.ve (veOut (ins 0x62 31 15 15 15 0) id) 127, by decide +kernel⟩,
    ⟨veAt (ins 0x62 31 15 15 15 1) id, 2, ins 0x62 31 15 15 15 1,
      Sys2Proof.Machine.ve (veAt (ins 0x62 31 15 15 15 1) id) 2, 1, aStep,
      { aStep with verdicts := [(2, true)] },
      { part (veAt (ins 0x62 31 15 15 15 1) id) 1 with step := some { aStep with verdicts := [(2, true)] } },
      by decide +kernel⟩,
    ⟨routed58, 2, ins 0x58 31 1 15 15 0, true, 0, Sys2Proof.Machine.ve routed58 2, routedY, routePs, 1, routedT,
      by decide +kernel⟩,
    ⟨veOut (ins 0x59 31 15 15 15 0) (fun x =>
      { x with lastRt := { layer := 0, k2 := false, e1 := [1], e2 := [] } }), 127, ins 0x59 31 15 15 15 0,
      Sys2Proof.Machine.ve (veOut (ins 0x59 31 15 15 15 0) (fun x =>
      { x with lastRt := { layer := 0, k2 := false, e1 := [1], e2 := [] } })) 127, 0,
      bump (Sys2Proof.Machine.ve (veOut (ins 0x59 31 15 15 15 0) (fun x =>
      { x with lastRt := { layer := 0, k2 := false, e1 := [1], e2 := [] } })) 127) 2, by decide +kernel⟩,
    ⟨veAt (ins 0x59 31 15 15 15 0) (fun x => { x with lastRt := { layer := 0, k2 := false, e1 := [1], e2 := [] } }),
      2, ins 0x59 31 15 15 15 0, Sys2Proof.Machine.ve (veAt (ins 0x59 31 15 15 15 0) (fun x =>
      { x with lastRt := { layer := 0, k2 := false, e1 := [1], e2 := [] } })) 2, 1, aStep,
      { aStep with demand := [(1, 1)] }, 0, { layer := 0, k2 := false, e1 := [1], e2 := [] },
      bump (Sys2Proof.Machine.ve (veAt (ins 0x59 31 15 15 15 0) (fun x =>
      { x with lastRt := { layer := 0, k2 := false, e1 := [1], e2 := [] } })) 2) 2,
      { part (veAt (ins 0x59 31 15 15 15 0) (fun x => { x with lastRt := { layer := 0, k2 := false, e1 := [1], e2 := [] } })) 1 with step := some { aStep with demand := [(1, 1)] } },
      [(1, 1)], by decide +kernel⟩⟩

theorem witness_VeServiceRowsComplete :
    (∃ (s : State) (b opc : Nat) (ecc : Ecc) (reads : W64 → State → Bool) (f : W64 → State → Except State (Option
      State)) (w : W64) (t : State), VeReady s b opc w ∧ f w s = .ok (some t) ∧ reads w s = true) ∧
    (∃ (s : State) (b opc : Nat) (ecc : Ecc) (reads : W64 → State → Bool) (f : W64 → State → Except State (Option
      State)) (w : W64) (t : State), VeReady s b opc w ∧ f w s = .error t) ∧
    (∃ (s : State) (b opc : Nat) (ecc : Ecc) (reads : W64 → State → Bool) (f : W64 → State → Except State (Option
      State)) (w : W64), VeReady s b opc w ∧ f w s = .ok none) ∧
    (∃ s b soft bad, Acts (.veServiceStage b soft bad) s) ∧
    (∃ s b src n, Acts (.mailboxWordArrival b src) s ∧ s.veNet.find? (fun n => decide (n.src = src ∧
      n.dst = b)) = some n ∧ (tget [] (ve s b).mail n.box).length + ((ve s b).arrived.filter fun a => decide
      (a.1 = n.box)).length < 8) ∧
    (∃ s b pc ws u, Acts (.veProgramStart b pc false ws) s ∧ (ve s b).running = false ∧
      ((ve s b).cacheInit = true ∨ loadsAll ws = true) ∧
      u = (if (ve s b).buffer = true then { s with tiles := s.tiles.map fun e => if blockOf e.1 = b then (e.1, { e.2 with coll := [] }) else e }
      else s)) ∧
    (∃ s b pc ws, Acts (.veProgramStart b pc true ws) s ∧ (ve s b).running = false ∧ (ve s b).buffer = true) :=
  ⟨⟨veAt (ins 0 0 0 0 0 0) id, 2, 0, .ok, (fun _ _ => true), (fun _ s => .ok (some s)), ins 0 0 0 0 0 0,
      veAt (ins 0 0 0 0 0 0) id, by decide +kernel, rfl, rfl⟩,
    ⟨veAt (ins 0 0 0 0 0 0) id, 2, 0, .ok, (fun _ _ => true), (fun _ s => .error s), ins 0 0 0 0 0 0,
      veAt (ins 0 0 0 0 0 0) id, by decide +kernel, rfl⟩,
    ⟨veAt (ins 0 0 0 0 0 0) id, 2, 0, .ok, (fun _ _ => true), (fun _ _ => .ok none), ins 0 0 0 0 0 0,
      by decide +kernel, rfl⟩,
    ⟨up, 127, 3, false, by decide +kernel⟩,
    ⟨{ up with veNet := [{ src := 1, dst := 2, box := 7, word := token 0 0 5 }] }, 2, 1,
      { src := 1, dst := 2, box := 7, word := token 0 0 5 }, by decide +kernel⟩,
    ⟨setVe up 2 { Ve.reset with buffer := false, cacheInit := true }, 2, 32767, [],
      setVe up 2 { Ve.reset with buffer := false, cacheInit := true }, by decide +kernel⟩,
    ⟨up, 2, 5, [(0, 1)], by decide +kernel⟩⟩

set_option maxRecDepth 4000 in
theorem witness_MatrixRowsComplete :
    (∃ s t slot memOk x c y l st, Acts (.matrixPassStart t slot memOk) s ∧
      (mNprob (ctxOf x slot) = 0 ∨ memOk = true) ∧ x = tile s t ∧ c = ctxOf x slot ∧ cClass c = 1 ∧
      live x slot = true ∧ x.pass = none ∧ drainStuck x slot (startNeeds x slot) = false ∧
      nextReady x.lastA (passReady x) = some slot ∧ y = moved (if gated x slot then qPop x slot 3 else x) slot ∧
      l = (if mAsrc c = 1 then 0 else (qTok x slot 0).elim 0 fun w => w.loop) ∧
      (st = decide (mAsrc c = 1 ∨ (qTok x slot 0).isSome = true))) ∧
    (∃ s t x p, Acts (.gnxtTokenConsume t true) s ∧ x = tile s t ∧ x.pass = some p ∧ live x p.slot = true ∧
      drainStuck x p.slot (passNeeds x (ctxOf x p.slot) p) = false ∧ p.waitGnxt = true ∧
      (qTok x p.slot 3).isSome = true) ∧
    (∃ s t x c p q w y, Acts (.weightWordAccept t) s ∧ x = tile s t ∧ x.pass = some p ∧ live x p.slot = true ∧
      c = ctxOf x p.slot ∧ drainStuck x p.slot (passNeeds x c p) = false ∧ qTok x p.slot 1 = some w ∧
      mayAccept x c p = true ∧ q = loopStamp x p ∧
      y = (if mWfwd c then sendOut (qPop x q.slot 1) 1 (outWord x q.slot w.payload 0 q.loop) else qPop x q.slot
      1)) ∧
    (∃ s t memOk x c p ws g sc hs fin q, Acts (.expanderDecode t memOk) s ∧ x = tile s t ∧ x.pass = some p ∧
      live x p.slot = true ∧ c = ctxOf x p.slot ∧ drainStuck x p.slot (passNeeds x c p) = false ∧
      unitWords (cWfmt c) ≤ p.frame.length ∧ (halfOpen c p = true ∨ halfFree c p = true) ∧
      (cWfmt c ≠ 0x12 ∨ memOk = true) ∧ decodeRun s (blockOf t) c (frameNat p.frame) p.decoded 16 x.gen1 = (ws,
      g) ∧ sc = scalesFor s (blockOf t) c (frameNat p.frame) p.decoded ∧
      hs = (if halfOpen c p = true then match p.halves.getLast? with | some h => p.halves.dropLast ++
      [{ h with weights := h.weights ++ ws, scales := h.scales ++ sc }] | none => p.halves else p.halves ++
      [Half.mk (p.ktStarted % decodedTiles c p.nkt) ws sc]) ∧
      fin = decide (8 * unitK (cWfmt c) ≤ p.decoded + 16) ∧
      q = { p with halves := hs.filter (fun h => decide (h.kt < p.nkt) || !halfFull c h), ktStarted := if halfOpen c p = true then p.ktStarted else p.ktStarted + 1, frame := if fin = true then [] else p.frame, decoded := if fin = true then 0 else p.decoded + 16 }) ∧
    (∃ s t x c p y p' y' q h q' r z f, Acts (.beatIssue t true true) s ∧ x = tile s t ∧ x.pass = some p ∧
      live x p.slot = true ∧ c = ctxOf x p.slot ∧ drainStuck x p.slot (passNeeds x c p) = false ∧
      p.spent = false ∧ p.waitGnxt = false ∧ stageIn c x p = (y, p') ∧ loadNext s.draw c y p' = (y', q) ∧
      beatReady y' c q = true ∧ expanderIdle c q = true ∧ q.halves.head? = some h ∧
      q' = checkBeat (s.draw + 512) y' c h q ∧ r = bankSet y' (q'.rg % 2) (bankLines (beatAcc y' c q h)) ∧
      loopAdvance c r q' = (z, f)) ∧
    (∃ s t x c p y p' y' q h, Acts (.beatIssue t false true) s ∧ x = tile s t ∧ x.pass = some p ∧
      live x p.slot = true ∧ c = ctxOf x p.slot ∧ drainStuck x p.slot (passNeeds x c p) = false ∧
      p.spent = false ∧ p.waitGnxt = false ∧ stageIn c x p = (y, p') ∧ loadNext s.draw c y p' = (y', q) ∧
      beatReady y' c q = true ∧ expanderIdle c q = true ∧ q.halves.head? = some h) ∧
    (∃ s t x c p y p' y' q res, Acts (.beatIssue t res true) s ∧ x = tile s t ∧ x.pass = some p ∧
      live x p.slot = true ∧ c = ctxOf x p.slot ∧ drainStuck x p.slot (passNeeds x c p) = false ∧
      p.spent = false ∧ p.waitGnxt = false ∧ stageIn c x p = (y, p') ∧ loadNext s.draw c y p' = (y', q) ∧
      (beatReady y' c q = false ∨ expanderIdle c q = false) ∧ q ≠ p) ∧
    (∃ s t x p l r, Acts (.accumulatorDrain t) s ∧ x = tile s t ∧ x.pass = some p ∧ live x p.slot = true ∧
      drainStuck x p.slot (passNeeds x (ctxOf x p.slot) p) = false ∧ p.outw = l :: r ∧
      outRoom x 0 p.slot = true) ∧
    (∃ s t x p bank line r, Acts (.accumulatorDrain t) s ∧ x = tile s t ∧ x.pass = some p ∧ live x p.slot = true ∧
      drainStuck x p.slot (passNeeds x (ctxOf x p.slot) p) = false ∧ p.outw = [] ∧ p.finished = (bank, line,
      false) :: r) ∧
    (∃ s t x p bank line r c ls g y y' q, Acts (.accumulatorDrain t) s ∧ x = tile s t ∧ x.pass = some p ∧
      live x p.slot = true ∧ c = ctxOf x p.slot ∧ drainStuck x p.slot (passNeeds x c p) = false ∧ p.outw = [] ∧
      p.finished = (bank, line, true) :: r ∧ drainLines c (bankGet x bank) x.gen0 = (ls, g) ∧
      y = { x with gen0 := g } ∧ y' = (if mOdst c = 0 then y else scratchSet y line ls) ∧
      q = (if mOdst c = 1 then { p with finished := r } else { p with outw := ls })) ∧
    (∃ s t slot x, Acts (.contextEpochEnd t slot) s ∧ x = tile s t ∧ live x slot = true ∧
      drainStuck x slot (contextNeeds x slot) = false ∧ quiet x slot = true ∧ allMarked x slot = true ∧
      (markOuts x slot).all (fun o => outRoom x o slot) = true) ∧
    (∃ s t slot x, Acts (.contextEpochEnd t slot) s ∧ x = tile s t ∧ live x slot = true ∧
      drainStuck x slot (contextNeeds x slot) = true) :=
  ⟨⟨mStart, 0, 0, true, tile mStart 0, matCtx, moved (tile mStart 0) 0, 0, true, by decide +kernel⟩,
    ⟨mGnxt, 0, tile mGnxt 0, mWait, by decide +kernel⟩,
    ⟨mWord, 0, tile mWord 0, matCtx, aPass, aPass, token 0 0 5, qPop (tile mWord 0) 0 1, by decide +kernel⟩,
    ⟨mDec, 0, true, tile mDec 0, matCtx, mFrame, mDecoded.1, mDecoded.2,
      scalesFor mDec 0 matCtx (frameNat mFrame.frame) 0, [mHalf], false, mHalved, by decide +kernel⟩,
    ⟨mBeat, 0, tile mBeat 0, matCtx, mReady, mStage.1, mStage.2, mLoad.1, mLoad.2, mWeights, mCheck,
      bankSet mLoad.1 (mCheck.rg % 2) (bankLines (beatAcc mLoad.1 matCtx mLoad.2 mWeights)), mNext.1, mNext.2,
      by decide +kernel, by decide +kernel, by decide +kernel, by decide +kernel, by decide +kernel,
      by decide +kernel, by decide +kernel, by decide +kernel, by decide +kernel, by decide +kernel,
      by decide +kernel, by decide +kernel, by decide +kernel, rfl, rfl, rfl⟩,
    ⟨mBeat, 0, tile mBeat 0, matCtx, mReady, mStage.1, mStage.2, mLoad.1, mLoad.2, mWeights, by decide +kernel⟩,
    ⟨mIdle, 0, tile mIdle 0, matCtx, aPass, mIdleStage.1, mIdleStage.2, mIdleLoad.1, mIdleLoad.2, true,
      by decide +kernel⟩,
    ⟨passing mOut [], 0, tile (passing mOut []) 0, mOut, 5, [], by decide +kernel⟩,
    ⟨passing mStore [], 0, tile (passing mStore []) 0, mStore, 0, 0, [], by decide +kernel⟩,
    ⟨passing mConv [], 0, tile (passing mConv []) 0, mConv, 0, 0, [], matCtx,
      bankLines (bankGet (tile (passing mConv []) 0) 0), 0, tile (passing mConv []) 0,
      tile (passing mConv []) 0, { mConv with outw := bankLines (bankGet (tile (passing mConv []) 0) 0) },
      by decide +kernel⟩,
    ⟨mEnd, 0, 0, tile mEnd 0, by decide +kernel⟩,
    ⟨mStuck, 0, 0, tile mStuck 0, by decide +kernel⟩⟩

theorem witness_SteeringRowsComplete :
    (∃ s t slot arb x c act val loop ta tp a p y sends y' snd z, Acts (.steeringFiring t slot arb) s ∧
      x = tile s t ∧ c = ctxOf x slot ∧ cClass c = 3 ∧ live x slot = true ∧ (slotRun x slot).fork = none ∧
      (slotRun x slot).second = none ∧ drainStuck x slot (steerNeeds x slot) = false ∧ steerTurn x slot = true ∧
      firingOf x slot arb = some ((act, val, loop), ta, tp) ∧ sOp c ≠ 2 ∧
      a = (if ta then qTok x slot 0 else none) ∧ p = (if tp then qTok x slot 2 else none) ∧
      (sLchk c = true → ∀ w ∈ a.toList ++ p.toList, w.loop.toNat = loop) ∧
      y = (if sCsrc c then x else qPop x slot 3) ∧ y' = (if ta then qPop y slot 0 else y) ∧
      z = (if tp then qPop y' slot 2 else y') ∧
      firingSends (sOp c) act (a.map (forward x slot)) (p.map (forward x slot)) = (sends, snd) ∧ (∀ e ∈ sends,
      outRoom x e.1 slot = true)) ∧
    (∃ s t slot arb x c act val loop ta tp w y y' z, Acts (.steeringFiring t slot arb) s ∧ x = tile s t ∧
      c = ctxOf x slot ∧ cClass c = 3 ∧ live x slot = true ∧ (slotRun x slot).fork = none ∧
      (slotRun x slot).second = none ∧ drainStuck x slot (steerNeeds x slot) = false ∧ steerTurn x slot = true ∧
      firingOf x slot arb = some ((act, val, loop), ta, tp) ∧ sOp c = 2 ∧ firingTokens x slot ta tp = (some w,
      z) ∧ mispaired c loop (usedLoops (some w) z) = false ∧ y = (if sCsrc c then x else qPop x slot 3) ∧
      y' = (if ta then qPop y slot 0 else y)) ∧
    (∃ s t slot arb x c act val loop ta tp a p, Acts (.steeringFiring t slot arb) s ∧ x = tile s t ∧
      c = ctxOf x slot ∧ cClass c = 3 ∧ live x slot = true ∧ (slotRun x slot).fork = none ∧
      (slotRun x slot).second = none ∧ drainStuck x slot (steerNeeds x slot) = false ∧ steerTurn x slot = true ∧
      firingOf x slot arb = some ((act, val, loop), ta, tp) ∧ firingTokens x slot ta tp = (a, p) ∧
      mispaired c loop (usedLoops a p) = true) ∧
    (∃ s t slot arb x j n w act, Acts (.steeringFiring t slot arb) s ∧ x = tile s t ∧ cClass (ctxOf x slot) = 3 ∧
      live x slot = true ∧ (slotRun x slot).fork = some (j, n, w, act) ∧ steerTurn x slot = true) ∧
    (∃ s t slot arb x w, Acts (.steeringFiring t slot arb) s ∧ x = tile s t ∧ cClass (ctxOf x slot) = 3 ∧
      live x slot = true ∧ (slotRun x slot).fork = none ∧ (slotRun x slot).second = some w ∧
      steerTurn x slot = true ∧ outRoom x 0 slot = true) ∧
    (∃ s t slot x c, Acts (.counterRunStart t slot) s ∧ x = tile s t ∧ c = ctxOf x slot ∧ cClass c = 4 ∧
      live x slot = true ∧ (slotRun x slot).ctr = none ∧ kTrig c = false ∧ (slotRun x slot).runs < kRuns c) ∧
    (∃ s t slot x c w n, Acts (.counterRunStart t slot) s ∧ x = tile s t ∧ c = ctxOf x slot ∧ cClass c = 4 ∧
      live x slot = true ∧ (slotRun x slot).ctr = none ∧ kTrig c = true ∧ drainStuck x slot [3] = false ∧
      qTok x slot 3 = some w ∧ n = (if kNsrc c then bfld w.payload 16 16 else kNiter c)) ∧
    (∃ s t slot x r o w rest, Acts (.counterEmit t slot) s ∧ x = tile s t ∧ cClass (ctxOf x slot) = 4 ∧
      live x slot = true ∧ (slotRun x slot).ctr = some r ∧ steerTurn x slot = true ∧ runToken x slot r = ((o,
      w), rest) ∧ outRoom x o slot = true) ∧
    (∃ s t slot memOk x c i loop line y1 y2 y3 y4, Acts (.moveWord t slot memOk) s ∧ x = tile s t ∧
      c = ctxOf x slot ∧ (vSrc c ≠ 1 ∨ memOk = true) ∧ cClass c = 2 ∧ live x slot = true ∧
      drainStuck x slot (moveNeeds x slot) = false ∧ nextReady x.lastM (moveReady x) = some slot ∧ (i,
      loop) = (slotRun x slot).mv.getD (0, if vSrc c = 1 then 0 else (qTok x slot 0).elim 0 fun w => w.loop) ∧
      line = (if vSrc c = 1 then scratchAt x (vSbase c + i) else (qTok x slot 0).elim 0 fun w => w.payload) ∧
      y1 = (if (slotRun x slot).mv.isNone && gated x slot then qPop x slot 3 else x) ∧
      y2 = (if vSrc c = 1 then y1 else qPop y1 slot 0) ∧
      y3 = (if vDst c = 0 then y2 else { y2 with scratch := tset y2.scratch ((vDbase c + i) % 1024) line }) ∧
      y4 = (if vDst c = 1 then y3 else sendOut y3 0 (outWord x slot line 0 loop))) :=
  ⟨⟨sFire, 0, 0, false, tile sFire 0, steerCtx, 0, 0, 0, true, false, some (token 0 0 5), none, tile sFire 0, [(0,
      forward (tile sFire 0) 0 (token 0 0 5))], qPop (tile sFire 0) 0 0, none, qPop (tile sFire 0) 0 0,
      by decide +kernel⟩,
    ⟨sFork, 0, 0, false, tile sFork 0, forkCtx, 0, 0, 0, true, false, token 0 0 5, tile sFork 0,
      qPop (tile sFork 0) 0 0, none, by decide +kernel⟩,
    ⟨sLoop, 0, 0, false, tile sLoop 0, loopCtx, 0, 0, 0, true, false, some (token 0 0 5), none, by decide +kernel⟩,
    ⟨sCopies, 0, 0, false, tile sCopies 0, 0, 2, token 0 0 5, 1, by decide +kernel⟩,
    ⟨sSecond, 0, 0, false, tile sSecond 0, token 0 0 5, by decide +kernel⟩,
    ⟨kStart, 0, 0, tile kStart 0, countCtx, by decide +kernel⟩,
    ⟨kTrigged, 0, 0, tile kTrigged 0, trigCtx, token 1 0 7, 3, by decide +kernel⟩,
    ⟨kEmit, 0, 0, tile kEmit 0, kRun, 0, (runToken (tile kEmit 0) 0 kRun).1.2, (runToken (tile kEmit 0) 0 kRun).2,
      by decide +kernel⟩,
    ⟨vMove, 0, 0, true, tile vMove 0, moveCtx, 0, 0, 0, tile vMove 0, tile vMove 0, vMoved, vMoved,
      by decide +kernel⟩⟩

theorem witness_RouterRowsComplete :
    (∃ s t inp lbl out w r x, Acts (.routerOutputGrant t inp lbl true) s ∧ x = tile s t ∧ lbl ≠ 8 ∧
      wants x t inp lbl = some out ∧ turnOf s t inp lbl out = true ∧ canTake s t inp lbl out = true ∧
      inQueue x inp lbl = w :: r ∧ out < 8) ∧
    (∃ s t inp lbl out w r x l y, Acts (.routerOutputGrant t inp lbl true) s ∧ x = tile s t ∧ lbl ≠ 8 ∧
      wants x t inp lbl = some out ∧ turnOf s t inp lbl out = true ∧ canTake s t inp lbl out = true ∧
      inQueue x inp lbl = w :: r ∧ 8 ≤ out ∧ out < 12 ∧ l = rLabel x.rwA inp lbl ∧
      y = passMark s.time.watch inp lbl w { x with inq := tset x.inq (8 * inp + lbl) r } ∧
      toCollector y l = false) ∧
    (∃ s t inp lbl out w r x l y, Acts (.routerOutputGrant t inp lbl true) s ∧ x = tile s t ∧ lbl ≠ 8 ∧
      wants x t inp lbl = some out ∧ turnOf s t inp lbl out = true ∧ canTake s t inp lbl out = true ∧
      inQueue x inp lbl = w :: r ∧ 8 ≤ out ∧ out < 12 ∧ l = rLabel x.rwA inp lbl ∧
      y = passMark s.time.watch inp lbl w { x with inq := tset x.inq (8 * inp + lbl) r } ∧
      toCollector y l = true) ∧
    (∃ s t inp out w r x, Acts (.routerOutputGrant t inp 8 true) s ∧ x = tile s t ∧ wants x t inp 8 = some out ∧
      turnOf s t inp 8 out = true ∧ canTake s t inp 8 out = true ∧ tget [] x.cfgq inp = w :: r) ∧
    (∃ s t inp lbl out w r x, Acts (.routerOutputGrant t inp lbl true) s ∧ x = tile s t ∧ lbl ≠ 8 ∧
      wants x t inp lbl = some out ∧ turnOf s t inp lbl out = true ∧ canTake s t inp lbl out = true ∧
      inQueue x inp lbl = w :: r ∧ 12 ≤ out ∧ thas x.held inp = false) ∧
    (∃ s t src u out inp chk w y ws, Acts (.routerTokenArrival t src chk) s ∧ src < 8 ∧
      out = (src + 2) % 4 + (if src < 4 then 0 else 4) ∧ inp = (if src < 4 then src else 4) ∧
      away t (src % 4) (if src < 4 then 1 else 8) = some u ∧ (partOfTile s t).isSome = true ∧
      partOfTile s t = partOfTile s u ∧ y = tile s u ∧
      (tget [] y.latch out).find? (canEnter (tile s t) inp) = some w ∧ ws = (tget [] y.latch out).erase w) ∧
    (∃ s t src chk x k w, Acts (.routerTokenArrival t src chk) s ∧ x = tile s t ∧ 8 ≤ src ∧ src < 10 ∧
      nextReady (tget 7 x.lastO (src - 8)) (fun k => (loutWord x (src - 8) k).isSome) = some k ∧
      loutWord x (src - 8) k = some w) ∧
    (∃ s t chk w, Acts (.routerTokenArrival t 10 chk) s ∧ tfind s.injectOut (t / 64 / 8) = some w ∧ t % 64 = 0 ∧
      t / 64 = cfgTarget w / 64 ∧ canEnter (tile s t) 0 w = true) ∧
    (∃ (s : State) (t inp : Nat) (w : Chan) (x : Tile), x = tile s t ∧ epochFits x t inp w.ctx.toNat w = true ∧
      w.kind.toNat ≠ 3 ∧ (w.epoch = x.epoch → rOut x.rwA inp w.ctx.toNat < 12)) ∧
    (∃ (s : State) (t inp : Nat) (w : Chan) (x : Tile), x = tile s t ∧ epochFits x t inp w.ctx.toNat w = true ∧
      w.kind.toNat = 3) ∧
    (∃ (s : State) (t inp : Nat) (w : Chan) (x : Tile) (chk : Ecc), chk ≠ .bad ∧ x = tile s t ∧
      epochFits x t inp w.ctx.toNat w = false) ∧
    (∃ s t inp x w r y, Acts (.configTokenWrite t inp) s ∧ x = tile s t ∧ tget [] x.cfgq inp = w :: r ∧
      cfgTarget w = t ∧ thas x.held (heldKey inp w) = false ∧ w.epoch = x.epoch + 1 ∧ cfgType w = 1 ∧
      cEpoch w.payload = w.epoch.toNat ∧ y = refresh t { x with cfgq := tset x.cfgq inp r }) ∧
    (∃ s t inp x w r y, Acts (.configTokenWrite t inp) s ∧ x = tile s t ∧ tget [] x.cfgq inp = w :: r ∧
      cfgTarget w = t ∧ thas x.held (heldKey inp w) = false ∧ w.epoch = x.epoch + 1 ∧ cfgType w = 0 ∧
      cEpoch w.payload = w.epoch.toNat ∧ contextOk w.payload = true ∧
      y = refresh t { x with cfgq := tset x.cfgq inp r }) ∧
    (∃ s p j x i c tgt slot w r word i', Acts (.injectorSend p j) s ∧ x = part s p ∧ x.inject = some i ∧
      (colsOf x)[j]? = some c ∧ tget [] i.recs j = (tgt, slot, w) :: r ∧ i.left = 0 ∧ halted x = false ∧
      s.power.gate ≠ 65536 ∧ thas s.injectOut c = false ∧ tilesReady s x i.epoch = true ∧
      word = Chan.mk (withEpoch w i.epoch) (BitVec.ofNat 16 (8192 * (tgt / 8192) + 512 * c + tgt % 512)) 3
      i.epoch (BitVec.ofNat 3 slot) ∧ i' = { i with recs := tset i.recs j r }) ∧
    (∃ s t, Acts (.tileEpochSwitch t) s ∧ maySwitch (tile s t) = true) :=
  ⟨⟨rHop, 0, 0, 0, 1, token 0 0 5, [], tile rHop 0, by decide +kernel⟩,
    ⟨rLocal, 0, 0, 0, 8, token 0 0 5, [], tile rLocal 0, 0, rGo rLocal, by decide +kernel⟩,
    ⟨rColl, 0, 0, 0, 8, token 0 0 5, [], tile rColl 0, 0, rGo rColl, by decide +kernel⟩,
    ⟨rCfgHop, 0, 0, 1, goesEast, [], tile rCfgHop 0, by decide +kernel⟩,
    ⟨rLost, 0, 1, 0, 15, token 0 0 5, [], tile rLost 0, by decide +kernel⟩,
    ⟨rNext, 64, 3, 0, 1, 3, .ok, toEnter, tile rNext 0, [], by decide +kernel⟩,
    ⟨rOwn, 0, 8, .ok, tile rOwn 0, 0, toEnter, by decide +kernel⟩,
    ⟨rInj, 0, .ok, cfgWord 1 (word [(507, 1)]), by decide +kernel⟩,
    ⟨rEnter, 0, 0, toEnter, tile rEnter 0, by decide +kernel⟩,
    ⟨rEnter, 0, 0, cfgWord 0 (word [(507, 1)]), tile rEnter 0, by decide +kernel⟩,
    ⟨rEnter, 0, 0, token 0 5 5, tile rEnter 0, .corrected, by decide +kernel⟩,
    ⟨rCfg 1, 0, 0, tile (rCfg 1) 0, cfgWord 1 (word [(507, 1)]), [],
      refresh 0 { tile (rCfg 1) 0 with cfgq := tset (tile (rCfg 1) 0).cfgq 0 [] }, by decide +kernel⟩,
    ⟨rCfg 0, 0, 0, tile (rCfg 0) 0, cfgWord 0 (word [(507, 1)]), [],
      refresh 0 { tile (rCfg 0) 0 with cfgq := tset (tile (rCfg 0) 0).cfgq 0 [] }, by decide +kernel⟩,
    ⟨rSend, 1, 0, part rSend 1, anInject, 0, 8192, 0, 0, [], Chan.mk (withEpoch 0 1) 8192 3 1 0,
      { anInject with recs := tset anInject.recs 0 [] }, by decide +kernel⟩,
    ⟨rSwitch, 0, by decide +kernel⟩⟩

theorem witness_DeliveryRowsComplete :
    (∃ s b lane i r u, Acts (.operandPortDelivery b lane) s ∧ s.power.gate ≠ 65536 ∧
      tget [] (ve s b).lanes lane = i :: r ∧ u = modVe s b (fun x => { x with lanes := tset x.lanes lane r }) ∧
      i.dest = none) ∧
    (∃ s b lane i r k, Acts (.operandPortDelivery b lane) s ∧ s.power.gate ≠ 65536 ∧
      tget [] (ve s b).lanes lane = i :: r ∧ i.dest = some k) ∧
    (∃ (s : State) (t slot role : Nat) (w : Chan) (took : State → State), w.epoch = (tile s t).epoch ∧
      roomIn (ctxQueue (tile s t) slot role) = true) ∧
    (∃ s b lane p a, Acts (.operandPortDelivery b lane) s ∧ s.power.gate ≠ 65536 ∧
      tget [] (ve s b).lanes lane = [] ∧ partOfBlock s b = some p ∧
      (part s p).stream.active.find? (deliverable s p b lane) = some a) ∧
    (∃ s t x, Acts (.handshakeWatchdogExpiry (.tileSwitch t)) s ∧ x = tile s t ∧
      (overdue s x.firstMark = true ∨ overdue s x.heldSince = true)) ∧
    (∃ s b, Acts (.handshakeWatchdogExpiry (.ve b)) s ∧ overdue s (ve s b).waitSince = true) ∧
    (∃ s t slot, Acts (.handshakeWatchdogExpiry (.context t slot)) s ∧
      overdue s (slotRun (tile s t) slot).waitSince = true) :=
  ⟨⟨dPort none, 0, 0, anItem none, [], modVe (dPort none) 0 fun x => { x with lanes := tset x.lanes 0 [] },
      by decide +kernel⟩,
    ⟨dPort (some 1), 0, 0, anItem (some 1), [], 1, by decide +kernel⟩,
    ⟨up, 0, 0, 1, token 0 0 5, id, by decide +kernel⟩,
    ⟨dStream, 0, 0, 1, aDrain, by decide +kernel⟩,
    ⟨wTile, 0, tile wTile 0, by decide +kernel⟩,
    ⟨wVe, 0, by decide +kernel⟩,
    ⟨wSlot, 0, 0, by decide +kernel⟩⟩

/-! ### The machine, and rules whole -/

theorem witness_StepRunsFront :
    (∃ s c rest, s.pending = c :: rest ∧ ∃ t, step s = .next t) ∧ (∃ s : State, s.pending = [] ∧ step s = .next s) :=
  ⟨⟨{ up with pending := [.tileEpochSwitch 0, .tileEpochSwitch 1] }, .tileEpochSwitch 0, [.tileEpochSwitch 1], rfl, _, rfl⟩, up, rfl, rfl⟩

/-- A command that acts, and one that does not in reset. -/
theorem witness_EveryCommandCompletes :
    (∃ s, Acts (.tileEpochSwitch 0) s) ∧ (∃ s, ¬ Acts (.tileEpochSwitch 0) s) :=
  ⟨⟨rSwitch, by decide +kernel⟩, State.reset, by decide +kernel⟩

theorem witness_MemoryStaysCanonical :
    ∃ s t : State, s.mem.t0 ≠ [] ∧ s.mem.wf = true ∧ step s = .next t :=
  ⟨{ objects with pending := [.tileEpochSwitch 0] }, _, by decide +kernel, by decide +kernel, rfl⟩

theorem witness_CommandsKeepTheRest : ∃ i s t, exec i s = .next t ∧ Acts i s :=
  ⟨.tileEpochSwitch 0, rSwitch, _, rfl, by decide +kernel⟩

/-- The last byte written, the byte before the first and the byte behind the last; the last of a frame; a copy within its tier. -/
theorem witness_StoresNameTheirBytes :
    (∃ (s : State) (o : Nat) (bs : List Byte) (a tier : Nat), s.mem.wf = true ∧ tier ≤ 2 ∧ o ≤ a ∧ a < o + bs.length) ∧
    (∃ (s : State) (o : Nat) (bs : List Byte) (a tier : Nat), s.mem.wf = true ∧ tier ≤ 2 ∧ ¬ (o ≤ a ∧ a < o + bs.length)) ∧
    (∃ (s : State) (f a tier : Nat), s.mem.wf = true ∧ tier ≤ 2 ∧ frameBytes * f ≤ a ∧ a < frameBytes * f + frameBytes) ∧
    (∃ (s : State) (o o' len a tier tier' : Nat), s.mem.wf = true ∧ tier ≤ 2 ∧ tier' ≤ 2 ∧ o' ≤ a ∧ a < o' + len ∧
      o < o' ∧ o' < o + len) ∧
    (∃ tier tier' other : Nat, tier ≤ 2 ∧ tier' ≤ 2 ∧ other ≤ 2 ∧ other ≠ tier) ∧
    (∃ (s u : State) (o : Nat) (bs : List Byte) (f o' len tier tier' : Nat),
      u ∈ [writeTier s tier o bs, zeroFrame s tier f, copyBytes s tier' o' tier o len]) :=
  ⟨⟨objects, 7, [1, 2], 8, 2, by decide +kernel⟩, ⟨objects, 7, [1, 2], 9, 0, by decide +kernel⟩,
    ⟨objects, 30, 31 * 2097152 - 1, 0, by decide +kernel⟩, ⟨objects, 100, 101, 2, 102, 0, 0, by decide +kernel⟩,
    ⟨2, 2, 0, by decide⟩, objects, writeTier objects 0 0 [], 0, [], 0, 0, 0, 0, 0, List.mem_cons_self ..⟩

theorem witness_StrayBeforeUnrouted :
    ∃ s t inp w, epochFits (tile s t) t inp w.ctx.toNat w = false ∧ rOut (tile s t).rwA inp w.ctx.toNat = 15 :=
  ⟨tileAt id, 0, 6, token 0 9 5, by decide +kernel⟩

theorem witness_AccumulatorPlaces :
    (∃ (bank r n : Nat) (ws : List W32), bank ≤ 1 ∧ r ≤ 15 ∧ n ≤ 7 ∧ ws.length = 128 ∧ bank = 0) ∧
    (∃ (bank r n : Nat) (ws : List W32), bank ≤ 1 ∧ r ≤ 15 ∧ n ≤ 7 ∧ ws.length = 128 ∧ bank = 1) :=
  ⟨⟨0, 0, 0, List.replicate 128 1, by decide +kernel⟩, 1, 15, 7, List.replicate 128 1, by decide +kernel⟩

def seedCmd : Cmd := cmd 0x107 1 (le 8 77)

theorem witness_RoundingSeedReachesGenerators :
    (∃ s p c, Begins (.seed p) s p c ∧ c.opc = 0x0107) ∧
    (∃ s t p m, Acts (.tileEpochSwitch t) s ∧ maySwitch (tile s t) = true ∧ partOfTile s t = some p ∧
      m = BitVec.ofNat 32 ((16 * t + ((tile s t).epoch + 1).toNat) * 0x9e3779b9)) :=
  ⟨⟨asks up seedCmd, 1, seedCmd, by decide +kernel⟩, rSwitch, 0, 1, 0x9e3779b9, by decide +kernel⟩

/-- None sent before; one sent in the window; one sent in the window before. -/
theorem witness_IsolationOncePerWindow :
    (∃ (s : State) (p : Nat), (part s p).lastIsol = none64) ∧
    (∃ (s : State) (p : Nat), (part s p).lastIsol ≠ none64 ∧ (part s p).lastIsol / 25000 = count s / 25000) ∧
    (∃ (s : State) (p : Nat), (part s p).lastIsol / 25000 ≠ count s / 25000) :=
  ⟨⟨up, 1, by decide +kernel⟩, ⟨up1 fun x => { x with lastIsol := 24999 }, 1, by decide +kernel⟩,
    up1 fun x => { x with lastIsol := 25000 }, 1, by decide +kernel⟩

def beforeL (raise raises : Nat) : State :=
  { up with
    boot := { up.boot with done := [.a, .b, .c, .d, .e, .f, .g, .h, .j, .k], svn := 5, raises := raises }
    mem := { up.mem with image := mwrite [] 0 [1, BitVec.ofNat 8 raise] } }

theorem witness_SecurityMinimumRaised :
    (∃ s, Acts .startupServiceFirmware s ∧ s.boot.safe = false ∧ phaseDone s .l = false ∧ phaseDone s .g = true ∧
      phaseDone s .h = true ∧ imgF s 1 1 % 2 = 1 ∧ s.boot.svnMin < s.boot.svn ∧ s.boot.raises < 64) ∧
    (∃ s, Acts .startupServiceFirmware s ∧ s.boot.safe = false ∧ phaseDone s .l = false ∧ phaseDone s .g = true ∧
      phaseDone s .h = true ∧ imgF s 1 1 % 2 = 0) ∧
    (∃ s, Acts .startupServiceFirmware s ∧ s.boot.safe = false ∧ phaseDone s .l = false ∧ phaseDone s .g = true ∧
      phaseDone s .h = true ∧ imgF s 1 1 % 2 = 1 ∧ s.boot.svnMin < s.boot.svn ∧ s.boot.raises = 64) ∧
    (∃ s, covers s.boot.imageGot 0x140 = true ∧ imgHeaderBad s = false ∧
      covers s.boot.imageGot (0x140 + imgCode s + imgData s) = true ∧ imgF s 4 4 < s.boot.svnMin) :=
  ⟨⟨beforeL 1 63, by decide +kernel⟩, ⟨beforeL 0 0, by decide +kernel⟩, ⟨beforeL 1 64, by decide +kernel⟩,
    { up with
      boot := { up.boot with imageGot := [(0, 0x140)], svnMin := 1 }
      mem := { up.mem with image := mwrite [] 0 [1] } }, by decide +kernel⟩

def onward : Txn := { aTxn 4 with dchip := 9 }
def linkRouted : State :=
  modFabric (linked fun x => x) fun f => { f with routes := [(9, 1)], ents := List.replicate 6 anEnt }
def routedTo : State := (route linkRouted 0 onward).getD up

/-- The frame that begins a transaction to chip 9, and one that goes on. -/
def crosses (vcf : Nat) : List Byte := mkFrame 0 1 0 vcf 0 32 0 ([4, 0, 9, 0] ++ zeros 28)

theorem witness_DeliveryByChip :
    (∃ (s : State) (t : Txn), s.fabric.accepted = true ∧ t.dchip = s.fabric.chip) ∧
    (∃ (s : State) (l : Nat) (bs : List Byte), l ≠ 18 ∧ (parseTxn bs).dchip = s.fabric.chip ∧
      ¬ ((parseTxn bs).ttype = 0x12 ∧ follows s (parseTxn bs) = false)) ∧
    (∃ (s : State) (l : Nat) (f : List Byte), l ≠ 18 ∧ fSot f = true ∧ 32 ≤ (fPayload f).length ∧
      (parseTxn (fPayload f)).dchip ≠ s.fabric.chip) ∧
    (∃ (l : Nat) (f : List Byte), l ≠ 18 ∧ fSot f = false) ∧
    (∃ s phase t u k, route s phase t = some u ∧ linkFor s t ≠ some k) ∧ (∃ s t l, linkFor s t = some l) :=
  ⟨⟨up, aTxn 4, by decide +kernel⟩, ⟨up, 17, [4, 0, 7, 0], by decide +kernel⟩, ⟨up, 0, crosses 8, by decide +kernel⟩,
    ⟨0, crosses 0, by decide +kernel⟩, ⟨linkRouted, 0, onward, routedTo, 4, by decide +kernel⟩, linkRouted, onward, 5,
    by decide +kernel⟩

def noSpare : State := modSafety up fun f => { f with badSegs := [64, 65] }

theorem witness_ReplacementSegment :
    (∃ s d r g c, replacement s d r g = some c) ∧ (∃ s d r g, replacement s d r g = none) ∧
    (∃ (m : List Nat) (g c : Nat), m.Pairwise (· < ·) ∧ (∀ k ∈ m, k < 66) ∧ g ∈ m ∧ c ∉ m ∧ c < 66 ∧ g < c) ∧
    (∃ (m : List Nat) (g c : Nat), m.Pairwise (· < ·) ∧ (∀ k ∈ m, k < 66) ∧ g ∈ m ∧ c ∉ m ∧ c < 66 ∧ c < g) ∧
    (∃ (m : List Nat) (g c i x : Nat), m[i]? = some x ∧ x < g ∧ x < c) ∧
    (∃ (m : List Nat) (g c i x : Nat), m[i]? = some x ∧ g ≤ x ∧ x < c) ∧
    (∃ (m : List Nat) (g c i x : Nat), m[i]? = some x ∧ c < x ∧ x ≤ g) :=
  ⟨⟨up, 0, 0, 5, 64, by decide +kernel⟩, ⟨noSpare, 0, 0, 5, by decide +kernel⟩, ⟨List.range 64, 0, 65, by decide +kernel⟩,
    ⟨(List.range 64).map (· + 2), 65, 0, by decide +kernel⟩, ⟨[3, 4], 4, 5, 0, 3, by decide⟩, ⟨[3, 4], 3, 5, 0, 3, by decide⟩,
    [3, 4], 4, 2, 1, 4, by decide⟩

/-- Top-2 of two experts, with equal scores. -/
theorem witness_ExpertChoice :
    ∃ (x : Ve) (ps : List W32) (j : Nat) (b : Nat → W32) (n e1 e2 : Nat),
      (∀ e, b e = fadd (rtScore x ps j e) (rtBias x ps e)) ∧ n = rtExperts ps ∧ (e1, e2) = choices x ps j ∧
      rtK2 ps = true ∧ 2 ≤ n :=
  ⟨Ve.reset, [0x20010000], 0, _, 2, 0, 1, fun _ => rfl, by decide +kernel, by decide +kernel, by decide +kernel,
    by decide +kernel⟩

/-- A NOP packet to the device; one with another SEQ; one with RESYNC. -/
def packet (flags seq : Nat) : List Byte := fields 32 [(0, 1, 1), (1, 1, flags), (2, 2, 1), (4, 1, 255), (8, 4, seq)]

theorem witness_SequenceNumbers :
    (∃ s port pkt, headerCheck s port pkt ∈ [0, 0x2001, 0x1103] ∧ headerCheck s port pkt = 0) ∧
    (∃ s port pkt, headerCheck s port pkt ∈ [0, 0x2001, 0x1103] ∧ headerCheck s port pkt = 0x1103) ∧
    (∃ s port pkt, headerCheck s port pkt ∈ [0, 0x2001, 0x1103] ∧ nfld (fld pkt 1 1) 2 1 = 1 ∧ fld pkt 8 4 ≠ 0) ∧
    (∃ (s : State) (port : Nat) (pkt : List Byte), portOpen s port = true ∧ port ≤ 2 ∧ 32 ≤ pkt.length ∧
      ¬ (port = 0 ∧ s.boot.ready = false ∧ fld pkt 0 1 = 0xb1)) ∧
    (∃ s pkt t, portOpen s 3 = true ∧ cmdMessage s pkt = some t ∧ fromTwin s t = true ∧ 32 ≤ pkt.length) :=
  ⟨⟨up, 0, packet 0 0, by decide +kernel⟩, ⟨up, 0, packet 0 1, by decide +kernel⟩, ⟨up, 0, packet 4 9, by decide +kernel⟩,
    ⟨modLink up 18 fun x => { x with st := .up }, 0, packet 0 0, by decide +kernel⟩, nineSent, fromNine, nineTxn,
    by decide +kernel⟩

/-! ### Ill-formed commands: one for each kind of check -/

/-- A pair message whose records are not those of its kind, and one with a field too wide. -/
def mixed : PairMsg := aPair 1 [.grain 0]
def wide : PairMsg := { aPair 7 [] with part := 256 }

/-- A record of a width that is not its kind's. -/
def cut : PairMsg := aPair 6 [.record []]

theorem test_ports_and_queues_refused :
    [Instr.commandPacketArrival 4 [], .echo 17, .identity 17, .telemetry 17].all (fun i => !i.wf) = true := by decide
theorem test_partition_refused : [Instr.seed 16, .streamFeed 16 true, .stepBegin 16 0 [] none, .yieldBoundary 16].all
    (fun i => !i.wf) = true := by decide
theorem test_management_refused :
    [Instr.setEndpointId 3 0 8, .setEndpointId 1 256 8, .getEndpointId 0, .entdaa 1 128, .setdasa 1 8 128, .rackManagerLost 3,
      .orphanCapApply 0, .mctpUnsupportedControl 1 256, .getMctpVersionSupport 1 256].all (fun i => !i.wf) = true := by decide
theorem test_block_refused :
    [Instr.nop 128, .vadd 128, .sld 128 .ok, .veServiceStage 128 0 false, .mailboxWordArrival 0 128, .veProgramStart 0 32768 false [],
      .operandPortDelivery 0 8].all (fun i => !i.wf) = true := by decide
theorem test_tile_refused :
    [Instr.tileEpochSwitch 8192, .routerTokenArrival 0 11 .ok, .routerOutputGrant 0 7 0 true, .routerOutputGrant 0 0 9 true,
      .configTokenWrite 0 7, .injectorSend 0 16, .steeringFiring 0 8 false, .moveWord 8192 0 true].all
      (fun i => !i.wf) = true := by decide
theorem test_sites_and_units_refused :
    [WatchSite.tileSwitch 8192, .ve 128, .context 0 8].all (fun x => !siteOk x) = true ∧
    [BistUnit.block 128, .segment 2 0 0, .segment 0 8 0, .segment 0 0 66, .spareVe 2, .lane 19 0, .lane 0 5, .tier0 256,
      .tier1 64, .tier2 8, .ve 128].all (fun x => !unitOk x) = true := by decide
theorem test_memory_refused :
    [Instr.transferGrant 3 none, .pageRetirementDone 3 0, .channelFailure 3 0, .scanSegmentDone 8 0,
      .moveCopyStart 8388608 none].all (fun i => !i.wf) = true := by decide
theorem test_link_refused :
    [Instr.linkTrainLimit 19, .frameTransmit 0 6, .laneLockLoss 0 5].all (fun i => !i.wf) = true := by decide
theorem test_supply_and_spares_refused :
    [Instr.railLoss 13, .substitutionSchedule 2 0 0, .forcedSubstitution 0 8 0, .veSubstitution 128 0 0].all
      (fun i => !i.wf) = true := by decide
theorem test_pair_message_refused : [Instr.pairSetupRecv mixed, .pairAckRecv wide, .pairRecordRecv cut].all (fun i => !i.wf) = true := by
  decide

/-! ### Worked values of the spec -/

/-- "123456789". -/
def digits : List Byte := [0x31, 0x32, 0x33, 0x34, 0x35, 0x36, 0x37, 0x38, 0x39]

/-- 15 Table 14, the check column. -/
theorem test_check_values :
    checkValue 0 digits = 0xcbf43926 ∧ checkValue 1 digits = 0xe3069283 ∧ checkValue 2 digits = 0x6c40df5f0b497347 := by
  decide +kernel

/-- 04 Table 2: 0.3 converted to the five formats. -/
theorem test_conversions :
    convTo 0 0 0 0 (num32 0x3e99999a) = 0x2a ∧ convTo 1 0 0 0 (num32 0x3e99999a) = 0x35 ∧
      convTo 6 0 0 0 (num32 0x3e99999a) = 1 ∧ convTo 0x0b 0 0 0 (num32 0x3e99999a) = 0x3e9a ∧
      convTo 0x0c 0 0 0 (num32 0x3e99999a) = 0x34cd := by decide +kernel

/-- 04: the block of 0.3, 5.0 and -2.7 as MXFP4 and as MXINT8. -/
theorem test_microscaling :
    mxScale 7 [num32 0x3e99999a, num32 0x40a00000, num32 0xc02ccccd] = 0x7f ∧ mxElem 7 0x7f 0 0 (num32 0x3e99999a) = 1 ∧
      mxElem 7 0x7f 0 0 (num32 0x40a00000) = 6 ∧ mxElem 7 0x7f 0 0 (num32 0xc02ccccd) = 0xd ∧
      mxScale 8 [num32 0x3e99999a, num32 0x40a00000] = 0x81 ∧ mxElem 8 0x81 0 0 (num32 0x3e99999a) = 5 := by
  decide +kernel

/-- 04: the draw from state 1, and 0.3 converted with it. -/
theorem test_stochastic : genStep 1 = 0x00042021 ∧ convTo 0 1 (genDraw (genStep 1)) 0 (num32 0x3e99999a) = 0x2a := by
  decide +kernel

/-- 03: the first four weights of the G2 frame that begins 0x30, 0xb8, 0x1b. -/
theorem test_g2_weights :
    (List.range 4).map (fun k => convTo 0 0 0 0 (groupWeight 0x1bb830 2 k 0)) = [0x30, 0, 0xb0, 0xb8] := by decide +kernel

/-- 09: tier offset 0x12345678 in tiers 0 and 1. -/
theorem test_slots : slotOf 256 0x12345678 = (112, 0x123478) ∧ slotOf 64 0x12345678 = (32, 0x48d178) := by decide +kernel

/-- 08: four positions, four experts, top-2, capacity 2. -/
def routing : Ve :=
  let f (a : Nat) (ws : List W32) : Tab W32 := ws.zipIdx.map fun e => (a + e.2, e.1)
  { Ve.reset with
    cache := f 1000 [0x3f800000, 0x3f000000, 0x3f400000, 0x3fa00000] ++ f 1064 [0x3e800000, 0x3f800000, 0x3f000000, 0] ++
      f 1128 [0x40000000, 0, 0x3fc00000, 0x3f000000] ++ f 1192 [0x3fc00000, 0x3f400000, 0x3e800000, 0x3f800000] ++
      f 2000 [0x38000000, 0xb4000000] }
def routed : Ve := rtSelect [0x20030002, 4, 1000, 2000, 3000, 4000, 0] routing

/-- 08 Tables 3 and 4: records of slots 0 and 3, and the fill table. -/
theorem test_routing :
    cacheWords routed 4000 2 = [0x00010000, 0x00010000] ∧ cacheWords routed 4012 2 = [0xc0010000, 0x0fff0fff] ∧
      cacheWords routed 3000 4 = [2, 2, 2, 0] := by decide +kernel

/-- 08: the bias update that continues the example. -/
theorem test_bias :
    let b := newBalance 0 true 4 0x1400 0x3c00 { layer := 0, experts := 4, k2 := true, afmt := 0, rbytes := 64, retFmt := 0, retBytes := 64, bias := [] }
    newBias b 8192 4 3000 0 = 0x9400 ∧ newBias b 8192 4 2048 0x3800 = 0x3800 ∧ newBias b 8192 4 1500 0 = 0x1400 ∧
      newBias b 8192 4 1644 0xb400 = 0xb3f8 := by decide +kernel

/-- 16: segment 20 of the west die fails. -/
theorem test_replacement :
    replacement up 0 0 20 = some 64 ∧
      movedCols up 0 0 20 64 = (List.range 44).map (· + 20) := by decide +kernel

/-- 14 R324: the generator, monic of degree 8, has the eight roots; a half with 4 symbols changed is corrected to the sent one,
and with 5 changed it is not. -/
def sentHalf : List Nat := let d := (List.range 128).map fun i => i + 7; d ++ rsParity d
def struck (n : Nat) : List Nat := (List.range n).foldl (fun r i => r.set (33 * i) (r.getD (33 * i) 0 ^^^ (i + 1))) sentHalf

theorem test_fec :
    (rsGenerator.length = 9 ∧ rsGenerator.headD 0 = 1 ∧ (List.range 8).all (fun i => decide (gfEval rsGenerator (gfPow 2 i) = 0)) = true) ∧
      rsDecode (struck 4) = some sentHalf ∧ rsDecode (struck 5) ≠ some sentHalf := by decide +kernel

end Sys2Proof.Tests
end

section
/-! The accumulators of a tile in its registers (03 R40): which word of a bank stands in which lane of which register. -/

namespace Sys2Proof.Machine

theorem bankGet_getElem? (x : Tile) (bank : Nat) {i : Nat} (h : i < 128) :
    (bankGet x bank)[i]? = some (lane (regAt x (16 + 8 * bank + i / 16)) (i % 16)) := by
  simp [bankGet, h]

theorem bankLines_getElem? (ws : List W32) {k : Nat} (h : k < 8) :
    (bankLines ws)[k]? = some (lineOf (ws.drop (16 * k))) := by
  simp [bankLines, h]

theorem tfind_regs_bankSet (x : Tile) (bank : Nat) (ls : List Line) {k : Nat} (h : k < ls.length) :
    tfind (bankSet x bank ls).regs (16 + 8 * bank + k) = ls[k]? := by
  have inj : ∀ i j, 16 + 8 * bank + i = 16 + 8 * bank + j → i = j := by omega
  have found := tfind_foldl_tset (16 + 8 * bank + ·) inj ls 0 x.regs k
  simpa [bankSet, h] using found

theorem regAt_bankSet_bankLines (x : Tile) (bank : Nat) (ws : List W32) {k : Nat} (h : k < 8) :
    regAt (bankSet x bank (bankLines ws)) (16 + 8 * bank + k) = lineOf (ws.drop (16 * k)) := by
  have len : k < (bankLines ws).length := by simpa [bankLines] using h
  rw [regAt, tfind_regs_bankSet x bank _ len, bankLines_getElem? ws h, Option.getD_some]

/-- Word `i` of 128 put into a bank stands in lane `i mod 16` of the bank's register `i / 16`. -/
theorem lane_regAt_bankSet_bankLines (x : Tile) (bank : Nat) (ws : List W32) {i : Nat} (h : i < 128) :
    lane (regAt (bankSet x bank (bankLines ws)) (16 + 8 * bank + i / 16)) (i % 16) = ws.getD i 0 := by
  rw [regAt_bankSet_bankLines x bank ws (by omega), lane_lineOf _ (Nat.mod_lt i (by omega))]
  simp only [List.getD_eq_getElem?_getD, List.getElem?_drop, Nat.div_add_mod]

/-- The model's first register of a bank is the one R40 names. -/
theorem bankBase_eq {bank : Nat} (h : bank ≤ 1) : (if bank = 0 then 16 else 24) = 16 + 8 * bank := by
  split <;> omega

/-- Settles O52: the bank's words are read from, and written to, lane `i mod 16` of register `16 + 8 bank + i / 16`. -/
theorem accumulatorPlaces : Obligations.AccumulatorPlaces := by
  intro x bank r n ws hbank hr hn _
  have hi : 8 * r + n < 128 := by omega
  rw [bankBase_eq hbank]
  exact ⟨bankGet_getElem? x bank hi, lane_regAt_bankSet_bankLines x bank ws hi⟩

end Sys2Proof.Machine
end

section
/-! The rounding seed (04 R85): what SEED answers, and the generators a tile loads at its epoch switch. -/

namespace Sys2Proof.Machine

/-- A generator's load, with R85's multiplier word given. -/
theorem genLoad_of_mix {t e : Nat} {m : W32} (hm : m = BitVec.ofNat 32 ((16 * t + e) * 0x9e3779b9)) (seed : W32) :
    genLoad seed t e = if seed ^^^ m = 0 then 1 else seed ^^^ m := by
  subst hm; rfl

theorem switchTile_epoch (seed : W64) (t : Nat) (x : Tile) : (switchTile seed t x).epoch = x.epoch + 1 := rfl

theorem switchTile_gen0 (seed : W64) (t : Nat) (x : Tile) :
    (switchTile seed t x).gen0 = genLoad (seed.extractLsb' 0 32) t (x.epoch + 1).toNat := rfl

theorem switchTile_gen1 (seed : W64) (t : Nat) (x : Tile) :
    (switchTile seed t x).gen1 = genLoad (seed.extractLsb' 32 32) t (x.epoch + 1).toNat := rfl

/-- A SEED command that begins writes the seed of its partition and is answered with status 0. -/
theorem exec_seed_begins {s : State} {p : Nat} {c : Cmd} (h : Begins (.seed p) s p c) (hopc : c.opc = 0x0107) :
    exec (.seed p) s =
      .next (finish (modPart (taken s p c) c.part fun x => { x with seed := BitVec.ofNat 64 (pf c 0 8) }) c 0 0 []) :=
  row_begins h (decide_eq_true hopc) fun c s => answer c (seedOp c s)

/-- A tile of partition `p` that may switch takes its next epoch under `p`'s seed. -/
theorem exec_tileEpochSwitch_ready {s : State} {t p : Nat} (h : Acts (.tileEpochSwitch t) s)
    (ready : maySwitch (tile s t) = true) (hp : partOfTile s t = some p) :
    exec (.tileEpochSwitch t) s = .next (modTile s t (switchTile (part s p).seed t)) := by
  have row : exec (.tileEpochSwitch t) s = execTileEpochSwitch t s := rfl
  rw [row, execTileEpochSwitch, onWf_acts h, if_pos ready, hp, Option.elim_some]

/-- Settles O53: the seed is 0 at reset, SEED's row writes it, and the switched tile's generators are loads of its halves. -/
theorem roundingSeedReachesGenerators : Obligations.RoundingSeedReachesGenerators := by
  refine ⟨fun _ => rfl, fun s p c => exec_seed_begins, fun s t p m hacts ready hp hm => ?_⟩
  refine ⟨_, exec_tileEpochSwitch_ready hacts ready hp, ?_, ?_, ?_⟩
  · rw [tile_modTile_self, switchTile_epoch]
  · rw [tile_modTile_self, switchTile_gen0, genLoad_of_mix hm]
  · rw [tile_modTile_self, switchTile_gen1, genLoad_of_mix hm]

end Sys2Proof.Machine
end

section
/-! Integer elements (04 R69): what an INT8, INT4 or MXINT8 code reads as, and the range a conversion to MXINT8 stays in. -/

namespace Sys2Proof.Machine

theorem operandNum_int8 (w : Nat) : operandNum 0x09 w = numInt (BitVec.ofNat 8 w).toInt := by
  rw [← sgn8]; rfl

theorem operandNum_int4 (w : Nat) : operandNum 0x0a w = numInt (BitVec.ofNat 4 w).toInt := by
  rw [← sgn4]; rfl

theorem operandNum_mxInt8 (w : Nat) :
    operandNum 0x08 w = .fin (decide ((BitVec.ofNat 8 w).toInt < 0)) (BitVec.ofNat 8 w).toInt.natAbs (-6) := by
  rw [← sgn8]; rfl

/-- A saturating conversion to an integer stays between its bounds, when the integer that NaN gives does. -/
theorem toInt_mem_Icc {lo hi nan : Int} (hnan : nan ∈ Set.Icc lo hi) (mode r : Nat) (x : Num) :
    toInt mode r lo hi nan x ∈ Set.Icc lo hi := by
  have hle : lo ≤ hi := hnan.1.trans hnan.2
  cases x with
  | nan => exact hnan
  | inf s => cases s <;> simp [toInt, hle]
  | fin s m e => exact ⟨le_max_left .., max_le hle (min_le_left ..)⟩

theorem sgn_eight_le (w : Nat) : sgn 8 (w % 256) ≤ 127 := by
  rw [sgn8]; exact Int.le_of_lt_add_one BitVec.toInt_lt

/-- Whatever its scale, an MXINT8 element is the code of an integer from -127 to 127. -/
theorem mxElem_mxInt8 (scale mode r : Nat) (x : Num) :
    ∃ v ∈ Set.Icc (-127 : Int) 127, mxElem 0x08 scale mode r x = intBits 8 v := by
  unfold mxElem
  by_cases hs : scale = 0xff
  · rw [if_pos hs]
    exact ⟨_, ⟨le_max_left .., max_le (by decide) (sgn_eight_le _)⟩, rfl⟩
  · rw [if_neg hs]
    cases x with
    | nan => exact ⟨0, by decide, rfl⟩
    | inf s => exact ⟨0, by decide, rfl⟩
    | fin s m e => exact ⟨_, toInt_mem_Icc (nan := 0) (by decide) mode r _, rfl⟩

/-- The integers from -127 to 127 have all the 8-bit codes but 0x80. -/
theorem intBits_eight_ne_min {v : Int} (hv : v ∈ Set.Icc (-127 : Int) 127) : intBits 8 v < 256 ∧ intBits 8 v ≠ 0x80 := by
  obtain ⟨hlo, hhi⟩ := hv
  unfold intBits
  omega

/-- Settles O56: the codes read as two's complement, and every MXINT8 element is the code of an integer above -128. -/
theorem integerElements : Obligations.IntegerElements := by
  refine ⟨operandNum_int8, operandNum_int4, rfl, rfl, operandNum_mxInt8, operandNum_mxInt8 0x80, fun scale mode r x => ?_⟩
  obtain ⟨v, hv, code⟩ := mxElem_mxInt8 scale mode r x
  rw [code]
  exact intBits_eight_ne_min hv

end Sys2Proof.Machine
end

section
/-! Arrival at a router input (05 R116 to R118): the epoch check comes before the routing check. -/

namespace Sys2Proof.Machine

@[simp] theorem tile_modVe (s : State) (b t : Nat) (f : Ve → Ve) : tile (modVe s b f) t = tile s t := rfl

/-- Of the checks on a word whose code does not fail, the epoch is the first: a stray word is held at its input and
reported, and the rest of `enter`, which alone reads the entry of the routing word (`rOut`), is not reached. -/
theorem enter_of_stray {s : State} {t inp : Nat} {chk : Ecc} {w : Chan} (code : chk ≠ .bad)
    (stray : epochFits (tile s t) t inp w.ctx.toNat w = false) :
    enter t inp chk w s =
      tileFault
        (holdAt (if chk = .corrected then modVe s (blockOf t) fun v => { v with softErrors := v.softErrors + 1 } else s)
          t inp w)
        t 2 0 (strayData (tile s t) t inp w.ctx.toNat w) := by
  cases chk with
  | bad => exact absurd rfl code
  | ok => simp [enter, stray]
  | corrected => simp [enter, stray]

/-- Settles O51: a word with an intact code goes to the epoch check as it came, and a stray one ends there. -/
theorem strayBeforeUnrouted : Obligations.StrayBeforeUnrouted := fun _ _ _ _ stray =>
  enter_of_stray (chk := .ok) (by decide) stray

end Sys2Proof.Machine
end

section
/-! Expected sequence numbers (12 R281): which operations leave every E, and where the check on SEQ stands in 12 Table 3. -/

namespace Sys2Proof.Machine

/-! ### Replies leave every E -/

theorem interim_cs (s : State) (c : Cmd) (status detail : Nat) : (interim s c status detail).cs = s.cs := by
  unfold interim
  split
  · exact send_expect ..
  · rfl

theorem nack_cs (s : State) (port : Nat) (pkt : List Byte) (status : Nat) : (nack s port pkt status).cs = s.cs :=
  send_expect ..

theorem finish_expect (s : State) (c : Cmd) (status detail : Nat) (body : List Byte) :
    (finish s c status detail body).cs.expect = s.cs.expect := by
  simp only [finish, finishAt, unrun, modCs_cs, send_expect]

/-- The reply to a wrong SEQ tells the source which number its port expects. -/
theorem nack_seq_detail (s : State) (port : Nat) (pkt : List Byte) :
    ∃ r : Reply, nack s port pkt 0x1103 = send s port (.reply r) ∧ r.status = 0x1103 ∧
      r.detail = tget 0 s.cs.expect port :=
  ⟨_, rfl, rfl, rfl⟩

/-! ### Acceptance -/

theorem accept_expect (s : State) (c : Cmd) :
    (accept s c).cs.expect = tset s.cs.expect c.port ((c.seq + 1) % 2 ^ 32) := by
  simp only [accept, interim_cs, modCs_cs, stamp]

/-! ### The header checks -/

/-- A bit that is not set is clear. -/
theorem nfld_bit_ne_one_iff (w lo : Nat) : nfld w lo 1 ≠ 1 ↔ nfld w lo 1 = 0 := by
  unfold nfld
  omega

/-- When the outcome is among `l` and a check's failing status is not, the check was passed. -/
theorem passes_of_ite_mem {p : Prop} [Decidable p] {status rest : Nat} {l : List Nat} (h : (if p then status else rest) ∈ l)
    (other : status ∉ l) : (if p then status else rest) = rest ∧ rest ∈ l := by
  split at h
  · exact absurd h other
  · exact ⟨if_neg ‹_›, h⟩

/-- A header that checks 1 to 7 of 12 Table 3 let pass comes to check 8, which alone answers 0x1103. -/
theorem headerCheck_eq_seq_iff {s : State} {port : Nat} {pkt : List Byte}
    (late : headerCheck s port pkt ∈ [0, 0x2001, 0x1103]) :
    headerCheck s port pkt = 0x1103 ↔ nfld (fld pkt 1 1) 2 1 = 0 ∧ fld pkt 8 4 ≠ tget 0 s.cs.expect port := by
  simp only [headerCheck] at late ⊢
  obtain ⟨version, late⟩ := passes_of_ite_mem late (by decide)
  obtain ⟨source, late⟩ := passes_of_ite_mem late (by decide)
  obtain ⟨reserved, late⟩ := passes_of_ite_mem late (by decide)
  rw [version, source, reserved]
  match row : opcRow (fld pkt 2 2) with
  | none => simp [row] at late
  | some (srcs, place, lo, hi, stp) =>
    simp only [row] at late ⊢
    obtain ⟨sender, late⟩ := passes_of_ite_mem late (by decide)
    obtain ⟨target, late⟩ := passes_of_ite_mem late (by decide)
    obtain ⟨length, -⟩ := passes_of_ite_mem late (by decide)
    rw [sender, target, length, ← nfld_bit_ne_one_iff]
    split
    case isTrue differs => simpa using differs
    case isFalse fits =>
      refine iff_of_false ?_ (by simpa using fits)
      split <;> decide

/-! ### Arrival -/

theorem packetIn_of_header (port : Nat) {pkt : List Byte} (s : State) (header : 32 ≤ pkt.length) :
    packetIn port pkt s =
      if headerCheck s port pkt = 0 then accept s (parseCmd port pkt) else nack s port pkt (headerCheck s port pkt) :=
  if_neg (Nat.not_lt.mpr header)

theorem commandArrival_of_port_le_two {s : State} {port : Nat} {pkt : List Byte} (opened : portOpen s port = true)
    (near : port ≤ 2) (command : ¬ (port = 0 ∧ s.boot.ready = false ∧ fld pkt 0 1 = 0xb1)) :
    commandArrival port pkt s = packetIn port pkt (if port = 0 then takeMessage s 16 pkt else managerSeen s port) := by
  have notBoot : ¬ (port = 0 ∧ s.boot.ready = false ∧ fld pkt 0 1 = 0xb1 ∧ pkt ≠ []) :=
    fun ⟨onC, early, magic, _⟩ => command ⟨onC, early, magic⟩
  have notTwin : port ≠ 3 := by omega
  simp only [commandArrival, opened, Bool.not_true, Bool.false_eq_true, if_false, if_neg notBoot, if_neg notTwin]

theorem commandArrival_of_fromTwin {s : State} {pkt : List Byte} {t : Txn} (opened : portOpen s 3 = true)
    (whole : cmdMessage s pkt = some t) (sent : fromTwin s t = true) :
    commandArrival 3 pkt s =
      packetIn 3 pkt (modFabric s fun b => { b with ingress := dropMessage (streamKey t) b.ingress }) := by
  simp [commandArrival, opened, whole, sent]

/-- Settles O60: acceptance writes its own port's E alone, check 8 alone answers 0x1103, and replies leave every E. -/
theorem sequenceNumbers : Obligations.SequenceNumbers := by
  refine ⟨fun _ => rfl, fun _ _ => rfl, fun _ _ _ => headerCheck_eq_seq_iff, fun s port pkt k => ?accepted,
    fun _ _ _ _ => congrArg Seqr.expect (nack_cs ..), nack_seq_detail, finish_expect,
    fun s port pkt opened near header command => ?nearPort, fun s pkt t opened whole sent header => ?twinPort⟩
  case accepted => rw [accept_expect, tget_tset]; rfl
  case nearPort => rw [commandArrival_of_port_le_two opened near command, packetIn_of_header _ _ header]
  case twinPort => rw [commandArrival_of_fromTwin opened whole sent, packetIn_of_header _ _ header]

end Sys2Proof.Machine
end

section
/-! Where a transaction goes (14 R318, R328 to R331): to this device's own ingress, behind the frames to forward, or on the
link of its chip's route entry. -/

namespace Sys2Proof.Machine

/-! ### The link of a stream (14 R329, R331) -/

theorem mem_portLinks_iff {s : State} {p l : Nat} :
    l ∈ portLinks s p ↔
      l < 18 ∧ ∃ e, s.fabric.ents[l]? = some e ∧ e.en = true ∧ e.port = p ∧ inPort s l = true := by
  cases entry : s.fabric.ents[l]? <;> simp [portLinks, entry, and_assoc]

theorem mem_livePorts_iff {s : State} {chip p : Nat} :
    p ∈ livePorts s chip ↔
      ∃ ports, tfind s.fabric.routes chip = some ports ∧ p < 18 ∧ ports.getLsbD p = true ∧ portLinks s p ≠ [] := by
  cases entry : tfind s.fabric.routes chip <;> simp [livePorts, entry]

theorem mem_portLinks_of_linkFor {s : State} {t : Txn} {l : Nat} (h : linkFor s t = some l) :
    ∃ p ∈ livePorts s t.dchip, l ∈ portLinks s p := by
  simp only [linkFor] at h
  split at h
  case h_1 => cases h
  case h_2 p port => exact ⟨p, List.mem_of_getElem? port, List.mem_of_getElem? h⟩

/-! ### Sending on a link -/

theorem link_onLink_ne (s : State) {l k : Nat} (phase : Nat) (t : Txn) (h : k ≠ l) : link (onLink s l phase t) k = link s k :=
  link_setLink_ne s _ h

theorem txq_modLink {s : State} {l k : Nat} {g : Link → Link} (keeps : ∀ x, (g x).txq = x.txq) :
    (link (modLink s l g) k).txq = (link s k).txq := by
  rw [modLink, link_setLink]
  split
  case isTrue same => rw [same, keeps]
  case isFalse => rfl

theorem route_eq_some {s u : State} {phase : Nat} {t : Txn} (h : route s phase t = some u) :
    ∃ l, linkFor s t = some l ∧ (u = onLink s l phase t ∨ u.fabric.links = s.fabric.links) := by
  simp only [route] at h
  split at h
  case h_1 => cases h
  case h_2 l chosen =>
    refine ⟨l, chosen, ?_⟩
    split at h
    case isTrue => exact .inr (Option.some.inj h ▸ link_modFabric s _ rfl)
    case isFalse =>
      split at h
      case isTrue => exact .inl (Option.some.inj h).symm
      case isFalse => exact .inr (Option.some.inj h ▸ link_modFabric s _ rfl)

/-! ### Delivery to this chip (14 R328) -/

theorem issueTxn_of_here {s : State} {t : Txn} (accepted : s.fabric.accepted = true) (here : t.dchip = s.fabric.chip) :
    issueTxn s t = (0, ingress (modFabric s fun f => { f with sent := f.sent ++ [t] }) t) :=
  if_pos ⟨accepted, here⟩

/-- Of the fabric, what a link brings in order changes the credits to return; it is delivered or discarded. -/
theorem arrived_eq_ingress_or_discarded {s : State} {l : Nat} (ch : Nat) {bs : List Byte} (ordinary : l ≠ 18)
    (ordered : ¬ ((parseTxn bs).ttype = 0x12 ∧ follows s (parseTxn bs) = false)) :
    ∃ v, v.fabric = (returnCredits s l ch (txnFrames ch bs).length).fabric ∧
      (arrived s l ch bs = ingress v (parseTxn bs) ∨
        arrived s l ch bs = modFabric v fun f => { f with discarded := f.discarded + 1 }) := by
  simp only [arrived, if_neg ordinary]
  split
  case isTrue =>
    refine ⟨_, ?fabric, .inl (deliverTxn_links _ _ ?ordered)⟩
    all_goals split
    case fabric.isTrue | fabric.isFalse => rfl
    case ordered.isTrue | ordered.isFalse => exact ordered
  case isFalse => exact ⟨_, rfl, .inr rfl⟩

theorem arrived_keeps_sending {s : State} {l : Nat} (ch : Nat) {bs : List Byte} (ordinary : l ≠ 18)
    (ordered : ¬ ((parseTxn bs).ttype = 0x12 ∧ follows s (parseTxn bs) = false)) :
    (∀ k, (link (arrived s l ch bs) k).txq = (link s k).txq) ∧ (arrived s l ch bs).fabric.fwd = s.fabric.fwd ∧
      (arrived s l ch bs).fabric.waiting = s.fabric.waiting := by
  obtain ⟨v, returned, delivered⟩ := arrived_eq_ingress_or_discarded ch ordinary ordered
  have kept : (arrived s l ch bs).fabric.links = v.fabric.links ∧ (arrived s l ch bs).fabric.fwd = v.fabric.fwd ∧
      (arrived s l ch bs).fabric.waiting = v.fabric.waiting := by
    obtain delivered | dropped := delivered
    · rw [delivered]; exact ingress_links v _
    · rw [dropped]; exact ⟨rfl, rfl, rfl⟩
  rw [returned] at kept
  obtain ⟨links, fwd, waiting⟩ := kept
  exact ⟨fun k => (congrArg Link.txq (link_of_links links k)).trans (txq_modLink fun _ => rfl), fwd, waiting⟩

/-! ### Frames to forward (14 R318) -/

theorem txq_queueFrame (s : State) (l : Nat) (f : List Byte) (t : Txn) (k : Nat) :
    (link (queueFrame s l f t) k).txq = (link s k).txq :=
  txq_modLink (g := fun x => { x with partialTx := tset x.partialTx (fVc f) [] }) fun _ => rfl

/-- Settles O57: what is for this chip ends in `ingress`, what is not joins the frames to forward, and only `linkFor`'s link
is sent on. -/
theorem deliveryByChip : Obligations.DeliveryByChip := by
  refine ⟨fun s t accepted here => ⟨_, issueTxn_of_here accepted here, rfl, ingress_links _ t⟩,
    fun _ _ ch _ ordinary _ ordered => arrived_keeps_sending ch ordinary ordered,
    fun s l f ordinary first whole away => ?firstFrame, fun s l f ordinary later => ?laterFrame,
    fun s l f t => ⟨rfl, txq_queueFrame s l f t⟩, fun s phase t u k routed other => ?otherLinks,
    fun s t l chosen => ?liveLink⟩
  case firstFrame => simp [foreignTxn, ordinary, first, whole, away]
  case laterFrame => simp [foreignTxn, ordinary, later]
  case otherLinks =>
    obtain ⟨l, chosen, rfl | kept⟩ := route_eq_some routed
    · have ne : k ≠ l := fun same => other (same ▸ chosen)
      rw [link_onLink_ne s phase t ne]
    · rw [link_of_links kept]
  case liveLink =>
    obtain ⟨p, live, joins⟩ := mem_portLinks_of_linkFor chosen
    obtain ⟨ports, entry, -, named, -⟩ := mem_livePorts_iff.mp live
    obtain ⟨-, e, config, enabled, port, up⟩ := mem_portLinks_iff.mp joins
    exact ⟨p, ports, e, entry, named, config, enabled, port, up⟩

end Sys2Proof.Machine
end

section
/-! The fused minimum (15 R363, R364): the service-firmware phase raises it, reset keeps it, and an image below it is
refused. -/

namespace Sys2Proof.Machine

/-- R364's condition: the image has RAISE set, its SVN exceeds the fused minimum, and an increment is left. -/
def raisesMinimum (s : State) : Prop := imgF s 1 1 % 2 = 1 ∧ s.boot.svnMin < s.boot.svn ∧ s.boot.raises < 64

theorem raiseSvn_of_raisesMinimum {s : State} (h : raisesMinimum s) :
    raiseSvn s = modBoot s fun b => { b with svnMin := b.svn, raises := b.raises + 1 } := if_pos h

theorem raiseSvn_of_not_raisesMinimum {s : State} (h : ¬ raisesMinimum s) : raiseSvn s = s := if_neg h

theorem loadFirmware_boot (s : State) : (loadFirmware s).boot = { (raiseSvn s).boot with sfRunning := true } := rfl

/-- The end of a phase writes nothing that R364's condition reads. -/
theorem raisesMinimum_phaseEnded (s : State) (x : Phase) :
    raisesMinimum (modBoot s fun b => { b with done := b.done ++ [x] }) ↔ raisesMinimum s := Iff.rfl

/-- The service-firmware phase ends once verification and memory training have. -/
theorem exec_startupServiceFirmware_ready {s : State} (acts : Acts .startupServiceFirmware s)
    (safe : s.boot.safe = false) (pending : phaseDone s .l = false) (verified : phaseDone s .g = true)
    (trained : phaseDone s .h = true) :
    exec .startupServiceFirmware s =
      .next (loadFirmware (modBoot s fun b => { b with done := b.done ++ [.l] })) := by
  have needs : [Phase.g, .h].all (phaseDone s) = true := by simp [verified, trained]
  have row : exec .startupServiceFirmware s = execStartupServiceFirmware s := rfl
  rw [row, execStartupServiceFirmware, onWf_acts acts, phaseEnd_ready safe pending needs rfl]

/-- An image received whole whose header holds no reserved value is refused with cause 3 when its SVN is below the
minimum: the causes of lower number are those of its pieces and its header. -/
theorem imageCause_of_svn_lt {s : State} (header : covers s.boot.imageGot 0x140 = true)
    (fits : imgHeaderBad s = false) (whole : covers s.boot.imageGot (0x140 + imgCode s + imgData s) = true)
    (below : imgF s 4 4 < s.boot.svnMin) : imageCause s = 3 := by
  simp [imageCause, header, fits, whole, below]

/-- Settles O55: the phase's state is `loadFirmware`'s, whose `boot` is `raiseSvn`'s with the firmware started. -/
theorem securityMinimumRaised : Obligations.SecurityMinimumRaised := by
  refine ⟨fun s acts safe pending verified trained => ?phase, fun s => ⟨rfl, rfl⟩,
    fun s header fits whole below => imageCause_of_svn_lt header fits whole below⟩
  refine ⟨_, exec_startupServiceFirmware_ready acts safe pending verified trained, rfl, fun raise => ?raised,
    fun keep => ?kept⟩
  case raised =>
    rw [loadFirmware_boot, raiseSvn_of_raisesMinimum ((raisesMinimum_phaseEnded s .l).mpr raise)]
    exact ⟨rfl, rfl⟩
  case kept =>
    rw [loadFirmware_boot, raiseSvn_of_not_raisesMinimum (mt (raisesMinimum_phaseEnded s .l).mp keep)]
    exact ⟨rfl, rfl⟩

end Sys2Proof.Machine
end

section
/-! Column substitution (16 R389): the nearest usable segment replaces, the columns between move by one, and the partitions
that hold a moved column are affected. -/

namespace Sys2Proof.Machine

/-- The usable segments of a row and die, in order. -/
def usableSegs (s : State) (d r : Nat) : List Nat := (List.range 66).filter (segUsable s d r)

theorem mem_usableSegs_iff {s : State} {d r k : Nat} :
    k ∈ usableSegs s d r ↔ k < 66 ∧ segUsable s d r k = true := by
  simp [usableSegs]

theorem usableSegs_sorted (s : State) (d r : Nat) : (usableSegs s d r).Pairwise (· < ·) :=
  List.Pairwise.filter _ List.pairwise_lt_range

theorem replacement_of_usableSegs_eq_nil {s : State} {d r : Nat} (none_usable : usableSegs s d r = []) (g : Nat) :
    replacement s d r g = none := by
  change (usableSegs s d r).foldl _ none = none
  rw [none_usable]; rfl

/-- The search keeps the lower of two equally near segments, for it meets them in rising order. -/
theorem replacement_of_usableSegs_eq_cons {s : State} {d r x : Nat} {l : List Nat} (usable : usableSegs s d r = x :: l)
    (g : Nat) :
    ∃ c, replacement s d r g = some c ∧ c ∈ usableSegs s d r ∧
      ∀ k ∈ usableSegs s d r, distance c g < distance k g ∨ (distance c g = distance k g ∧ c ≤ k) := by
  have sorted := usableSegs_sorted s d r
  rw [usable, List.pairwise_cons] at sorted
  obtain ⟨c, chosen, mem, nearest⟩ := best_spec (distance · g) l x sorted.1 sorted.2
  rw [← usable] at mem nearest
  refine ⟨c, ?_, mem, nearest⟩
  change (usableSegs s d r).foldl _ none = some c
  rw [usable]; exact chosen

theorem nearest_of_replacement_eq_some {s : State} {d r g c : Nat} (h : replacement s d r g = some c) :
    c ∈ usableSegs s d r ∧
      ∀ k ∈ usableSegs s d r, distance c g < distance k g ∨ (distance c g = distance k g ∧ c ≤ k) := by
  cases usable : usableSegs s d r with
  | nil => simp [replacement_of_usableSegs_eq_nil usable] at h
  | cons x l =>
    obtain ⟨c', chosen, nearest⟩ := replacement_of_usableSegs_eq_cons usable g
    obtain rfl : c' = c := Option.some.inj (chosen.symm.trans h)
    rwa [usable] at nearest

theorem usableSegs_eq_nil_of_replacement_eq_none {s : State} {d r g : Nat} (h : replacement s d r g = none) :
    usableSegs s d r = [] := by
  cases usable : usableSegs s d r with
  | nil => rfl
  | cons x l =>
    obtain ⟨c, chosen, -⟩ := replacement_of_usableSegs_eq_cons usable g
    simp [chosen] at h

theorem sorted_countP_le {l : List Nat} (hl : l.Pairwise (· < ·)) {x i : Nat} (h : l[i]? = some x) :
    l.countP (fun k => decide (k ≤ x)) = i + 1 := by
  induction l generalizing i with
  | nil => simp at h
  | cons a r ih =>
    rw [List.pairwise_cons] at hl
    cases i with
    | zero =>
      obtain rfl : a = x := by simpa using h
      have none_below : r.countP (fun k => decide (k ≤ a)) = 0 := by
        simpa [List.countP_eq_zero] using hl.1
      simp [none_below]
    | succ i =>
      rw [List.getElem?_cons_succ] at h
      have below : a ≤ x := (hl.1 x (List.mem_of_getElem? h)).le
      simp [below, ih hl.2 h]

/-- What R389 replaces in: an ordered map of a row, a segment of it that leaves, and one outside it that enters. -/
structure Replaces (m : List Nat) (g c : Nat) : Prop where
  sorted : m.Pairwise (· < ·)
  inRow : ∀ k ∈ m, k < 66
  leaves : g ∈ m
  enters : c ∉ m
  entersRow : c < 66

section
variable {m : List Nat} {g c : Nat} (h : Replaces m g c)
include h

theorem newMap_sorted : (newMap m g c).Pairwise (· < ·) :=
  (newMap_facts m g c h.sorted h.inRow h.leaves h.enters h.entersRow).1

theorem mem_newMap_iff (k : Nat) : k ∈ newMap m g c ↔ k = c ∨ (k ∈ m ∧ k ≠ g) :=
  (newMap_facts m g c h.sorted h.inRow h.leaves h.enters h.entersRow).2.1 k

theorem countP_newMap (p : Nat → Bool) :
    (newMap m g c).countP p + (if p g then 1 else 0) = m.countP p + (if p c then 1 else 0) :=
  newMap_count m g c h.sorted h.inRow h.leaves h.enters h.entersRow p

theorem length_newMap : (newMap m g c).length = m.length := by
  simpa using countP_newMap h fun _ => true

/-- A segment outside the two has as many segments below it as before, so it keeps its column. -/
theorem newMap_getElem?_outside {i x : Nat} (hx : m[i]? = some x) (outside : (x < g ∧ x < c) ∨ (g < x ∧ c < x)) :
    (newMap m g c)[i]? = some x := by
  have kept : x ∈ newMap m g c :=
    (mem_newMap_iff h x).mpr (.inr ⟨List.mem_of_getElem? hx, by omega⟩)
  have count := countP_newMap h fun k => decide (k < x)
  rw [sorted_idx h.sorted hx] at count
  have same : (newMap m g c).countP (fun k => decide (k < x)) = i := by
    rcases outside with ⟨hg, hc⟩ | ⟨hg, hc⟩
    · simpa [hg.not_gt, hc.not_gt] using count
    · simpa [hg, hc] using count
  exact same ▸ sorted_get (newMap_sorted h) kept

/-- Up to a segment below the replacement one fewer is left, so its column takes the next above it. -/
theorem newMap_getElem?_up {i x : Nat} (hx : m[i]? = some x) (above : g ≤ x) (below : x < c) :
    (newMap m g c)[i]? = (newMap m g c).find? fun k => decide (x < k) := by
  have count := countP_newMap h fun k => decide (k ≤ x)
  rw [sorted_countP_le h.sorted hx] at count
  have fewer : (newMap m g c).countP (fun k => decide (k ≤ x)) = i := by
    simpa [above, below.not_ge] using count
  rw [sorted_find (newMap_sorted h), fewer]

/-- Below a segment above the replacement there is one more, so its column takes the next below it. -/
theorem newMap_getElem?_down {i x : Nat} (hx : m[i]? = some x) (above : c < x) (below : x ≤ g) :
    (newMap m g c)[i]? = ((newMap m g c).filter fun k => decide (k < x)).getLast? := by
  have count := countP_newMap h fun k => decide (k < x)
  rw [sorted_idx h.sorted hx] at count
  have more : (newMap m g c).countP (fun k => decide (k < x)) = i + 1 := by
    simpa [above, below.not_gt] using count
  exact (sorted_last (newMap_sorted h) x i more).symm

end

@[simp] theorem mem_dedup {α : Type} [DecidableEq α] {a : α} {l : List α} : a ∈ dedup l ↔ a ∈ l := by
  induction l with
  | nil => rfl
  | cons x xs ih =>
    by_cases eq : a = x <;> simp [dedup, ih, eq]

theorem mem_movedCols_iff {s : State} {d r g c i : Nat} :
    i ∈ movedCols s d r g c ↔ i < 64 ∧ (mapOf s d r)[i]? ≠ (newMap (mapOf s d r) g c)[i]? := by
  simp [movedCols]

theorem mem_affected_iff {s : State} {d r g c p : Nat} :
    p ∈ affected s d r g c ↔ ∃ i ∈ movedCols s d r g c, partOfCol s (8 * d + i / 8) = some p := by
  rw [affected, mem_dedup, List.mem_filterMap]

/-- Settles O58: the replacement is the nearest of `usableSegs`, and a column's new segment follows from how many segments
of the new map lie below its old one. -/
theorem replacementSegment : Obligations.ReplacementSegment := by
  refine ⟨fun s d r g c chosen => ?nearest, fun s d r g exhausted k inRow => ?noneUsable,
    fun m g c sorted inRow leaves enters entersRow => ?columns, fun s d r g c p => ?affected⟩
  case nearest =>
    obtain ⟨mem, nearest⟩ := nearest_of_replacement_eq_some chosen
    obtain ⟨inRow, usable⟩ := mem_usableSegs_iff.mp mem
    exact ⟨inRow, usable, fun k hk ok => nearest k (mem_usableSegs_iff.mpr ⟨hk, ok⟩)⟩
  case noneUsable =>
    have empty := usableSegs_eq_nil_of_replacement_eq_none exhausted
    exact Bool.eq_false_iff.mpr fun usable =>
      List.ne_nil_of_mem (mem_usableSegs_iff.mpr ⟨inRow, usable⟩) empty
  case columns =>
    have h : Replaces m g c := ⟨sorted, inRow, leaves, enters, entersRow⟩
    exact ⟨newMap_sorted h, mem_newMap_iff h, length_newMap h, fun i x hx =>
      ⟨newMap_getElem?_outside h hx, fun ⟨above, below⟩ => newMap_getElem?_up h hx above below,
        fun ⟨above, below⟩ => newMap_getElem?_down h hx above below⟩⟩
  case affected =>
    simp only [mem_affected_iff, mem_movedCols_iff, and_assoc]

end Sys2Proof.Machine
end

section
/-! Every row (00_scope; 09 Table 1): it runs under `onWf`, it changes no component but those it lists, and memory keeps its
canonical form. -/

namespace Sys2Proof.Machine

/-! ### Rows that do not act -/

/-- The meaning of every row is an effect that `onWf` guards. -/
theorem exec_eq_onWf (i : Instr) (s : State) : ∃ f, exec i s = onWf i s f := by
  cases i <;> dsimp only [exec] <;> exact ⟨_, rfl⟩

/-- Settles O45: `onWf` answers a next state in every state, and the same state where the row does not act. -/
theorem everyCommandCompletes : Obligations.EveryCommandCompletes := by
  intro i s
  obtain ⟨f, row⟩ := exec_eq_onWf i s
  exact ⟨⟨_, row⟩, fun idle => row.trans (onWf_idle idle f)⟩

/-- Settles O44: `step` is a match on the queue. -/
theorem stepRunsFront : Obligations.StepRunsFront := by
  refine ⟨fun s c rest queue => ?_, fun s queue => ?_⟩
  · rw [step, queue]
  · rw [step, queue]

/-! ### The frame of every row -/

/-- A row keeps every property of states that survives changes of the components it lists, memory in its form. -/
theorem exec_sat {P : State → Prop} {i : Instr} {s : State} (keeps : Clo (compMask (touches i)) P) (holds : Sat P s) :
    SatN P (exec i s) := by
  cases i <;> dsimp only [touches, compMask, Comp.idx, Nat.reducePow, Nat.reduceOr, Nat.or_zero] at keeps
  case commandPacketArrival port pkt => exact execCommandPacketArrival_sat port pkt s keeps holds
  case echo q => exact execEcho_sat q s keeps holds
  case identity q => exact execIdentity_sat q s keeps holds
  case telemetry q => exact execTelemetry_sat q s keeps holds
  case partReset p => exact execPartReset_sat p s keeps holds
  case partYield p => exact execPartYield_sat p s keeps holds
  case partEvict p => exact execPartEvict_sat p s keeps holds
  case partResume p => exact execPartResume_sat p s keeps holds
  case acctRead p => exact execAcctRead_sat p s keeps holds
  case acctReadClear p => exact execAcctReadClear_sat p s keeps holds
  case seed p => exact execSeed_sat p s keeps holds
  case modelInstall p pkg => exact execModelInstall_sat p pkg s keeps holds
  case modelSwitch p addr prog => exact execModelSwitch_sat p addr prog s keeps holds
  case modelRemove p => exact execModelRemove_sat p s keeps holds
  case expertMap p => exact execExpertMap_sat p s keeps holds
  case balance p => exact execBalance_sat p s keeps holds
  case request p adapters => exact execRequest_sat p adapters s keeps holds
  case cancel p => exact execCancel_sat p s keeps holds
  case budgetSet p => exact execBudgetSet_sat p s keeps holds
  case budgetAdd p => exact execBudgetAdd_sat p s keeps holds
  case budgetSetWeights p => exact execBudgetSetWeights_sat p s keeps holds
  case budgetRead p => exact execBudgetRead_sat p s keeps holds
  case drawerCreate p => exact execDrawerCreate_sat p s keeps holds
  case drawerOpen p => exact execDrawerOpen_sat p s keeps holds
  case drawerClose p => exact execDrawerClose_sat p s keeps holds
  case drawerCommit p => exact execDrawerCommit_sat p s keeps holds
  case drawerMove p => exact execDrawerMove_sat p s keeps holds
  case drawerDelete p => exact execDrawerDelete_sat p s keeps holds
  case drawerRead p => exact execDrawerRead_sat p s keeps holds
  case grainAlloc p => exact execGrainAlloc_sat p s keeps holds
  case grainMove p => exact execGrainMove_sat p s keeps holds
  case grainFree p => exact execGrainFree_sat p s keeps holds
  case loadGrant p => exact execLoadGrant_sat p s keeps holds
  case loadData p => exact execLoadData_sat p s keeps holds
  case loadCheck p => exact execLoadCheck_sat p s keeps holds
  case mirrorCmd p pkg => exact execMirrorCmd_sat p pkg s keeps holds
  case bootImagePiece pkt => exact execBootImagePiece_sat pkt s keeps holds
  case bootFabcfgPiece pkt => exact execBootFabcfgPiece_sat pkt s keeps holds
  case bootRetirePiece pkt => exact execBootRetirePiece_sat pkt s keeps holds
  case bootStart pkt => exact execBootStart_sat pkt s keeps holds
  case setEndpointId port op eid => exact execSetEndpointId_sat port op eid s keeps holds
  case getEndpointId port => exact execGetEndpointId_sat port s keeps holds
  case getMctpVersionSupport port msgType => exact execGetMctpVersionSupport_sat port msgType s keeps holds
  case getMessageTypeSupport port => exact execGetMessageTypeSupport_sat port s keeps holds
  case mctpUnsupportedControl port code => exact execMctpUnsupportedControl_sat port code s keeps holds
  case entdaa port addr => exact execEntdaa_sat port addr s keeps holds
  case setdasa port static addr => exact execSetdasa_sat port static addr s keeps holds
  case nop b => exact execNop_sat b s keeps holds
  case halt b => exact execHalt_sat b s keeps holds
  case sbnz b => exact execSbnz_sat b s keeps holds
  case sli b => exact execSli_sat b s keeps holds
  case sadd b => exact execSadd_sat b s keeps holds
  case smul b => exact execSmul_sat b s keeps holds
  case sld b ecc => exact execSld_sat b ecc s keeps holds
  case sst b => exact execSst_sat b s keeps holds
  case vext b => exact execVext_sat b s keeps holds
  case vbcast b => exact execVbcast_sat b s keeps holds
  case viota b => exact execViota_sat b s keeps holds
  case vadd b => exact execVadd_sat b s keeps holds
  case vsub b => exact execVsub_sat b s keeps holds
  case vmul b => exact execVmul_sat b s keeps holds
  case vfma b => exact execVfma_sat b s keeps holds
  case vmax b => exact execVmax_sat b s keeps holds
  case vmin b => exact execVmin_sat b s keeps holds
  case vabs b => exact execVabs_sat b s keeps holds
  case vneg b => exact execVneg_sat b s keeps holds
  case vcmp b => exact execVcmp_sat b s keeps holds
  case vsel b => exact execVsel_sat b s keeps holds
  case viadd b => exact execViadd_sat b s keeps holds
  case vlog b => exact execVlog_sat b s keeps holds
  case vshf b => exact execVshf_sat b s keeps holds
  case vcvti b => exact execVcvti_sat b s keeps holds
  case mtail b => exact execMtail_sat b s keeps holds
  case mop b => exact execMop_sat b s keeps holds
  case mset b => exact execMset_sat b s keeps holds
  case vfn b => exact execVfn_sat b s keeps holds
  case epld b ecc => exact execEpld_sat b ecc s keeps holds
  case eprun b ecc => exact execEprun_sat b ecc s keeps holds
  case vrsum b => exact execVrsum_sat b s keeps holds
  case vrmax b => exact execVrmax_sat b s keeps holds
  case vrargmax b => exact execVrargmax_sat b s keeps holds
  case vscan b => exact execVscan_sat b s keeps holds
  case vperm b => exact execVperm_sat b s keeps holds
  case vcvt b => exact execVcvt_sat b s keeps holds
  case vmxq b => exact execVmxq_sat b s keeps holds
  case vld b ecc => exact execVld_sat b ecc s keeps holds
  case vst b => exact execVst_sat b s keeps holds
  case vlds b ecc => exact execVlds_sat b ecc s keeps holds
  case vsts b => exact execVsts_sat b s keeps holds
  case vldx b ecc => exact execVldx_sat b ecc s keeps holds
  case vstx b => exact execVstx_sat b s keeps holds
  case pput b => exact execPput_sat b s keeps holds
  case pwr b => exact execPwr_sat b s keeps holds
  case prd b ecc => exact execPrd_sat b ecc s keeps holds
  case pmark b => exact execPmark_sat b s keeps holds
  case coll b => exact execColl_sat b s keeps holds
  case ckpop b => exact execCkpop_sat b s keeps holds
  case vepoch b => exact execVepoch_sat b s keeps holds
  case nsend b => exact execNsend_sat b s keeps holds
  case nrecv b => exact execNrecv_sat b s keeps holds
  case txf b agree ecc who => exact execTxf_sat b agree ecc who s keeps holds
  case txwait b => exact execTxwait_sat b s keeps holds
  case cbwr b => exact execCbwr_sat b s keeps holds
  case rtsel b ecc last acts => exact execRtsel_sat b ecc last acts s keeps holds
  case rtcnt b ecc => exact execRtcnt_sat b ecc s keeps holds
  case vrand b => exact execVrand_sat b s keeps holds
  case cktol b => exact execCktol_sat b s keeps holds
  case ckcmp b => exact execCkcmp_sat b s keeps holds
  case ckdone b => exact execCkdone_sat b s keeps holds
  case veServiceStage b soft bad => exact execVeServiceStage_sat b soft bad s keeps holds
  case mailboxWordArrival b src => exact execMailboxWordArrival_sat b src s keeps holds
  case veProgramStart b pc buffer words => exact execVeProgramStart_sat b pc buffer words s keeps holds
  case routerTokenArrival t src chk => exact execRouterTokenArrival_sat t src chk s keeps holds
  case routerOutputGrant t inp lbl memOk => exact execRouterOutputGrant_sat t inp lbl memOk s keeps holds
  case configTokenWrite t inp => exact execConfigTokenWrite_sat t inp s keeps holds
  case injectorSend p j => exact execInjectorSend_sat p j s keeps holds
  case steeringFiring t slot arbP => exact execSteeringFiring_sat t slot arbP s keeps holds
  case counterRunStart t slot => exact execCounterRunStart_sat t slot s keeps holds
  case counterEmit t slot => exact execCounterEmit_sat t slot s keeps holds
  case matrixPassStart t slot memOk => exact execMatrixPassStart_sat t slot memOk s keeps holds
  case gnxtTokenConsume t memOk => exact execGnxtTokenConsume_sat t memOk s keeps holds
  case beatIssue t residueOk memOk => exact execBeatIssue_sat t residueOk memOk s keeps holds
  case accumulatorDrain t => exact execAccumulatorDrain_sat t s keeps holds
  case weightWordAccept t => exact execWeightWordAccept_sat t s keeps holds
  case expanderDecode t memOk => exact execExpanderDecode_sat t memOk s keeps holds
  case moveWord t slot memOk => exact execMoveWord_sat t slot memOk s keeps holds
  case contextEpochEnd t slot => exact execContextEpochEnd_sat t slot s keeps holds
  case tileEpochSwitch t => exact execTileEpochSwitch_sat t s keeps holds
  case operandPortDelivery b lane => exact execOperandPortDelivery_sat b lane s keeps holds
  case handshakeWatchdogExpiry site => exact execHandshakeWatchdogExpiry_sat site s keeps holds
  case streamFeed p agree => exact execStreamFeed_sat p agree s keeps holds
  case streamStage p agree => exact execStreamStage_sat p agree s keeps holds
  case streamMark p => exact execStreamMark_sat p s keeps holds
  case streamDrain p agree => exact execStreamDrain_sat p agree s keeps holds
  case streamConfig p agree => exact execStreamConfig_sat p agree s keeps holds
  case streamEnd p => exact execStreamEnd_sat p s keeps holds
  case markReleaseWrite p => exact execMarkReleaseWrite_sat p s keeps holds
  case streamStallExpiry p => exact execStreamStallExpiry_sat p s keeps holds
  case transferGrant tier entry => exact execTransferGrant_sat tier entry s keeps holds
  case transferCompletion id status => exact execTransferCompletion_sat id status s keeps holds
  case transferLate id => exact execTransferLate_sat id s keeps holds
  case firstFillComplete p => exact execFirstFillComplete_sat p s keeps holds
  case adapterStageComplete p tenant => exact execAdapterStageComplete_sat p tenant s keeps holds
  case moveCopyStart g own => exact execMoveCopyStart_sat g own s keeps holds
  case moveSwitch g status => exact execMoveSwitch_sat g status s keeps holds
  case moveRelease g => exact execMoveRelease_sat g s keeps holds
  case moveLimitReached g => exact execMoveLimitReached_sat g s keeps holds
  case htScrub bad => exact execHtScrub_sat bad s keeps holds
  case pageRetirementDone tier slot => exact execPageRetirementDone_sat tier slot s keeps holds
  case channelFailure tier slot => exact execChannelFailure_sat tier slot s keeps holds
  case migrationStart p layer expert target => exact execMigrationStart_sat p layer expert target s keeps holds
  case migrationMapUpdate p => exact execMigrationMapUpdate_sat p s keeps holds
  case migrationRelease p => exact execMigrationRelease_sat p s keeps holds
  case scanSegmentDone engine status => exact execScanSegmentDone_sat engine status s keeps holds
  case stepBegin p addr prog more => exact execStepBegin_sat p addr prog more s keeps holds
  case publishFence p sums => exact execPublishFence_sat p sums s keeps holds
  case stepCommit p toks writeFail => exact execStepCommit_sat p toks writeFail s keeps holds
  case verdictWatchdogExpiry p => exact execVerdictWatchdogExpiry_sat p s keeps holds
  case deadlineJudgement p => exact execDeadlineJudgement_sat p s keeps holds
  case biasUpdate p layer => exact execBiasUpdate_sat p layer s keeps holds
  case expertDispatchRecv m => exact execExpertDispatchRecv_sat m s keeps holds
  case expertCloseRecv m => exact execExpertCloseRecv_sat m s keeps holds
  case expertReturnRecv m => exact execExpertReturnRecv_sat m s keeps holds
  case expertCancelRecv m => exact execExpertCancelRecv_sat m s keeps holds
  case expertLayerServe p layer work => exact execExpertLayerServe_sat p layer work s keeps holds
  case returnLimitExpiry p layer => exact execReturnLimitExpiry_sat p layer s keeps holds
  case homeCloseLimitExpiry p layer => exact execHomeCloseLimitExpiry_sat p layer s keeps holds
  case linkTrainStatePass l info => exact execLinkTrainStatePass_sat l info s keeps holds
  case linkTrainLimit l => exact execLinkTrainLimit_sat l s keeps holds
  case sidebandSend l => exact execSidebandSend_sat l s keeps holds
  case sidebandRecv msg => exact execSidebandRecv_sat msg s keeps holds
  case dataFrameRecv l lanes => exact execDataFrameRecv_sat l lanes s keeps holds
  case idleFrameRecv l lanes => exact execIdleFrameRecv_sat l lanes s keeps holds
  case nakFrameRecv l lanes => exact execNakFrameRecv_sat l lanes s keeps holds
  case laneSwapFrameRecv l lanes => exact execLaneSwapFrameRecv_sat l lanes s keeps holds
  case linkUpFrameRecv l lanes => exact execLinkUpFrameRecv_sat l lanes s keeps holds
  case frameTransmit l ch => exact execFrameTransmit_sat l ch s keeps holds
  case idleFrameTimer l => exact execIdleFrameTimer_sat l s keeps holds
  case laneLockLoss l lane => exact execLaneLockLoss_sat l lane s keeps holds
  case laneErrorInterval l lane corrected symbols => exact execLaneErrorInterval_sat l lane corrected symbols s keeps holds
  case laneSwapEffect l => exact execLaneSwapEffect_sat l s keeps holds
  case ackProgressTimeout l => exact execAckProgressTimeout_sat l s keeps holds
  case codewordAlignmentLoss l => exact execCodewordAlignmentLoss_sat l s keeps holds
  case fastRecoveryTimeout l => exact execFastRecoveryTimeout_sat l s keeps holds
  case transactionForward l => exact execTransactionForward_sat l s keeps holds
  case remoteRead t agree => exact execRemoteRead_sat t agree s keeps holds
  case remoteWrite t agree => exact execRemoteWrite_sat t agree s keeps holds
  case remoteAtomic t agree => exact execRemoteAtomic_sat t agree s keeps holds
  case remoteFence t => exact execRemoteFence_sat t s keeps holds
  case readRsp t => exact execReadRsp_sat t s keeps holds
  case writeCpl t => exact execWriteCpl_sat t s keeps holds
  case atomicRsp t => exact execAtomicRsp_sat t s keeps holds
  case fenceCpl t => exact execFenceCpl_sat t s keeps holds
  case loadWriteIngress t agree => exact execLoadWriteIngress_sat t agree s keeps holds
  case loadForward p gid => exact execLoadForward_sat p gid s keeps holds
  case loadGrantExpiry p gid => exact execLoadGrantExpiry_sat p gid s keeps holds
  case iberaineStatePass info => exact execIberaineStatePass_sat info s keeps holds
  case rackManagerLost m => exact execRackManagerLost_sat m s keeps holds
  case supplyGood rail straps => exact execSupplyGood_sat rail straps s keeps holds
  case railLoss rail => exact execRailLoss_sat rail s keeps holds
  case resetNRise straps => exact execResetNRise_sat straps s keeps holds
  case startupSelfTest romOk sramOk badCores => exact execStartupSelfTest_sat romOk sramOk badCores s keeps holds
  case startupDomains badSegs badVes badHelper => exact execStartupDomains_sat badSegs badVes badHelper s keeps holds
  case startupMemory rates bad0 bad1 caps => exact execStartupMemory_sat rates bad0 bad1 caps s keeps holds
  case startupTier2 ready => exact execStartupTier2_sat ready s keeps holds
  case controlRecovery failA failB => exact execControlRecovery_sat failA failB s keeps holds
  case telemetryRenewal west east blocks => exact execTelemetryRenewal_sat west east blocks s keeps holds
  case bistSliceStart u => exact execBistSliceStart_sat u s keeps holds
  case bistSliceEnd u pass bad => exact execBistSliceEnd_sat u pass bad s keeps holds
  case bistSliceAbort u => exact execBistSliceAbort_sat u s keeps holds
  case bistOverdue u => exact execBistOverdue_sat u s keeps holds
  case wearGaugeRenewal points => exact execWearGaugeRenewal_sat points s keeps holds
  case substitutionSchedule die row seg => exact execSubstitutionSchedule_sat die row seg s keeps holds
  case forcedSubstitution die row seg => exact execForcedSubstitution_sat die row seg s keeps holds
  case veSubstitution b image pc => exact execVeSubstitution_sat b image pc s keeps holds
  case yieldBoundary p => exact execYieldBoundary_sat p s keeps holds
  case evictQuiesceEnd p => exact execEvictQuiesceEnd_sat p s keeps holds
  case evictSaveComplete p => exact execEvictSaveComplete_sat p s keeps holds
  case resumeReloadComplete p => exact execResumeReloadComplete_sat p s keeps holds
  case pairSetupRecv m => exact execPairSetupRecv_sat m s keeps holds
  case pairAllocRecv m => exact execPairAllocRecv_sat m s keeps holds
  case pairFreeRecv m => exact execPairFreeRecv_sat m s keeps holds
  case pairDataRecv m => exact execPairDataRecv_sat m s keeps holds
  case pairEntryRecv m => exact execPairEntryRecv_sat m s keeps holds
  case pairRecordRecv m => exact execPairRecordRecv_sat m s keeps holds
  case pairAckRecv m => exact execPairAckRecv_sat m s keeps holds
  case pairConfirmRecv m => exact execPairConfirmRecv_sat m s keeps holds
  case pairHeartbeatRecv m => exact execPairHeartbeatRecv_sat m s keeps holds
  case pairInvalRecv m => exact execPairInvalRecv_sat m s keeps holds
  case pairSyncBeginRecv m => exact execPairSyncBeginRecv_sat m s keeps holds
  case pairSyncEndRecv m => exact execPairSyncEndRecv_sat m s keeps holds
  case pairAckTimeout p => exact execPairAckTimeout_sat p s keeps holds
  case heartbeatFrameRecv frame => exact execHeartbeatFrameRecv_sat frame s keeps holds
  case powerSample rails demandAboveL => exact execPowerSample_sat rails demandAboveL s keeps holds
  case coreVoltageStep die up answered => exact execCoreVoltageStep_sat die up answered s keeps holds
  case brakeAssert held => exact execBrakeAssert_sat held s keeps holds
  case thermalSample west east hbm => exact execThermalSample_sat west east hbm s keeps holds
  case thermalTrip die reading => exact execThermalTrip_sat die reading s keeps holds
  case orphanCapApply m => exact execOrphanCapApply_sat m s keeps holds
  case timerefEdge sinceAdvance => exact execTimerefEdge_sat sinceAdvance s keeps holds
  case oscillatorAdvance sinceEdge => exact execOscillatorAdvance_sat sinceEdge s keeps holds
  case timerefLoss sinceEdge => exact execTimerefLoss_sat sinceEdge s keeps holds
  case timerefReturn present sinceAdvance => exact execTimerefReturn_sat present sinceAdvance s keeps holds
  case twinReplyRecv pkt => exact execTwinReplyRecv_sat pkt s keeps holds
  case partDefine => exact execPartDefine_sat s keeps holds
  case layerReplace => exact execLayerReplace_sat s keeps holds
  case capSet => exact execCapSet_sat s keeps holds
  case brakeCfg => exact execBrakeCfg_sat s keeps holds
  case orphanCfg => exact execOrphanCfg_sat s keeps holds
  case emergencyRelease => exact execEmergencyRelease_sat s keeps holds
  case emergencyHold => exact execEmergencyHold_sat s keeps holds
  case emergencyShed => exact execEmergencyShed_sat s keeps holds
  case emergencyStop => exact execEmergencyStop_sat s keeps holds
  case powerRead => exact execPowerRead_sat s keeps holds
  case pairSetup => exact execPairSetup_sat s keeps holds
  case pairEnd => exact execPairEnd_sat s keeps holds
  case replaceCopyStart => exact execReplaceCopyStart_sat s keeps holds
  case replaceCopyDone => exact execReplaceCopyDone_sat s keeps holds
  case iberaineStateLimit => exact execIberaineStateLimit_sat s keeps holds
  case iberaineLightRetry => exact execIberaineLightRetry_sat s keeps holds
  case resetNFall => exact execResetNFall_sat s keeps holds
  case trainPhaseStart => exact execTrainPhaseStart_sat s keeps holds
  case startupIdentity => exact execStartupIdentity_sat s keeps holds
  case startupManagement => exact execStartupManagement_sat s keeps holds
  case startupIberaine => exact execStartupIberaine_sat s keeps holds
  case bootExchangeHello => exact execBootExchangeHello_sat s keeps holds
  case startupVerification => exact execStartupVerification_sat s keeps holds
  case startupFabric => exact execStartupFabric_sat s keeps holds
  case startupServiceFirmware => exact execStartupServiceFirmware_sat s keeps holds
  case startupReady => exact execStartupReady_sat s keeps holds
  case lockstepDivergence => exact execLockstepDivergence_sat s keeps holds
  case substitutionSave => exact execSubstitutionSave_sat s keeps holds
  case substitutionMapWrite => exact execSubstitutionMapWrite_sat s keeps holds
  case substitutionRestoreDone => exact execSubstitutionRestoreDone_sat s keeps holds
  case pairSetupMessageSend => exact execPairSetupMessageSend_sat s keeps holds
  case pairSetupTimeout => exact execPairSetupTimeout_sat s keeps holds
  case pairHeartbeatSend => exact execPairHeartbeatSend_sat s keeps holds
  case heartbeatFrameSend => exact execHeartbeatFrameSend_sat s keeps holds
  case twinFailure => exact execTwinFailure_sat s keeps holds
  case capResponseElapsed => exact execCapResponseElapsed_sat s keeps holds
  case shedComplete => exact execShedComplete_sat s keeps holds
  case unshedComplete => exact execUnshedComplete_sat s keeps holds
  case brakeRelease => exact execBrakeRelease_sat s keeps holds
  case thermalLimitStep => exact execThermalLimitStep_sat s keeps holds
  case accountingInterval => exact execAccountingInterval_sat s keeps holds
  case pairPathLoss => exact execPairPathLoss_sat s keeps holds
  case syncEndAckTimeout => exact execSyncEndAckTimeout_sat s keeps holds
  case alertPulseEnd => exact execAlertPulseEnd_sat s keeps holds

/-- What a row answers agrees with the state before outside the components it lists, and keeps memory's form. -/
theorem exec_agrees {i : Instr} {s t : State} (ran : exec i s = .next t) : Agrees (compMask (touches i)) s t :=
  agrees_of_sat (fun _ keeps holds => exec_sat keeps holds) ran

/-- Settles O49: the mask of `touches` is the row's frame. -/
theorem commandsKeepTheRest : Obligations.CommandsKeepTheRest := fun _ _ _ ran =>
  sameBut_of_agrees rfl (exec_agrees ran)

/-! ### The form of memory -/

theorem step_keeps_wf {s t : State} (wf : s.mem.wf = true) (ran : step s = .next t) : t.mem.wf = true := by
  unfold step at ran
  split at ran
  case h_1 => cases ran; exact wf
  case h_2 c rest _ => exact (exec_agrees ran).wf wf

/-- Settles O48: an idle step leaves memory, and the front command's row keeps its form. -/
theorem memoryStaysCanonical : Obligations.MemoryStaysCanonical := fun _ _ => step_keeps_wf

/-- Settles O47: at reset no store lists a byte. -/
theorem resetMemoryCanonical : Obligations.ResetMemoryCanonical := reset_wf

end Sys2Proof.Machine
end

section
/-! What the stores of memory change (09 Tables 7 and 8): the named bytes of the named tier. -/

namespace Sys2Proof.Machine

/-! ### Each store as one update of a tier's bytes -/

/-- Writing bytes puts them into the tier's store; the poison bits and the verified objects are no bytes. -/
theorem mem_writeTier (s : State) (t o : Nat) (bs : List Byte) :
    (writeTier s t o bs).mem = (setTierMem s t (mwrite (tierMem s t) o bs)).mem := by
  have kept : (unverifyRun (clearPoison s t o bs.length) t o bs.length).mem = s.mem :=
    (unverifyRun_mem ..).trans (clearPoison_mem ..)
  rw [writeTier, tierMem_of_mem kept]
  unfold setTierMem
  split
  · rw [kept]
  · split <;> rw [kept]

theorem mem_zeroFrame (s : State) (t f : Nat) :
    (zeroFrame s t f).mem = (setTierMem s t (mzero (tierMem s t) (frameBytes * f) frameBytes)).mem := by
  have kept := clearPoison_mem s t (frameBytes * f) frameBytes
  rw [zeroFrame, tierMem_of_mem kept]
  unfold setTierMem
  split
  · rw [kept]
  · split <;> rw [kept]

theorem mem_copyBytes (s : State) (t o t' o' len : Nat) :
    (copyBytes s t o t' o' len).mem = (setTierMem s t' (mcopy (tierMem s t) o (tierMem s t') o' len)).mem := by
  have kept := clearPoison_mem s t' o' len
  rw [copyBytes, setPoisons_mem, tierMem_of_mem kept, tierMem_of_mem kept]
  unfold setTierMem
  split
  · rw [kept]
  · split <;> rw [kept]

/-! ### What a tier's update leaves -/

theorem setTierMem_keeps_device (s : State) (t : Nat) (m : Memory) :
    (setTierMem s t m).mem.image = s.mem.image ∧ (setTierMem s t m).mem.fabcfg = s.mem.fabcfg ∧
      (setTierMem s t m).mem.retire = s.mem.retire ∧ (setTierMem s t m).mem.sram = s.mem.sram := by
  unfold setTierMem
  split
  · exact ⟨rfl, rfl, rfl, rfl⟩
  · split <;> exact ⟨rfl, rfl, rfl, rfl⟩

/-- `u` differs from `s` in memory by the bytes `m` of tier `t` alone. -/
def StoresTier (s u : State) (t : Nat) (m : Memory) : Prop := u.mem = (setTierMem s t m).mem

theorem StoresTier.tier {s u : State} {t : Nat} {m : Memory} (h : StoresTier s u t m) (ht : t ≤ 2) : tierMem u t = m := by
  rw [tierMem_of_mem h, tierMem_set s ht ht, if_pos rfl]

theorem StoresTier.other {s u : State} {t k : Nat} {m : Memory} (h : StoresTier s u t m) (ht : t ≤ 2) (hk : k ≤ 2)
    (ne : k ≠ t) : tierMem u k = tierMem s k := by
  rw [tierMem_of_mem h, tierMem_set s ht hk, if_neg ne]

theorem StoresTier.device {s u : State} {t : Nat} {m : Memory} (h : StoresTier s u t m) :
    u.mem.image = s.mem.image ∧ u.mem.fabcfg = s.mem.fabcfg ∧ u.mem.retire = s.mem.retire ∧ u.mem.sram = s.mem.sram := by
  rw [h]
  exact setTierMem_keeps_device s t m

theorem storesTier_writeTier (s : State) (t o : Nat) (bs : List Byte) :
    StoresTier s (writeTier s t o bs) t (mwrite (tierMem s t) o bs) := mem_writeTier s t o bs

theorem storesTier_zeroFrame (s : State) (t f : Nat) :
    StoresTier s (zeroFrame s t f) t (mzero (tierMem s t) (frameBytes * f) frameBytes) := mem_zeroFrame s t f

theorem storesTier_copyBytes (s : State) (t o t' o' len : Nat) :
    StoresTier s (copyBytes s t o t' o' len) t' (mcopy (tierMem s t) o (tierMem s t') o' len) :=
  mem_copyBytes s t o t' o' len

/-- Settles O50: each store is one write, zeroing or copy of a tier's bytes (`StoresTier`), whose bytes are known. -/
theorem storesNameTheirBytes : Obligations.StoresNameTheirBytes := by
  refine ⟨fun s o bs a t wf ht => ?write, fun s f a t wf ht => ?zero, fun s o o' len a t t' wf _ ht' => ?copy,
    fun s o bs f o' len t t' k ht _ hk ne => ⟨?_, ?_, ?_⟩, fun s o bs f o' len t t' u hu => ?device⟩
  case write =>
    rw [(storesTier_writeTier s t o bs).tier ht, mget_mwrite (tierMem_wf wf t), List.getD_eq_getElem?_getD]
  case zero =>
    rw [(storesTier_zeroFrame s t f).tier ht, mget_mzero (tierMem_wf wf t)]
    rfl
  case copy => rw [(storesTier_copyBytes s t o t' o' len).tier ht', mget_mcopy (tierMem_wf wf t) (tierMem_wf wf t')]
  · exact (storesTier_writeTier s t o bs).other ht hk ne
  · exact (storesTier_zeroFrame s t f).other ht hk ne
  · exact (storesTier_copyBytes s t' o' t o len).other ht hk ne
  case device =>
    simp only [List.mem_cons, List.not_mem_nil, or_false] at hu
    obtain rfl | rfl | rfl := hu
    · exact (storesTier_writeTier s t o bs).device
    · exact (storesTier_zeroFrame s t f).device
    · exact (storesTier_copyBytes s t' o' t o len).device

end Sys2Proof.Machine
end

section
/-! Isolation events (13 R304): each is counted, and the first of a window is sent. -/

namespace Sys2Proof.Machine

/-- The state in which a refused access of partition `p` has been counted. -/
def isolCounted (s : State) (p : Nat) : State :=
  setPart s p { part s p with acct := { (part s p).acct with isol := sat64 ((part s p).acct.isol + 1) } }

/-- The body of Table 5 for a refused access, once it has been counted. -/
def isolBody (s : State) (p kind schip spart addr : Nat) : List Byte :=
  leBytes 1 p ++ leBytes 1 kind ++ leBytes 2 schip ++ leBytes 1 spart ++ zeros 3 ++ leBytes 8 addr ++
    leBytes 8 (sat64 ((part s p).acct.isol + 1)) ++ zeros 8

theorem parts_send (s : State) (m : Nat) (k : Packet) : (send s m k).parts = s.parts := by
  unfold send
  repeat' split
  all_goals rfl

theorem part_event_one (s : State) (m code p : Nat) (body : List Byte) : part (event s [m] code body) p = part s p := by
  unfold part
  exact congrArg (fun tab => tget Part.reset tab p) (parts_send ..)

/-- A window without an event yet: the access is counted, and the event goes out. -/
theorem isolation_of_new_window {s : State} {p kind schip spart addr : Nat}
    (new : (part s p).lastIsol = none64 ∨ (part s p).lastIsol / 25000 ≠ count s / 25000) :
    isolation s p kind schip spart addr =
      event (modPart (isolCounted s p) p fun x => { x with lastIsol := count s }) [0] 0xe301
        (isolBody s p kind schip spart addr) := if_pos new

/-- A window whose event has been sent: the access is counted alone. -/
theorem isolation_of_old_window {s : State} {p kind schip spart addr : Nat}
    (old : ¬ ((part s p).lastIsol = none64 ∨ (part s p).lastIsol / 25000 ≠ count s / 25000)) :
    isolation s p kind schip spart addr = isolCounted s p := if_neg old

theorem isol_isolation (s : State) (p kind schip spart addr : Nat) :
    (part (isolation s p kind schip spart addr) p).acct.isol = sat64 ((part s p).acct.isol + 1) := by
  by_cases new : (part s p).lastIsol = none64 ∨ (part s p).lastIsol / 25000 ≠ count s / 25000
  · rw [isolation_of_new_window new, part_event_one, part_modPart_self, isolCounted, part_setPart_self]
  · rw [isolation_of_old_window new, isolCounted, part_setPart_self]

/-- Settles O54: the two cases of a window, open for its event or not. -/
theorem isolationOncePerWindow : Obligations.IsolationOncePerWindow := by
  rintro s p kind schip spart addr u rfl
  refine ⟨isol_isolation s p kind schip spart addr, fun ⟨some_event, same⟩ => ?old, fun new => ⟨?sent, ?stamped⟩⟩
  case old =>
    rw [isolation_of_old_window (by simp [some_event, same])]
    exact ⟨rfl, rfl⟩
  case sent =>
    refine ⟨modPart (isolCounted s p) p fun x => { x with lastIsol := count s }, ?_, rfl, rfl⟩
    rw [isol_isolation, isolation_of_new_window new, isolBody]
  case stamped => rw [isolation_of_new_window new, part_event_one, part_modPart_self]

end Sys2Proof.Machine
end

section
/-! The choice of experts (08 R166, R167): the first of the highest biased scores, and the first of the others. -/

namespace Sys2Proof.Machine

/-- The experts of a layer with their biased scores, in order. -/
def scored (n : Nat) (b : Nat → W32) : List (Nat × W32) := (List.range n).map fun e => (e, b e)

theorem mem_scored_iff {n : Nat} {b : Nat → W32} {r : Nat × W32} : r ∈ scored n b ↔ r.1 < n ∧ r.2 = b r.1 := by
  obtain ⟨e, w⟩ := r
  constructor
  · intro mem
    obtain ⟨k, hk, same⟩ := List.mem_map.mp mem
    cases same
    exact ⟨List.mem_range.mp hk, rfl⟩
  · rintro ⟨below, rfl : w = b e⟩
    exact List.mem_map.mpr ⟨e, List.mem_range.mpr below, rfl⟩

theorem scored_sorted (n : Nat) (b : Nat → W32) : (scored n b).Pairwise fun x y => x.1 < y.1 :=
  List.pairwise_map.mpr List.pairwise_lt_range

/-- Among the scored experts that meet `ok`, when one does, `rankFirst` answers the lowest that none of them outranks. -/
theorem rankFirst_filter_scored {n e : Nat} (b : Nat → W32) (ok : Nat → Bool) (he : e < n) (hok : ok e = true) :
    let r := rankFirst ((scored n b).filter fun x => ok x.1)
    r < n ∧ ok r = true ∧ ∀ k, k < n → ok k = true → ranks (b k) (b r) = false ∧ (k < r → ranks (b r) (b k) = true) := by
  have mem {k : Nat} (hk : k < n) (hok : ok k = true) : (k, b k) ∈ (scored n b).filter fun x => ok x.1 :=
    List.mem_filter.mpr ⟨mem_scored_iff.mpr ⟨hk, rfl⟩, hok⟩
  obtain ⟨r, first, chosen, best⟩ :=
    rankFirst_spec _ (List.ne_nil_of_mem (mem he hok)) ((scored_sorted n b).filter fun x => ok x.1)
  obtain ⟨listed, allowed⟩ := List.mem_filter.mp chosen
  obtain ⟨below, score⟩ := mem_scored_iff.mp listed
  rw [score] at best
  rw [first]
  exact ⟨below, allowed, fun k hk hok => best (k, b k) (mem hk hok)⟩

theorem choices_fst (x : Ve) (ps : List W32) (j : Nat) :
    (choices x ps j).1 =
      rankFirst ((scored (rtExperts ps) fun e => fadd (rtScore x ps j e) (rtBias x ps e)).filter fun _ => true) := by
  rw [List.filter_true]; rfl

theorem choices_snd_of_top2 {x : Ve} {ps : List W32} {j : Nat} (top2 : rtK2 ps = true) :
    (choices x ps j).2 =
      rankFirst ((scored (rtExperts ps) fun e => fadd (rtScore x ps j e) (rtBias x ps e)).filter
        fun b => decide (b.1 ≠ (choices x ps j).1)) := if_pos top2

/-- Settles O59: both choices are `rankFirst`'s, of all experts and of all but the first choice. -/
theorem expertChoice : Obligations.ExpertChoice := by
  rintro x ps j b n e1 e2 sum rfl chosen
  obtain ⟨rfl, rfl⟩ := Prod.mk.inj chosen
  obtain rfl : b = fun e => fadd (rtScore x ps j e) (rtBias x ps e) := funext sum
  have some_expert : 0 < rtExperts ps := Nat.succ_pos _
  have first := rankFirst_filter_scored (fun e => fadd (rtScore x ps j e) (rtBias x ps e)) (fun _ => true) some_expert rfl
  rw [← choices_fst] at first
  obtain ⟨below, -, best⟩ := first
  refine ⟨below, fun e he => best e he rfl, fun top2 two => ?_⟩
  obtain ⟨e, he, other⟩ : ∃ e, e < rtExperts ps ∧ e ≠ (choices x ps j).1 := by
    by_cases zero : (choices x ps j).1 = 0
    · exact ⟨1, by omega, by omega⟩
    · exact ⟨0, by omega, fun same => zero same.symm⟩
  have second := rankFirst_filter_scored (fun e => fadd (rtScore x ps j e) (rtBias x ps e))
    (fun e => decide (e ≠ (choices x ps j).1)) he (decide_eq_true other)
  rw [← choices_snd_of_top2 top2] at second
  obtain ⟨below', differs, best'⟩ := second
  exact ⟨below', of_decide_eq_true differs, fun e he other => best' e he (decide_eq_true other)⟩

end Sys2Proof.Machine
end

section
/-! The report commands (12 Tables 5 and 6; 13 R313; 15 R367, R368; 17 R412) and the partition commands (13 R301 to R312). -/

namespace Sys2Proof.Machine

/-- A queue row whose command begins, when the effect of its meaning is known. -/
theorem row_begins_eq {i : Instr} {s t : State} {q : Nat} {c : Cmd} {mine : Cmd → Bool} {f : Cmd → State → State}
    (h : Begins i s q c) (own : mine c = true) (effect : f c (taken s q c) = t) :
    onWf i s (takeCmd q mine f) = .next t := by
  rw [row_begins h own, effect]

/-- A partition command that begins outside a pre-emption phase, when the effect of its meaning is known. -/
theorem row_begins_settled_eq {i : Instr} {s t : State} {p q : Nat} {c : Cmd} {mine : Cmd → Bool}
    {f : Cmd → State → State} (h : Begins i s q c) (own : mine c = true) (calm : prePhase (part s p) = false)
    (effect : f c (taken s q c) = t) : onWf i s (settled p (takeCmd q mine f)) = .next t := by
  rw [row_begins_settled h own f p calm, effect]

theorem opcode_of_eq {c : Cmd} {n : Nat} (h : c.opc = n) : opcode n c = true := decide_eq_true h

theorem answer_eq {c : Cmd} {a : Answer} {status detail : Nat} {body : List Byte} {t : State}
    (h : a = (status, detail, body, t)) : answer c a = finish t c status detail body := by
  rw [h]; rfl

/-! ### Reports -/

theorem telemetryOp_of_group {c : Cmd} (s : State) (group : pf c 0 4 ≤ 4) :
    telemetryOp c s = (0, 0, teleRecord s c.part (pf c 0 4), s) := if_neg (Nat.not_lt.mpr group)

theorem acctOpc_of_clr {c : Cmd} {clr : Nat} (hopc : c.opc = 0x0106) (hclr : pf c 0 1 = clr) : acctOpc clr c = true := by
  simp [acctOpc, opcode, hopc, hclr]

theorem acctCmd_read {c : Cmd} (s : State) (hclr : pf c 0 1 = 0) :
    acctCmd c s = finish s c 0 0 (acctBytes s c.part) := by
  simp [acctCmd, hclr]

theorem acctCmd_clear {c : Cmd} (s : State) (hclr : pf c 0 1 = 1) (fromC : c.port = 0) :
    acctCmd c s =
      finish (modPart s c.part fun x =>
        { x with acct := { Acct.zero with since := x.acct.now, now := x.acct.now, act := x.acct.act } })
        c 0 0 (acctBytes s c.part) := by
  simp [acctCmd, hclr, fromC]

/-- Settles O1: each row takes its command and finishes it with the body its report gives. -/
theorem reportCommandsComplete : Obligations.ReportCommandsComplete := by
  refine ⟨fun s q c h hopc => ?echo, fun s q c h hopc => ?identity, fun s q c h hopc group => ?telemetry,
    fun s c h hopc => ?powerRead, fun s p c h hopc hclr => ?acctRead, fun s p c h hopc hclr fromC => ?acctReadClear,
    fun s p c h hopc => ?budgetRead⟩ <;> dsimp only [exec]
  case echo => exact row_begins_eq h (opcode_of_eq hopc) rfl
  case identity => exact row_begins_eq h (opcode_of_eq hopc) rfl
  case telemetry => exact row_begins_eq h (opcode_of_eq hopc) (answer_eq (telemetryOp_of_group _ group))
  case powerRead => exact row_begins_eq h (opcode_of_eq hopc) rfl
  case acctRead => exact row_begins_eq h (acctOpc_of_clr hopc hclr) (acctCmd_read _ hclr)
  case acctReadClear => exact row_begins_eq h (acctOpc_of_clr hopc hclr) (acctCmd_clear _ hclr fromC)
  case budgetRead => exact row_begins_eq h (opcode_of_eq hopc) rfl

/-! ### Partitions -/

theorem defineWaits_of_calm {s : State} {c : Cmd} (first : front 16 s = some c)
    (calm : prePhase (part s (pf c 1 1 % 16)) = false) : defineWaits s = false := by
  simp [defineWaits, first, calm]

theorem bcols_definedEntry_ne_zero {c : Cmd} (cols : pf c 4 2 ≠ 0) : (definedEntry c).bcols ≠ 0#16 := by
  have bound := pf_lt c 4 2
  have named : (parseEntry c.params).bcols ≠ 0 := fun none_named => cols <| by
    have := congrArg BitVec.toNat none_named
    simp only [parseEntry, BitVec.toNat_ofNat] at this
    change pf c 4 2 % 2 ^ 16 = 0 at this
    omega
  rwa [definedEntry, if_neg named]

theorem defineCmd_of_unused {c : Cmd} {s : State} (unused : defined s (pf c 1 1 % 16) = false)
    (accepted : defineRefused s c = none) (cols : pf c 4 2 ≠ 0) :
    defineCmd c s = finish (makePrimary s (pf c 1 1 % 16) (definedEntry c)) c 0 0 [] := by
  simp [defineCmd, accepted, unused, bcols_definedEntry_ne_zero cols]

theorem yieldCmd_of_running {s : State} {p : Nat} (c : Cmd) (running : (part s p).pre = .running) :
    yieldCmd p c s = modPart s p fun x => { x with pre := .yielding, yieldCmd := some c, chained := false } := by
  simp [yieldCmd, running]

theorem evictCmd_of_not_evicted {s : State} {p : Nat} (c : Cmd) (present : (part s p).pre ≠ .evicted) :
    evictCmd p c s = evictBegin (modPart s p fun x => { x with evictCmd := some c }) p := by
  unfold evictCmd
  split
  case h_1 gone => exact absurd gone present
  case h_2 => rfl

theorem resumeCmd_of_yielded {s : State} {p : Nat} (c : Cmd) (yielded : (part s p).pre = .yielded)
    (usable : (part s p).stuck ≠ 2) : resumeCmd p c s = finish (runAgain s p) c 0 0 [] := by
  simp [resumeCmd, yielded, usable]

theorem resumeCmd_of_evicted {s : State} {p : Nat} (c : Cmd) (gone : (part s p).pre = .evicted) :
    resumeCmd p c s = modPart s p fun x => { x with pre := .reloading, resumeCmd := some c } := by
  simp [resumeCmd, gone]

/-- Settles O2: outside a pre-emption phase each row interprets its command, by the state its partition is in. -/
theorem partitionCommandsComplete : Obligations.PartitionCommandsComplete := by
  refine ⟨fun s c h hopc calm unused accepted cols => ?define, fun s p c h hopc calm => ?reset,
    fun s p c h hopc running calm => ?yield, fun s p c h hopc calm present => ?evict,
    fun s p c h hopc calm yielded usable => ?resume, fun s p c h hopc calm gone => ?reload⟩ <;> dsimp only [exec]
  case define =>
    have ready := defineWaits_of_calm h.2.1 calm
    rw [execPartDefine, onWf_acts h.1, ready, if_neg Bool.false_ne_true, takeCmd_begins h (opcode_of_eq hopc),
      defineCmd_of_unused unused accepted cols]
  case reset => exact row_begins_settled_eq h (opcode_of_eq hopc) calm rfl
  case yield => exact row_begins_settled_eq h (opcode_of_eq hopc) calm (yieldCmd_of_running c running)
  case evict => exact row_begins_settled_eq h (opcode_of_eq hopc) calm (evictCmd_of_not_evicted c present)
  case resume => exact row_begins_settled_eq h (opcode_of_eq hopc) calm (resumeCmd_of_yielded c yielded usable)
  case reload => exact row_begins_settled_eq h (opcode_of_eq hopc) calm (resumeCmd_of_evicted c gone)

end Sys2Proof.Machine
end

section
/-! The commands about models (04 R85; 08 R176, R178; 10 R247; 12 R291). -/

namespace Sys2Proof.Machine

theorem installOp_of_accepted {pkg : PkgInfo} {c : Cmd} {s u : State} (plain : installReserved c s = none)
    (verified : isVerified s (pf c 0x20 8) = true) (idle : (part s c.part).active ≠ some (pf c 0 2))
    (untargeted : switchTarget s c.part (pf c 0 2) = false)
    (window : framesInRanges (part s c.part) 0 (pf c 0x14 4) (pf c 0x18 4 + pf c 0x1c 4) false = true)
    (tables : tablesInRanges s c.part pkg c = true)
    (hu : u = remark (dropModel s c.part (pf c 0 2)) (pf c 0x14 4) .free .plain (pf c 0x18 4 + pf c 0x1c 4)) :
    installOp pkg c s =
      (0, 0, [], modPart u c.part fun x => { x with models := tset x.models (pf c 0 2) (newModel c pkg (count u)) }) := by
  simp [installOp, hu, plain, verified, idle, untargeted, window, tables]

theorem removeOp_of_idle {c : Cmd} {s : State} {m : Model} (range : pf c 0 2 ≤ 1023)
    (installed : tfind (part s c.part).models (pf c 0 2) = some m) (idle : (part s c.part).active ≠ some (pf c 0 2))
    (untargeted : switchTarget s c.part (pf c 0 2) = false) :
    removeOp c s = (0, 0, [], dropModel (freeObuf s c.part (pf c 0 2) m.obuf) c.part (pf c 0 2)) := by
  simp [removeOp, Nat.not_lt.mpr range, installed, idle, untargeted]

theorem switchCmd_of_installed {c : Cmd} {s : State} {m : Model} (addr : Nat) (prog : List (BitVec 256))
    (range : pf c 0 2 ≤ 1023) (installed : tfind (part s c.part).models (pf c 0 2) = some m) :
    switchCmd addr prog c s =
      loadProgram (modPart (lastDrain s c.part) c.part fun x =>
        { x with
          active := none, switching := some { mcid := pf c 0 2, cmd := c, phase := 2 }, chained := false
          filling := false }) c.part addr prog := by
  simp [switchCmd, Nat.not_lt.mpr range, installed]

theorem expertMapOp_of_fit {c : Cmd} {s : State} {m : Model} (active : activeModel (part s c.part) = some m)
    (expert : nfld (pf c 2 2) 0 10 < expertsOf m (pf c 0 2))
    (home : (parseX (entryBytes (parseX (sub c.params 8 16)))).v = true →
      (parseX (entryBytes (parseX (sub c.params 8 16)))).hmem < m.gsize)
    (ranges : bytesInRanges (part s c.part) 0 (mapOffset m (pf c 0 2) (nfld (pf c 2 2) 0 10)) 16 false = true)
    (access : tierAccess s 0 (mapOffset m (pf c 0 2) (nfld (pf c 2 2) 0 10)) 16 true = 0) :
    expertMapOp c s =
      (0, 0, [], writeTier s 0 (mapOffset m (pf c 0 2) (nfld (pf c 2 2) 0 10)) (entryBytes (parseX (sub c.params 8 16)))) := by
  have routed : expertsOf m (pf c 0 2) ≠ 0 := by omega
  have member : ¬ ((parseX (entryBytes (parseX (sub c.params 8 16)))).v = true ∧
      m.gsize ≤ (parseX (entryBytes (parseX (sub c.params 8 16)))).hmem) := fun ⟨valid, beyond⟩ =>
    absurd (home valid) (Nat.not_lt.mpr beyond)
  simp only [expertMapOp, active, if_neg routed, if_neg (Nat.not_le.mpr expert), if_neg member, ranges, access]
  rfl

/-- The model with the parameters of a BALANCE in the layers that no later command of its count sets. -/
def rebalanced (s : State) (c : Cmd) (m : Model) : Model :=
  { m with bal := m.bal.map fun e =>
      if decide (pf c 0 2 = e.1 ∨ pf c 0 2 = 0xffff) && (winner s c (6, c.part, e.1)).isNone then
        (e.1, setBalance (count s) (decide (pf c 2 1 = 1)) (pf c 4 2) (BitVec.ofNat 16 (pf c 6 2))
          (BitVec.ofNat 16 (pf c 8 2)) e.2)
      else e }

theorem keys_rebalanced (s : State) (c : Cmd) (m : Model) :
    (rebalanced s c m).bal.map (fun e => e.1) = m.bal.map fun e => e.1 := by
  rw [rebalanced, List.map_map]
  refine List.map_congr_left fun e _ => ?_
  dsimp only [Function.comp_apply]
  split <;> rfl

theorem mem_rebalanced {s : State} {c : Cmd} {m : Model} {k : Nat} {b : Balance} (mem : (k, b) ∈ m.bal)
    (named : pf c 0 2 = k ∨ pf c 0 2 = 0xffff) (last : winner s c (6, c.part, k) = none) :
    (k, setBalance (count s) (decide (pf c 2 1 = 1)) (pf c 4 2) (BitVec.ofNat 16 (pf c 6 2))
      (BitVec.ofNat 16 (pf c 8 2)) b) ∈ (rebalanced s c m).bal :=
  List.mem_map.mpr ⟨(k, b), mem, if_pos (by simp [named, last])⟩

theorem balanceOp_of_accepted {c : Cmd} {s : State} {m : Model} {id : Nat} (plain : balanceReserved c = none)
    (current : (part s c.part).active = some id) (active : activeModel (part s c.part) = some m)
    (layer : pf c 0 2 = 0xffff ∨ thas m.bal (pf c 0 2) = true) :
    balanceOp c s = (0, 0, [], modPart s c.part fun x => { x with models := tset x.models id (rebalanced s c m) }) := by
  have named : ¬ (pf c 0 2 ≠ 0xffff ∧ (!thas m.bal (pf c 0 2)) = true) := by
    obtain all | one := layer
    · exact fun ⟨not_all, _⟩ => not_all all
    · simp [one]
  simp only [balanceOp, plain, current, active, if_neg named]
  rfl

/-- Settles O4: each row's operation, past its checks, answers status 0 and the state the spec gives. -/
theorem modelCommandsComplete : Obligations.ModelCommandsComplete := by
  refine ⟨fun s p c h hopc => ?seed, fun s p c pkg h hopc plain verified idle untargeted window tables => ?install,
    fun s p c m h hopc range installed idle untargeted => ?remove,
    fun s p addr prog c m h hopc free range installed => ?switch,
    fun s p c m h hopc between active expert => ?map,
    fun s p c m id h hopc plain current active layer => ?balance⟩
  case seed => exact exec_seed_begins h hopc
  case install =>
    refine ⟨_, rfl, show execModelInstall p pkg s = _ from ?_⟩
    exact row_begins_eq h (opcode_of_eq hopc)
      (answer_eq (installOp_of_accepted plain verified idle untargeted window tables rfl))
  case remove =>
    show execModelRemove p s = _
    exact row_begins_eq h (opcode_of_eq hopc) (answer_eq (removeOp_of_idle range installed idle untargeted))
  case switch =>
    show execModelSwitch p addr prog s = _
    rw [execModelSwitch, onWf_acts h.1, free, Bool.true_or, Bool.true_or, if_pos rfl,
      takeCmd_begins h (opcode_of_eq hopc), switchCmd_of_installed addr prog range installed]
  case map =>
    intro ent home ranges access
    show execExpertMap p s = _
    rw [execExpertMap, onWf_acts h.1, between, if_neg (by simp), takeCmd_begins h (opcode_of_eq hopc),
      answer_eq (expertMapOp_of_fit active expert home ranges access)]
  case balance =>
    refine ⟨rebalanced (taken s p c) c m, keys_rebalanced .., fun k b => mem_rebalanced,
      show execBalance p s = _ from ?_⟩
    exact row_begins_eq h (opcode_of_eq hopc) (answer_eq (balanceOp_of_accepted plain current active layer))

end Sys2Proof.Machine
end

section
/-! The commands about requests and budgets (01 R13; 11 R256 to R260) and about drawers (11 Table 6, R266 to R273). -/

namespace Sys2Proof.Machine

/-! ### Requests and budgets -/

/-- A REQUEST that passes every check is enrolled with the place found for it, its drawer, index and adapters as the checks saw
them. -/
theorem requestCmd_of_admitted {adapters objs : List _} {c : Cmd} {s u : State} {m : Model} {reg d area : Option Nat}
    (plain : requestReserved c none = none) (active : activeModel (part s c.part) = some m)
    (tokens : requestReserved c (some m.vocab) = none)
    (hd : (if pf c 4 4 = 0xffffffff then none else some (drawerIdx s c.part (pf c 4 4))) = d)
    (hobjs : objectsFor s m c adapters = objs) (harea : adapterRoom s c.part m (objs.map fun e => e.2).sum = area)
    (admitted : admitChecks s c.part m c d (pf c 4 4)
      ((placeFor s c.part (freeIndex (part s c.part)) d ((pf c 8 2 + pf c 10 2) * m.tbpp)).isSome &&
        (decide (objs = []) || area.isSome)) = 0)
    (placed : placeFor (takeWeights s c.part (pf c 0 1) m) c.part (freeIndex (part s c.part)) d
      ((pf c 8 2 + pf c 10 2) * m.tbpp) = some (reg, u))
    (funds : let b := budget (part (takeWeights s c.part (pf c 0 1) m) c.part) (pf c 0 1)
      ((b.inW * pf c 8 2 + b.outW * pf c 10 2 : Nat) : Int) ≤ b.bal - b.res) :
    requestCmd adapters c s = enroll u c.part m c d reg (freeIndex (part s c.part)) (area.getD 0) objs := by
  subst hobjs harea
  unfold requestCmd
  simp only [plain, active, tokens]
  rw [hd, if_neg (not_not_intro admitted), if_neg (Int.not_lt.mpr funds), placed]

/-- A CANCEL of a request that neither a running step nor a waiting publish holds ends it. -/
theorem cancelCmd_of_no_step {c : Cmd} {s : State} {r : Req} (fresh : (part s c.part).cancelDone = [])
    (idle : (part s c.part).step = none) (unpublished : (part s c.part).pub = none)
    (found : (part s c.part).reqs.find? (fun r => decide (r.cmd.port = pf c 0 1 ∧ r.cmd.seq = pf c 4 4)) = some r) :
    cancelCmd c s = reqEnd (addCancel s c.part r.index c) c.part r.index 0x3003 0 := by
  rw [cancelCmd, fresh, List.find?_nil]
  dsimp only
  rw [found, idle, unpublished]
  rfl

theorem budgetOpc_of_op {c : Cmd} {op : Nat} (hopc : c.opc = 0x0303) (hop : pf c 1 1 = op) : budgetOpc op c = true := by
  simp [budgetOpc, opcode, hopc, hop]

/-- A BUDGET command's operation, when the entry that its OP makes is known. -/
theorem budgetCmd_eq {c : Cmd} {s : State} {b : Budget} (known : pf c 1 1 ≤ 2)
    (entry : (if pf c 1 1 = 0 then { budget (part s c.part) (pf c 0 1) with bal := sgn 64 (pf c 8 8) }
      else if pf c 1 1 = 1 then { budget (part s c.part) (pf c 0 1) with
        bal := satBal ((budget (part s c.part) (pf c 0 1)).bal + sgn 64 (pf c 8 8)) }
      else { budget (part s c.part) (pf c 0 1) with inW := pf c 2 1, outW := pf c 3 1, wset := true }) = b) :
    budgetCmd c s = finish (sendBudget (setBudget s c.part (pf c 0 1) b) c.part (pf c 0 1)) c 0 0 (budgetBytes b) := by
  subst entry
  exact answer_eq (if_neg (Nat.not_lt.mpr known))

/-- Settles O5: each row takes its command, and its operation is known where the checks pass. -/
theorem servingCommandsComplete : Obligations.ServingCommandsComplete := by
  refine ⟨fun s p adapters c m reg u b h hopc free plain active tokens => ?request,
    fun s p c r h hopc fresh idle unpublished found => ?cancel, fun s p c h hopc hop => ?set, fun s p c h hopc hop => ?add,
    fun s p c h hopc hop => ?weights⟩
  case request =>
    rintro v w d lines index objs area admitted placed rfl funds
    show execRequest p adapters s = _
    rw [execRequest, onWf_acts h.1, free, if_neg Bool.false_ne_true, takeCmd_begins h (opcode_of_eq hopc)]
    exact congrArg _ (requestCmd_of_admitted plain active tokens rfl rfl rfl admitted placed funds)
  case cancel =>
    show execCancel p s = _
    exact row_begins_eq h (opcode_of_eq hopc) (cancelCmd_of_no_step fresh idle unpublished found)
  case set =>
    show execBudgetSet p s = _
    exact row_begins_eq h (budgetOpc_of_op hopc hop) (budgetCmd_eq (by omega) (by rw [if_pos hop]))
  case add =>
    show execBudgetAdd p s = _
    exact row_begins_eq h (budgetOpc_of_op hopc hop)
      (budgetCmd_eq (by omega) (by rw [if_neg (by omega), if_pos hop]))
  case weights =>
    show execBudgetSetWeights p s = _
    exact row_begins_eq h (budgetOpc_of_op hopc hop)
      (budgetCmd_eq (by omega) (by rw [if_neg (by omega), if_neg (by omega)]))

/-! ### Drawers -/

/-- A READ of lines that its space holds begins. -/
theorem drawerReadCmd_of_lines {c : Cmd} {s : State} {space : Nat × Nat} (kind : pf c 4 1 ≤ 1)
    (lines : ¬ (pf c 12 4 = 0 ∨ 4096 < pf c 12 4)) (there : drawerRefused s c.part (pf c 0 4) [1, 2, 3, 6] = 0)
    (usable : (drawer s (drawerIdx s c.part (pf c 0 4))).state ≠ 6)
    (hspace : (let d := drawer s (drawerIdx s c.part (pf c 0 4))
      let v := visStep (part s c.part) false
      if pf c 4 1 = 0 then (visSbase d v, visSlen d v) else (d.tbase, visTlen d v)) = space)
    (inside : pf c 8 4 + pf c 12 4 ≤ space.2) :
    drawerReadCmd c s = pendRead s c.part c (unitOff space.1 + 64 * pf c 8 4) (64 * pf c 12 4) := by
  obtain ⟨unit, top⟩ := space
  unfold drawerReadCmd
  dsimp only at hspace ⊢
  rw [hspace]
  dsimp only
  rw [if_neg (Nat.not_lt.mpr kind), if_neg lines, if_neg (not_not_intro there), if_neg usable,
    if_neg (Nat.not_lt.mpr inside)]

/-- Settles O6: each row takes its command, and the drawer's state, its tier and the lines named pass the row's checks. -/
theorem drawerCommandsComplete : Obligations.DrawerCommandsComplete := by
  refine ⟨fun s p c h hopc some_size small free => ?create, fun s p c h hopc _ closed => ?delete,
    fun s p c h hopc closed => ?opened, fun s p c h hopc tier held_tier opened => ?close,
    fun s p c h hopc opened => ?commit, fun s p c h hopc tier held_tier closed => ?move,
    fun s p c h hopc kind some_lines few there => ?read⟩
  case create =>
    have size : ¬ (pf c 4 4 = 0 ∨ 16384 < pf c 4 4) := by omega
    show execDrawerCreate p s = _
    exact row_begins_eq h (opcode_of_eq hopc) (answer_eq (by simp [createOp, size, free]))
  case delete =>
    intro i primary
    show execDrawerDelete p s = _
    exact row_begins_eq h (opcode_of_eq hopc)
      (answer_eq (by simp only [deleteOp, closed, primary, i, ne_eq, not_true_eq_false, if_false, Bool.false_eq_true]))
  case opened =>
    intro i d v lines
    have full : visSlen d v ≠ 0 := by omega
    show execDrawerOpen p s = _
    exact row_begins_eq h (opcode_of_eq hopc) (by rw [openCmd, if_neg (not_not_intro closed), if_neg full])
  case close =>
    intro i free
    show execDrawerClose p s = _
    exact row_begins_eq h (opcode_of_eq hopc)
      (by simp only [closeCmd, Nat.not_lt.mpr tier, held_tier, opened, free, i, if_false, Bool.not_true, ne_eq,
        not_true_eq_false, Bool.false_eq_true])
  case commit =>
    intro i d free above below
    have range : ¬ (pf c 4 4 < visTlen d (visStep (part (taken s p c) c.part) false) ∨ d.tcap < pf c 4 4) := by omega
    show execDrawerCommit p s = _
    exact row_begins_eq h (opcode_of_eq hopc)
      (by rw [drawerCommitCmd, if_neg (not_not_intro opened), if_neg (Bool.eq_false_iff.mp free), if_neg range])
  case move =>
    intro i op
    show execDrawerMove p s = _
    exact row_begins_eq h (opcode_of_eq hopc)
      (by rw [drawerMoveCmd, if_neg (Nat.not_lt.mpr tier), held_tier, Bool.not_true,
        if_neg Bool.false_ne_true, if_neg (not_not_intro closed)])
  case read =>
    intro d v space usable inside
    have lines : ¬ (pf c 12 4 = 0 ∨ 4096 < pf c 12 4) := by omega
    show execDrawerRead p s = _
    exact row_begins_eq h (opcode_of_eq hopc) (drawerReadCmd_of_lines kind lines there usable rfl inside)

end Sys2Proof.Machine
end

section
/-! The commands about grains, loads and replacements (09 Table 7; 10 R239 to R242, R249) and about power (12 R294, R295; 17
R419 to R425). -/

namespace Sys2Proof.Machine

/-! ### Grains -/

theorem allocOp_of_done {c : Cmd} {s t : State} (allowed : grainRefused c s true = none)
    (done : htAlloc s (pf c 0 4) c.part (pf c 4 1) (pf c 8 4) (isMirror s c.part) = (0, t)) :
    allocOp c s = (0, 0, [], t) := by
  rw [allocOp, allowed]
  simp only [done, htAnswer, if_true]

theorem grainMoveCmd_of_begun {c : Cmd} {s t : State} (allowed : grainRefused c s true = none)
    (begun : htMove s (pf c 0 4) (pf c 4 1) (pf c 8 4) (.command c) = (0, t)) : grainMoveCmd c s = t := by
  rw [grainMoveCmd, allowed]
  simp only [begun]

theorem freeOp_of_done {c : Cmd} {s t : State} (allowed : grainRefused c s false = none)
    (done : htFree s (pf c 0 4) = (0, t)) : freeOp c s = (0, 0, [], t) := by
  rw [freeOp, allowed]
  simp only [done, htAnswer, if_true]

/-! ### Loads -/

/-- A LOAD_GRANT's frames meet no window and no other open grant of their tier. -/
theorem not_grantConflict {s : State} {x : Part} {t first n gid : Nat}
    (windows : t = 0 → ∀ w ∈ windowsOf x, meets first n w.1 w.2 = false)
    (grants : ∀ g ∈ x.grants, grantOpen s g = true → g.gid ≠ gid → g.tier = t → meets first n g.first g.frames = false) :
    ¬ ((t = 0 ∧ (windowsOf x).any (fun w => meets first n w.1 w.2) = true) ∨
      x.grants.any (fun g => grantOpen s g && decide (g.gid ≠ gid ∧ g.tier = t) && meets first n g.first g.frames) = true) := by
  simp only [List.any_eq_true, Bool.and_eq_true, decide_eq_true_eq]
  rintro (⟨tier0, w, hw, hits⟩ | ⟨g, hg, ⟨still_open, other, same⟩, hits⟩)
  · exact Bool.false_ne_true ((windows tier0 w hw).symm.trans hits)
  · exact Bool.false_ne_true ((grants g hg still_open other same).symm.trans hits)

/-- A LOAD_CHECK's objects begin within the frames of its grant. -/
theorem not_beyondGrant {offs : List Nat} {bytes : Nat} (inside : ∀ o ∈ offs, o + 64 ≤ bytes) :
    ¬ offs.any (fun o => decide (bytes < o + 64)) = true := by
  simp only [List.any_eq_true, decide_eq_true_eq, not_exists, not_and, Nat.not_lt]
  exact inside

theorem loadDataCmd_of_open {c : Cmd} {s : State} {g : Grant} (gid : pf c 0 1 ≤ 15) (aligned : pf c 8 8 % 64 = 0)
    (found : findGrant s c.part (pf c 0 1) = some g) (opened : grantOpen s g = true)
    (inside : pf c 8 8 + (c.plen - 16) ≤ frameBytes * g.frames) :
    loadDataCmd c s =
      pendWrites s c.part g.tier (frameBytes * g.first + pf c 8 8) (c.params.drop 16) .none (.load c.part g.id (some c)) := by
  rw [loadDataCmd, if_neg (Nat.not_lt.mpr gid), if_neg (not_not_intro aligned)]
  simp only [found]
  rw [if_pos ⟨opened, inside⟩]

theorem modTiers_congr {s : State} {f g : Tiers → Tiers} (h : f s.tiers = g s.tiers) : modTiers s f = modTiers s g := by
  rw [modTiers, modTiers, h]

/-- A LAYER_REPLACE whose objects have one shape, the first with nothing else replaced, waits at its barrier. -/
theorem layerReplaceCmd_of_same_shape {c : Cmd} {s : State} {h g : List Byte} (verified : isVerified s (pf c 0 8) = true)
    (source : headerAt s (pf c 0 8) = (0, h)) (target : headerAt s (pf c 8 8) = (0, g))
    (alike : ¬ (headerBad h = true ∨ fld h 1 1 ≠ 0 ∨ objLen h < 64 + 32 * fld h 2 1 ∨ shape h ≠ shape g ∨
      (readGlobal s (pf c 0 8) (64 + 32 * fld h 2 1)).1 ≠ 0 ∨ (readGlobal s (pf c 8 8) (64 + 32 * fld h 2 1)).1 ≠ 0 ∨
      dirShape (readGlobal s (pf c 0 8) (64 + 32 * fld h 2 1)).2 (fld h 2 1) ≠
        dirShape (readGlobal s (pf c 8 8) (64 + 32 * fld h 2 1)).2 (fld h 2 1)))
    (still : underMigration s (pf c 8 8) = false) (first : s.tiers.replaces = []) :
    layerReplaceCmd c s =
      modTiers s fun m =>
        { m with replaces := [{
            cmd := c, src := BitVec.ofNat 64 (pf c 0 8), dst := BitVec.ofNat 64 (pf c 8 8), len := objLen h, phase := 1
            retried := false, past := barrier s (pf c 8 8) (objLen h) }] } := by
  simp only [layerReplaceCmd, verified, source, target]
  rw [if_neg (by simp), if_neg alike, if_neg (by simp [still, first])]
  exact modTiers_congr (by rw [first, List.nil_append])

/-- Settles O7: past its checks, each row runs its operation. -/
theorem memoryCommandsComplete : Obligations.MemoryCommandsComplete := by
  refine ⟨fun s p c t h hopc allowed done => ?alloc, fun s p c t h hopc allowed begun => ?move,
    fun s p c t h hopc allowed done => ?free, fun s p c h hopc plain => ?grant,
    fun s p c g h hopc gid aligned found opened inside => ?data, fun s p c g h hopc plain found => ?check,
    fun s c h g b hopc verified source target good kind long same srcRead dstRead dirs still first => ?replace⟩
  case alloc =>
    show execGrainAlloc p s = _
    exact row_begins_eq h (opcode_of_eq hopc) (answer_eq (allocOp_of_done allowed done))
  case move =>
    show execGrainMove p s = _
    exact row_begins_eq h (opcode_of_eq hopc) (grainMoveCmd_of_begun allowed begun)
  case free =>
    show execGrainFree p s = _
    exact row_begins_eq h (opcode_of_eq hopc) (answer_eq (freeOp_of_done allowed done))
  case grant =>
    intro u t ranges unheld windows grants g
    show execLoadGrant p s = _
    refine row_begins_eq h (opcode_of_eq hopc) ?_
    rw [loadGrantCmd, plain]
    dsimp only
    rw [ranges, Bool.not_true, if_neg Bool.false_ne_true, unheld, if_neg Bool.false_ne_true,
      if_neg (not_grantConflict windows grants)]
  case data =>
    show execLoadData p s = _
    exact row_begins_eq h (opcode_of_eq hopc) (loadDataCmd_of_open gid aligned found opened inside)
  case check =>
    intro offs inside id
    show execLoadCheck p s = _
    refine row_begins_eq h (opcode_of_eq hopc) ?_
    rw [loadCheckCmd, plain]
    dsimp only
    rw [found]
    dsimp only
    rw [if_neg (not_beyondGrant inside)]
  case replace =>
    show execLayerReplace s = _
    exact row_begins_eq b (opcode_of_eq hopc) (layerReplaceCmd_of_same_shape verified source target
      (by simp [good, kind, Nat.not_lt.mpr long, same, srcRead, dstRead, dirs]) still first)

/-! ### Power and emergency -/

/-- A CAP_SET of C that does not lower the limit completes at once. -/
theorem capCmd_of_not_lower {c : Cmd} {s u : State} (fromC : c.port = 0) (range : pf c 0 4 ≤ 2200)
    (hu : modPower s (fun x => { x with capC := pf c 0 4 }) = u)
    (kept : effCap u = 0 ∨ (effCap s ≠ 0 ∧ effCap s ≤ effCap u)) : capCmd c s = capFinish (relimit u) c (effCap u) := by
  simp only [capCmd, if_neg (Nat.not_lt.mpr range), fromC, if_true, hu, if_pos kept]

theorem brakeOp_of_range {c : Cmd} (s : State) (floor : 320 ≤ pf c 0 4) (top : pf c 0 4 ≤ 2200) :
    brakeOp c s = (0, 0, [], relimit (modPower s fun x => { x with brakeLevel := pf c 0 4 })) := if_neg (by omega)

theorem orphanOp_of_range {c : Cmd} (s : State) (floor : 10 ≤ pf c 0 1) (top : pf c 0 1 ≤ 100) :
    orphanOp c s = (0, 0, [], relimit (modPower s fun x => { x with orph := pf c 0 1 })) := if_neg (by omega)

theorem emergencyOpc_of_level {c : Cmd} {level : Nat} (hopc : c.opc = 0x0604) (hlevel : pf c 0 1 = level) :
    emergencyOpc level c = true := by
  simp [emergencyOpc, opcode, hopc, hlevel]

theorem emergencyCmd_hold {c : Cmd} {level : Nat} (s : State) (hlevel : pf c 0 1 = level) (low : level < 3) :
    emergencyCmd c s = finish (setHold s c.port level) c 0 0 [] := by
  rw [emergencyCmd, hlevel, if_neg (by omega), if_neg (by omega)]

theorem emergencyCmd_stop {c : Cmd} (s : State) (hlevel : pf c 0 1 = 3) :
    emergencyCmd c s = safeState (finish (stopAll (setHold s c.port 3) c) c 0 0 []) 0x3006 0 := by
  rw [emergencyCmd, hlevel, if_neg (by omega), if_pos rfl]

/-- Settles O8: a setting in its range is written, and an EMERGENCY acts by its level. -/
theorem powerCommandsComplete : Obligations.PowerCommandsComplete := by
  refine ⟨fun s c h hopc fromC range => ?cap, fun s c h hopc floor top => ?brake,
    fun s c h hopc floor top => ?orphan, fun s c h hopc hlevel => ?release, fun s c h hopc hlevel => ?hold,
    fun s c h hopc hlevel => ?shed, fun s c h hopc hlevel => ?stop⟩
  case cap =>
    intro u kept
    show execCapSet s = _
    exact row_begins_eq h (opcode_of_eq hopc) (capCmd_of_not_lower fromC range rfl kept)
  case brake =>
    show execBrakeCfg s = _
    exact row_begins_eq h (opcode_of_eq hopc) (answer_eq (brakeOp_of_range _ floor top))
  case orphan =>
    show execOrphanCfg s = _
    exact row_begins_eq h (opcode_of_eq hopc) (answer_eq (orphanOp_of_range _ floor top))
  case release =>
    show execEmergencyRelease s = _
    exact row_begins_eq h (emergencyOpc_of_level hopc hlevel) (emergencyCmd_hold _ hlevel (by omega))
  case hold =>
    show execEmergencyHold s = _
    exact row_begins_eq h (emergencyOpc_of_level hopc hlevel) (emergencyCmd_hold _ hlevel (by omega))
  case shed =>
    show execEmergencyShed s = _
    exact row_begins_eq h (emergencyOpc_of_level hopc hlevel) (emergencyCmd_hold _ hlevel (by omega))
  case stop =>
    show execEmergencyStop s = _
    exact row_begins_eq h (emergencyOpc_of_level hopc hlevel) (emergencyCmd_stop _ hlevel)

end Sys2Proof.Machine
end

section
/-! The descriptors of a stream program (10 R226 to R234; 16 R374): which row takes each and what it does past its checks. -/

namespace Sys2Proof.Machine

/-- A row that acts, when the effect of its meaning is known. -/
theorem onWf_acts_eq {i : Instr} {s t : State} {f : State → State} (acts : Acts i s) (effect : f s = t) :
    onWf i s f = .next t := by
  rw [onWf_acts acts, effect]

/-- A stream row that takes the next descriptor, when what it does with it is known. -/
theorem row_takes_eq {i : Instr} {s t : State} {p kind : Nat} {d : BitVec 256} {f : Nat → BitVec 256 → State → State}
    (acts : Acts i s) (takes : TakesDesc s p kind d) (range : 1 ≤ kind ∧ kind ≤ 6)
    (effect : f (part s p).stream.next d s = t) : onWf i s (takeDesc p kind f) = .next t :=
  onWf_acts_eq acts ((takeDesc_takes takes range f).trans effect)

/-! ### FEED -/

theorem feedDesc_of_fit {s : State} {p idx : Nat} {d : BitVec 256}
    (fields : ¬ (nfld (dfld d 1 1) 0 2 = 3 ∨ dWpf d = 0 ∨ 4095 < dWpf d ∨ dCpw d = 0)) (own : gChip (dSrc d) = s.fabric.chip)
    (tier0 : gTierOf (dSrc d) = 0)
    (ranges : ((List.range (feedFrames d)).all fun j =>
      bytesInRanges (part s p) 0 (gOff (feedAddr d j)) (64 * dWpf d) true) = true)
    (dest : destOk (part s p) d = true) (frames : feedFrames d ≠ 0) :
    feedDesc p true idx d s = nextFrame (activate (failObject s p idx d) p idx d) p idx := by
  simp [feedDesc, fields, own, tier0, ranges, dest, frames]

theorem feedDesc_of_disagreement {s : State} {p idx : Nat} {d : BitVec 256}
    (fields : ¬ (nfld (dfld d 1 1) 0 2 = 3 ∨ dWpf d = 0 ∨ 4095 < dWpf d ∨ dCpw d = 0)) :
    feedDesc p false idx d s = checkerFault s p (dSrc d) := by
  simp [feedDesc, fields]

/-! ### STAGE -/

theorem stageFault_of_fit {s : State} {p : Nat} {d : BitVec 256} (need : nfld (dfld d 1 1) 0 2 ≠ 3)
    (tier : gTierOf (dSrc d) = 1 ∨ gTierOf (dSrc d) = 2) (lines : dLen d % 64 = 0) (own : gChip (dSrc d) = s.fabric.chip)
    (source : bytesInRanges (part s p) (gTierOf (dSrc d)) (gOff (dSrc d)) (dLen d) true = true)
    (tier0 : gTierOf (dDst d) = 0) (target : bytesInRanges (part s p) 0 (gOff (dDst d)) (dLen d) false = true)
    (window : inStreamWindow (part s p) (dDst d) (dLen d) = true) : stageFault s p d = none := by
  have upper : ¬ (gTierOf (dSrc d) ≠ 1 ∧ gTierOf (dSrc d) ≠ 2) := by omega
  simp [stageFault, need, upper, lines, own, source, tier0, target, window]

theorem stageDesc_of_fit {s : State} {p idx : Nat} {d : BitVec 256} (fits : stageFault s p d = none) (bytes : 0 < dLen d) :
    stageDesc p true idx d s = nextPiece (activate (failObject s p idx d) p idx d) p idx := by
  have len : dLen d ≠ 0 := by omega
  simp [stageDesc, fits, len]

theorem stageDesc_of_disagreement {s : State} {p idx : Nat} {d : BitVec 256} (fields : stageFault s p d ≠ some .program) :
    stageDesc p false idx d s = checkerFault s p (dSrc d) := by
  simp [stageDesc, fields]

theorem takeStage_of_next {s : State} {p : Nat} {d : BitVec 256} (agree : Bool) (takes : TakesDesc s p 2 d) :
    takeStage p agree s = stageDesc p agree (part s p).stream.next d s := by
  have next : (((part s p).stream.prog[(part s p).stream.next]?).any fun d => decide (dKind d = 2)) = true := by
    simp [takes.1, takes.2.1]
  rw [takeStage, if_pos next, takeDesc_takes takes (by omega)]

theorem takeStage_of_early {s : State} {p i : Nat} {d : BitVec 256} (agree : Bool)
    (other : (((part s p).stream.prog[(part s p).stream.next]?).any fun d => decide (dKind d = 2)) = false)
    (early : earlyStage s p = some (i, d)) : takeStage p agree s = stageDesc p agree i d s := by
  simp only [takeStage, other, Bool.false_eq_true, if_false, early]

/-! ### MARK, DRAIN and END -/

theorem markDesc_of_released {s : State} {p idx : Nat} {d : BitVec 256} {r : Nat × W64}
    (range : nfld (dfld d 16 1) 0 7 ≤ 64)
    (released : (part s p).stream.releases.find? (fun r => decide (r.1 = dfld d 4 2)) = some r) :
    markDesc p idx d s =
      modStream (passDesc s p) p fun m =>
        { m with
          releases := m.releases.filter fun r => decide (r.1 ≠ dfld d 4 2)
          usedMarks := dfld d 4 2 :: m.usedMarks, cond := nfld (dfld d 16 1) 0 7, mask := r.2, markAt := none } := by
  rw [markDesc, if_neg (Nat.not_lt.mpr range), released]

theorem drainDesc_of_unmarked {s : State} {p idx : Nat} {d : BitVec 256} (dest : destOk (part s p) d = true)
    (unmarked : markedQueue s p (destBlock (dDest d)) (nfld (dDest d) 0 6) (destSlot (dDest d)) (nfld (dfld d 16 1) 0 2)
      (part s p).stream.epoch = false) :
    drainDesc p true idx d s =
      modStream (activate s p idx d) p fun m =>
        { m with marked :=
            markKey (destBlock (dDest d)) (nfld (dDest d) 0 6) (destSlot (dDest d)) (nfld (dfld d 16 1) 0 2) :: m.marked } := by
  simp [drainDesc, dest, unmarked]

theorem drainDesc_of_disagreement (s : State) (p idx : Nat) (d : BitVec 256) :
    drainDesc p false idx d s = checkerFault s p (dDest d) := by
  simp [drainDesc]

theorem endDesc_of_completed {s : State} {p idx : Nat} {d : BitVec 256} {k : Step} (running : (part s p).step = some k)
    (completed : (part s p).stream.active = []) :
    endDesc p idx d s =
      modPart (modStream (passDesc s p) p fun m =>
        { m with discarded := m.discarded + m.releases.length, releases := [], usedMarks := [] }) p fun x =>
        { x with step := some { k with ended := true } } := by
  rw [endDesc, running]
  exact if_neg (not_not_intro completed)

/-! ### CONFIG -/

theorem configDesc_of_idle {s : State} {p idx : Nat} {d : BitVec 256} (own : gChip (dSrc d) = s.fabric.chip)
    (tier : gTierOf (dSrc d) ≠ 3) (ranges : bytesInRanges (part s p) (gTierOf (dSrc d)) (gOff (dSrc d)) 0xc0 true = true)
    (idle : injectorsIdle (part s p) = true) (unread : ∀ x ∈ s.tiers.transfers, x.purpose ≠ .config p) :
    configDesc p true idx d s = startInjectors s p idx (dSrc d) := by
  have reading : (s.tiers.transfers.any fun t => decide (t.purpose = .config p)) = false := by simpa using unread
  simp [configDesc, own, tier, ranges, idle, reading]

theorem configDesc_of_disagreement (s : State) (p idx : Nat) (d : BitVec 256) :
    configDesc p false idx d s = checkerFault s p (dSrc d) := by
  simp [configDesc]

/-- Injectors start on an image whose header and directory break no rule and whose bytes are the partition's. -/
theorem startInjectors_of_image {s : State} {p idx a : Nat} {h dir : List Byte} {used : List Nat} {i : Inject}
    (header : headerAt s a = (0, h)) (hdir : readTier s (gTierOf a) (gOff a + 0x40) 128 = dir)
    (hused : (List.range 16).filter (fun j => decide (fld dir (8 * j + 4) 4 ≠ 0)) = used)
    (good : headerBad h = false) (kind : fld h 1 1 = 1)
    (columns : ∀ j ∈ used, j < (colsOf (part s p)).length ∧ fld dir (8 * j) 4 + 80 * fld dir (8 * j + 4) 4 ≤ objLen h)
    (ranges : bytesInRanges (part s p) (gTierOf a) (gOff a) (objLen h) true = true)
    (hi : i =
      { image := BitVec.ofNat 64 a, epoch := (part s p).epoch + 1
        recs := used.map fun j => (j, imageRecords s a (fld dir (8 * j) 4) (fld dir (8 * j + 4) 4))
        left := (unitPieces (gOff a) (objLen h)).length }) :
    startInjectors s p idx a =
      pendReads (modPart (advanceEpoch (passDesc s p) p) p fun x => { x with inject := some i }) p
        (gTierOf a) (gOff a) (objLen h) .step (.config p) := by
  subst hdir hused hi
  have fits : ¬ (headerBad h = true ∨ fld h 1 1 ≠ 1 ∨
      ((List.range 16).filter fun j => decide (fld (readTier s (gTierOf a) (gOff a + 0x40) 128) (8 * j + 4) 4 ≠ 0)).any
        (fun j => decide ((colsOf (part s p)).length ≤ j ∨ objLen h <
          fld (readTier s (gTierOf a) (gOff a + 0x40) 128) (8 * j) 4 +
            80 * fld (readTier s (gTierOf a) (gOff a + 0x40) 128) (8 * j + 4) 4)) = true) := by
    rw [List.any_eq_true]
    rintro (bad | other | ⟨j, hj, broken⟩)
    · exact Bool.false_ne_true (good.symm.trans bad)
    · exact other kind
    · have := columns j hj
      have := of_decide_eq_true broken
      omega
  simp only [startInjectors, header]
  rw [if_neg fits, ranges, Bool.not_true, if_neg Bool.false_ne_true]

/-- Settles O9: the row of each kind takes its descriptor, which passes its checks or meets checkers that disagree. -/
theorem streamDescriptorsComplete : Obligations.StreamDescriptorsComplete := by
  refine ⟨fun s p d acts takes need low high credit own tier0 ranges dest frames => ?feed,
    fun s p d acts takes need tier lines bytes own source tier0 target window => ?stage,
    fun s p d i acts other early fits bytes => ?early, fun s p d r acts takes range released => ?mark,
    fun s p d acts takes dest unmarked => ?drain,
    fun s p d h acts takes own tier ranges idle unread header good kind => ?config,
    fun s p d k acts takes running completed => ?ending, fun s p d acts takes need low high credit => ?feedChecked,
    fun s p d acts takes fields => ?stageChecked, fun s p d acts takes => ?drainChecked,
    fun s p d acts takes => ?configChecked⟩
  case feed =>
    show execStreamFeed p true s = _
    exact row_takes_eq acts takes (by omega) (feedDesc_of_fit (by omega) own tier0 ranges dest (by omega))
  case stage =>
    show execStreamStage p true s = _
    exact onWf_acts_eq acts ((takeStage_of_next true takes).trans
      (stageDesc_of_fit (stageFault_of_fit need tier lines own source tier0 target window) bytes))
  case early =>
    show execStreamStage p true s = _
    exact onWf_acts_eq acts ((takeStage_of_early true other early).trans (stageDesc_of_fit fits bytes))
  case mark =>
    show execStreamMark p s = _
    exact row_takes_eq acts takes (by omega) (markDesc_of_released range released)
  case drain =>
    show execStreamDrain p true s = _
    exact row_takes_eq acts takes (by omega) (drainDesc_of_unmarked dest unmarked)
  case config =>
    intro dir used columns whole i
    show execStreamConfig p true s = _
    exact row_takes_eq acts takes (by omega) ((configDesc_of_idle own tier ranges idle unread).trans
      (startInjectors_of_image header rfl rfl good kind columns whole rfl))
  case ending =>
    show execStreamEnd p s = _
    exact row_takes_eq acts takes (by omega) (endDesc_of_completed running completed)
  case feedChecked =>
    show execStreamFeed p false s = _
    exact row_takes_eq acts takes (by omega) (feedDesc_of_disagreement (by omega))
  case stageChecked =>
    show execStreamStage p false s = _
    exact onWf_acts_eq acts ((takeStage_of_next false takes).trans (stageDesc_of_disagreement fields))
  case drainChecked =>
    show execStreamDrain p false s = _
    exact row_takes_eq acts takes (by omega) (drainDesc_of_disagreement ..)
  case configChecked =>
    show execStreamConfig p false s = _
    exact row_takes_eq acts takes (by omega) (configDesc_of_disagreement ..)

end Sys2Proof.Machine
end

section
/-! Release words, first fills and adapters (10 R233, R234, R246, R247), transfers and moves of grains (09 R205 to R217; 10
R224, R237). -/

namespace Sys2Proof.Machine

/-! ### Streams by themselves -/

theorem modStream_congr {s : State} {p : Nat} {f g : Stream → Stream} (h : f (part s p).stream = g (part s p).stream) :
    modStream s p f = modStream s p g := by
  simp only [modStream, modPart, h]

/-- The oldest release word is taken when its id is neither used nor held. -/
theorem markRelease_of_new {s : State} {p : Nat} {w : Line} {r : List Line}
    (oldest : (part s p).stream.relWrites = w :: r) (unused : bfld w 0 16 ∉ (part s p).stream.usedMarks)
    (unheld : ∀ e ∈ (part s p).stream.releases, e.1 ≠ bfld w 0 16) :
    markRelease p s =
      modStream s p fun m =>
        { m with relWrites := r, releases := m.releases ++ [(bfld w 0 16, w.extractLsb' 64 64)] } := by
  have new : ¬ (bfld w 0 16 ∈ (part s p).stream.usedMarks ∨
      (part s p).stream.releases.any (fun e => decide (e.1 = bfld w 0 16)) = true) := by
    rintro (used | held)
    · exact unused used
    · obtain ⟨e, mem, same⟩ := List.any_eq_true.mp held
      exact unheld e mem (of_decide_eq_true same)
  refine modStream_congr ?_
  simp only [oldest, if_neg new]

theorem firstFill_of_staged {s : State} {p : Nat} {w : Switch} {m : Model} (switching : (part s p).switching = some w)
    (target : tfind (part s p).models w.mcid = some m) (filling : (part s p).filling = true)
    (loaded : (part s p).stream.prog ≠ [])
    (taken : ((fillStages (frameBytes * m.wlayer) 0 (part s p).stream.prog.zipIdx).all fun i =>
      descTaken (part s p).stream i) = true)
    (written : ((part s p).stream.active.any fun a =>
      decide (a.idx ∈ fillStages (frameBytes * m.wlayer) 0 (part s p).stream.prog.zipIdx)) = false) :
    firstFill p s =
      finish (placeObuf (modPart s p fun x =>
        { x with switching := none, active := some w.mcid, filling := false, nextRound := 0, committed := 0 }) p m)
        w.cmd 0 0 [] := by
  have model : streamModel (part s p) = some m := by rw [streamModel, switching]; exact target
  simp only [firstFill, switching, model]
  rw [if_pos ⟨filling, loaded, taken, written⟩]

theorem adapterStaged_of_written {s : State} {p tenant : Nat}
    (staging : ∃ a ∈ (part s p).adapters, a.tenant = tenant ∧ a.staged = false)
    (landed : ∀ t ∈ s.tiers.transfers, t.purpose ≠ .adapter p tenant ∧ ∀ d, t.purpose ≠ .adapterRead p tenant d) :
    adapterStaged p tenant s =
      modPart s p fun x =>
        { x with
          adapters := x.adapters.map fun a => if a.tenant = tenant then { a with staged := true, stamp := count s } else a
          reqs := x.reqs.map fun r =>
            if r.tenant = tenant ∧ r.adapterReady = none64 then { r with adapterReady := count s } else r } := by
  refine if_pos ?_
  rw [Bool.and_eq_true, Bool.not_eq_true', List.any_eq_true, List.any_eq_false]
  refine ⟨by simpa using staging, fun t ht => ?_⟩
  obtain ⟨written, read⟩ := landed t ht
  cases purpose : t.purpose with
  | adapter q u =>
    rw [purpose] at written
    simpa using written
  | adapterRead q u d =>
    have other := read d
    rw [purpose] at other
    simpa using other
  | _ => simp

/-- Settles O10: each row's meaning where a release is new, a mark has waited, a fill is staged or an adapter written. -/
theorem streamHappeningsComplete : Obligations.StreamHappeningsComplete := by
  refine ⟨fun s p w r acts oldest unused unheld => ?release, fun s p c acts waits overdue none_here => ?stall,
    fun s p w m acts switching target filling loaded => ?fill, fun s p tenant acts staging landed => ?adapter⟩
  case release =>
    show execMarkReleaseWrite p s = _
    exact onWf_acts_eq acts (markRelease_of_new oldest unused unheld)
  case stall =>
    show execStreamStallExpiry p s = _
    rw [execStreamStallExpiry, onWf_acts acts]
    simp only [waits]
    exact congrArg _ (if_pos ⟨overdue, none_here⟩)
  case fill =>
    intro fill taken written
    show execFirstFillComplete p s = _
    exact onWf_acts_eq acts (firstFill_of_staged switching target filling loaded taken written)
  case adapter =>
    show execAdapterStageComplete p tenant s = _
    exact onWf_acts_eq acts (adapterStaged_of_written staging landed)

/-! ### Transfers -/

theorem transferDone_in_time {s : State} {id st c : Nat} {x : Transfer} (found : findTransfer s id = some x)
    (issued : x.issued = some c) (own : isOutward x = false) (free : atGate s id = false) (early : count s < c + limitOf x)
    (status : st = 0 ∨ st = 1 ∨ st = memStatus (placeOf s x).1 1) :
    transferDone id st s =
      if st = 0 then completeTransfer s x 0
      else if st = 1 then completeTransfer (unitError s (placeOf s x).1 (placeOf s x).2 false) x 0
      else completeTransfer (unitError s (placeOf s x).1 (placeOf s x).2 true) x st := by
  simp only [transferDone, found, issued, own, free, Nat.not_le.mpr early, decide_false, Bool.or_false,
    Bool.false_eq_true, if_false]
  refine if_ctx_congr Iff.rfl (fun _ => rfl) fun clean => if_ctx_congr Iff.rfl (fun _ => rfl) fun corrected => ?_
  rw [if_pos (by omega)]

theorem transferLate_of_late {s : State} {id c : Nat} {x : Transfer} (found : findTransfer s id = some x)
    (issued : x.issued = some c) (free : atGate s id = false) (late : c + limitOf x ≤ count s) :
    transferLate id s =
      if isOutward x = true then finishTransfer (dropTransfer s id) x (memStatus (targetTier x) 2) []
      else completeTransfer s x (memStatus x.tier 2) := by
  simp only [transferLate, found, issued, free, Nat.not_lt.mpr late, decide_false, Bool.or_false, Bool.false_eq_true,
    if_false]

/-! ### Moves -/

/-- MOVE_SWITCH of a copying move in time: the end of its copy decides. -/
theorem exec_moveSwitch_in_time {s : State} {g st : Nat} {m : Move} (acts : Acts (.moveSwitch g st) s)
    (found : findMove s g = some m) (copying : m.copying = true) (before : m.switched = false)
    (unhindered : copyWaits s m = false) (early : count s < m.limit) :
    exec (.moveSwitch g st) s =
      .next (if copyEnd s m st ≠ 0 then moveAbort s g (copyEnd s m st) else moveSwitch s m) := by
  show execMoveSwitch g st s = _
  rw [execMoveSwitch, onWf_acts acts]
  simp only [found, copying, before, unhindered, Nat.not_le.mpr early, decide_false, Bool.not_true, Bool.or_false,
    Bool.false_eq_true, if_false]

/-- Settles O11: what each row of transfers and moves does when its transfer or move is found in the state it asks for. -/
theorem transfersAndMovesComplete : Obligations.TransfersAndMovesComplete := by
  refine ⟨fun s t e x acts granted => ?grant, fun s id st x c acts found issued own free early => ?done,
    fun s id x c acts found issued free late => ?late, fun s g own m acts => ?copy,
    fun s g st m acts found copying before unhindered early good => ?switch,
    fun s g st m acts found copying before unhindered early failed => ?fail,
    fun s g m acts found switched unread => ?release, fun s g acts none_left => ?freed,
    fun s g m acts found before late => ?limit⟩
  case grant =>
    show execTransferGrant t e s = _
    rw [execTransferGrant, onWf_acts acts, granted]
  case done =>
    intro place status
    show execTransferCompletion id st s = _
    rw [execTransferCompletion, onWf_acts acts, transferDone_in_time found issued own free early status]
  case late =>
    show execTransferLate id s = _
    rw [execTransferLate, onWf_acts acts, transferLate_of_late found issued free late]
  case copy =>
    intro u found before written unhindered engine
    show execMoveCopyStart g own s = _
    refine onWf_acts_eq acts ?_
    simp only [u] at found written unhindered engine ⊢
    simp only [found, before, written, unhindered, Nat.not_le.mpr engine, decide_false, Bool.or_false,
      Bool.false_eq_true, if_false]
  case switch => rw [exec_moveSwitch_in_time acts found copying before unhindered early, if_neg (not_not_intro good)]
  case fail => rw [exec_moveSwitch_in_time acts found copying before unhindered early, if_pos failed]
  case release =>
    show execMoveRelease g s = _
    rw [execMoveRelease, onWf_acts acts]
    simp only [found, switched, unread, Bool.not_false, Bool.and_true, if_true]
  case freed =>
    show execMoveRelease g s = _
    rw [execMoveRelease, onWf_acts acts, none_left]
  case limit =>
    show execMoveLimitReached g s = _
    rw [execMoveLimitReached, onWf_acts acts, found]
    exact congrArg _ (if_pos ⟨late, before⟩)

end Sys2Proof.Machine
end

section
/-! The tiers by themselves (09 R220 to R223; 15 R376), load writes, replacements and migrations (10 R239 to R242, R249;
08 R187). -/

namespace Sys2Proof.Machine

/-! ### Tiers by themselves -/

theorem retirementDone_of_copying {s : State} {t k u : Nat} {mask : BitVec 16} {r : List (Nat × BitVec 16)}
    (copying : (slot s t k).copying = (u, mask) :: r) :
    retirementDone t k s =
      setSlot s t k
        { slot s t k with
          copying := r, spent := (slot s t k).spent + 1, unitErrors := tdel (slot s t k).unitErrors u
          retired := tset (slot s t k).retired u
            ((((slot s t k).poison.filter fun c => decide (c / 16 = u)).map fun c => c % 16).foldl
              (fun m c => m ||| (1#16 <<< c)) (mask ||| (tfind (slot s t k).retired u).getD 0))
          poison := (slot s t k).poison.filter fun c => decide (c / 16 ≠ u) } := by
  simp only [retirementDone, copying]

/-- SCAN_SEGMENT_DONE when the segment itself reads without error: the engine's own status decides. -/
theorem segmentDone_of_read {s : State} {e st id seg : Nat} {j : ScanJob} (engine : tfind s.tiers.engines e = some (id, seg))
    (job : (modTiers s fun m => { m with engines := tdel m.engines e }).tiers.scans.find? (fun j => decide (j.id = id)) =
      some j)
    (clean : (readGlobal (modTiers s fun m => { m with engines := tdel m.engines e }) (j.addr.toNat + segBytes * seg)
      (min segBytes (j.len - segBytes * seg))).1 = 0) :
    let u := modTiers s fun m => { m with engines := tdel m.engines e }
    segmentDone s e st =
      if st ≠ 0 then scanServed (dropJob u id) j st 0 false
      else if j.finished + 1 < segCount j then fillEngines (modJob u id fun j => { j with finished := j.finished + 1 })
      else
        let value := checkValue j.alg (jobBytes u j)
        let bad := j.cmp && decide (value ≠ j.expect.toNat)
        let v := dropJob u id
        scanServed (if bad = true then mismatchEvent v j value else v) j 0 value bad := by
  intro u
  simp only [segmentDone, engine]
  rw [job]
  simp only [clean, ne_eq, not_true_eq_false, if_false]
  rfl

/-- Settles O12: what each row of the tiers does under the condition it names. -/
theorem tierHappeningsComplete : Obligations.TierHappeningsComplete := by
  refine ⟨fun s bad acts => ?scrub, fun s t k u mask r acts copying => ?retirement,
    fun s t k acts upper present up owns => ?channel, fun s k acts present => ?device,
    fun s e id seg j acts engine => ?segment, fun s e st id seg j acts high low engine => ?failed⟩
  case scrub =>
    show execHtScrub bad s = _
    exact onWf_acts_eq acts rfl
  case retirement =>
    show execPageRetirementDone t k s = _
    exact onWf_acts_eq acts (retirementDone_of_copying copying)
  case channel =>
    show execChannelFailure t k s = _
    exact onWf_acts_eq acts ((if_neg upper).trans (if_pos ⟨present, up, owns⟩))
  case device =>
    show execChannelFailure 2 k s = _
    exact onWf_acts_eq acts ((if_pos rfl).trans (if_pos present))
  case segment =>
    intro u job clean
    show execScanSegmentDone e 0 s = _
    refine onWf_acts_eq acts ((if_pos (.inl rfl)).trans ?_)
    rw [segmentDone_of_read engine job clean, if_neg (not_not_intro rfl)]
  case failed =>
    intro u job clean
    show execScanSegmentDone e st s = _
    refine onWf_acts_eq acts ((if_pos (.inr ⟨high, low⟩)).trans ?_)
    rw [segmentDone_of_read engine job clean, if_pos (by omega)]

/-! ### Load writes -/

theorem takeTxn_of_first {s : State} {t : Txn} {kind : Nat} {f : State → State} (type : t.ttype = kind)
    (first : firstOfStream s t = true) (ok : txnOk t = true) :
    takeTxn t kind f s = f (modFabric s fun x => { x with ingress := x.ingress.erase t }) := by
  rw [takeTxn, if_pos ⟨type, first⟩]
  exact if_pos ok

theorem loadForward_of_oldest {s : State} {p gid off : Nat} {g : Grant} {bs : List Byte} {r : List (Nat × List Byte)}
    (found : (part s p).grants.find? (fun g => decide (g.gid = gid) && !g.toFwd.isEmpty) = some g)
    (oldest : g.toFwd = (off, bs) :: r) :
    loadForward p gid s =
      (g.fwd.map fun a => a.toNat + off).foldl (forwardTo p bs) (modGrant s p g.id fun g => { g with toFwd := r }) := by
  simp only [loadForward, found, oldest]

/-! ### Replacements and migrations -/

/-- REPLACE_COPY_DONE when neither range fails and the copy holds a header: the copy is counted and its check queued. -/
theorem replaceCopied_of_read {s : State} {r : Replace} {h : List Byte}
    (found : s.tiers.replaces.find? (fun r => decide (r.phase = 2)) = some r) :
    let a := r.src.toNat
    let b := r.dst.toNat
    let u := modReplace s r fun r => { r with phase := 3 }
    tierAccess u (gTierOf a) (gOff a) r.len true = 0 → tierAccess u (gTierOf b) (gOff b) r.len true = 0 →
    let v := unverify (copyBytes u (gTierOf a) (gOff a) (gTierOf b) (gOff b) r.len) b
    let p := rangeOwner v (gTierOf b) (gOff b)
    let w := countTier (countTier v p (gTierOf a) false r.len) p (gTierOf b) true r.len
    headerAt w b = (0, h) →
    replaceCopied s = addScan w r.dst r.len (objCheck h) true true false 4 (.replace b) := by
  intro a b u source target v p w header
  simp only [replaceCopied, found]
  rw [if_neg (not_not_intro source), if_neg (not_not_intro target)]
  simp only [w, v, u, p, a, b] at header ⊢
  simp only [header]

theorem migrationMap_of_between {s : State} {p : Nat} {g : Migration} {m : Model}
    (found : (part s p).migrations.find? (fun g => decide (g.phase = 2)) = some g)
    (model : tfind (part s p).models g.model = some m) (between : (part s p).step = none)
    (range : bytesInRanges (part s p) 0 (mapOffset m g.layer g.expert) 8 false = true)
    (access : tierAccess s 0 (mapOffset m g.layer g.expert) 8 true = 0) :
    migrationMap p s =
      modMigration (writeTier s 0 (mapOffset m g.layer g.expert) (leBytes 8 g.dst.toNat)) p g.dst.toNat fun g =>
        { g with phase := 3 } := by
  simp only [migrationMap, found, model]
  exact if_pos ⟨between, range, access⟩

/-- Settles O13: what each row of loads, replacements and migrations does under the condition it names. -/
theorem loadHappeningsComplete : Obligations.LoadHappeningsComplete := by
  refine ⟨fun s t g acts type first ok => ?write, fun s t acts type first ok => ?refused,
    fun s p gid g off bs r acts found oldest => ?forward, fun s p gid acts => ?expiry,
    fun s r acts found engine => ?copyStart, fun s r h acts found => ?copyDone,
    fun s p l x target id m e a t fs acts active model => ?migration,
    fun s p g m acts found model between range access => ?map, fun s p g acts found => ?release⟩
  case write =>
    intro u admits
    show execLoadWriteIngress t true s = _
    refine onWf_acts_eq acts ((takeTxn_of_first type first ok).trans ?_)
    simp only [u] at admits ⊢
    simp only [loadWrite, admits, Bool.not_true, Bool.false_eq_true, if_false]
  case refused =>
    show execLoadWriteIngress t false s = _
    exact onWf_acts_eq acts ((takeTxn_of_first type first ok).trans (if_pos rfl))
  case forward =>
    show execLoadForward p gid s = _
    exact onWf_acts_eq acts (loadForward_of_oldest found oldest)
  case expiry =>
    show execLoadGrantExpiry p gid s = _
    exact onWf_acts_eq acts rfl
  case copyStart =>
    show execReplaceCopyStart s = _
    rw [execReplaceCopyStart, onWf_acts acts, found]
    exact congrArg _ (if_pos engine)
  case copyDone =>
    intro a b u source target v p w header
    show execReplaceCopyDone s = _
    exact onWf_acts_eq acts (replaceCopied_of_read found source target header)
  case migration =>
    rintro rfl rfl rfl rfl expert primary valid hmem len own ownTarget tier tier' lines verified notReplaced notMoved engine
      free source dest
    refine ⟨_, rfl, ?_⟩
    show execMigrationStart p l x target s = _
    rw [execMigrationStart, onWf_acts acts, migrationStart]
    simp only [active, model]
    rw [if_pos ⟨expert, primary, valid, hmem, len, own, ownTarget, tier, tier', lines, verified, notReplaced, notMoved,
      engine, free, source, dest⟩]
  case map =>
    show execMigrationMapUpdate p s = _
    exact onWf_acts_eq acts (migrationMap_of_between found model between range access)
  case release =>
    show execMigrationRelease p s = _
    rw [execMigrationRelease, onWf_acts acts]
    simp only [migrationRelease, found]

end Sys2Proof.Machine
end

section
/-! The start, the fence, the verdicts and the commit of a step; the judgement of deadlines and of balancing windows (11 Table
9, R262 to R276; 08 R176). -/

namespace Sys2Proof.Machine

/-! ### Commit, fence and verdicts -/

theorem commit_of_passed {s : State} {p : Nat} {k : Step} {toks fails : List (Nat × Nat)} (running : (part s p).step = some k)
    (fenced : k.fenced = true) (passed : failedVerdicts k = []) (complete : missingVerdicts s p k = [])
    (published : (part s p).pub = none) (one : (part s p).twoHomes = false) (closes : closeChecked s p = true)
    (tokens : toks.map (fun e => e.1) = sampling s p k) : commit p toks fails s = commitStep s p toks fails := by
  simp [commit, running, fenced, passed, complete, published, one, closes, tokens]

theorem fence_of_written {s : State} {p : Nat} {k : Step} {sums : List (Nat × Nat)} (running : (part s p).step = some k)
    (ended : k.ended = true) (unfenced : k.fenced = false) (written : stepWrites s p = false) (passed : failedVerdicts k = []) :
    let closes := (ridersOf s p).filter fun o => decide (o.kind = 3)
    (∀ o ∈ closes, (sums.lookup o.drawer).isSome = true) →
    fence p sums s =
      closes.foldl (fun s o => summaryKnown s p o ((sums.lookup o.drawer).getD 0))
        (modPart s p fun x => { x with step := some { k with fenced := true, fenceAt := s.time.watch } }) := by
  intro closes known
  have none_missing : (closes.any fun o => (sums.lookup o.drawer).isNone) = false := by
    refine List.any_eq_false.mpr fun o mem => ?_
    simp [Option.isSome_iff_ne_none.mp (known o mem)]
  simp only [closes] at none_missing
  simp only [fence, running, ended, unfenced, written, none_missing, passed, Bool.not_true, Bool.or_false,
    Bool.false_eq_true, if_false, closes]

theorem verdictExpiry_of_missing {s : State} {p b : Nat} {bs : List Nat} {k : Step} (running : (part s p).step = some k)
    (missing : missingVerdicts s p k = b :: bs) (fenced : k.fenced = true) (elapsed : k.fenceAt + watchdog ≤ s.time.watch) :
    verdictExpiry p s = veFault s b 8 [] := by
  simp only [verdictExpiry, running, missing]
  exact if_pos ⟨fenced, elapsed⟩

theorem biasUpdate_of_full {s : State} {p l id : Nat} {m : Model} {b : Balance} (active : (part s p).active = some id)
    (model : tfind (part s p).models id = some m) (entry : tfind m.bal l = some b) (between : (part s p).step = none)
    (on : b.active = true) (full : b.period ≤ b.gathered) :
    biasUpdate p l s =
      modPart s p fun x =>
        let e := (m.layers.find? fun y => decide (y.layer = l)).elim 0 fun y => y.experts
        { x with models := tset x.models id { m with bal := tset m.bal l (balanceUpdate b e) } } := by
  have activeModel : activeModel (part s p) = some m := by rw [Machine.activeModel, active]; exact model
  simp only [biasUpdate, active, activeModel, entry, between, on, full, Option.isNone_none, decide_true, Bool.and_self,
    if_true]

/-! ### STEP_BEGIN -/

/-- Dropping the finished programs changes the partition's stream alone, and no time. -/
theorem cutProgram_keeps (s : State) (p : Nat) :
    (∃ m, part (cutProgram s p) p = { part s p with stream := m }) ∧ count (cutProgram s p) = count s := by
  rw [cutProgram]
  split
  · exact ⟨⟨_, rfl⟩, rfl⟩
  · exact ⟨⟨_, part_modPart_self ..⟩, rfl⟩

/-- The step that STEP_BEGIN starts, for its members and the riders that wait (11 R262, R263). -/
def begunStep (s : State) (p t : Nat) (m : Model) (ms : List Member) : Step :=
  { id := (part s p).nextStep, round := (part s p).nextRound, gen := (part s p).gen, begin := count s, since := t, members := ms
    npos := (ms.map fun m => m.n).sum, riders := (waitingRiders (part s p)).map fun o => o.drawer, ended := false, fenced := false
    fenceAt := 0, verdicts := [], failedVe := [], skip := [], picks := [], routed := [], demand := [], dispatches := [], failed := []
    filters := [], tbeats := 0, veissue := 0, tierb := [], fabSent := 0, fabRecv := 0, toks := []
    sel := m.bal.map fun e => (e.1, e.2.sel) }

/-- The state in which the step runs, its members joined to it, before its summaries and program are placed. -/
def begun (s : State) (p : Nat) (k : Step) : State :=
  modPart (cutProgram s p) p fun x =>
    { x with
      step := some k, nextStep := x.nextStep + 1, nextRound := (x.nextRound + 1) % 2 ^ 32
      reqs := x.reqs.map fun r => if k.members.any (fun m => decide (m.index = r.index)) then { r with joined := true } else r
      ingress := { x.ingress with
        served := x.ingress.served.filter fun e => !roundBefore e.1 x.nextRound
        cancels := x.ingress.cancels.filter fun c => !roundBefore c.2.1 x.nextRound } }

theorem begun_step (s : State) (p : Nat) (k : Step) : (part (begun s p k) p).step = some k := by
  rw [begun, part_modPart_self]

theorem begun_counters (s : State) (p : Nat) (k : Step) :
    (part (begun s p k) p).nextStep = (part s p).nextStep + 1 ∧
      (part (begun s p k) p).nextRound = ((part s p).nextRound + 1) % 2 ^ 32 := by
  obtain ⟨⟨m, cut⟩, -⟩ := cutProgram_keeps s p
  rw [begun, part_modPart_self, cut]
  exact ⟨rfl, rfl⟩

theorem beginStep_of_free {s : State} {p addr t : Nat} {prog : List (BitVec 256)} {more : Option (Nat × List (BitVec 256))}
    {m : Model} {fresh : Bool} (model : activeModel (part s p) = some m) (free : stepFree s p = true)
    (window : memberCount s (part s p) = (t, fresh)) :
    let rs := (part s p).reqs.filter (ready (part s p) t fresh)
    let riders := waitingRiders (part s p)
    (rs ≠ [] ∨ riders ≠ [] ∨ closeWaits (part s p) = true) → programFits s p addr prog = true → moreFits s p more = true →
    (part (cutProgram s p) p).stream.needConfig = false →
    let ms := assign m.ch (m.pmax - (rs.filter fun r => decide (r.done = r.i)).length) 0 rs
    beginStep p addr prog more s =
      emptyRound (loadMore (loadProgram (judgeLater
        (modStream (riders.foldl (fun s o => placeSummary s p o) (begun s p (begunStep s p t m ms))) p
          fun m => { m with needConfig := false }) p) p addr prog) p more) p m := by
  intro rs riders work fits moreFit unconfigured ms
  have some_work : (rs.isEmpty && riders.isEmpty && !closeWaits (part s p)) = false := by
    rcases work with work | work | work <;> simp [work]
  obtain ⟨-, time⟩ := cutProgram_keeps s p
  simp only [rs, riders] at some_work
  simp only [beginStep, model, window, free, some_work, fits, moreFit, unconfigured, Bool.not_true, Bool.or_false,
    Bool.false_and, Bool.false_eq_true, if_false]
  simp only [begun, begunStep, time, riders, ms, rs]
  rfl

/-- Settles O14: what each row of a step does under the condition it names. -/
theorem stepRowsComplete : Obligations.StepRowsComplete := by
  refine ⟨fun s p k m toks fails acts running _ fenced passed complete published one closes tokens => ?commit,
    fun s p sums k acts running ended unfenced written passed => ?fence,
    fun s p k b bs acts running missing fenced elapsed => ?verdict, fun s p acts between => ?deadline,
    fun s p l id m b acts active model entry between on full => ?bias,
    fun s p addr prog more m t fresh acts model free window => ?start⟩
  case commit =>
    show execStepCommit p toks fails s = _
    exact onWf_acts_eq acts (commit_of_passed running fenced passed complete published one closes tokens)
  case fence =>
    intro closes known
    show execPublishFence p sums s = _
    exact onWf_acts_eq acts (fence_of_written running ended unfenced written passed known)
  case verdict =>
    show execVerdictWatchdogExpiry p s = _
    exact onWf_acts_eq acts (verdictExpiry_of_missing running missing fenced elapsed)
  case deadline =>
    show execDeadlineJudgement p s = _
    refine onWf_acts_eq acts ?_
    rw [between]
    exact if_pos rfl
  case bias =>
    show execBiasUpdate p l s = _
    exact onWf_acts_eq acts (biasUpdate_of_full active model entry between on full)
  case start =>
    intro rs riders work fits moreFit unconfigured ms
    obtain ⟨steps, rounds⟩ := begun_counters s p (begunStep s p t m ms)
    refine ⟨begunStep s p t m ms, rfl, rfl, rfl, rfl, rfl, rfl, rfl, rfl, rfl, rfl, rfl, begun s p (begunStep s p t m ms),
      begun_step .., steps, rounds, ?_⟩
    show execStepBegin p addr prog more s = _
    exact onWf_acts_eq acts (beginStep_of_free model free window work fits moreFit unconfigured)

end Sys2Proof.Machine
end

section
/-! Expert messages and their limits (08 R177 to R186). -/

namespace Sys2Proof.Machine

/-! ### Messages -/

/-- A row of an expert message that acts, its message from a member of the group of a primary partition. -/
theorem row_member_eq {i : Instr} {s t : State} {msg : ExpertMsg} {kind n : Nat} {m : Model} {f : Model → Nat → State → State}
    (acts : Acts i s) (type : msg.mtype = kind) (good : expertBad msg = false)
    (primary : isPrimary (takeMessage s 15 (expertBytes msg)) (msg.dstPart % 16) = true)
    (model : activeModel (part (takeMessage s 15 (expertBytes msg)) (msg.dstPart % 16)) = some m)
    (member : memberOf m msg.schip msg.srcPart = some n) (effect : f m n (takeMessage s 15 (expertBytes msg)) = t) :
    onWf i s (takeExpert msg kind f) = .next t :=
  onWf_acts_eq acts ((takeExpert_member type good primary model member f).trans effect)

theorem dispatchRecv_of_current {s : State} {msg : ExpertMsg} {m : Model} {i : Nat}
    (current : tooOld (part s (msg.dstPart % 16)) msg.round msg.layer = false)
    (uncancelled : isCancelled (part s (msg.dstPart % 16)) i msg.round msg.gen = false) :
    dispatchRecv msg m i s = modIngress s (msg.dstPart % 16) fun g => { g with dispatches := g.dispatches ++ [msg] } := by
  simp only [dispatchRecv, current, uncancelled, Bool.false_eq_true, if_false]

theorem closeRecv_of_current {s : State} {msg : ExpertMsg} {m : Model} {i : Nat}
    (current : tooOld (part s (msg.dstPart % 16)) msg.round msg.layer = false)
    (uncancelled : isCancelled (part s (msg.dstPart % 16)) i msg.round msg.gen = false) :
    closeRecv msg m i s =
      modIngress s (msg.dstPart % 16) fun g =>
        { g with closes := g.closes ++ [(i, msg.round, msg.gen, msg.layer, msg.nrow)] } := by
  simp only [closeRecv, current, uncancelled, Bool.false_eq_true, if_false]

theorem cancelRecv_of_new {s : State} {msg : ExpertMsg} {m : Model} {i : Nat}
    (current : roundBefore msg.round (roundOf (part s (msg.dstPart % 16))) = false)
    (new : (i, msg.round, msg.gen) ∉ (part s (msg.dstPart % 16)).ingress.cancels) :
    cancelRecv msg m i s =
      modIngress s (msg.dstPart % 16) fun g =>
        { g with
          dispatches := g.dispatches.filter fun d =>
            !decide (memberOf m d.schip d.srcPart = some i ∧ d.round = msg.round ∧ d.gen = msg.gen)
          closes := g.closes.filter fun c => decide ((c.1, c.2.1, c.2.2.1) ≠ (i, msg.round, msg.gen))
          cancels := g.cancels ++ [(i, msg.round, msg.gen)] } := by
  simp only [cancelRecv, current, Bool.false_eq_true, if_false, modIngress, modPart, if_neg new]

/-! ### Returns -/

theorem count_chargeRemote (s : State) (p : Nat) (msg : ExpertMsg) : count (chargeRemote s p msg) = count s := by
  rw [chargeRemote]
  split <;> rfl

theorem returnRecv_of_awaited {s : State} {msg : ExpertMsg} {m : Model} {i : Nat} {k : Step} {d : Dispatch}
    (running : (part s (msg.dstPart % 16)).step = some k) (gen : msg.gen = (part s (msg.dstPart % 16)).gen)
    (round : msg.round = k.round)
    (awaited : k.dispatches.find? (fun d => decide (d.layer = msg.layer ∧ d.expert = msg.expert ∧ d.returned = false)) = some d)
    (opened : (k.filters.any fun f => decide (f.layer = msg.layer ∧ f.opened = true ∧ count s < f.limit)) = true) :
    let p := msg.dstPart % 16
    let v := modPart (modVe (chargeRemote s p msg) d.ve fun v =>
        { v with arrived := v.arrived ++ (returnWords msg).map fun w => (7, w) }) p fun x =>
      let hit (e : Dispatch) : Dispatch := if e = d then { e with returned := true } else e
      { x with step := some (closeDone { k with dispatches := k.dispatches.map hit } msg.layer) }
    returnRecv msg m i s = if msg.status = 0 then v else markEnded v p (fun m => holdsSlot m d.slots) msg.status msg.schip := by
  intro p v
  have same : ¬ (msg.gen ≠ (part s (msg.dstPart % 16)).gen ∨ msg.round ≠ k.round) := by simp [gen, round]
  simp only [returnRecv, running, if_neg same, awaited, count_chargeRemote, opened, Bool.not_true, Bool.false_eq_true, if_false]
  rfl

/-! ### Limits and the service of a layer -/

theorem returnLimit_of_due {s : State} {p l : Nat} {k : Step} {m : Model} (running : (part s p).step = some k)
    (model : activeModel (part s p) = some m)
    (due : (k.filters.any fun f => decide (f.layer = l ∧ f.opened = true ∧ f.limit ≤ count s)) = true) :
    returnLimit p l s =
      (k.dispatches.filter fun d => decide (d.layer = l ∧ d.returned = false)).foldl (fun s d =>
        markEnded s p (fun e => holdsSlot e d.slots) 0x5301 ((m.group[d.home]?).elim 0 fun g => g.1))
        (modPart s p fun x => { x with step := some (modFilter k l fun l => { l with opened := false }) }) := by
  simp only [returnLimit, running, model]
  exact if_pos due

theorem homeLimit_of_due {s : State} {p l : Nat} {k : Step} {m : Model} (running : (part s p).step = some k)
    (model : activeModel (part s p) = some m)
    (due : (k.filters.any fun f => decide (f.layer = l ∧ f.limit ≤ count s)) = true)
    (unserved : (k.round, l) ∉ (part s p).ingress.served) :
    let missing := (List.range m.gsize).filter fun i => !closedBy (part s p) k.round l i
    homeLimit p l s =
      missing.foldl (missingEvent p l k.round)
        (modIngress s p fun g => { g with absent := g.absent ++ missing.map fun i => (i, k.round, l) }) := by
  simp only [homeLimit, running, model, due, unserved, not_false_eq_true, decide_true, Bool.and_self, if_true]

theorem serveLayer_of_ready {s : State} {p l : Nat} {work : List ServeWork} {k : Step} {m : Model}
    (running : (part s p).step = some k) (model : activeModel (part s p) = some m)
    (ready : layerReady (part s p) m k.round l = true) (unserved : (k.round, l) ∉ (part s p).ingress.served) :
    let ds := (List.range m.gsize).flatMap fun i =>
      (heldFrom (part s p) m k.round l i).take (closeCount (part s p) k.round l i)
    work.length = ds.length → (∀ e ∈ ds.zip work, workOk m e.1 e.2 = true) →
    serveLayer p l work s =
      modIngress ((ds.zip work).foldl (serveOne p m) s) p fun g =>
        { g with
          served := g.served ++ [(k.round, l)]
          dispatches := g.dispatches.filter fun d => decide (d.round ≠ k.round ∨ d.layer ≠ l)
          closes := g.closes.filter fun c => decide (c.2.1 ≠ k.round ∨ c.2.2.2.1 ≠ l)
          absent := g.absent.filter fun a => decide (a.2 ≠ (k.round, l)) } := by
  intro ds length allowed
  simp only [serveLayer, running, model]
  exact if_pos ⟨ready, unserved, length, List.all_eq_true.mpr allowed⟩

/-- Settles O15: what each row does with an expert message of a member, or at a limit that is due. -/
theorem expertRowsComplete : Obligations.ExpertRowsComplete := by
  refine ⟨fun s msg m i acts type good => ?dispatch, fun s msg m i acts type good => ?close,
    fun s msg m i acts type good => ?cancel, fun s msg m i k d acts type good => ?returned,
    fun s p l k m acts running model due => ?limit, fun s p l k m acts running model due unserved => ?home,
    fun s p l work k m acts running model ready unserved => ?serve⟩
  case dispatch =>
    intro u p primary model member current uncancelled
    show execExpertDispatchRecv msg s = _
    exact row_member_eq acts type good primary model member (dispatchRecv_of_current current uncancelled)
  case close =>
    intro u p primary model member current uncancelled
    show execExpertCloseRecv msg s = _
    exact row_member_eq acts type good primary model member (closeRecv_of_current current uncancelled)
  case cancel =>
    intro u p primary model member current new
    show execExpertCancelRecv msg s = _
    exact row_member_eq acts type good primary model member (cancelRecv_of_new current new)
  case returned =>
    intro u p primary model member running gen round awaited opened v
    show execExpertReturnRecv msg s = _
    exact row_member_eq acts type good primary model member (returnRecv_of_awaited running gen round awaited opened)
  case limit =>
    show execReturnLimitExpiry p l s = _
    exact onWf_acts_eq acts (returnLimit_of_due running model due)
  case home =>
    intro missing
    show execHomeCloseLimitExpiry p l s = _
    exact onWf_acts_eq acts (homeLimit_of_due running model due unserved)
  case serve =>
    intro ds length allowed
    show execExpertLayerServe p l work s = _
    exact onWf_acts_eq acts (serveLayer_of_ready running model ready unserved length allowed)

end Sys2Proof.Machine
end

section
/-! The local time counter, intervals and pulses (02 R25, R26; 13 R315; 17 R419 to R421; 18 R436). -/

namespace Sys2Proof.Machine

/-! ### The local time counter -/

theorem oscillatorAdvance_of_due {s : State} {gap : Nat} (due : s.time.lost = true ∨ s.time.bridging = true ∨ 60 ≤ gap) :
    oscillatorAdvance gap s = advance { s with time := { s.time with bridging := s.time.bridging || !s.time.lost } } := by
  have same (kept : (s.time.bridging || !s.time.lost) = s.time.bridging) :
      advance { s with time := { s.time with bridging := s.time.bridging || !s.time.lost } } = advance s := by rw [kept]
  rw [oscillatorAdvance]
  rcases lost : s.time.lost with _ | _
  · rcases bridging : s.time.bridging with _ | _
    · have late : 60 ≤ gap := by simpa [lost, bridging] using due
      simp [late]
    · rw [if_pos (.inr rfl), ← same (by simp [bridging]), lost, bridging]
  · rw [if_pos (.inl rfl), ← same (by simp [lost]), lost]

theorem timerefReturn_of_present {s : State} {present gap : Nat} (lost : s.time.lost = true) (long : 100000 ≤ present) :
    let v := { s with time := { s.time with lost := false, bridging := false } }
    timerefReturn present gap s = timerefEvent (if gap < 20 then v else advance v) 2 :=
  if_pos ⟨lost, long⟩

/-! ### Waiting caps and shedding -/

theorem capElapsed_eq (s : State) :
    let due (e : Cmd × Nat × Nat) : Bool := decide (e.2.1 ≠ none64 ∧ e.2.1 ≤ count s)
    capElapsed s =
      (s.power.capWait.filter due).foldl (fun s e => capFinish s e.1 e.2.2)
        (modPower s fun w => { w with capWait := w.capWait.filter fun e => !due e }) := by
  simp only [capElapsed, List.partition_eq_filter_filter]
  rfl

theorem shedComplete_of_quiet {s : State} (shedding : s.power.shed = 3)
    (quiet : ∀ x ∈ s.tiers.transfers, x.issued.isSome = true → (x.tier = 1 ∨ x.tier = 2) → atGate s x.id = true) :
    shedComplete s = capsShed (setShed s 2) := by
  have none_flying : (s.tiers.transfers.any fun x =>
      x.issued.isSome && decide (x.tier = 1 ∨ x.tier = 2) && !atGate s x.id) = false := by
    refine List.any_eq_false.mpr fun x mem flying => ?_
    simp only [Bool.and_eq_true, decide_eq_true_eq, Bool.not_eq_true'] at flying
    obtain ⟨⟨issued, lower⟩, away⟩ := flying
    simp [quiet x mem issued lower] at away
  simp only [shedComplete, none_flying, Bool.not_false, and_true]
  exact if_pos shedding

/-- Settles O16: what each row of time, intervals and pulses does under the condition it names. -/
theorem timeAndIntervalRowsComplete : Obligations.TimeAndIntervalRowsComplete := by
  refine ⟨fun s gap acts declared source => ?edge, fun s gap acts declared bridging soon => ?back,
    fun s gap acts due => ?oscillator, fun s gap acts declared long => ?loss,
    fun s present gap acts lost long => ?returned, fun s acts ended => ⟨_, rfl, ?interval⟩,
    fun s acts low ended => ?pulse, fun s acts => ?caps, fun s acts shedding quiet => ?shed, fun s acts leaving => ?unshed⟩
  case edge =>
    have keeps : ¬ (s.time.bridging = true ∧ gap < 20) := by
      rintro ⟨bridging, soon⟩
      simp [bridging, Nat.not_le.mpr soon] at source
    show execTimerefEdge gap s = _
    refine onWf_acts_eq acts ?_
    rw [timerefEdge, declared, if_neg Bool.false_ne_true]
    exact if_neg keeps
  case back =>
    show execTimerefEdge gap s = _
    refine onWf_acts_eq acts ?_
    rw [timerefEdge, declared, if_neg Bool.false_ne_true]
    exact if_pos ⟨bridging, soon⟩
  case oscillator =>
    show execOscillatorAdvance gap s = _
    exact onWf_acts_eq acts (oscillatorAdvance_of_due due)
  case loss =>
    show execTimerefLoss gap s = _
    exact onWf_acts_eq acts (if_pos ⟨declared, long⟩)
  case returned =>
    intro v u
    show execTimerefReturn present gap s = _
    refine onWf_acts_eq acts ((timerefReturn_of_present lost long).trans ?_)
    by_cases soon : gap < 20
    · simp only [u, if_pos soon]
      rfl
    · simp only [u, if_neg soon]
      rfl
  case interval =>
    show execAccountingInterval s = _
    exact onWf_acts_eq acts (if_neg (Nat.not_lt.mpr ended))
  case pulse =>
    show execAlertPulseEnd s = _
    exact onWf_acts_eq acts (if_pos ⟨low, ended⟩)
  case caps =>
    show execCapResponseElapsed s = _
    exact onWf_acts_eq acts (capElapsed_eq s)
  case shed =>
    show execShedComplete s = _
    exact onWf_acts_eq acts (shedComplete_of_quiet shedding quiet)
  case unshed =>
    show execUnshedComplete s = _
    exact onWf_acts_eq acts (if_pos leaving)

end Sys2Proof.Machine
end

section
/-! Power samples, core voltages, the brake, the thermal ladder and the orphan cap (17 R411, R414 to R418, R422 to R425). -/

namespace Sys2Proof.Machine

theorem powerSample_of_taken {s : State} {rails : List (Nat × Nat × Nat)} {above : Bool} (all : rails.length = 13)
    (period : count s % 25 = 0) (new : s.power.sampledAt < count s) (ramp : overRamp rails s = false)
    (limit : overLimit rails s = false) :
    let xs := samplesWith rails s
    let u := ((List.range 13).filter (monitorsDiffer rails &&& ~~~s.power.monBad).getLsbD).foldl
      (fun s i => (recordFault s 20 0xff 0xffff 0 i 0 [] none).2)
      (modPower s fun w =>
        { rails.zipIdx.foldl (sampleRail ((count s - w.sampledAt) / 25)) w with
          samples := xs, pavg := xs.sum / xs.length, sampledAt := count s, monBad := monitorsDiffer rails })
    powerSample rails above s =
      if u.power.shed ≠ 0 then u
      else if above = true then modPower (draw u).2 fun w => { w with limited := true, gate := 1 + (draw u).1 % 65536 }
      else if rampOver u = true then modPower u fun w => { w with limited := false, gate := 0, ramp := none }
      else modPower (draw u).2 fun w => { w with limited := false, gate := (draw u).1 % (w.gate + 1) } := by
  refine if_neg ?_
  rintro (short | odd | old | fast | high)
  · exact short all
  · exact odd period
  · exact Nat.not_le.mpr new old
  · exact Bool.false_ne_true (ramp.symm.trans fast)
  · exact Bool.false_ne_true (limit.symm.trans high)

/-- CORE_VOLTAGE_STEP of a rail that may move: its answer decides between the move and the record. -/
theorem voltageStep_of_free {s : State} {die : Nat} {up answered : Bool} (moves : s.power.avsStopped.getLsbD die = false) :
    let v := if die = 0 then s.power.vcw else s.power.vce
    let new := if up = true then v + 5 else v - 5
    650 ≤ new → new ≤ 850 → (∀ c, tfind s.power.lastVolt die = some c → c + 2500 ≤ count s) →
    (up = true ∨ (s.power.limited = true ∧ worn s die = false)) →
    voltageStep die up answered s =
      if answered = true then
        modPower s fun w =>
          { w with
            lastVolt := tset w.lastVolt die (count s), vcw := if die = 0 then new else w.vcw
            vce := if die = 0 then w.vce else new }
      else modPower (recordFault s 20 0xff 0xffff 0 die 0 [] none).2 fun w =>
        { w with avsStopped := w.avsStopped ||| (1#2 <<< die) } := by
  intro v new low high rest direction
  have rested : (match tfind s.power.lastVolt die with
      | none => true
      | some c => decide (c + 2500 ≤ count s)) = true := by
    split
    · rfl
    · next c last => exact decide_eq_true (rest c last)
  have allowed : (up || (s.power.limited && !worn s die)) = true := by
    rcases direction with rfl | ⟨limited, fresh⟩
    · rfl
    · simp [limited, fresh]
  have ok : (decide (650 ≤ new ∧ new ≤ 850) && (match tfind s.power.lastVolt die with
      | none => true
      | some c => decide (c + 2500 ≤ count s)) && (up || (s.power.limited && !worn s die))) = true := by
    rw [rested, allowed, decide_eq_true ⟨low, high⟩]
    rfl
  have go : ¬ (s.power.avsStopped.getLsbD die = true ∨ (!(decide (650 ≤ new ∧ new ≤ 850) &&
      (match tfind s.power.lastVolt die with
      | none => true
      | some c => decide (c + 2500 ≤ count s)) && (up || (s.power.limited && !worn s die)))) = true) := by
    rw [moves, ok]
    simp
  refine (if_neg go).trans ?_
  cases answered with
  | false => rfl
  | true =>
    by_cases west : die = 0 <;> simp [west, modPower, new, v]

/-! ### The thermal ladder -/

/-- A sample that first reaches stage 2, its networks agreeing. -/
theorem thermalSample_of_stage2 {s : State} {w e : Int} {t : List Int} (hot : reaches [w, e] t 100 95 = true)
    (below3 : reaches [w, e] t 105 100 = false) (stage : s.power.stage = 0) (entering : s.power.entryHolds = false) :
    let u := modPower s fun x =>
      { x with
        netBad := 0, entryHolds := true, leaveHolds := leaveStage [w, e] t 2, thermStep := count s, stage := 2
        thermOn := true, thermLimit := x.pavg }
    thermalSample (w, w) (e, e) t s = relimit (event u [0, 1, 2] 0xe702 ((powerBody u).take 64)) := by
  intro u
  have next : nextStage [w, e] t 0 = 2 := by simp [nextStage, enterStage, hot, below3]
  simp [thermalSample, hot, stage, entering, next, thermChange, modPower, u]
  rfl

theorem thermStep_up {s : State} (on : s.power.thermOn = true) (below3 : s.power.stage ≠ 3)
    (wait : s.power.entryHolds = true → count s < s.power.thermStep + 25000) (leaves : s.power.leaveHolds = true)
    (due : s.power.thermStep + 250000 ≤ count s) :
    let n := s.power.thermLimit * 105 / 100
    thermStep s =
      relimit (modPower s fun w =>
        { w with
          thermLimit := n, thermStep := count s
          thermOn := !(((limitParts s).filter fun e => decide (e.1 ≠ 5)).all fun e => decide (e.2 < n)) }) := by
  have cold : ¬ (s.power.entryHolds = true ∧ s.power.thermStep + 25000 ≤ count s) := fun ⟨enters, elapsed⟩ =>
    Nat.not_lt.mpr elapsed (wait enters)
  simp only [thermStep, on, below3, Bool.not_true, Bool.false_eq_true, or_self, if_false, if_neg cold]
  exact if_pos ⟨leaves, due⟩

theorem thermStep_down {s : State} (on : s.power.thermOn = true) (below3 : s.power.stage ≠ 3)
    (enters : s.power.entryHolds = true) (due : s.power.thermStep + 25000 ≤ count s) :
    thermStep s =
      relimit (modPower s fun w => { w with thermLimit := w.thermLimit * 95 / 100, thermStep := count s }) := by
  simp only [thermStep, on, below3, Bool.not_true, Bool.false_eq_true, or_self, if_false]
  exact if_pos ⟨enters, due⟩

/-- Settles O17: what each row of power and temperature does under the condition it names. -/
theorem powerAndThermalRowsComplete : Obligations.PowerAndThermalRowsComplete := by
  refine ⟨fun s rails above acts all period new ramp limit => ⟨_, _, rfl, rfl, ?sample⟩,
    fun s die up answered acts moves => ?voltage, fun s held acts long phase => ?brake, fun s acts => ?release,
    fun s w e t acts hot below3 stage entering => ⟨_, rfl, ?stage2⟩, fun s w e t acts => ?thermal,
    fun s acts on below3 wait leaves due => ?up, fun s acts on below3 enters due => ?down,
    fun s die t acts hot running => ⟨_, _, rfl, ?trip⟩, fun s m u acts lost long unheld => ?orphan⟩
  case sample =>
    show execPowerSample rails above s = _
    exact onWf_acts_eq acts (powerSample_of_taken all period new ramp limit)
  case voltage =>
    intro v new low high rest direction
    show execCoreVoltageStep die up answered s = _
    exact onWf_acts_eq acts (voltageStep_of_free moves low high rest direction)
  case brake =>
    show execBrakeAssert held s = _
    exact onWf_acts_eq acts (if_pos ⟨long, phase⟩)
  case release =>
    show execBrakeRelease s = _
    exact onWf_acts_eq acts rfl
  case stage2 =>
    show execThermalSample (w, w) (e, e) t s = _
    exact onWf_acts_eq acts (thermalSample_of_stage2 hot below3 stage entering)
  case thermal =>
    intro bad v dies enters leaves u n
    show execThermalSample w e t s = _
    refine onWf_acts_eq acts ?_
    simp only [thermalSample, decide_eq_true_eq]
    rfl
  case up =>
    show execThermalLimitStep s = _
    exact onWf_acts_eq acts (thermStep_up on below3 wait leaves due)
  case down =>
    show execThermalLimitStep s = _
    exact onWf_acts_eq acts (thermStep_down on below3 enters due)
  case trip =>
    show execThermalTrip die t s = _
    exact onWf_acts_eq acts (if_pos ⟨hot, running⟩)
  case orphan =>
    rintro rfl
    show execOrphanCapApply m s = _
    exact onWf_acts_eq acts (if_pos ⟨lost, long, by rw [unheld]; rfl⟩)

end Sys2Proof.Machine
end

section
/-! The management ports (14 R346 to R348), the negotiation of the Iberaine port (15 R359), command packets (12 R281 to R285)
and remote operations (14 R335 to R338). -/

namespace Sys2Proof.Machine

/-! ### Management ports -/

/-- A row of a control message that acts at a port that answers: the reply that its meaning gives. -/
theorem mctp_answers {i : Instr} {s t : State} {port code completion : Nat} {body : List Byte}
    {f : State → State × Nat × Nat × List Byte} (acts : Acts i s) (answers : portAnswers s port = true)
    (reply : f (managerSeen s port) = (t, code, completion, body)) :
    onWf i s (mctpRow port f) = .next (send t port (.mctp code completion body)) := by
  refine onWf_acts_eq acts ((if_pos answers).trans ?_)
  simp only [reply]

theorem setEid_of_valid {s : State} {port op eid : Nat} (low : op ≤ 1) (some_id : eid ≠ 0) (one : eid ≠ 255) :
    setEid port op eid s =
      (modMgmt s port fun x => { x with eid := eid }, 1, 0, leBytes 1 0 ++ leBytes 1 eid ++ leBytes 1 0) :=
  if_pos ⟨low, some_id, one⟩

/-- Settles O18: what each row of the management ports does at a port that answers. -/
theorem managementRowsComplete : Obligations.ManagementRowsComplete := by
  refine ⟨fun s port a acts answers unset => ?entdaa, fun s port a acts answers unset => ?setdasa,
    fun s port op eid acts answers low some_id one => ?setEid, fun s port acts answers => ?getEid,
    fun s port t acts answers known => ?version, fun s port acts answers => ?types,
    fun s port code acts answers other => ?unsupported, fun s m acts enabled present silent => ?lost⟩
  case entdaa =>
    show execEntdaa port a s = _
    exact onWf_acts_eq acts (if_pos ⟨answers, unset⟩)
  case setdasa =>
    show execSetdasa port (staticAddr s) a s = _
    exact onWf_acts_eq acts (if_pos ⟨answers, rfl, unset⟩)
  case setEid =>
    show execSetEndpointId port op eid s = _
    exact mctp_answers acts answers (setEid_of_valid low some_id one)
  case getEid =>
    show execGetEndpointId port s = _
    exact mctp_answers acts answers rfl
  case version =>
    show execGetMctpVersionSupport port t s = _
    exact mctp_answers acts answers (if_pos known)
  case types =>
    show execGetMessageTypeSupport port s = _
    exact mctp_answers acts answers rfl
  case unsupported =>
    show execMctpUnsupportedControl port code s = _
    rw [execMctpUnsupportedControl, onWf_acts acts, if_neg other]
    exact congrArg _ (if_pos answers)
  case lost =>
    show execRackManagerLost m s = _
    exact onWf_acts_eq acts (if_pos ⟨enabled, by rw [present]; rfl, silent⟩)

/-! ### Negotiation -/

/-- What a state of the negotiation does with what it has found. -/
def iberaineFound (s : State) (info : TrainInfo) : LinkState → State
  | .light => if 2 ≤ (threeLanes info.lanes).length then toState s 18 .power id else s
  | .power => if info.pass then toState s 18 .lane id else s
  | .lane => toState s 18 .rate fun x => { x with goods := [(2, (info.good[0]?).getD 0)] }
  | .rate =>
    match iberaineChoice (threeLanes (((link s 18).goods[0]?).elim 0 fun g => g.2)) (threeLanes ((info.good[1]?).getD 0)) with
    | none => s
    | some (w, r, ls, sp) => toState s 18 .version fun x => { x with width := w, rate := r, lanes := ls, spare := sp }
  | .version => if Nat.testBit info.versions 1 then enterActivate s 18 else noVersion s
  | _ => s

/-- IBERAINE_STATE_PASS within the limit of the state, with the optical supplies good: the state decides. -/
theorem iberainePass_in_time {s : State} {info : TrainInfo} (oe : s.power.good.getLsbD 10 = true)
    (las : s.power.good.getLsbD 11 = true) (early : ∀ n, iberaineLimit (link s 18).st = some n → count s < (link s 18).since + n) :
    iberainePass info s = iberaineFound s info (link s 18).st := by
  have in_time : ((iberaineLimit (link s 18).st).elim true fun n => decide (count s < (link s 18).since + n)) = true := by
    rcases limit : iberaineLimit (link s 18).st with _ | n
    · rfl
    · exact decide_eq_true (early n limit)
  simp only [iberainePass, in_time, oe, las, Bool.and_self, Bool.not_true, Bool.or_false, Bool.false_eq_true, if_false]
  rfl

/-- The same row in a state that is known. -/
theorem exec_iberainePass {s : State} {info : TrainInfo} {st : LinkState} (acts : Acts (.iberaineStatePass info) s)
    (state : (link s 18).st = st) (oe : s.power.good.getLsbD 10 = true) (las : s.power.good.getLsbD 11 = true)
    (early : ∀ n, iberaineLimit st = some n → count s < (link s 18).since + n) :
    exec (.iberaineStatePass info) s = .next (iberaineFound s info st) := by
  subst state
  show execIberaineStatePass info s = _
  exact onWf_acts_eq acts (iberainePass_in_time oe las early)

/-- A limit that is a numeral, met: the form in which a known state gives it. -/
theorem within_limit {c since m : Nat} (early : c < since + m) : ∀ n, some m = some n → c < since + n := by
  rintro n ⟨⟩
  exact early

theorem packetIn_of_good {s : State} {port : Nat} {pkt : List Byte} (whole : 32 ≤ pkt.length)
    (good : headerCheck s port pkt = 0) : packetIn port pkt s = accept s (parseCmd port pkt) := by
  rw [packetIn, if_neg (Nat.not_lt.mpr whole)]
  exact if_pos good

theorem commandArrival_manager {s : State} {port : Nat} {pkt : List Byte} (opened : portOpen s port = true)
    (manager : port = 1 ∨ port = 2) : commandArrival port pkt s = packetIn port pkt (managerSeen s port) := by
  have host : port ≠ 0 := by omega
  have twin : port ≠ 3 := by omega
  simp only [commandArrival, opened, host, twin, Bool.not_true, Bool.false_eq_true, false_and, if_false]

theorem commandArrival_host {s : State} {pkt : List Byte} (opened : portOpen s 0 = true)
    (command : s.boot.ready = true ∨ fld pkt 0 1 ≠ 0xb1) :
    commandArrival 0 pkt s = packetIn 0 pkt (takeMessage s 16 pkt) := by
  have packet : ¬ (True ∧ s.boot.ready = false ∧ fld pkt 0 1 = 0xb1 ∧ pkt ≠ []) := by
    rintro ⟨-, before, boot, -⟩
    simp [before, boot] at command
  have other : ¬ (0 = 3) := by decide
  simp only [commandArrival, opened, Bool.not_true, Bool.false_eq_true, if_false, if_neg packet, if_neg other, if_true]

theorem commandArrival_twin {s : State} {pkt : List Byte} {t : Txn} (opened : portOpen s 3 = true)
    (message : cmdMessage s pkt = some t) (twin : fromTwin s t = true) :
    commandArrival 3 pkt s = packetIn 3 pkt (modFabric s fun b => { b with ingress := dropMessage (streamKey t) b.ingress }) := by
  have other : ¬ (3 = 0) := by decide
  simp only [commandArrival, opened, message, twin, other, Bool.not_true, Bool.false_eq_true, false_and, if_false, if_true]

theorem mirrorOp_of_inner {pkg : PkgInfo} {c : Cmd} {s t : State} {st detail : Nat} {body : List Byte}
    (inner : innerBegin pkg c s = some (st, detail, body, t)) (length : (innerCmd c).plen + 32 = c.plen) :
    mirrorOp pkg c s =
      finish t c 0 0 (replyHeader (mkReply (innerCmd c) (rflags t false false) st (count t) detail body)) := by
  simp only [mirrorOp, inner]
  exact if_neg (not_not_intro length)

/-- Settles O19: what each row of the host port does in the state it names, its limit not passed. -/
theorem hostPortRowsComplete : Obligations.HostPortRowsComplete := by
  refine ⟨fun s info acts state oe las light => ?light, fun s info acts state oe las early => ?lane,
    fun s info acts state oe las early pass => ?power, fun s info w r ls sp acts state oe las early choice => ?rate,
    fun s info acts state oe las early => ?version, fun s n acts limit late => ?limit, fun s acts failed late => ?retry,
    fun s port pkt acts opened manager whole good => ?manager, fun s pkt acts opened command whole good => ?host,
    fun s pkt t acts opened message twin => ?twin, fun s p pkg c st detail body t begins opc inner length => ?mirror⟩
  case light =>
    rw [exec_iberainePass acts state oe las nofun]
    exact congrArg _ (if_pos light)
  case lane => exact exec_iberainePass acts state oe las (within_limit early)
  case power =>
    rw [exec_iberainePass acts state oe las (within_limit early)]
    exact congrArg _ (if_pos pass)
  case rate =>
    rw [exec_iberainePass acts state oe las (within_limit early)]
    simp only [iberaineFound, choice]
  case version => exact exec_iberainePass acts state oe las (within_limit early)
  case limit =>
    show execIberaineStateLimit s = _
    rw [execIberaineStateLimit, onWf_acts acts, iberaineOver]
    simp only [limit]
    exact congrArg _ (if_pos late)
  case retry =>
    show execIberaineLightRetry s = _
    exact onWf_acts_eq acts (if_pos ⟨failed, late⟩)
  case manager =>
    show execCommandPacketArrival port pkt s = _
    exact onWf_acts_eq acts ((commandArrival_manager opened manager).trans (packetIn_of_good whole good))
  case host =>
    show execCommandPacketArrival 0 pkt s = _
    exact onWf_acts_eq acts ((commandArrival_host opened command).trans (packetIn_of_good whole good))
  case twin =>
    intro u whole good
    show execCommandPacketArrival 3 pkt s = _
    exact onWf_acts_eq acts ((commandArrival_twin opened message twin).trans (packetIn_of_good whole good))
  case mirror =>
    show execMirrorCmd p pkg s = _
    exact row_begins_eq begins (opcode_of_eq opc) (mirrorOp_of_inner inner length)

/-! ### Remote requests and responses -/

/-- A request that is first in its stream, with no earlier open request to its unit, past the checks of its header. -/
theorem remoteAccess_of_first {s : State} {t : Txn} {kind : Nat} (agree : Bool) (type : t.ttype = kind)
    (first : firstOfStream s t = true) (ok : txnOk t = true) (alone : sameUnitOpen s t = false) :
    remoteAccess t kind agree s =
      let u := modFabric s fun f => { f with ingress := f.ingress.erase t }
      if (!agree) = true then refuseChecked u t else if remoteAllowed u t = true then serveRemote u t else refuseRemote u t := by
  rw [remoteAccess, alone, if_neg Bool.false_ne_true]
  exact takeTxn_of_first type first ok

theorem remoteAccess_of_allowed {s : State} {t : Txn} {kind : Nat} (type : t.ttype = kind) (first : firstOfStream s t = true)
    (ok : txnOk t = true) (alone : sameUnitOpen s t = false)
    (allowed : remoteAllowed (modFabric s fun f => { f with ingress := f.ingress.erase t }) t = true) :
    remoteAccess t kind true s = serveRemote (modFabric s fun f => { f with ingress := f.ingress.erase t }) t :=
  (remoteAccess_of_first true type first ok alone).trans ((if_neg Bool.false_ne_true).trans (if_pos allowed))

theorem remoteAccess_of_disagreement {s : State} {t : Txn} {kind : Nat} (type : t.ttype = kind)
    (first : firstOfStream s t = true) (ok : txnOk t = true) (alone : sameUnitOpen s t = false) :
    remoteAccess t kind false s = refuseChecked (modFabric s fun f => { f with ingress := f.ingress.erase t }) t :=
  (remoteAccess_of_first false type first ok alone).trans (if_pos rfl)

theorem remoteFence_of_clear {s : State} {t : Txn} (type : t.ttype = 4) (first : firstOfStream s t = true)
    (ok : txnOk t = true) (clear : (s.fabric.remoteOpen.any fun r => decide (streamKey r = streamKey t)) = false) :
    let u := modFabric s fun f => { f with ingress := f.ingress.erase t }
    defined u t.dstPart = true → remoteSource (part u t.dstPart) t = true → remoteFence t s = answerTxn u t 0 [] := by
  intro u present source
  rw [remoteFence, clear, if_neg Bool.false_ne_true, takeTxn_of_first type first ok]
  exact if_pos (by simp only [u] at present source; rw [present, source]; rfl)

theorem responseIn_of_answered {s : State} {t : Txn} {x : Transfer} (found : answered s t = some x)
    (length : t.ttype = 0x81 → t.len = x.len) :
    responseIn t s = finishTransfer (dropTransfer s x.id) x t.status t.data := by
  have fits : ¬ (t.ttype = 0x81 ∧ t.status = 0 ∧ t.len ≠ x.len) := fun ⟨type, _, other⟩ => other (length type)
  simp only [responseIn, found, if_neg fits]

/-- A row of a response that acts, its transaction first in its stream and answering an outstanding transfer. -/
theorem response_completes {i : Instr} {s : State} {t : Txn} {kind : Nat} {x : Transfer} (acts : Acts i s)
    (type : t.ttype = kind) (first : firstOfStream s t = true) (ok : txnOk t = true)
    (found : answered (modFabric s fun f => { f with ingress := f.ingress.erase t }) t = some x)
    (length : t.ttype = 0x81 → t.len = x.len) :
    onWf i s (takeTxn t kind (responseIn t)) =
      .next (finishTransfer
        (dropTransfer (modFabric s fun f => { f with ingress := f.ingress.erase t }) x.id) x t.status t.data) :=
  onWf_acts_eq acts ((takeTxn_of_first type first ok).trans (responseIn_of_answered found length))

/-- Settles O20: what each row does with a request or a response that is first in its stream. -/
theorem remoteRowsComplete : Obligations.RemoteRowsComplete := by
  refine ⟨fun s t acts type first ok alone allowed => ?read, fun s t acts type first ok alone allowed => ?write,
    fun s t acts type first ok alone allowed => ?atomic, fun s t u acts type first ok clear => ?fence,
    fun s t i row acts first ok alone => ?refused, fun s t u x acts type first ok => ?readRsp,
    fun s t u x acts type first ok => ?writeCpl, fun s t u x acts type first ok => ?atomicRsp,
    fun s t u x acts type first ok => ?fenceCpl⟩
  case read =>
    show execRemoteRead t true s = _
    exact onWf_acts_eq acts (remoteAccess_of_allowed type first ok alone allowed)
  case write =>
    show execRemoteWrite t true s = _
    exact onWf_acts_eq acts (remoteAccess_of_allowed type first ok alone allowed)
  case atomic =>
    show execRemoteAtomic t true s = _
    exact onWf_acts_eq acts (remoteAccess_of_allowed type first ok alone allowed)
  case fence =>
    rintro rfl present source
    show execRemoteFence t s = _
    exact onWf_acts_eq acts (remoteFence_of_clear type first ok clear present source)
  case refused =>
    rcases row with ⟨rfl, type⟩ | ⟨rfl, type⟩ | ⟨rfl, type⟩
    · show execRemoteRead t false s = _
      exact onWf_acts_eq acts (remoteAccess_of_disagreement type first ok alone)
    · show execRemoteWrite t false s = _
      exact onWf_acts_eq acts (remoteAccess_of_disagreement type first ok alone)
    · show execRemoteAtomic t false s = _
      exact onWf_acts_eq acts (remoteAccess_of_disagreement type first ok alone)
  case readRsp =>
    rintro rfl found length
    show execReadRsp t s = _
    exact response_completes acts type first ok found fun _ => length
  case writeCpl =>
    rintro rfl found
    show execWriteCpl t s = _
    exact response_completes acts type first ok found (by omega)
  case atomicRsp =>
    rintro rfl found
    show execAtomicRsp t s = _
    exact response_completes acts type first ok found (by omega)
  case fenceCpl =>
    rintro rfl found
    show execFenceCpl t s = _
    exact response_completes acts type first ok found (by omega)

end Sys2Proof.Machine
end

section
/-! Supplies, reset and the phases of start-up (15 R355 to R366, Table 5; 17 R409; 18 R429, R430), the boot exchange, control
recovery and the renewal of telemetry (15 R350, R351, R368). -/

namespace Sys2Proof.Machine

/-! ### Supplies and reset -/

theorem resetRise_of_low {s : State} {straps : BitVec 16} (low : s.boot.resetN = false) (powered : mgmtPowered s = true) :
    resetRise straps s = sampleStraps straps (modBoot s fun b => { b with resetN := true }) := by
  rw [resetRise, low, if_neg Bool.false_ne_true]
  exact if_pos powered

/-- The state after the content of a lost rail is gone. -/
def railLost (rail : Nat) (s : State) : State :=
  loseContent rail (modPower s fun w => { w with good := w.good &&& ~~~(1#13 <<< rail) })

/-- RAIL_LOSS of a rail that was good, other than the always-on one: with start-up begun the device reacts. -/
theorem railLoss_of_good {s : State} {rail : Nat} (good : s.power.good.getLsbD rail = true) (other : rail ≠ 3) :
    railLoss rail s =
      if (!((railLost rail s).power.good.getLsbD 3 && (railLost rail s).boot.resetN)) = true then railLost rail s
      else
        let r := recordFault (modPower (railLost rail s) fun w => { w with lostRails := w.lostRails ||| (1#13 <<< rail) }) 20 0xff
          0xffff 0 rail 0 [] none
        railReact rail r.1 r.2 := by
  rw [railLoss, good, Bool.not_true, if_neg Bool.false_ne_true]
  exact if_neg other

theorem railLoss_of_begun {s u : State} {rail n : Nat} (good : s.power.good.getLsbD rail = true) (other : rail ≠ 3)
    (always_on : (railLost rail s).power.good.getLsbD 3 = true) (begun : (railLost rail s).boot.resetN = true)
    (record : recordFault (modPower (railLost rail s) fun w => { w with lostRails := w.lostRails ||| (1#13 <<< rail) }) 20 0xff
      0xffff 0 rail 0 [] none = (n, u)) : railLoss rail s = railReact rail n u := by
  rw [railLoss_of_good good other, always_on, begun]
  simp only [Bool.and_self, Bool.not_true, Bool.false_eq_true, if_false, record]

theorem railLoss_of_unbegun {s : State} {rail : Nat} (good : s.power.good.getLsbD rail = true) (other : rail ≠ 3)
    (off : (railLost rail s).power.good.getLsbD 3 = false ∨ (railLost rail s).boot.resetN = false) :
    railLoss rail s = railLost rail s := by
  rw [railLoss_of_good good other]
  refine if_pos ?_
  rcases off with off | off
  · rw [off]
    rfl
  · rw [off, Bool.and_false]
    rfl

theorem railLoss_of_always_on {s : State} (good : s.power.good.getLsbD 3 = true) :
    railLoss 3 s = modBoot (inReset (railLost 3 s)) fun b => { b with resetN := s.boot.resetN } := by
  rw [railLoss, good, Bool.not_true, if_neg Bool.false_ne_true]
  rfl

/-- Settles O21: what each row of supplies and reset does under the condition it names. -/
theorem supplyRowsComplete : Obligations.SupplyRowsComplete := by
  refine ⟨fun s straps acts low powered => ?rise, fun s acts => ?fall, fun s acts phase begun powered late => ?train,
    fun s rail straps acts bad => ?good, fun s rail n u acts good other => ?lost, fun s rail acts good other => ?off,
    fun s acts good => ?always_on, fun s n u acts good always_on begun record => ?tier2⟩
  case rise =>
    show execResetNRise straps s = _
    exact onWf_acts_eq acts (resetRise_of_low low powered)
  case fall =>
    show execResetNFall s = _
    exact onWf_acts_eq acts rfl
  case train =>
    show execTrainPhaseStart s = _
    exact onWf_acts_eq acts (if_pos ⟨phase, begun, powered, late⟩)
  case good =>
    intro u v
    show execSupplyGood rail straps s = _
    refine onWf_acts_eq acts ?_
    rw [supplyGood, bad, if_neg Bool.false_ne_true]
    rfl
  case lost =>
    intro v always_on begun record
    show execRailLoss rail s = _
    exact onWf_acts_eq acts (railLoss_of_begun good other always_on begun record)
  case off =>
    intro v off
    show execRailLoss rail s = _
    exact onWf_acts_eq acts (railLoss_of_unbegun good other off)
  case always_on =>
    show execRailLoss 3 s = _
    exact onWf_acts_eq acts (railLoss_of_always_on good)
  case tier2 =>
    have kept : (railLost 8 s).power.good.getLsbD 3 = true := by
      show (s.power.good &&& ~~~(1#13 <<< 8)).getLsbD 3 = true
      rw [BitVec.getLsbD_and, always_on]
      decide
    show execRailLoss 8 s = _
    exact onWf_acts_eq acts (railLoss_of_begun good (by decide) kept begun record)

/-! ### The phases of start-up -/

/-- A row of a phase of start-up that acts: its phase ends with its effect. -/
theorem phase_ends {i : Instr} {s : State} {x : Phase} {needs : List Phase} {ok : State → Bool} {f : State → State}
    (acts : Acts i s) (running : s.boot.safe = false) (before : phaseDone s x = false)
    (done : needs.all (phaseDone s) = true) (holds : ok s = true) :
    onWf i s (phaseEnd x needs ok f) = .next (f (modBoot s fun b => { b with done := b.done ++ [x] })) :=
  onWf_acts_eq acts (phaseEnd_ready running before done holds)

theorem selfTest_eq (rom sram : Bool) (bad : List Nat) (s : State) :
    let pairBad := ([0, 1].filter fun c => decide (c ∈ bad)).length
    selfTest rom sram bad s =
      if rom = true ∧ sram = true ∧ (pairBad = 0 ∨ (pairBad = 1 ∧ 2 ∉ bad)) then
        modBoot s fun b =>
          { b with cores := 3 - pairBad - (if 2 ∈ bad then 1 else 0), spareUsed := decide (pairBad = 1 ∨ 2 ∈ bad) }
      else startFail s := by
  intro pairBad
  have atMost : pairBad ≤ 2 := List.length_filter_le ..
  have fails_iff : (!rom || !sram || decide (2 ≤ pairBad) || (decide (pairBad = 1) && decide (2 ∈ bad))) = true ↔
      ¬ (rom = true ∧ sram = true ∧ (pairBad = 0 ∨ (pairBad = 1 ∧ 2 ∉ bad))) := by
    simp only [Bool.or_eq_true, Bool.not_eq_true', Bool.and_eq_true, decide_eq_true_eq]
    cases rom <;> cases sram <;> simp
    by_cases spare : 2 ∈ bad <;> simp [spare] <;> omega
  rw [selfTest]
  simp only [decide_eq_true_eq, Bool.decide_or]
  exact (if_congr fails_iff rfl rfl).trans (ite_not ..)

/-- Settles O22: a phase whose needs are done and that has not ended ends with its effect. -/
theorem startupPhasesComplete : Obligations.StartupPhasesComplete := by
  refine ⟨fun s rom sram bad acts running before => ?selfTest, fun s acts running before a => ?identity,
    fun s acts running before b => ?management, fun s segs vs helper acts running before c good => ?domains,
    fun s rates b0 b1 caps acts running before d => ?memory, fun s ready acts running before d => ?tier2,
    fun s acts running b down => ?light, fun s acts running b before up => ?up⟩
  case selfTest =>
    intro pairBad u
    show execStartupSelfTest rom sram bad s = _
    rw [execStartupSelfTest, phase_ends acts running before rfl rfl, selfTest_eq]
  case identity =>
    show execStartupIdentity s = _
    exact phase_ends acts running before (by simp [a]) rfl
  case management =>
    show execStartupManagement s = _
    exact phase_ends acts running before (by simp [b]) rfl
  case domains =>
    show execStartupDomains segs vs helper s = _
    exact phase_ends acts running before (by simp [c]) (decide_eq_true good)
  case memory =>
    show execStartupMemory rates b0 b1 caps s = _
    exact phase_ends acts running before (by simp [d]) rfl
  case tier2 =>
    show execStartupTier2 ready s = _
    exact phase_ends acts running before (by simp [d]) rfl
  case light =>
    show execStartupIberaine s = _
    exact onWf_acts_eq acts (if_pos ⟨down, running, b⟩)
  case up =>
    have trained : ¬ ((link s 18).st = .down ∧ s.boot.safe = false ∧ phaseDone s .b = true) := by simp [up]
    show execStartupIberaine s = _
    rw [execStartupIberaine, onWf_acts acts, iberaineStart, if_neg trained, ← onWf_acts acts]
    exact phase_ends acts running before (by simp [b]) (by simp [iberaineUp, up])

/-! ### The boot exchange -/

/-- A row of a boot packet that acts, its packet at the open port before READY. -/
theorem bootPacket_taken {i : Instr} {s : State} {kind : Nat} {pkt : List Byte} {f : State → State} (acts : Acts i s)
    (opened : portOpen s 0 = true) (before : s.boot.ready = false) (boot : isBoot pkt = true) (type : bootType pkt = kind) :
    onWf i s (bootPacket kind pkt f) = .next (f (takeMessage s iberaineStream pkt)) := by
  refine onWf_acts_eq acts (if_pos ?_)
  simp [opened, before, boot, type]

theorem verifyBoot_of_accepted {s : State} (start : s.boot.start = true) (running : s.boot.safe = false)
    (before : s.boot.ready = false) (image : s.boot.imageOk = true) (fab : s.boot.fabOk = true)
    (retire : s.boot.retireOk = true) (unverified : Phase.g ∉ s.boot.done) :
    verifyBoot s =
      send (modBoot s fun b => { b with start := false, done := b.done ++ [.g] }) 0 (.boot 6 (leBytes 4 0)) := by
  simp [verifyBoot, start, running, before, judgeImage, image, judgeFab, fab, judgeRetire, retire, modBoot, unverified]

theorem fabricPhase_of_down {s : State} (running : s.boot.safe = false) (domains : phaseDone s .d = true)
    (accepted : s.fabric.accepted = true) (phase : s.lands.phase = 1)
    (down : (enabledLinks s).filter (fun l => decide ((link s l).st = .down)) ≠ []) :
    fabricPhase s =
      ((enabledLinks s).filter fun l => decide ((link s l).st = .down)).foldl (fun s l =>
        modLink s l fun x => { x with st := .sideband, since := count s }) s := by
  simp only [fabricPhase, running, domains, accepted, phase, Bool.not_true, Bool.false_eq_true, ne_eq, not_true_eq_false,
    or_self, if_false]
  exact if_pos down

/-- Settles O23: what each row of the boot exchange and of phases J, L and M does under the condition it names. -/
theorem bootRowsComplete : Obligations.BootRowsComplete := by
  refine ⟨fun s acts up fresh before running => ⟨_, rfl, ?hello⟩, fun s pkt acts opened before boot type => ?image,
    fun s pkt acts opened before boot type => ?fabcfg, fun s pkt acts opened before boot type => ?retire,
    fun s pkt acts opened before boot type => ?start,
    fun s acts start running before image fab retire unverified => ?verify,
    fun s acts running domains accepted phase down => ?fabric, fun s acts running before g h => ?firmware,
    fun s acts running before j k l => ?ready⟩
  case hello =>
    show execBootExchangeHello s = _
    exact onWf_acts_eq acts (if_pos (by simp [up, fresh, before, running]))
  case image =>
    show execBootImagePiece pkt s = _
    exact bootPacket_taken acts opened before boot type
  case fabcfg =>
    show execBootFabcfgPiece pkt s = _
    exact bootPacket_taken acts opened before boot type
  case retire =>
    show execBootRetirePiece pkt s = _
    exact bootPacket_taken acts opened before boot type
  case start =>
    show execBootStart pkt s = _
    exact bootPacket_taken acts opened before boot type
  case verify =>
    show execStartupVerification s = _
    exact onWf_acts_eq acts (verifyBoot_of_accepted start running before image fab retire unverified)
  case fabric =>
    show execStartupFabric s = _
    exact onWf_acts_eq acts (fabricPhase_of_down running domains accepted phase down)
  case firmware =>
    show execStartupServiceFirmware s = _
    exact phase_ends acts running before (by simp [g, h]) rfl
  case ready =>
    show execStartupReady s = _
    exact phase_ends acts running before (by simp [j, k, l]) rfl

/-! ### Control recovery -/

theorem recovery_of_pair {s : State} {a b : Bool} (stopped : s.boot.stopped = true) (running : s.boot.safe = false)
    (some_pass : ¬ (a = true ∧ b = true)) (pair : a = b ∨ s.boot.spareUsed = false) :
    let u := modBoot s fun x =>
      { x with stopped := false, cores := if a = b then x.cores else x.cores - 1, spareUsed := x.spareUsed || a != b }
    let v := if u.boot.sfRunning = true ∧ sfIntact u = false then discardSf u else modBoot u fun x => { x with recovery := false }
    recovery a b s =
      ((List.range 16).filter (isPrimary v)).foldl (fun s p => recoverVes (partitionReset s p none 0x3005) p) v := by
  have taken_up : ¬ ((!s.boot.stopped || s.boot.safe) = true) := by simp [stopped, running]
  have passes : ¬ ((a && b || ((a != b) && s.boot.spareUsed)) = true) := by
    rcases pair with rfl | unused
    · simpa using some_pass
    · simpa [unused] using some_pass
  have cores : ∀ n m : Nat, (if (a != b) = true then n else m) = if a = b then m else n := by
    intro n m
    cases a <;> cases b <;> rfl
  rw [recovery, if_neg taken_up]
  simp only [if_neg passes, cores]

theorem recovery_of_none {s : State} {a b : Bool} (stopped : s.boot.stopped = true) (running : s.boot.safe = false)
    (fails : (a = true ∧ b = true) ∨ (a ≠ b ∧ s.boot.spareUsed = true)) : recovery a b s = safeState s 0x5101 0 := by
  have taken_up : ¬ ((!s.boot.stopped || s.boot.safe) = true) := by simp [stopped, running]
  rw [recovery, if_neg taken_up]
  refine if_pos ?_
  rcases fails with ⟨rfl, rfl⟩ | ⟨differ, used⟩
  · rfl
  · simp [differ, used]

/-- Settles O24: what each row of recovery and telemetry does under the condition it names. -/
theorem recoveryRowsComplete : Obligations.RecoveryRowsComplete := by
  refine ⟨fun s acts up going running => ?divergence, fun s a b acts stopped running some_pass pair => ?recover,
    fun s a b acts stopped running fails => ?fail, fun s w e bs acts => ?renew⟩
  case divergence =>
    show execLockstepDivergence s = _
    exact onWf_acts_eq acts (if_pos (by simp [up, going, running]))
  case recover =>
    intro u v
    show execControlRecovery a b s = _
    exact onWf_acts_eq acts (recovery_of_pair stopped running some_pass pair)
  case fail =>
    show execControlRecovery a b s = _
    exact onWf_acts_eq acts (recovery_of_none stopped running fails)
  case renew =>
    show execTelemetryRenewal w e bs s = _
    exact onWf_acts_eq acts rfl

end Sys2Proof.Machine
end

section
/-! BIST slices, wear gauges and substitution (16 R380 to R394). -/

namespace Sys2Proof.Machine

/-! ### Slices -/

/-- The state in which the slice of a unit runs: of a block, its records taken and its partition held. -/
def sliceStarted (s : State) (u : BistUnit) : State :=
  match u with
  | .block b =>
    let ps := (partOfBlock s b).toList
    modSafety (setBlockSt (ps.foldl holdPart s) b 1) fun f =>
      { f with slices := f.slices ++
        [{ unit := u, parts := ps, tiles := (tilesOfBlock b).map (tileRec s), ves := [veRec s b] }] }
  | _ => modSafety s fun f => { f with slices := f.slices ++ [{ unit := u, parts := [], tiles := [], ves := [] }] }

theorem sliceStart_of_turn {s : State} {u : BistUnit} (ready : s.boot.ready = true) (running : s.boot.safe = false)
    (track : ∀ x ∈ s.safety.slices, trackOf x.unit ≠ trackOf u) (range : inTestRange s u = true)
    (alone : isolable s u = true) (turn : sliceTurn s u = true) :
    sliceStart u s =
      sliceStarted (modSafety s fun f => { f with swept := (f.swept.filter fun e => decide (e.1 ≠ u)) ++ [(u, sweepNow s)] })
        u := by
  have free : (s.safety.slices.any fun x => decide (trackOf x.unit = trackOf u)) = false :=
    List.any_eq_false.mpr fun x mem => by simpa using track x mem
  refine (if_neg ?_).trans ?_
  · simp [ready, running, free, range, alone, turn]
  · cases u <;> rfl

theorem sliceEnd_of_pass {s : State} {u : BistUnit} {bad : List BistUnit} {x : Slice}
    (found : s.safety.slices.find? (fun x => decide (x.unit = u)) = some x) :
    sliceEnd u true bad s = x.parts.foldl releasePart (toPool (slicePassed (sliceBack s x) u) u) := by
  simp only [sliceEnd, found, if_true]

/-- What the end of a failed slice does with its unit, once the unit has come back. -/
def sliceFailed (s : State) (x : Slice) (bad : List BistUnit) (u : BistUnit) : State :=
  match u with
  | .block b =>
    let mine := bad.filter fun w => decide (sliceOf s w = u ∧ w ≠ u)
    let w := mine.foldl markBad (recordFault s 23 ((partOfBlock s b).getD 0xff) b 0 0 0 [] none).2
    if mine = [] then spareExhausted (x.parts.foldl releasePart (setBlockSt w b 2)) b
    else modSafety w fun f => { f with heldFor := f.heldFor ++ mine.flatMap fun v => x.parts.map fun p => (v, p) }
  | .tier0 k => unusable (recordFault s 23 0xff 0xffff 0 k 0 [] none).2 u
  | .tier1 k => unusable (recordFault s 23 0xff 0xffff 0 k 0 [] none).2 u
  | .tier2 k => unusable (recordFault s 23 0xff 0xffff 0 k 0 [] none).2 u
  | _ => unusable s u

theorem sliceEnd_of_fail {s : State} {u : BistUnit} {bad : List BistUnit} {x : Slice}
    (found : s.safety.slices.find? (fun x => decide (x.unit = u)) = some x) :
    sliceEnd u false bad s = sliceFailed (noRetest (sliceBack s x) u) x bad u := by
  simp only [sliceEnd, found, Bool.false_eq_true, if_false]
  cases u <;> rfl

theorem sliceAbort_of_outside {s : State} {u : BistUnit} {x : Slice}
    (found : s.safety.slices.find? (fun x => decide (x.unit = u)) = some x) (outside : inTestRange s u = false) :
    sliceAbort u s =
      modSafety (x.parts.foldl releasePart (sliceBack s x)) fun f =>
        { f with swept := f.swept.filter fun e => decide (e.1 ≠ u) } := by
  simp only [sliceAbort, found, outside, Bool.false_eq_true, if_false]

/-! ### Substitution -/

theorem schedule_of_replaced {s : State} {d r g c : Nat} (ready : s.boot.ready = true) (running : s.boot.safe = false)
    (idle : s.safety.subst = none) (live : mapped s d r g = true) (found : replacement s d r g = some c) :
    let ps := affected s d r g c
    let x : Subst := { die := d, row := r, seg := g, repl := c, phase := 1, parts := ps, recs := [], forced := false }
    schedule d r g s =
      modSafety (ps.foldl (fun s p => modPart s p fun x => { x with holds := x.holds + 1, chained := false }) s)
        fun f => { f with subst := some x } := by
  simp only [schedule, ready, running, idle, live, found, Bool.not_true, Bool.false_eq_true, Option.isSome_none, or_self,
    if_false]

theorem substSave_of_ended {s : State} {x : Subst} (scheduled : s.safety.subst = some x) (phase : x.phase = 1)
    (stopped : allStopped s x.parts = true)
    (ended : ∀ t ∈ movingTiles s x.die x.row x.seg x.repl, holdsToken (tile s t) = false ∧ epochEnded (tile s t) = true) :
    let u := x.parts.foldl (fun s p => saveRecord (dropAppended s p) p ((part s p).pre = .evicted)) s
    substSave s =
      modSafety u fun f =>
        { f with subst := some { x with phase := 2, recs := (movingTiles s x.die x.row x.seg x.repl).map (tileRec u) } } := by
  have empty : ((movingTiles s x.die x.row x.seg x.repl).any fun t => holdsToken (tile s t)) = false :=
    List.any_eq_false.mpr fun t mem => by rw [(ended t mem).1]; exact Bool.false_ne_true
  have done : ((movingTiles s x.die x.row x.seg x.repl).all fun t => epochEnded (tile s t)) = true :=
    List.all_eq_true.mpr fun t mem => (ended t mem).2
  simp only [substSave, scheduled, phase, stopped, empty, done, ne_eq, not_true_eq_false, Bool.not_true, Bool.false_eq_true,
    or_self, if_false, if_true]

theorem substMap_of_standing {s : State} {x : Subst} (scheduled : s.safety.subst = some x) (phase : x.phase = 2)
    (stands : replacement s x.die x.row x.seg = some x.repl) :
    substMap s =
      modSafety (writeMap s x.die x.row x.seg x.repl) fun f => { f with subst := some { x with phase := 3 } } := by
  simp only [substMap, scheduled, phase, stands, ne_eq, not_true_eq_false, if_false, if_true]

theorem substDone_of_written {s : State} {x : Subst} (scheduled : s.safety.subst = some x) (phase : x.phase = 3) :
    substDone s =
      releaseFor (modSafety (x.parts.foldl releasePart (x.recs.foldl restoreEnded s)) fun f => { f with subst := none })
        (.segment x.die x.row x.seg) := by
  simp only [substDone, scheduled, phase, ne_eq, not_true_eq_false, if_false]

theorem any_prePhase_eq_false {s : State} {ps : List Nat} (calm : ∀ p ∈ ps, prePhase (part s p) = false) :
    (ps.any fun p => prePhase (part s p)) = false :=
  List.any_eq_false.mpr fun p mem => by rw [calm p mem]; exact Bool.false_ne_true

theorem any_stillFlying_eq_false {t : State} {ps : List Nat} (landed : ∀ p ∈ ps, stillFlying t p = false) :
    ps.any (stillFlying t) = false :=
  List.any_eq_false.mpr fun p mem => by rw [landed p mem]; exact Bool.false_ne_true

theorem forced_of_replaced {s : State} {d r g c : Nat} (ready : s.boot.ready = true) (running : s.boot.safe = false)
    (idle : s.safety.subst = none) (live : mapped s d r g = true) (must : mustGo s (.segment d r g) = true)
    (found : replacement s d r g = some c) (calm : ∀ p ∈ affected s d r g c, prePhase (part s p) = false) :
    let ps := (affected s d r g c).filter fun p => decide ((part s p).pre ≠ .evicted)
    let u := ps.foldl evictBegin s
    (∀ p ∈ ps, stillFlying u p = false) →
    forced d r g s =
      releaseFor (ps.foldl (resumeNow s) (writeMap (ps.foldl evictNow u) d r g c)) (.segment d r g) := by
  intro ps u landed
  have settled := any_stillFlying_eq_false landed
  simp only [ps, u] at settled
  simp only [forced, ready, running, idle, live, must, found, any_prePhase_eq_false calm, settled, Bool.not_true,
    Bool.false_eq_true, Option.isSome_none, or_self, if_false]
  rfl

/-- VE_SUBSTITUTION with a spare that is free and an image that can be read: the forced path, or the scheduled one. -/
theorem veSubst_of_spare {s : State} {b image pc : Nat} (ready : s.boot.ready = true) (running : s.boot.safe = false)
    (read : tierAccess s 0 image 262144 false = 0) (spare : spareVeFree s (b / 64) = true) :
    veSubst b image pc s = if mustGo s (.ve b) = true then veForced b image pc s else veScheduled b image pc s := by
  simp only [veSubst, ready, running, read, spare, Bool.not_true, Bool.false_eq_true, or_self, if_false, ne_eq,
    not_true_eq_false]

theorem veScheduled_of_ended {s : State} {b image pc : Nat} (stopped : allStopped s (partOfBlock s b).toList = true)
    (ended : ∀ t ∈ tilesOfBlock b, holdsToken (tile s t) = false ∧ epochEnded (tile s t) = true) :
    veScheduled b image pc s =
      releaseFor (spareConnect ((partOfBlock s b).toList.foldl
        (fun s p => saveRecord (dropAppended s p) p ((part s p).pre = .evicted)) s) b image pc) (.ve b) := by
  have empty : ((tilesOfBlock b).any fun t => holdsToken (tile s t)) = false :=
    List.any_eq_false.mpr fun t mem => by rw [(ended t mem).1]; exact Bool.false_ne_true
  have done : ((tilesOfBlock b).all fun t => epochEnded (tile s t)) = true :=
    List.all_eq_true.mpr fun t mem => (ended t mem).2
  simp only [veScheduled, stopped, empty, done, Bool.not_true, Bool.false_eq_true, if_false, if_true]

theorem veForced_of_landed {s : State} {b image pc : Nat} (calm : ∀ p ∈ partOfBlock s b, prePhase (part s p) = false) :
    let ps := (partOfBlock s b).toList.filter fun p => decide ((part s p).pre ≠ .evicted)
    let u := ps.foldl evictBegin s
    (∀ p ∈ ps, stillFlying u p = false) →
    veForced b image pc s =
      releaseFor (modVe (ps.foldl (resumeNow s) (spareConnect (ps.foldl evictNow u) b image pc)) b fun x =>
        { x with buffer := false, running := true, pc := BitVec.ofNat 15 pc }) (.ve b) := by
  intro ps u landed
  have settled := any_stillFlying_eq_false landed
  have quiet := any_prePhase_eq_false (ps := (partOfBlock s b).toList) fun p mem => calm p (Option.mem_toList.mp mem)
  refine if_neg ?_
  rintro (busy | flying)
  · exact Bool.false_ne_true (quiet.symm.trans busy)
  · exact Bool.false_ne_true (settled.symm.trans flying)

/-- Settles O25: what each row of self-test and substitution does under the condition it names. -/
theorem selfTestAndSubstitutionRowsComplete : Obligations.SelfTestAndSubstitutionRowsComplete := by
  refine ⟨fun s u acts ready running track range alone turn => ?start, fun s u bad x acts found => ?pass,
    fun s u bad x acts found => ?fail, fun s u x acts found outside => ?abort,
    fun s u acts ready new swept due => ?overdue, fun s ps acts => ?wear,
    fun s d r g c ps acts ready running idle live found => ?schedule, fun s x ts u acts scheduled phase => ?save,
    fun s x acts scheduled phase stands => ?map, fun s x acts scheduled phase => ?restore,
    fun s d r g c acts ready running idle live must found calm => ?forced,
    fun s b image pc acts ready running read spare may stopped ended => ?ve,
    fun s b image pc acts ready running read spare must calm => ?veForced⟩
  case start =>
    show execBistSliceStart u s = _
    refine onWf_acts_eq acts ((sliceStart_of_turn ready running track range alone turn).trans ?_)
    cases u <;> rfl
  case pass =>
    show execBistSliceEnd u true bad s = _
    exact onWf_acts_eq acts (sliceEnd_of_pass found)
  case fail =>
    show execBistSliceEnd u false bad s = _
    refine onWf_acts_eq acts ((sliceEnd_of_fail found).trans ?_)
    cases u <;> rfl
  case abort =>
    show execBistSliceAbort u s = _
    exact onWf_acts_eq acts (sliceAbort_of_outside found outside)
  case overdue =>
    show execBistOverdue u s = _
    refine onWf_acts_eq acts ((if_pos ⟨ready, new, swept, due⟩).trans ?_)
    cases u <;> rfl
  case wear =>
    show execWearGaugeRenewal ps s = _
    exact onWf_acts_eq acts rfl
  case schedule =>
    rintro rfl
    refine ⟨_, rfl, ?_⟩
    show execSubstitutionSchedule d r g s = _
    exact onWf_acts_eq acts (schedule_of_replaced ready running idle live found)
  case save =>
    rintro rfl stopped ended rfl
    show execSubstitutionSave s = _
    exact onWf_acts_eq acts (substSave_of_ended scheduled phase stopped ended)
  case map =>
    show execSubstitutionMapWrite s = _
    exact onWf_acts_eq acts (substMap_of_standing scheduled phase stands)
  case restore =>
    show execSubstitutionRestoreDone s = _
    exact onWf_acts_eq acts (substDone_of_written scheduled phase)
  case forced =>
    intro ps u landed
    show execForcedSubstitution d r g s = _
    exact onWf_acts_eq acts (forced_of_replaced ready running idle live must found calm landed)
  case ve =>
    intro v
    show execVeSubstitution b image pc s = _
    refine onWf_acts_eq acts ?_
    rw [veSubst_of_spare ready running read spare, may, if_neg Bool.false_ne_true, veScheduled_of_ended stopped ended]
    rfl
  case veForced =>
    intro ps u landed
    show execVeSubstitution b image pc s = _
    refine onWf_acts_eq acts ?_
    rw [veSubst_of_spare ready running read spare, must, if_pos rfl, veForced_of_landed calm landed]

end Sys2Proof.Machine
end

section
/-! Fabric links (14 R316 to R331): training and sideband, frames, lanes, and links that go down. -/

namespace Sys2Proof.Machine

/-! ### Training -/

/-- What a training state does with what it has found. -/
def trainFound (s : State) (l : Nat) (info : TrainInfo) : LinkState → State
  | .sideband => if (link s l).sideOk then toState s l .detect id else s
  | .detect =>
    if trainable (link s l) info.lanes = [] then s
    else toState s l .lock fun x => { x with lanes := trainable (link s l) info.lanes }
  | .lock => if info.pass then toState s l .equalise fun x => { x with rateIdx := firstRate s l x, goods := [] } else s
  | .equalise => if info.pass then toState s l .qualify id else s
  | .qualify =>
    let m : BitVec 5 := (info.good[0]?).getD 0
    let found : BitVec 5 := (link s l).lanes.foldl (fun b n => b ||| (m &&& (1#5 <<< n))) 0
    let goods := (link s l).goods ++ [((link s l).rateIdx, found)]
    if 4 ≤ (maskLanes found).length ∨ 2 ≤ (link s l).rateIdx then toState s l .select fun x => { x with goods := goods }
    else toState s l .equalise fun x => { x with goods := goods, rateIdx := x.rateIdx + 1 }
  | .select =>
    match choose (link s l).goods (link s l) with
    | none => trainFail s l
    | some (w, r, ls, sp) =>
      enterActivate (setLink s l { link s l with width := w, rate := r, lanes := ls, spare := sp }) l
  | _ => s

theorem statePass_in_time {s : State} {l : Nat} {info : TrainInfo} (fabric : l ≠ 18)
    (early : ∀ n, trainLimit (link s l).st = some n → count s < (link s l).since + n) :
    statePass l info s = trainFound s l info (link s l).st := by
  have in_time : ((trainLimit (link s l).st).elim true fun n => decide (count s < (link s l).since + n)) = true := by
    rcases limit : trainLimit (link s l).st with _ | n
    · rfl
    · exact decide_eq_true (early n limit)
  simp only [statePass, in_time, fabric, Bool.true_eq_false, or_self, if_false]
  rfl

/-- LINK_TRAIN_STATE_PASS of a fabric link within the limit of a state that is known. -/
theorem exec_linkTrainStatePass {s : State} {l : Nat} {info : TrainInfo} {st : LinkState}
    (acts : Acts (.linkTrainStatePass l info) s) (fabric : l ≠ 18) (state : (link s l).st = st)
    (early : ∀ n, trainLimit st = some n → count s < (link s l).since + n) :
    exec (.linkTrainStatePass l info) s = .next (trainFound s l info st) := by
  subst state
  show execLinkTrainStatePass l info s = _
  exact onWf_acts_eq acts (statePass_in_time fabric early)

theorem sidebandSend_of_due {s : State} {l : Nat} {e : LinkEnt} (entry : s.fabric.ents[l]? = some e)
    (state : (link s l).st = .sideband) (phase : s.lands.phase = 1)
    (due : (link s l).lastSent < (link s l).since ∨ (link s l).lastSent + 25000 ≤ count s) :
    sidebandSend l s =
      modFabric (setLink s l { link s l with lastSent := count s }) fun f =>
        { f with sideSent := f.sideSent ++ [sideBytes s l e] } := by
  simp only [sidebandSend, entry]
  exact if_pos ⟨state, phase, due⟩

theorem sidebandRecv_of_partner {s : State} {m : List Byte} {e : LinkEnt} (phase : s.lands.phase = 1)
    (good : sideBad s m = false) (entry : s.fabric.ents[fld m 4 1 % 32]? = some e)
    (state : (link s (fld m 4 1 % 32)).st = .sideband) (chip : fld m 6 2 % 16384 = e.pchip)
    (partner : fld m 5 1 % 32 = e.plink) :
    sidebandRecv m s =
      modLink s (fld m 4 1 % 32) fun x =>
        { x with sideOk := true, partnerLanes := BitVec.ofNat 5 (fld m 8 1), partnerRate := fld m 9 1 % 4 } := by
  rw [sidebandRecv, if_neg (not_not_intro phase), good, if_neg Bool.false_ne_true]
  simp only [entry]
  exact if_pos ⟨state, chip, partner⟩

/-- Settles O26: what each row of training does in the state it names, its limit not passed. -/
theorem trainingRowsComplete : Obligations.TrainingRowsComplete := by
  refine ⟨fun s l info acts fabric state early ok => ?sideband, fun s l info acts fabric state early some_lane => ?detect,
    fun s l info acts fabric state early pass => ?lock, fun s l info acts fabric state early pass => ?equalise,
    fun s l info found gs acts fabric state early => ?qualify, fun s l info acts fabric state => ?select,
    fun s l n acts fabric limit late => ?limit, fun s l e acts entry state phase due => ?send,
    fun s m l e acts phase good => ?recv⟩
  case sideband =>
    rw [exec_linkTrainStatePass acts fabric state (within_limit early)]
    exact congrArg _ (if_pos ok)
  case detect =>
    rw [exec_linkTrainStatePass acts fabric state (within_limit early)]
    exact congrArg _ (if_neg some_lane)
  case lock =>
    rw [exec_linkTrainStatePass acts fabric state (within_limit early)]
    exact congrArg _ (if_pos pass)
  case equalise =>
    rw [exec_linkTrainStatePass acts fabric state (within_limit early)]
    exact congrArg _ (if_pos pass)
  case qualify =>
    rintro rfl rfl
    exact exec_linkTrainStatePass acts fabric state (within_limit early)
  case select =>
    rw [exec_linkTrainStatePass acts fabric state nofun]
    rfl
  case limit =>
    show execLinkTrainLimit l s = _
    rw [execLinkTrainLimit, onWf_acts acts]
    simp only [limit]
    exact congrArg _ (if_pos ⟨fabric, late⟩)
  case send =>
    show execSidebandSend l s = _
    exact onWf_acts_eq acts (sidebandSend_of_due entry state phase due)
  case recv =>
    rintro rfl entry state chip partner
    show execSidebandRecv m s = _
    exact onWf_acts_eq acts (sidebandRecv_of_partner phase good entry state chip partner)

/-! ### Frames -/

theorem dataRecv_of_expected {s : State} {l : Nat} {lanes : List (List Byte)} {f : List Byte} (up : isUp s l = true)
    (frame : received (link s l) lanes = some f) (data : fType f = 1) (valid : frameValid l f = true)
    (expected : fSeq f = (link (takeAck s l (fAseq f)) l).expSeq) :
    dataRecv l lanes s = acceptFrame (takeAck s l (fAseq f)) l f := by
  have fits : ¬ (fType f ≠ 1 ∨ frameValid l f = false) := by simp [data, valid]
  simp only [dataRecv, up, Bool.not_true, Bool.false_eq_true, if_false, frame, if_neg fits]
  exact if_pos expected

theorem dataRecv_of_undecoded {s : State} {l : Nat} {lanes : List (List Byte)} (up : isUp s l = true)
    (frame : received (link s l) lanes = none) : dataRecv l lanes s = discardFrame s l := by
  simp only [dataRecv, up, Bool.not_true, Bool.false_eq_true, if_false, frame]

/-- A frame without sequence number that is taken: acknowledgement and credits, then its own effect. -/
theorem plainRecv_of_taken {s : State} {l kind : Nat} {lanes : List (List Byte)} {f : List Byte}
    {g : List Byte → State → State} (heard : isUp s l = true ∨ (kind = 0 ∧ (link s l).st = .activate))
    (frame : received (link s l) lanes = some f) (type : fType f = kind) :
    plainRecv l kind lanes g s = g f (takeCred (takeAck s l (fAseq f)) l (fCred f)) := by
  have listens : (isUp s l || (decide (kind = 0) && decide ((link s l).st = .activate))) = true := by
    simpa using heard
  rw [plainRecv, if_pos listens]
  simp only [frame]
  exact if_pos type

theorem transmit_of_turn {s : State} {l ch : Nat} {v : Byte} {p : List Byte} {r : List (List Byte)} :
    let u := frameOut s
    let x := link u l
    let y := credTaken x (credByte x)
    x.st = .up → sendTurn x = some ch → x.replay.length < 512 → tget [] x.txq ch = (v :: p) :: r →
    transmit l ch s =
      setLink u l
        { y with
          txq := tset x.txq ch r, nextSeq := (x.nextSeq + 1) % 4096
          replay := x.replay ++ [(x.nextSeq, v :: BitVec.ofNat 8 (credByte x) :: p)], lastTurn := ch
          credits := tset x.credits ch (tget 0 x.credits ch - 1)
          wire := y.wire ++
            [spread y.width (fecEncode (dataFrame x (x.nextSeq, v :: BitVec.ofNat 8 (credByte x) :: p)))]
          lastSent := count u, progressAt := if x.replay = [] then count u else x.progressAt } := by
  intro u x y up turn room queue
  have sends : ¬ (x.st ≠ .up ∨ sendTurn x ≠ some ch ∨ 512 ≤ x.replay.length) := by
    simp [up, turn, Nat.not_le.mpr room]
  refine (if_neg sends).trans ?_
  simp only [x, u] at queue
  simp only [queue]
  rfl

/-- Settles O27: what each row does with a frame of a link that is up, or with a frame to send. -/
theorem frameRowsComplete : Obligations.FrameRowsComplete := by
  refine ⟨fun s l lanes f u acts up frame data valid => ?data, fun s l lanes acts up frame => ?undecoded,
    fun s l lanes f acts heard frame type => ?idle, fun s l lanes f acts up frame type => ?nak,
    fun s l ch u x y v p r acts => ?transmit, fun s l acts silent => ?timer, fun s l e acts next => ?forward⟩
  case data =>
    rintro rfl expected
    show execDataFrameRecv l lanes s = _
    exact onWf_acts_eq acts (dataRecv_of_expected up frame data valid expected)
  case undecoded =>
    show execDataFrameRecv l lanes s = _
    exact onWf_acts_eq acts (dataRecv_of_undecoded up frame)
  case idle =>
    show execIdleFrameRecv l lanes s = _
    exact onWf_acts_eq acts (plainRecv_of_taken (heard.imp_right fun state => ⟨rfl, state⟩) frame type)
  case nak =>
    show execNakFrameRecv l lanes s = _
    exact onWf_acts_eq acts (plainRecv_of_taken (.inl up) frame type)
  case transmit =>
    rintro rfl rfl up turn room queue rfl
    show execFrameTransmit l ch s = _
    exact onWf_acts_eq acts (transmit_of_turn up turn room queue)
  case timer =>
    show execIdleFrameTimer l s = _
    exact onWf_acts_eq acts (if_pos silent)
  case forward =>
    show execTransactionForward l s = _
    rw [execTransactionForward, onWf_acts acts, forwardTxn]
    simp only [next]

/-! ### Lanes and links that go down -/

theorem swapEffect_of_acknowledged {s : State} {l r sp : Nat} (swap : (link s l).swap = some (r, sp, true, true)) :
    swapEffect l s =
      setLink s l
        { link s l with
          lanes := (List.range 5).filter fun n => decide (n = sp ∨ (n ∈ (link s l).lanes ∧ n ≠ r)), swap := none
          rotates := false, spare := if (link s l).rotates then r else 5
          retiredLanes := if (link s l).rotates then (link s l).retiredLanes
            else dedup ((link s l).retiredLanes ++ [r]) } := by
  simp only [swapEffect, swap]

theorem linkUpRecv_of_waiting {s : State} {l : Nat} {lanes : List (List Byte)} {f : List Byte}
    (frame : received (link s l) lanes = some f) (type : fType f = 4)
    (waits : (link s l).st = .activate ∧ count s < (link s l).since + 25000 ∨
      (link s l).st = .recovery ∧ count s < (link s l).downAt + 5000 ∧ 0 < (link s l).width) :
    linkUpRecv l lanes s = linkUpNow s l (fCtl f % 4096) := by
  simp only [linkUpRecv, frame]
  rw [if_neg (not_not_intro type)]
  rcases waits with ⟨state, early⟩ | ⟨state, early, held⟩
  · simp only [state]
    exact if_pos early
  · simp only [state]
    exact if_pos ⟨early, held⟩

/-- Settles O28: what each row of lanes and of links that go down does under the condition it names. -/
theorem laneRowsComplete : Obligations.LaneRowsComplete := by
  refine ⟨fun s l lane acts up => ?lock, fun s l lane k n acts up active exceeds => ?errors,
    fun s l lanes f acts up frame type => ?swapFrame, fun s l r sp acts up swap => ⟨_, rfl, ?swapEffect⟩,
    fun s l lanes f acts frame type waits => ?linkUp, fun s l acts up unacked late => ?progress,
    fun s l acts up => ?alignment, fun s l acts state late => ?recovery⟩
  case lock =>
    show execLaneLockLoss l lane s = _
    exact onWf_acts_eq acts (if_pos up)
  case errors =>
    show execLaneErrorInterval l lane k n s = _
    exact onWf_acts_eq acts ((if_pos ⟨up, active⟩).trans (if_pos exceeds))
  case swapFrame =>
    show execLaneSwapFrameRecv l lanes s = _
    exact onWf_acts_eq acts (plainRecv_of_taken (.inl up) frame type)
  case swapEffect =>
    show execLaneSwapEffect l s = _
    exact onWf_acts_eq acts ((if_pos up).trans (swapEffect_of_acknowledged swap))
  case linkUp =>
    show execLinkUpFrameRecv l lanes s = _
    exact onWf_acts_eq acts (linkUpRecv_of_waiting frame type waits)
  case progress =>
    show execAckProgressTimeout l s = _
    exact onWf_acts_eq acts (if_pos ⟨up, unacked, late⟩)
  case alignment =>
    show execCodewordAlignmentLoss l s = _
    exact onWf_acts_eq acts (if_pos up)
  case recovery =>
    show execFastRecoveryTimeout l s = _
    exact onWf_acts_eq acts (if_pos ⟨state, late⟩)

end Sys2Proof.Machine
end

section
/-! The mirrored pair (16 R396 to R407): set-up and end, what a mirror takes, the primary, heartbeats and the twin's failure. -/

namespace Sys2Proof.Machine

/-! ### Set-up and end -/

/-- A message that is sent leaves what the device knows of its twin. -/
theorem sendMessage_pair (s : State) (ttype strm dchip srcPart dstPart : Nat) (bs : List Byte) :
    (sendMessage s ttype strm dchip srcPart dstPart bs).pair = s.pair :=
  sendMessage_sat (P := fun t => t.pair = s.pair) s ttype strm dchip srcPart dstPart bs
    (fun _ _ agrees same => (agrees.1 .pair rfl).trans same) rfl

theorem sendSetup_early (s : State) : (sendSetup s).pair.early = s.pair.early := by
  rw [sendSetup, sendPair, sendMessage_pair]
  rfl

theorem pairSetupCmd_of_route {s : State} {c : Cmd} (good : setupBad s c = none)
    (route : (tfind s.fabric.routes (pf c 0 2 % 16384)).isSome = true) (other : pf c 0 2 % 16384 ≠ s.fabric.chip)
    (unheard : s.pair.early = none) :
    pairSetupCmd c s =
      sendSetup (modPair s fun x =>
        { x with
          setting := some c, twin := pf c 0 2 % 16384, prim := BitVec.ofNat 16 (pf c 2 2)
          mirr := BitVec.ofNat 16 (pf c 4 2), ackCounts := 25 * pf c 8 4, setupStart := count s, twinSetup := false }) := by
  have reachable : ¬ ((tfind s.fabric.routes (pf c 0 2 % 16384)).isNone = true ∨ pf c 0 2 % 16384 = s.fabric.chip) := by
    rintro (missing | same)
    · rw [Option.isNone_iff_eq_none] at missing
      simp [missing] at route
    · exact other same
  simp only [pairSetupCmd, good, if_neg reachable, sendSetup_early, modPair, unheard]

theorem setupTimeout_of_due {s : State} {c : Cmd} (setting : s.pair.setting = some c) (alone : s.pair.twinSetup = false)
    (due : s.pair.setupStart + 25000000 ≤ count s) :
    setupTimeout s = finish (modPair s fun x => { x with setting := none }) c 0x5201 0 [] := by
  rw [setupTimeout, if_pos ⟨alone, due⟩]
  simp only [setupEnd, setting]

/-- A SETUP of a chip that is found: off the ingress, it counts as heard from the twin in pair mode. -/
def setupHeard (s : State) (m : PairMsg) (chip : Nat) : State :=
  if s.pair.on = true ∧ chip = s.pair.twin then pairSeen (takePair s m) else takePair s m

theorem setupHeard_pair (s : State) (m : PairMsg) (chip : Nat) :
    (setupHeard s m chip).pair.setting = s.pair.setting ∧ (setupHeard s m chip).pair.twinSetup = s.pair.twinSetup ∧
      (setupHeard s m chip).pair.on = s.pair.on ∧ (setupHeard s m chip).pair.twin = s.pair.twin := by
  rw [setupHeard]
  split
  · simp only [pairSeen, modPair, takePair_pair, and_self]
  · simp only [takePair_pair, and_self]

theorem setupRecv_of_known {s : State} {m : PairMsg} {chip : Nat} (running : s.boot.safe = false)
    (source : pairSource s m = some chip) (known : knownMsg m = true) (type : m.pkind = 1) :
    let u := setupHeard s m chip
    setupRecv m s =
      if s.pair.setting.isSome = true ∧ s.pair.twinSetup = false then
        if chip = s.pair.twin then takeSetup u m else modPair u fun x => { x with discarded := x.discarded + 1 }
      else if s.pair.on = true then u
      else modPair u fun x => { x with early := some (chip, m) } := by
  intro u
  obtain ⟨setting, twinSetup, on, twin⟩ := setupHeard_pair s m chip
  rw [← setting, ← twinSetup, ← on, ← twin]
  simp only [setupRecv, running, source, known, type, ne_eq, not_true_eq_false, decide_false, Bool.and_false, Bool.not_true,
    Bool.false_eq_true, if_false, takePair_pair]
  rfl

/-- Settles O29: what each row of the set-up and end of pair mode does under the condition it names. -/
theorem pairSetupRowsComplete : Obligations.PairSetupRowsComplete := by
  refine ⟨fun s c begins opc idle => ?setup, fun s c good route other unheard => ?command,
    fun s acts setting alone due running => ?again, fun s c acts setting alone due => ?timeout,
    fun s m chip u acts running source known type => ?recv, fun s acts => ?sync, fun s c begins opc => ?finish⟩
  case setup =>
    have free : ¬ (s.pair.setting.isSome = true) := by simp [idle]
    show execPairSetup s = _
    rw [execPairSetup, onWf_acts begins.1, if_neg free, takeCmd_begins begins (opcode_of_eq opc)]
  case command => exact pairSetupCmd_of_route good route other unheard
  case again =>
    show execPairSetupMessageSend s = _
    exact onWf_acts_eq acts (if_pos ⟨setting, alone, due, running⟩)
  case timeout =>
    show execPairSetupTimeout s = _
    exact onWf_acts_eq acts (setupTimeout_of_due setting alone due)
  case recv =>
    rintro rfl
    show execPairSetupRecv m s = _
    exact onWf_acts_eq acts (setupRecv_of_known running source known type)
  case sync =>
    show execSyncEndAckTimeout s = _
    exact onWf_acts_eq acts rfl
  case finish =>
    show execPairEnd s = _
    exact row_begins_eq begins (opcode_of_eq opc) rfl

/-! ### What a mirror takes -/

/-- A row of a pair message that acts, its message from the twin in pair mode. -/
theorem row_hears_eq {i : Instr} {s t : State} {m : PairMsg} {kind : Nat} {f : State → State} (acts : Acts i s)
    (twin : FromTwin s m) (type : m.pkind = kind) (effect : f (heard s m) = t) :
    onWf i s (pairMessage kind m f) = .next t :=
  onWf_acts_eq acts ((pairMessage_twin twin type f).trans effect)

theorem isMirror_of_receiving {s : State} {p : Nat} (takes : receiving s p = true) : isMirror s p = true :=
  (Bool.and_eq_true_iff.mp takes).1

theorem applyRecs_of_receiving {s : State} {m : PairMsg} {f : Nat → PairRec → State → Nat × State}
    (takes : receiving s m.part = true) :
    applyRecs m f s =
      m.recs.foldl (fun s r =>
        match f m.part r s with
        | (0, s) => s
        | (st, s) => applyFail s m.part st)
        (modPart s m.part fun x => { x with lastTwinStep := max x.lastTwinStep m.step }) := by
  simp only [applyRecs, isMirror_of_receiving takes, takes, Bool.not_true, Bool.false_eq_true, if_false] <;> rfl

theorem applyRecs_of_invalid {s : State} {m : PairMsg} {f : Nat → PairRec → State → Nat × State}
    (mirror : isMirror s m.part = true) (invalid : receiving s m.part = false) :
    applyRecs m f s = applyFail s m.part 0x4305 := by
  simp only [applyRecs, mirror, invalid, Bool.not_true, Bool.not_false, Bool.false_eq_true, if_false, if_true]

/-- Settles O30: what each row does with a message of the twin. -/
theorem mirrorRowsComplete : Obligations.MirrorRowsComplete := by
  refine ⟨fun s m acts twin type => ?alloc, fun s m acts twin type => ?free, fun s m acts twin type => ?data,
    fun s m acts twin type => ?entry, fun s m f r rs takes recs => ?records, fun s m f mirror invalid => ?invalid,
    fun s m acts unheld twin type => ?record, fun s m u acts twin type mirror => ?confirm,
    fun s m acts twin type => ?inval, fun s m acts twin type => ?begin,
    fun s m acts unheld twin type => ?finish, fun s m acts twin type => ?heartbeat⟩
  case alloc =>
    show execPairAllocRecv m s = _
    exact row_hears_eq acts twin type rfl
  case free =>
    show execPairFreeRecv m s = _
    exact row_hears_eq acts twin type rfl
  case data =>
    show execPairDataRecv m s = _
    exact row_hears_eq acts twin type rfl
  case entry =>
    show execPairEntryRecv m s = _
    exact row_hears_eq acts twin type rfl
  case records =>
    rw [applyRecs_of_receiving takes, recs]
    rfl
  case invalid => exact applyRecs_of_invalid mirror invalid
  case record =>
    show execPairRecordRecv m s = _
    refine onWf_acts_eq acts ?_
    rw [recordRecv, unheld, if_neg Bool.false_ne_true, pairMessage_twin twin type]
    simp only [Bool.not_eq_true']
  case confirm =>
    rintro rfl
    show execPairConfirmRecv m s = _
    refine onWf_acts_eq acts ?_
    rw [confirmRecv, pairMessage_twin twin type]
    simp only [mirror, Bool.not_true, Bool.false_eq_true, if_false]
  case inval =>
    show execPairInvalRecv m s = _
    exact onWf_acts_eq acts (pairMessage_twin twin type _)
  case begin =>
    show execPairSyncBeginRecv m s = _
    exact onWf_acts_eq acts (pairMessage_twin twin type _)
  case finish =>
    show execPairSyncEndRecv m s = _
    refine onWf_acts_eq acts ?_
    rw [syncEndRecv, unheld, if_neg Bool.false_ne_true, pairMessage_twin twin type]
    simp only [Bool.and_eq_true]
  case heartbeat =>
    show execPairHeartbeatRecv m s = _
    exact row_hears_eq acts twin type rfl

/-! ### The primary -/

/-- PAIR_ACK_RECV of a primary partition: an ACK of SYNC_END, or one in pair mode. -/
theorem ackRecv_of_primary {s : State} {m : PairMsg} (twin : FromTwin s m) (type : m.pkind = 7) :
    let u := modPart (heard s m) m.part fun x => { x with acksDue := x.acksDue - 1 }
    isPrimary u m.part = true →
    ackRecv m s =
      if (part u m.part).syncing = true then syncAcked u m.part m.status
      else if (!(part u m.part).paired) = true then modPair u fun x => { x with discarded := x.discarded + 1 }
      else if (part u m.part).lapsing = true then (if (part u m.part).acksDue = 0 then lapseDone u m.part else u)
      else if m.status ≠ 0 then startLapse u m.part
      else
        let v := modPart (orderSeven u m.part m.step) m.part fun x => { x with vstep := max x.vstep m.vstep }
        releaseReplies v m.part (part v m.part).vstep := by
  intro u primary
  rw [ackRecv, pairMessage_twin twin type]
  simp only [u] at primary
  simp only [primary, Bool.true_and]
  rfl

theorem ackTimeout_of_due {s : State} {p : Nat} {w : PubWait} (waits : (part s p).pub = some w)
    (due : w.sentAt + s.pair.ackCounts ≤ count s) (running : s.boot.safe = false) :
    ackTimeout p s = startLapse s p := by
  simp only [ackTimeout, waits]
  exact if_pos ⟨due, running⟩

theorem beatRecv_of_valid {s : State} {f : BitVec 64} (phase : s.lands.phase = 2) (running : s.boot.safe = false)
    (valid : beatValid s f = true) :
    let newP := BitVec.ofNat 16 (nfld f.toNat 32 16)
    let newM := BitVec.ofNat 16 (nfld f.toNat 16 16)
    let u := modPair s fun x =>
      { x with
        rxSeq := some (nfld f.toNat 48 8), lastFrame := count s, twinP := newP, twinM := newM
        pathLost := x.pathLost && decide (x.lastRecv + 2500 ≤ count s) }
    beatRecv f s =
      if s.pair.on = false then u
      else findTwoHomes ((List.range 16).foldl (beatPart s.pair.twinP s.pair.twinM newP newM) u) newP := by
  intro newP newM u
  have taken : ¬ (s.lands.phase ≠ 2 ∨ s.boot.safe = true ∨ (!beatValid s f) = true) := by simp [phase, running, valid]
  refine (if_neg taken).trans ?_
  exact if_congr (by rw [Bool.not_eq_true']; rfl) rfl rfl

/-- Settles O31: what each row of the primary and of the twin's failure does under the condition it names. -/
theorem primaryRowsComplete : Obligations.PrimaryRowsComplete := by
  refine ⟨fun s m u acts twin type good => ?synced, fun s m u acts twin type => ?paired,
    fun s p w acts waits due running => ?timeout, fun s acts on due running => ?message,
    fun s acts phase running period new => ?frame, fun s f u acts phase running valid => ?frameRecv,
    fun s acts on alive new running one => ?path, fun s u acts on alive running beats links => ?failure,
    fun s pkt acts on running whole => ?reply⟩
  case synced =>
    rintro rfl primary syncing
    show execPairAckRecv m s = _
    refine onWf_acts_eq acts ?_
    rw [ackRecv_of_primary twin type primary, if_pos syncing]
    exact if_pos good
  case paired =>
    rintro rfl primary settled paired
    show execPairAckRecv m s = _
    refine onWf_acts_eq acts ?_
    rw [ackRecv_of_primary twin type primary, settled, if_neg Bool.false_ne_true, paired, Bool.not_true,
      if_neg Bool.false_ne_true]
  case timeout =>
    show execPairAckTimeout p s = _
    exact onWf_acts_eq acts (ackTimeout_of_due waits due running)
  case message =>
    show execPairHeartbeatSend s = _
    exact onWf_acts_eq acts (if_pos ⟨on, due, running⟩)
  case frame =>
    show execHeartbeatFrameSend s = _
    refine onWf_acts_eq acts ((if_pos ⟨phase, running, period, new⟩).trans ?_)
    simp only [modPair]
  case frameRecv =>
    rintro rfl
    show execHeartbeatFrameRecv f s = _
    exact onWf_acts_eq acts (beatRecv_of_valid phase running valid)
  case path =>
    show execPairPathLoss s = _
    exact onWf_acts_eq acts (if_pos (by simp [on, alive, new, running, one]))
  case failure =>
    rintro rfl
    show execTwinFailure s = _
    exact onWf_acts_eq acts (if_pos (by simp [on, alive, running, beats, links]))
  case reply =>
    show execTwinReplyRecv pkt s = _
    exact onWf_acts_eq acts (if_pos ⟨on, running, whole⟩)

end Sys2Proof.Machine
end

section
/-! Scalar, mask, lane-wise, function and operand space instructions of the VE (07 Tables 4 to 6, R137 to R143, R151 to
R155): which row issues each, and the value that its operation gives. -/

namespace Sys2Proof.Machine

/-! ### Rows of an instruction -/

/-- A row of a register operation that acts at its instruction, when the operation's value is known. -/
theorem row_issues_reg {i : Instr} {s : State} {b opc : Nat} {w : W64} {x y : Ve} {f : W64 → Ve → Option Ve} (acts : Acts i s)
    (ready : VeReady s b opc w) (here : x = ve s b) (value : f w x = some y) :
    onWf i s (veIssue b opc (regOp b f)) = .next (issued (setVe s b y) b) := by
  subst here
  exact ve_row acts ready (regOp_some value)

/-- As `row_issues_reg`, for a row that reads a storage without error. -/
theorem row_reads_reg {i : Instr} {s : State} {b opc : Nat} {w : W64} {x y : Ve} {f : W64 → Ve → Option Ve}
    {reads : W64 → State → Bool} (acts : Acts i s) (ready : VeReady s b opc w) (here : x = ve s b) (value : f w x = some y) :
    onWf i s (veRead b opc .ok reads (regOp b f)) = .next (issued (setVe s b y) b) := by
  subst here
  exact ve_row_read acts ready (regOp_some value)

/-- A row of a vector operation that acts at its instruction writes its register. -/
theorem row_issues_vec {i : Instr} {s : State} {b opc : Nat} {w : W64} {x : Ve} {f : W64 → Ve → VReg} (acts : Acts i s)
    (ready : VeReady s b opc w) (here : x = ve s b) :
    onWf i s (veIssue b opc (vecOp b f)) = .next (issued (setVe s b (setVr x (iD w) (f w x))) b) :=
  row_issues_reg acts ready here rfl

theorem scalars_of_le {xs : List Nat} (range : ∀ i ∈ xs, i ≤ 15) : scalars xs = true :=
  List.all_eq_true.mpr fun i mem => decide_eq_true (range i mem)

theorem masks_of_le {xs : List Nat} (range : ∀ i ∈ xs, i ≤ 7) : masks xs = true :=
  List.all_eq_true.mpr fun i mem => decide_eq_true (range i mem)

/-! ### Scalars and masks -/

theorem branchNz_of_scalar {w : W64} {x : Ve} (a : iA w ≤ 15) :
    branchNz w x = some (if sr x (iA w) ≠ 0 then { x with pc := x.pc + BitVec.ofNat 15 (iImm w) - 1 } else x) := by
  simp only [branchNz, scalars_of_le (xs := [iA w]) (by simpa), Bool.not_true, Bool.false_eq_true, if_false, ite_not]
  split <;> rfl

theorem compare_of_relation {w : W64} {x : Ve} (d : iD w ≤ 7) (relation : nfld (iImm w) 0 3 ≤ 4) :
    compare w x =
      some (setMr x (iD w) (maskOf fun i =>
        if activeLane x w i then relHolds (nfld (iImm w) 0 3) (lane64 (vr x (iA w)) i) (lane64 (vr x (iB w)) i)
        else if iZ w then false else (mr x (iD w)).getLsbD i)) := by
  simp only [compare, masks_of_le (xs := [iD w]) (by simpa), Nat.not_lt.mpr relation, Bool.not_true, decide_false,
    Bool.or_self, Bool.false_eq_true, if_false]

/-- Settles O32: each row at its instruction, its operands in range, issues with the value of Table 4. -/
theorem scalarAndMaskRowsComplete : Obligations.ScalarAndMaskRowsComplete := by
  refine ⟨fun s b w x acts ready here => ?nop, fun s b w x acts ready here => ?halt,
    fun s b w x acts ready here a => ?sbnz, fun s b w x acts ready here d => ?sli,
    fun s b w x acts ready here d a c => ?sadd, fun s b w x acts ready here d a c => ?smul,
    fun s b w x acts ready here d => ?vext, fun s b w x acts ready here d relation => ?vcmp,
    fun s b w x acts ready here d a => ?mtail, fun s b w x acts ready here d a c => ?mop,
    fun s b w x acts ready here d a c => ?mset⟩
  case nop =>
    show execNop b s = _
    exact row_issues_reg acts ready here rfl
  case halt =>
    show execHalt b s = _
    exact row_issues_reg acts ready here rfl
  case sbnz =>
    show execSbnz b s = _
    exact row_issues_reg acts ready here (branchNz_of_scalar a)
  case sli =>
    show execSli b s = _
    exact row_issues_reg acts ready here (if_pos (scalars_of_le (by simp [d])))
  case sadd =>
    show execSadd b s = _
    exact row_issues_reg acts ready here (if_pos (scalars_of_le (by simp [d, a, c])))
  case smul =>
    show execSmul b s = _
    exact row_issues_reg acts ready here (if_pos (scalars_of_le (by simp [d, a, c])))
  case vext =>
    show execVext b s = _
    exact row_issues_reg acts ready here (if_pos (scalars_of_le (by simp [d])))
  case vcmp =>
    show execVcmp b s = _
    exact row_issues_reg acts ready here (compare_of_relation d relation)
  case mtail =>
    show execMtail b s = _
    exact row_issues_reg acts ready here
      (if_pos (Bool.and_eq_true_iff.mpr ⟨masks_of_le (by simp [d]), scalars_of_le (by simp [a])⟩))
  case mop =>
    show execMop b s = _
    exact row_issues_reg acts ready here (if_pos (masks_of_le (by simp [d, a, c])))
  case mset =>
    show execMset b s = _
    exact row_issues_reg acts ready here
      (if_pos (Bool.and_eq_true_iff.mpr ⟨masks_of_le (by simp [d]), scalars_of_le (by simp [a, c])⟩))

/-! ### Lanes -/

/-- Settles O33: each row at its instruction writes vD lane by lane. -/
theorem laneRowsOfVeComplete : Obligations.LaneRowsOfVeComplete := by
  refine ⟨fun s b w x acts ready here a => ?vbcast, fun s b w x acts ready here => ?viota,
    fun s b w x acts ready here => ?vadd, fun s b w x acts ready here => ?vsub, fun s b w x acts ready here => ?vmul,
    fun s b w x acts ready here => ?vfma, fun s b w x acts ready here => ?vmax, fun s b w x acts ready here => ?vmin,
    fun s b w x acts ready here => ?vabs, fun s b w x acts ready here => ?vneg, fun s b w x acts ready here => ?vsel,
    fun s b w x acts ready here => ?viadd, fun s b w x acts ready here => ?vlog, fun s b w x acts ready here => ?vshf,
    fun s b w x acts ready here => ?vcvti⟩
  case vbcast =>
    show execVbcast b s = _
    exact row_issues_reg acts ready here (if_pos (scalars_of_le (by simp [a])))
  case viota =>
    show execViota b s = _
    exact row_issues_vec acts ready here
  case vadd =>
    show execVadd b s = _
    exact row_issues_vec acts ready here
  case vsub =>
    show execVsub b s = _
    exact row_issues_vec acts ready here
  case vmul =>
    show execVmul b s = _
    exact row_issues_vec acts ready here
  case vfma =>
    show execVfma b s = _
    exact row_issues_vec acts ready here
  case vmax =>
    show execVmax b s = _
    exact row_issues_vec acts ready here
  case vmin =>
    show execVmin b s = _
    exact row_issues_vec acts ready here
  case vabs =>
    show execVabs b s = _
    exact row_issues_vec acts ready here
  case vneg =>
    show execVneg b s = _
    exact row_issues_vec acts ready here
  case vsel =>
    show execVsel b s = _
    exact row_issues_vec acts ready here
  case viadd =>
    show execViadd b s = _
    exact row_issues_vec acts ready here
  case vlog =>
    show execVlog b s = _
    exact row_issues_vec acts ready here
  case vshf =>
    show execVshf b s = _
    exact row_issues_vec acts ready here
  case vcvti =>
    show execVcvti b s = _
    exact row_issues_vec acts ready here

/-! ### Functions, reductions, generators and conversions -/

/-- VCVT of a listed format has a value. -/
theorem convert_of_listed {w : W64} {x : Ve} (listed : nfld (iImm w) 0 5 ∈ [0x00, 0x01, 0x09, 0x0a, 0x0b, 0x0c]) :
    convert w x = some ((convert w x).getD x) := by
  rw [convert, if_neg (not_not_intro listed), Option.getD_some]

/-- VMXQ of a Microscaling format has a value. -/
theorem quantise_of_format {w : W64} {x : Ve} (low : 2 ≤ nfld (iImm w) 0 5) (high : nfld (iImm w) 0 5 ≤ 8) :
    quantise w x = some ((quantise w x).getD x) := by
  rw [quantise, if_neg (by omega), Option.getD_some]

/-- Settles O34: each row at its instruction issues with the value of Tables 4 and 6. -/
theorem functionRowsComplete : Obligations.FunctionRowsComplete := by
  refine ⟨fun s b w x acts ready here known => ?vfn, fun s b w x acts ready here => ?vrsum,
    fun s b w x acts ready here => ?vrmax, fun s b w x acts ready here => ?vrargmax,
    fun s b w x acts ready here => ?vscan, fun s b w x acts ready here => ?vperm,
    fun s b w x acts ready here => ?vrand, fun s b w x p acts ready => ?vepoch,
    fun s b w x acts ready here listed => ?vcvt, fun s b w x acts ready here low high => ?vmxq⟩
  case vfn =>
    show execVfn b s = _
    exact row_issues_reg acts ready here (if_neg (Nat.not_lt.mpr known))
  case vrsum =>
    show execVrsum b s = _
    exact row_issues_vec acts ready here
  case vrmax =>
    show execVrmax b s = _
    exact row_issues_vec acts ready here
  case vrargmax =>
    show execVrargmax b s = _
    exact row_issues_vec acts ready here
  case vscan =>
    show execVscan b s = _
    exact row_issues_vec acts ready here
  case vperm =>
    show execVperm b s = _
    exact row_issues_vec acts ready here
  case vrand =>
    show execVrand b s = _
    exact row_issues_reg acts ready here rfl
  case vepoch =>
    rintro rfl rfl
    show execVepoch b s = _
    exact ve_row acts ready rfl
  case vcvt =>
    show execVcvt b s = _
    exact row_issues_reg acts ready here (convert_of_listed listed)
  case vmxq =>
    show execVmxq b s = _
    exact row_issues_reg acts ready here (quantise_of_format low high)

/-! ### The operand space -/

theorem loadScalar_of_fit {w : W64} {x : Ve} (d : iD w ≤ 15) (a : iA w ≤ 15) (space : inSpace x [baseAddr x w] = true) :
    loadScalar w x = some (setSr x (iD w) (veWord x (baseAddr x w))) :=
  if_pos (Bool.and_eq_true_iff.mpr ⟨scalars_of_le (by simp [d, a]), space⟩)

theorem storeScalar_of_fit {w : W64} {x : Ve} (d : iD w ≤ 15) (a : iA w ≤ 15) (space : inSpace x [baseAddr x w] = true) :
    storeScalar w x = some (setVeWord x (baseAddr x w) (sr x (iD w))) :=
  if_pos (Bool.and_eq_true_iff.mpr ⟨scalars_of_le (by simp [d, a]), space⟩)

theorem loadVec_of_fit {w : W64} {x : Ve} {names : W64 → List Nat} {address : Ve → W64 → Nat → Nat}
    (range : ∀ i ∈ iA w :: names w, i ≤ 15) (space : inSpace x ((activeLanes x w).map (address x w)) = true) :
    loadVec names address w x = some (setVr x (iD w) (masked x w fun i => veWord x (address x w i))) :=
  if_pos (Bool.and_eq_true_iff.mpr ⟨scalars_of_le range, space⟩)

theorem storeVec_of_fit {w : W64} {x : Ve} {names : W64 → List Nat} {address : Ve → W64 → Nat → Nat}
    (range : ∀ i ∈ iA w :: names w, i ≤ 15) (space : inSpace x ((activeLanes x w).map (address x w)) = true) :
    storeVec names address w x =
      some ((activeLanes x w).foldl (fun y i => setVeWord y (address x w i) (lane64 (vr x (iD w)) i)) x) :=
  if_pos (Bool.and_eq_true_iff.mpr ⟨scalars_of_le range, space⟩)

theorem loadSlot_of_program {w : W64} {x : Ve} (a : iA w ≤ 15) :
    let n := slotLen (cacheWords x (sr x (iA w)).toNat 1)
    let ws := cacheWords x (sr x (iA w)).toNat (5 + n)
    0 < n → n ≤ 48 → slotInputs ws ≠ 0 → (ws.drop 5).all elemOk = true →
    loadSlot w x = some { x with slots := tset x.slots (nfld (iImm w) 0 2) ws } := by
  intro n ws some_word fits inputs good
  have whole : ¬ (n = 0 ∨ 48 < n ∨ slotInputs ws = 0 ∨ (!((ws.drop 5).all elemOk)) = true) := by
    simp only [good, inputs, Bool.not_true, Bool.false_eq_true, or_false]
    omega
  simp only [loadSlot, scalars_of_le (xs := [iA w]) (by simpa), Bool.not_true, Bool.false_eq_true, if_false]
  exact if_neg whole

theorem runProgram_of_scalars {w : W64} {x : Ve} (range : ∀ i ∈ [iD w, iA w, iB w, iC w], i ≤ 15) :
    let ws := tget [] x.slots (nfld (iImm w) 0 2)
    let n := nfld (iImm w) 2 16
    let bases := ([sr x (iA w), sr x (iB w), sr x (iC w)].take (slotInputs ws)).map (·.toNat)
    runProgram w x =
      some ((List.range n).foldl (fun y j =>
        runVector ws (bases.map fun a => a + 64 * j) ((sr x (iD w)).toNat + 64 * j)
          (if j + 1 = n then activeLanes x w else List.range 64) y) x) := by
  simp only [runProgram, scalars_of_le range, Bool.not_true, Bool.false_eq_true, if_false]

/-- Settles O35: each row at its instruction, its operands and addresses in range, issues with its effect. -/
theorem operandRowsComplete : Obligations.OperandRowsComplete := by
  refine ⟨fun s b w x acts ready here d a space => ?sld, fun s b w x acts ready here d a space => ?sst,
    fun s b w x acts ready here a space => ?vld, fun s b w x acts ready here a space => ?vst,
    fun s b w x acts ready here a c space => ?vlds, fun s b w x acts ready here a c space => ?vsts,
    fun s b w x acts ready here a space => ?vldx, fun s b w x acts ready here a space => ?vstx,
    fun s b w x a n ws acts ready here scalar => ?epld,
    fun s b w x ws n bases acts ready here d a c e => ?eprun⟩
  case sld =>
    show execSld b .ok s = _
    exact row_reads_reg acts ready here (loadScalar_of_fit d a space)
  case sst =>
    show execSst b s = _
    exact row_issues_reg acts ready here (storeScalar_of_fit d a space)
  case vld =>
    show execVld b .ok s = _
    exact row_reads_reg acts ready here (loadVec_of_fit (by simp [a]) space)
  case vst =>
    show execVst b s = _
    exact row_issues_reg acts ready here (storeVec_of_fit (by simp [a]) space)
  case vlds =>
    show execVlds b .ok s = _
    exact row_reads_reg acts ready here (loadVec_of_fit (by simp [a, c]) space)
  case vsts =>
    show execVsts b s = _
    exact row_issues_reg acts ready here (storeVec_of_fit (by simp [a, c]) space)
  case vldx =>
    show execVldx b .ok s = _
    exact row_reads_reg acts ready here (loadVec_of_fit (by simp [a]) space)
  case vstx =>
    show execVstx b s = _
    exact row_issues_reg acts ready here (storeVec_of_fit (by simp [a]) space)
  case epld =>
    rintro rfl rfl rfl some_word fits inputs good
    show execEpld b .ok s = _
    exact row_reads_reg acts ready here (loadSlot_of_program scalar some_word fits inputs good)
  case eprun =>
    rintro rfl rfl rfl
    show execEprun b .ok s = _
    exact row_reads_reg acts ready here (runProgram_of_scalars (by simp [d, a, c, e]))

end Sys2Proof.Machine
end

section
/-! Instructions of the VE toward tiles, other VEs, the codebook and the tiers (07 R144 to R150, R157), and the VE around its
instructions (R134, R140, R142, R148, R162 to R164). -/

namespace Sys2Proof.Machine

/-! ### Operand port, collector and check path -/

theorem portPut_of_unmarked {s : State} {b : Nat} {w : W64} (a : iA w ≤ 15) (c : iB w ≤ 15) (kind : nfld (iImm w) 2 2 ≤ 1)
    (unmarked : portMarked s b (sr (ve s b) (iA w)).toNat = false) :
    let x := ve s b
    let q := (sr x (iA w)).toNat
    portPut b w s =
      .ok (some (setVe s b (toPort x (portTile q) ((List.range (quartersOf w)).map fun i =>
        PortItem.mk (portTile q) (some (4 * portSlot q + portRole q)) 0
          (veChan x (quarter (vr x (iD w)) i) (nfld (iImm w) 2 2) ((sr x (iB w)).toNat + i) (portSlot q)))))) := by
  simp only [portPut, scalars_of_le (xs := [iA w, iB w]) (by simp [a, c]), Nat.not_lt.mpr kind, unmarked, Bool.not_true,
    decide_false, Bool.or_self, Bool.false_eq_true, if_false]

theorem portWrite_of_scalar {w : W64} {x : Ve} (a : iA w ≤ 15) :
    let q := (sr x (iA w)).toNat
    portWrite w x =
      some (toPort x (nfld q 0 6) ((List.range (quartersOf w)).map fun i =>
        PortItem.mk (nfld q 0 6) none ((nfld q 6 10 + i) % 1024) (veChan x (quarter (vr x (iD w)) i) 0 0 0))) := by
  simp only [portWrite, scalars_of_le (xs := [iA w]) (by simpa), Bool.not_true, Bool.false_eq_true, if_false]

theorem portRead_of_delivered {s : State} {b : Nat} {w : W64} (a : iA w ≤ 15) :
    let x := ve s b
    let q := (sr x (iA w)).toNat
    portHolds x (nfld q 0 6) = false →
    portRead b w s =
      .ok (some (setVe s b (setVr x (iD w) (withQuarters (vr x (iD w)) ((List.range (quartersOf w)).map fun i =>
        scratchAt (tile s (tileIn b (nfld q 0 6))) (nfld q 6 10 + i)))))) := by
  intro x q delivered
  simp only [x, q] at delivered
  simp only [portRead, scalars_of_le (xs := [iA w]) (by simpa), delivered, Bool.not_true, Bool.false_eq_true, if_false, x, q]

theorem portMark_of_unmarked {s : State} {b : Nat} {w : W64} (a : iA w ≤ 15)
    (unmarked : portMarked s b (sr (ve s b) (iA w)).toNat = false) :
    let x := ve s b
    let q := (sr x (iA w)).toNat
    let y := toPort x (portTile q)
      [PortItem.mk (portTile q) (some (4 * portSlot q + portRole q)) 0 (veChan x 0 2 0 (portSlot q))]
    portMark b w s =
      .ok (some (setVe s b { y with marked := queueKey (portTile q) (portSlot q) (portRole q) :: y.marked })) := by
  simp only [portMark, scalars_of_le (xs := [iA w]) (by simpa), unmarked, Bool.not_true, Bool.or_self, Bool.false_eq_true,
    if_false]

theorem collect4_of_taken {s : State} {b : Nat} {w : W64} {e : Coll} {r ds : List Coll} {mark : Bool} (a : iA w ≤ 15)
    (c : iB w ≤ 15) (delivered : portHolds (ve s b) (baseAddr (ve s b) w % 64) = false) :
    let x := ve s b
    let t := tileIn b (baseAddr x w % 64)
    let y := tile s t
    y.coll = e :: r → collTake y.coll = some (ds, mark) →
    collect4 b w s =
      .ok (some (setVe (setTile s t { y with coll := y.coll.drop (ds.length + if mark then 1 else 0) }) b
        (setSr (setVr x (iD w) (withQuarters (vr x (iD w)) (ds.map fun c => c.word.payload))) (iB w)
          (BitVec.ofNat 32 (ds.length + (if mark then 8 else 0) + 16 * (e.label % 8) + 128 * (e.role % 4) +
            65536 * e.word.loop.toNat))))) := by
  intro x t y head taken
  have oldest : (tile s (tileIn b (baseAddr (ve s b) w % 64))).coll.head? = some e := by
    simp only [y, t, x] at head
    rw [head, List.head?_cons]
  simp only [y, t, x] at taken
  simp only [collect4, scalars_of_le (xs := [iA w, iB w]) (by simp [a, c]), delivered, taken, oldest, Option.elim_some,
    Bool.not_true, Bool.false_eq_true, if_false, Nat.add_assoc, y, t, x]

theorem checkPop_of_word {s : State} {b : Nat} {w : W64} {l : Line} {r : List Line} (a : iA w ≤ 15)
    (delivered : portHolds (ve s b) (baseAddr (ve s b) w % 64) = false) :
    let x := ve s b
    let t := tileIn b (baseAddr x w % 64)
    (tile s t).checkFifo = l :: r →
    checkPop b w s =
      .ok (some (setVe (setTile s t { tile s t with checkFifo := r }) b
        (setVr x (iD w) (withQuarters VReg.zero [l])))) := by
  intro x t word
  simp only [t, x] at word
  simp only [checkPop, scalars_of_le (xs := [iA w]) (by simpa), delivered, word, Bool.not_true, Bool.false_eq_true, if_false,
    t, x]

/-- Settles O36: each row at its instruction, its queue unmarked or its tile's items delivered, issues with its effect. -/
theorem portRowsComplete : Obligations.PortRowsComplete := by
  refine ⟨fun s b w x a is acts ready => ?pput, fun s b w x a is acts ready => ?pwr, fun s b w x a ls acts ready => ?prd,
    fun s b w x a i y acts ready => ?pmark, fun s b w x y y' t e r ds mark sb acts ready => ?coll,
    fun s b w x y y' t l r acts ready => ?ckpop⟩
  case pput =>
    rintro rfl a c kind rfl unmarked rfl
    show execPput b s = _
    exact ve_row acts ready (portPut_of_unmarked a c kind unmarked)
  case pwr =>
    rintro rfl a rfl rfl
    show execPwr b s = _
    exact row_issues_reg acts ready rfl (portWrite_of_scalar a)
  case prd =>
    rintro rfl a rfl delivered rfl
    show execPrd b .ok s = _
    exact ve_row_read acts ready (portRead_of_delivered a delivered)
  case pmark =>
    rintro rfl a rfl unmarked rfl rfl
    show execPmark b s = _
    exact ve_row acts ready (portMark_of_unmarked a unmarked)
  case coll =>
    rintro rfl a c rfl delivered rfl head taken rfl rfl
    show execColl b s = _
    exact ve_row acts ready (collect4_of_taken a c delivered head taken)
  case ckpop =>
    rintro rfl a rfl delivered rfl word rfl
    show execCkpop b s = _
    exact ve_row acts ready (checkPop_of_word a delivered word)

/-! ### VE network, codebook and tiers -/

theorem netSend_of_own {s : State} {b : Nat} {w : W64} (a : iA w ≤ 15) :
    let x := ve s b
    let dst := nfld (sr x (iA w)).toNat 0 7
    (partOfBlock s b).isSome = true → partOfBlock s dst = partOfBlock s b →
    netSend b w s =
      .ok (some { s with
        veNet := s.veNet ++ (List.range (quartersOf w)).map fun q =>
          NetWord.mk b dst (nfld (iImm w) 2 3) (veChan x (quarter (vr x (iD w)) q) 0 0 0) }) := by
  intro x dst owned same
  have inside : ¬ ((partOfBlock s b).isNone = true ∨ partOfBlock s dst ≠ partOfBlock s b) := by
    rintro (free | other)
    · rw [Option.isNone_iff_eq_none] at free
      simp [free] at owned
    · exact other same
  simp only [netSend, scalars_of_le (xs := [iA w]) (by simpa), Bool.not_true, Bool.false_eq_true, if_false]
  exact if_neg inside

theorem netRecv_of_words {s : State} {b : Nat} {w : W64} :
    let x := ve s b
    let m := nfld (iImm w) 2 3
    let ws := (tget [] x.mail m).take (quartersOf w)
    ws ≠ [] →
    netRecv b w s =
      .ok (some (setVe s b (setVr { x with mail := tset x.mail m ((tget [] x.mail m).drop ws.length) } (iD w)
        (withQuarters (vr x (iD w)) (ws.map fun c => c.payload))))) :=
  fun some_word => if_neg some_word

theorem codebookWrite_of_unnamed {s : State} {b : Nat} {w : W64} (a : iA w ≤ 15)
    (unnamed : ∀ i, i < 64 → namesCodebook (tile s (tileIn b i)) (nfld (iImm w) 0 1) = false) :
    let x := ve s b
    let v := vr x (iD w)
    let base := 8192 * b + 4096 * nfld (iImm w) 0 1 + (sr x (iA w)).toNat % 4096 / 32 * 32
    codebookWrite b w s =
      .ok (some { s with
        codebook := (List.range 32).foldl
          (fun m j => tset m (base + j) ((lane64 v (2 * j + 1)).append (lane64 v (2 * j)))) s.codebook }) := by
  have free : ((List.range 64).any fun i => namesCodebook (tile s (tileIn b i)) (nfld (iImm w) 0 1)) = false :=
    List.any_eq_false.mpr fun i mem => by rw [unnamed i (List.mem_range.mp mem)]; exact Bool.false_ne_true
  simp only [codebookWrite, scalars_of_le (xs := [iA w]) (by simpa), free, Bool.not_true, Bool.false_eq_true, if_false]

theorem transferPost_of_room {s : State} {b p id : Nat} {who : Option Nat} {w : W64} (a : iA w ≤ 15) (c : iB w ≤ 15)
    (e : iC w ≤ 15) (owner : partOfBlock s b = some p) :
    let x := ve s b
    let n := nfld (iImm w) 0 16
    let sa := if x.buffer then (sr x (iA w)).toNat else (sr x (iA w)).toNat % 65536
    let addr := ((sr x (iC w)).append (sr x (iB w))).toNat
    let wr := decide (nfld (iImm w) 16 1 = 1)
    (x.buffer = true → sa + 16 * n ≤ 4096) → 0 < n → txfRefused s p addr (64 * n) wr = none → x.txOut.length < 16 →
    (List.range 17).find? (fun i => decide (i ∉ x.txOut)) = some id →
    transferPost b who w s = .ok (some (txfPieces s b p sa id addr (64 * n) wr who)) := by
  intro x n sa addr wr space some_line allowed room free
  have inside : ¬ (x.buffer = true ∧ n ≠ 0 ∧ 4096 < sa + 16 * n) := fun ⟨buffer, _, beyond⟩ =>
    Nat.not_lt.mpr (space buffer) beyond
  have lines : n ≠ 0 := Nat.pos_iff_ne_zero.mp some_line
  simp only [x, n, sa, addr, wr] at inside lines allowed room free
  simp only [transferPost, scalars_of_le (xs := [iA w, iB w, iC w]) (by simp [a, c, e]), if_neg inside, owner, if_neg lines,
    allowed, if_neg (Nat.not_le.mpr room), free, Option.getD_some, Bool.not_true, Bool.false_eq_true, if_false, x, n, sa, addr,
    wr]

theorem transferPost_of_nothing {s : State} {b p : Nat} {who : Option Nat} {w : W64} (a : iA w ≤ 15) (c : iB w ≤ 15)
    (e : iC w ≤ 15) (owner : partOfBlock s b = some p) (nothing : nfld (iImm w) 0 16 = 0) :
    transferPost b who w s = .ok (some s) := by
  simp only [transferPost, scalars_of_le (xs := [iA w, iB w, iC w]) (by simp [a, c, e]), owner, nothing, ne_eq,
    not_true_eq_false, false_and, and_false, Bool.not_true, Bool.false_eq_true, if_false, if_true]

theorem transferWait_of_none {s : State} {b : Nat} {w : W64} (d : iD w ≤ 15) (idle : (ve s b).txOut = []) :
    transferWait b w s =
      .ok (some (setVe s b (setSr { ve s b with txFail := 0 } (iD w) (BitVec.ofNat 32 (ve s b).txFail)))) := by
  simp only [transferWait, scalars_of_le (xs := [iD w]) (by simpa), idle, ne_eq, not_true_eq_false, Bool.not_true,
    Bool.false_eq_true, if_false]

/-- TXF whose range checkers agree is an instruction like the others. -/
theorem txf_agreed {s t : State} {b : Nat} {who : Option Nat} {w : W64} (acts : Acts (.txf b true .ok who) s)
    (ready : VeReady s b 0x52 w) (value : transferPost b who w s = .ok (some t)) :
    exec (.txf b true .ok who) s = .next (issued t b) := by
  show execTxf b true .ok who s = _
  exact onWf_acts_eq acts (veRead_ready ready value)

/-- Settles O37: each row at its instruction, under the condition it names, issues with its effect. -/
theorem networkRowsComplete : Obligations.NetworkRowsComplete := by
  refine ⟨fun s b w x dst ns acts ready => ?nsend, fun s b w x y m ws acts ready => ?nrecv,
    fun s b w x slot base v acts ready => ?cbwr, fun s b who w x p n wr a id sa acts ready => ?txf,
    fun s b who w x p acts ready here a c e owner nothing => ?nothing, fun s b ecc who a acts judged => ?disagreed,
    fun s b w x acts ready => ?txwait⟩
  case nsend =>
    rintro rfl a rfl owned same rfl
    show execNsend b s = _
    exact ve_row acts ready (netSend_of_own a owned same)
  case nrecv =>
    rintro rfl rfl rfl some_word rfl
    show execNrecv b s = _
    exact ve_row acts ready (netRecv_of_words some_word)
  case cbwr =>
    rintro rfl a rfl unnamed rfl rfl
    show execCbwr b s = _
    exact ve_row acts ready (codebookWrite_of_unnamed a unnamed)
  case txf =>
    rintro rfl a c e owner rfl rfl space rfl rfl some_line allowed room free
    exact txf_agreed acts ready (transferPost_of_room a c e owner space some_line allowed room free)
  case nothing => exact txf_agreed acts ready (transferPost_of_nothing a c e owner nothing)
  case disagreed =>
    show execTxf b false ecc who s = _
    rw [execTxf, onWf_acts acts, if_neg Bool.false_ne_true, judged]
  case txwait =>
    rintro rfl d idle
    show execTxwait b s = _
    exact ve_row acts ready (transferWait_of_none d idle)

/-! ### The VE around its instructions -/

theorem veRead_of_reads {s t : State} {b opc : Nat} {ecc : Ecc} {reads : W64 → State → Bool}
    {f : W64 → State → Except State (Option State)} {w : W64} (ready : VeReady s b opc w) (value : f w s = .ok (some t))
    (read : reads w s = true) :
    veRead b opc ecc reads f s =
      if ecc = .bad ∨ (ecc = .corrected ∧ (ve s b).buffer = true) then veStorageFault s b
      else if ecc = .corrected then modVe (issued t b) b fun x => { x with softErrors := x.softErrors + 1 }
      else issued t b := by
  rw [veRead_cases ready, value]
  simp only [read, and_true]

theorem mailboxArrival_of_room {s : State} {b src : Nat} {n : NetWord}
    (word : s.veNet.find? (fun n => decide (n.src = src ∧ n.dst = b)) = some n)
    (room : (tget [] (ve s b).mail n.box).length + ((ve s b).arrived.filter fun a => decide (a.1 = n.box)).length < 8) :
    mailboxArrival b src s =
      modVe { s with veNet := s.veNet.erase n } b fun x => { x with arrived := x.arrived ++ [(n.box, n.word)] } := by
  simp only [mailboxArrival, word]
  exact if_neg (Nat.not_le.mpr room)

theorem programStart_of_halted {s : State} {b pc : Nat} {ws : List (Nat × Nat)} (halted : (ve s b).running = false)
    (init : (ve s b).cacheInit = true ∨ loadsAll ws = true) :
    programStart b pc ws s =
      let u := if (ve s b).buffer = true then
          { s with tiles := s.tiles.map fun e => if blockOf e.1 = b then (e.1, { e.2 with coll := [] }) else e }
        else s
      modVe { u with draw := u.draw + 1 } b fun x =>
        { loadVe { forgetRegs u.draw x with buffer := false } ws with
          cacheInit := true, running := true, pc := BitVec.ofNat 15 pc, waitSince := none } := by
  refine if_neg ?_
  rintro (running | ⟨uninit, short⟩)
  · exact Bool.false_ne_true (halted.symm.trans running)
  · simp [uninit, short] at init

theorem bufferStart_of_halted {s : State} {b pc : Nat} {ws : List (Nat × Nat)} (halted : (ve s b).running = false)
    (buffer : (ve s b).buffer = true) :
    bufferStart b pc ws s =
      modVe { s with draw := s.draw + 1 } b fun x =>
        { loadVe (forgetRegs s.draw x) ws with running := true, pc := BitVec.ofNat 15 pc, waitSince := none } := by
  refine if_neg ?_
  simp [halted, buffer]

/-- Settles O39: what the VE does around its instructions, under the condition each row names. -/
theorem veServiceRowsComplete : Obligations.VeServiceRowsComplete := by
  refine ⟨fun s b opc ecc reads f w t ready value read => veRead_of_reads ready value read,
    fun s b opc ecc reads f w t ready value => ?reserved, fun s b opc ecc reads f w ready value => ?waits,
    fun s b soft bad acts => ?service, fun s b src n acts word room => ?arrival,
    fun s b pc ws u acts halted init => ?start, fun s b pc ws acts halted buffer => ?bufferStart⟩
  case reserved => rw [veRead_cases ready, value]
  case waits => rw [veRead_cases ready, value]
  case service =>
    show execVeServiceStage b soft bad s = _
    exact onWf_acts_eq acts rfl
  case arrival =>
    show execMailboxWordArrival b src s = _
    exact onWf_acts_eq acts (mailboxArrival_of_room word room)
  case start =>
    rintro rfl
    show execVeProgramStart b pc false ws s = _
    refine onWf_acts_eq acts ((programStart_of_halted halted init).trans ?_)
    split <;> rfl
  case bufferStart =>
    show execVeProgramStart b pc true ws s = _
    exact onWf_acts_eq acts (bufferStart_of_halted halted buffer)

end Sys2Proof.Machine
end

section
/-! Matrix contexts (03 R39, R54 to R66; 05 R105, R112, R113; 06 R122, R127, R128; 16 R374). -/

namespace Sys2Proof.Machine

/-! ### Passes -/

theorem passStart_of_turn {s : State} {t slot : Nat} {memOk : Bool}
    (read : mNprob (ctxOf (tile s t) slot) = 0 ∨ memOk = true) (matrix : cClass (ctxOf (tile s t) slot) = 1)
    (alive : live (tile s t) slot = true) (idle : (tile s t).pass = none)
    (calm : drainStuck (tile s t) slot (startNeeds (tile s t) slot) = false)
    (turn : nextReady (tile s t).lastA (passReady (tile s t)) = some slot) :
    let x := tile s t
    let c := ctxOf x slot
    passStart t slot memOk s =
      setTile s t (setPass { moved (if gated x slot then qPop x slot 3 else x) slot with lastA := slot }
        (enterProblem x c 0 (Pass.fresh slot (max (mNprob c) 1)
          (if mAsrc c = 1 then 0 else (qTok x slot 0).elim 0 fun w => w.loop)
          (decide (mAsrc c = 1 ∨ (qTok x slot 0).isSome = true))))) := by
  have may : ¬ (cClass (ctxOf (tile s t) slot) ≠ 1 ∨ live (tile s t) slot = false ∨ (tile s t).pass.isSome = true) := by
    simp [matrix, alive, idle]
  have reads : ¬ (mNprob (ctxOf (tile s t) slot) ≠ 0 ∧ memOk = false) := by
    rintro ⟨some_problem, bad⟩
    simp [some_problem, bad] at read
  simp only [passStart, if_neg may, calm, Bool.false_eq_true, if_false, turn, ne_eq, not_true_eq_false]
  refine (if_neg reads).trans ?_
  by_cases scratch : mAsrc (ctxOf (tile s t) slot) = 1
  · simp only [scratch, if_true, true_or, decide_true]
  · rcases token : qTok (tile s t) slot 0 with _ | w <;> simp [scratch]

/-! ### Weights -/

theorem expand_of_free {s : State} {t : Nat} {memOk : Bool} {p : Pass} {ws : List Weight} {g : W32}
    (pass : (tile s t).pass = some p) (alive : live (tile s t) p.slot = true) :
    let x := tile s t
    let c := ctxOf x p.slot
    drainStuck x p.slot (passNeeds x c p) = false → unitWords (cWfmt c) ≤ p.frame.length →
    (halfOpen c p = true ∨ halfFree c p = true) → (cWfmt c ≠ 0x12 ∨ memOk = true) →
    decodeRun s (blockOf t) c (frameNat p.frame) p.decoded 16 x.gen1 = (ws, g) →
    let sc := scalesFor s (blockOf t) c (frameNat p.frame) p.decoded
    let hs := if halfOpen c p = true then
        match p.halves.getLast? with
        | some h => p.halves.dropLast ++ [{ h with weights := h.weights ++ ws, scales := h.scales ++ sc }]
        | none => p.halves
      else p.halves ++ [Half.mk (p.ktStarted % decodedTiles c p.nkt) ws sc]
    let fin := decide (8 * unitK (cWfmt c) ≤ p.decoded + 16)
    expand t memOk s =
      setTile s t (moved (setPass { x with gen1 := g }
        { p with
          halves := hs.filter (fun h => decide (h.kt < p.nkt) || !halfFull c h),
          ktStarted := if halfOpen c p = true then p.ktStarted else p.ktStarted + 1,
          frame := if fin = true then [] else p.frame, decoded := if fin = true then 0 else p.decoded + 16 }) p.slot) := by
  intro x c calm words half codebook decoded sc hs fin
  have ready : ¬ (p.frame.length < unitWords (cWfmt c) ∨ (halfOpen c p = false ∧ halfFree c p = false)) := by
    rintro (short | ⟨closed, taken⟩)
    · exact Nat.not_lt.mpr words short
    · simp [closed, taken] at half
  have reads : ¬ (cWfmt c = 0x12 ∧ memOk = false) := by
    rintro ⟨vq, bad⟩
    simp [vq, bad] at codebook
  refine (onPass_live rfl pass alive calm).trans ?_
  refine (if_neg ready).trans ((if_neg reads).trans ?_)
  simp only [x, c] at decoded
  simp only [decoded] <;> rfl

/-! ### Beats -/

/-- BEAT_ISSUE of a pass in a problem, once the staging ring and the banks are filled: a beat, a step of filling, or nothing. -/
theorem beat_of_filled {s : State} {t : Nat} {residueOk : Bool} {p p' q : Pass} {y y' : Tile}
    (pass : (tile s t).pass = some p) (alive : live (tile s t) p.slot = true) (unspent : p.spent = false)
    (unheld : p.waitGnxt = false) :
    let x := tile s t
    let c := ctxOf x p.slot
    drainStuck x p.slot (passNeeds x c p) = false → stageIn c x p = (y, p') → loadNext s.draw c y p' = (y', q) →
    beat t residueOk true s =
      if (!beatReady y' c q || !expanderIdle c q) = true then
        if q = p then stalled s t p.slot
        else setTile { s with draw := s.draw + 512 } t (moved (setPass y' q) p.slot)
      else
        match q.halves.head? with
        | none => s
        | some h =>
          if (!residueOk) = true then countBeat (tileFault (setTile s t (setPass y' q)) t 9 (cCfg c) []) t
          else
            let q' := checkBeat (s.draw + 512) y' c h q
            let r := loopAdvance c (bankSet y' (q'.rg % 2) (bankLines (beatAcc y' c q h))) q'
            countBeat (setTile { s with draw := s.draw + 1024 } t (moved (setPass r.1 r.2) p.slot)) t := by
  intro x c calm staged loaded
  refine (onPass_live rfl pass alive calm).trans ?_
  refine (if_neg (by simp [unspent, unheld])).trans ?_
  simp only [x, c] at staged loaded
  simp only [staged, loaded, Bool.not_true, Bool.false_eq_true, false_and, if_false, x, c] <;> rfl

/-! ### Drains and the end of a context -/

theorem contextEnd_of_quiet {s : State} {t slot : Nat} (alive : live (tile s t) slot = true)
    (calm : drainStuck (tile s t) slot (contextNeeds (tile s t) slot) = false) (quiet : quiet (tile s t) slot = true)
    (marked : allMarked (tile s t) slot = true)
    (room : (markOuts (tile s t) slot).all (fun o => outRoom (tile s t) o slot) = true) :
    contextEnd t slot s = setTile s t (endContext slot (tile s t)) := by
  simp only [contextEnd, alive, calm, quiet, marked, room, Bool.true_eq_false, Bool.false_eq_true, Bool.and_self, if_false,
    if_true]

theorem contextEnd_of_stuck {s : State} {t slot : Nat} (alive : live (tile s t) slot = true)
    (stuck : drainStuck (tile s t) slot (contextNeeds (tile s t) slot) = true) :
    contextEnd t slot s = contextFault s t slot 7 [] := by
  simp only [contextEnd, alive, stuck, Bool.true_eq_false, if_false, if_true]

/-- Settles O40: what each row of a matrix context does under the condition it names. -/
theorem matrixRowsComplete : Obligations.MatrixRowsComplete := by
  refine ⟨fun s t slot memOk x c y l st acts read => ?start, fun s t x p acts => ?gnxt, fun s t x c p q w y acts => ?word,
    fun s t memOk x c p ws g sc hs fin q acts => ?decode, fun s t x c p y p' y' q h q' r z f acts => ?beat,
    fun s t x c p y p' y' q h acts => ?residue, fun s t x c p y p' y' q res acts => ?fill,
    fun s t x p l r acts => ?send, fun s t x p bank line r acts => ?store,
    fun s t x p bank line r c ls g y y' q acts => ?convert, fun s t slot x acts => ?ends, fun s t slot x acts => ?stuck⟩
  case start =>
    rintro rfl rfl matrix alive idle calm turn rfl rfl rfl
    show execMatrixPassStart t slot memOk s = _
    exact onWf_acts_eq acts (passStart_of_turn read matrix alive idle calm turn)
  case gnxt =>
    rintro rfl pass alive calm waits token
    show execGnxtTokenConsume t true s = _
    refine onWf_acts_eq acts ((onPass_live rfl pass alive calm).trans ?_)
    simp only [waits, Option.isNone_eq_false_iff.mpr token, Bool.not_true, Bool.false_eq_true, Bool.true_eq_false, if_false]
  case word =>
    rintro rfl pass alive rfl calm token may rfl rfl
    show execWeightWordAccept t s = _
    refine onWf_acts_eq acts ((onPass_live rfl pass alive calm).trans ?_)
    simp only [token, may, Bool.not_true, Bool.false_eq_true, if_false]
  case decode =>
    rintro rfl pass alive rfl calm words half codebook decoded rfl rfl rfl rfl
    show execExpanderDecode t memOk s = _
    exact onWf_acts_eq acts (expand_of_free pass alive calm words half codebook decoded)
  case beat =>
    rintro rfl pass alive rfl calm unspent unheld staged loaded ready idle head rfl rfl advanced
    show execBeatIssue t true true s = _
    refine onWf_acts_eq acts ((beat_of_filled pass alive unspent unheld calm staged loaded).trans ?_)
    simp only [ready, idle, head, advanced, Bool.not_true, Bool.or_self, Bool.false_eq_true, if_false]
  case residue =>
    rintro rfl pass alive rfl calm unspent unheld staged loaded ready idle head
    show execBeatIssue t false true s = _
    refine onWf_acts_eq acts ((beat_of_filled pass alive unspent unheld calm staged loaded).trans ?_)
    simp only [ready, idle, head, Bool.not_true, Bool.not_false, Bool.or_self, Bool.false_eq_true, if_false, if_true]
  case fill =>
    rintro rfl pass alive rfl calm unspent unheld staged loaded waits changed
    show execBeatIssue t res true s = _
    refine onWf_acts_eq acts ((beat_of_filled pass alive unspent unheld calm staged loaded).trans ?_)
    rw [if_pos (by simpa using waits), if_neg changed]
  case send =>
    rintro rfl pass alive calm words room
    show execAccumulatorDrain t s = _
    refine onWf_acts_eq acts ((onPass_live rfl pass alive calm).trans ?_)
    simp only [words, room, Bool.not_true, Bool.false_eq_true, if_false]
  case store =>
    rintro rfl pass alive calm words finished
    show execAccumulatorDrain t s = _
    refine onWf_acts_eq acts ((onPass_live rfl pass alive calm).trans ?_)
    simp only [words, finished, Bool.not_false, if_true]
  case convert =>
    rintro rfl pass alive rfl calm words finished lines rfl rfl rfl
    show execAccumulatorDrain t s = _
    refine onWf_acts_eq acts ((onPass_live rfl pass alive calm).trans ?_)
    simp only [words, finished, lines, Bool.not_true, Bool.false_eq_true, if_false]
  case ends =>
    rintro rfl alive calm quiet marked room
    show execContextEpochEnd t slot s = _
    exact onWf_acts_eq acts (contextEnd_of_quiet alive calm quiet marked room)
  case stuck =>
    rintro rfl alive stuck
    show execContextEpochEnd t slot s = _
    exact onWf_acts_eq acts (contextEnd_of_stuck alive stuck)

end Sys2Proof.Machine
end

section
/-! Steering, counters and moves (05 R98 to R105; 06 R122). -/

namespace Sys2Proof.Machine

/-! ### Firings -/

theorem mispaired_false_of_eq {c : Line} {loop : Nat} {a p : Option Chan}
    (agree : sLchk c = true → ∀ w ∈ a.toList ++ p.toList, w.loop.toNat = loop) :
    mispaired c loop (usedLoops a p) = false := by
  by_cases checks : sLchk c = true
  · have eq := agree checks
    simp only [mispaired, usedLoops, checks, Bool.true_and, List.any_map, List.any_eq_false, Function.comp_apply,
      decide_eq_true_eq, not_not]
    exact eq
  · simp only [mispaired, Bool.not_eq_true _ ▸ checks, Bool.false_and]

theorem steeringFiring_of_turn {s : State} {t slot : Nat} {arb : Bool} (steering : cClass (ctxOf (tile s t) slot) = 3)
    (alive : live (tile s t) slot = true)
    (calm : ¬ ((slotRun (tile s t) slot).fork = none ∧ (slotRun (tile s t) slot).second = none ∧
      drainStuck (tile s t) slot (steerNeeds (tile s t) slot) = true))
    (turn : steerTurn (tile s t) slot = true) :
    steeringFiring t slot arb s =
      match (slotRun (tile s t) slot).fork, (slotRun (tile s t) slot).second with
      | some (j, n, w, act), _ => forkCopy s t slot j n w act
      | none, some w =>
        if !outRoom (tile s t) 0 slot then stalled s t slot
        else setTile s t (leaveUnit slot (modRun (sendOut (tile s t) 0 w) slot fun r => { r with second := none }))
      | none, none => fire s t slot arb := by
  have may : ¬ (cClass (ctxOf (tile s t) slot) ≠ 3 ∨ live (tile s t) slot = false) := by simp [steering, alive]
  refine (if_neg may).trans ((if_neg calm).trans ?_)
  simp only [turn, Bool.not_true, Bool.false_eq_true, if_false] <;> rfl

theorem steeringFiring_of_fires {s : State} {t slot : Nat} {arb : Bool} (steering : cClass (ctxOf (tile s t) slot) = 3)
    (alive : live (tile s t) slot = true) (unforked : (slotRun (tile s t) slot).fork = none)
    (single : (slotRun (tile s t) slot).second = none)
    (calm : drainStuck (tile s t) slot (steerNeeds (tile s t) slot) = false)
    (turn : steerTurn (tile s t) slot = true) : steeringFiring t slot arb s = fire s t slot arb := by
  refine (steeringFiring_of_turn steering alive (fun h => ?_) turn).trans ?_
  · exact absurd h.2.2 (by simp [calm])
  · simp only [unforked, single]

/-! ### Moves -/

theorem moveWord_of_turn {s : State} {t slot : Nat} {memOk : Bool} {i : Nat} {loop : BitVec 16}
    (read : vSrc (ctxOf (tile s t) slot) ≠ 1 ∨ memOk = true) (moves : cClass (ctxOf (tile s t) slot) = 2)
    (alive : live (tile s t) slot = true)
    (calm : drainStuck (tile s t) slot (moveNeeds (tile s t) slot) = false)
    (turn : nextReady (tile s t).lastM (moveReady (tile s t)) = some slot)
    (state : (i, loop) = (slotRun (tile s t) slot).mv.getD
      (0, if vSrc (ctxOf (tile s t) slot) = 1 then 0 else (qTok (tile s t) slot 0).elim 0 fun w => w.loop)) :
    let x := tile s t
    let c := ctxOf x slot
    let line := if vSrc c = 1 then scratchAt x (vSbase c + i) else (qTok x slot 0).elim 0 fun w => w.payload
    let y := if (slotRun x slot).mv.isNone && gated x slot then qPop x slot 3 else x
    let y := if vSrc c = 1 then y else qPop y slot 0
    let y := if vDst c = 0 then y else { y with scratch := tset y.scratch ((vDbase c + i) % 1024) line }
    let y := if vDst c = 1 then y else sendOut y 0 (outWord x slot line 0 loop)
    let y := modRun (moved y slot) slot fun r => { r with mv := if i + 1 < vCount c then some (i + 1, loop) else none }
    moveWord t slot memOk s = setTile s t { y with lastM := slot } := by
  intro x c line y1 y2 y3 y4 z
  have may : ¬ (cClass (ctxOf (tile s t) slot) ≠ 2 ∨ live (tile s t) slot = false) := by simp [moves, alive]
  have reads : ¬ (vSrc (ctxOf (tile s t) slot) = 1 ∧ memOk = false) := by
    rintro ⟨scratch, bad⟩
    simp [scratch, bad] at read
  refine (if_neg may).trans ((if_neg (by simp [calm])).trans ((if_neg (by simp [turn])).trans ((if_neg reads).trans ?_)))
  rw [← state]

/-- Settles O41: what each row of a steering context, a counter and a move does under the condition it names. -/
theorem steeringRowsComplete : Obligations.SteeringRowsComplete := by
  refine ⟨fun s t slot arb x c act val loop ta tp a p y sends y' snd z acts => ?sends,
    fun s t slot arb x c act val loop ta tp w y y' z acts => ?forks,
    fun s t slot arb x c act val loop ta tp a p acts => ?mispairs, fun s t slot arb x j n w act acts => ?copies,
    fun s t slot arb x w acts => ?second, fun s t slot x c acts => ?runs, fun s t slot x c w n acts => ?triggered,
    fun s t slot x r o w rest acts => ?emits, fun s t slot memOk x c i loop line y1 y2 y3 y4 acts => ?moves⟩
  case sends =>
    rintro rfl rfl steering alive unforked single calm turn fires op rfl rfl agree rfl rfl rfl now room
    show execSteeringFiring t slot arb s = _
    refine onWf_acts_eq acts ((steeringFiring_of_fires steering alive unforked single calm turn).trans ?_)
    simp only [fire, fires, firingTokens, mispaired_false_of_eq agree, op, now, List.all_eq_true.mpr room, Bool.not_true,
      Bool.false_eq_true, if_false] <;> rfl
  case forks =>
    rintro rfl rfl steering alive unforked single calm turn fires op tokens paired rfl rfl
    show execSteeringFiring t slot arb s = _
    refine onWf_acts_eq acts ((steeringFiring_of_fires steering alive unforked single calm turn).trans ?_)
    simp only [fire, fires, tokens, paired, op, Bool.false_eq_true, if_false, if_true]
  case mispairs =>
    rintro rfl rfl steering alive unforked single calm turn fires tokens mispairs
    show execSteeringFiring t slot arb s = _
    refine onWf_acts_eq acts ((steeringFiring_of_fires steering alive unforked single calm turn).trans ?_)
    simp only [fire, fires, tokens, mispairs, if_true]
  case copies =>
    rintro rfl steering alive forked turn
    show execSteeringFiring t slot arb s = _
    refine onWf_acts_eq acts ((steeringFiring_of_turn steering alive (by simp [forked]) turn).trans ?_)
    simp only [forked]
  case second =>
    rintro rfl steering alive unforked waits turn room
    show execSteeringFiring t slot arb s = _
    refine onWf_acts_eq acts ((steeringFiring_of_turn steering alive (by simp [waits]) turn).trans ?_)
    simp only [unforked, waits, room, Bool.not_true, Bool.false_eq_true, if_false]
  case runs =>
    rintro rfl rfl counter alive idle untriggered left
    show execCounterRunStart t slot s = _
    refine onWf_acts_eq acts ((if_neg (by simp [counter, alive, idle])).trans ?_)
    simp only [untriggered, left, Bool.not_false, if_true]
  case triggered =>
    rintro rfl rfl counter alive idle trigger calm token rfl
    show execCounterRunStart t slot s = _
    refine onWf_acts_eq acts ((if_neg (by simp [counter, alive, idle])).trans ?_)
    simp only [trigger, calm, token, Bool.not_true, Bool.false_eq_true, if_false]
  case emits =>
    rintro rfl counter alive run turn token room
    show execCounterEmit t slot s = _
    refine onWf_acts_eq acts ((if_neg (by simp [counter, alive])).trans ?_)
    simp only [run, turn, token, room, Bool.not_true, Bool.false_eq_true, if_false]
  case moves =>
    rintro rfl rfl read moves alive calm turn state rfl rfl rfl rfl rfl
    refine ⟨_, rfl, ?_⟩
    show execMoveWord t slot memOk s = _
    exact onWf_acts_eq acts (moveWord_of_turn read moves alive calm turn state)

end Sys2Proof.Machine
end

section
/-! Routers and configuration (03 R42 to R48; 05 R93, R94, R107, R111, R114 to R118; 10 R223). -/

namespace Sys2Proof.Machine

/-! ### Grants -/

section
variable {s : State} {t inp lbl out : Nat} {w : Chan} {r : List Chan}
  (data : lbl ≠ 8) (wanted : wants (tile s t) t inp lbl = some out) (turn : turnOf s t inp lbl out = true)
  (take : canTake s t inp lbl out = true) (queue : inQueue (tile s t) inp lbl = w :: r)
include data wanted turn take queue

theorem outputGrant_of_route (routed : out < 12) :
    let x := tile s t
    let l := rLabel x.rwA inp lbl
    let y := passMark s.time.watch inp lbl w { x with inq := tset x.inq (8 * inp + lbl) r }
    let w := { w with ctx := BitVec.ofNat 3 l }
    outputGrant t inp lbl true s =
      if out < 8 then sendHop (setTile s t y) t inp out 0 w
      else if toCollector y l then
        setTile s t (granted t inp out { y with coll := y.coll ++ [{ word := w, label := l, role := out - 8 }] })
      else setTile s t (granted t inp out (qPush y l (out - 8) w)) := by
  simp only [outputGrant, wanted, turn, take, queue, data, Nat.not_le.mpr routed, Bool.not_true, Bool.or_self,
    Bool.false_eq_true, if_false]

theorem outputGrant_of_unrouted (unrouted : 12 ≤ out) (free : thas (tile s t).held inp = false) :
    outputGrant t inp lbl true s =
      tileFault (setTile s t (refresh t
        { tile s t with inq := tset (tile s t).inq (8 * inp + lbl) r, held := tset (tile s t).held inp w })) t 3 0
        (leBytes 1 inp ++ leBytes 1 lbl ++ tagBytes w) := by
  simp only [outputGrant, wanted, turn, take, queue, data, unrouted, free, Bool.not_true, Bool.or_self,
    Bool.false_eq_true, if_false, if_true]

end

theorem outputGrant_of_config {s : State} {t inp out : Nat} {w : Chan} {r : List Chan}
    (wanted : wants (tile s t) t inp 8 = some out) (turn : turnOf s t inp 8 out = true)
    (take : canTake s t inp 8 out = true) (queue : tget [] (tile s t).cfgq inp = w :: r) :
    outputGrant t inp 8 true s =
      sendHop (setTile s t { tile s t with cfgq := tset (tile s t).cfgq inp r }) t inp out 0 w := by
  simp only [outputGrant, wanted, turn, take, queue, Bool.not_true, Bool.or_self, Bool.false_eq_true, if_false, if_true]

/-! ### Arrivals -/

theorem fromLatch_of_find {s : State} {t u out inp : Nat} {chk : Ecc} {w : Chan} (placed : (partOfTile s t).isSome = true)
    (same : partOfTile s t = partOfTile s u)
    (first : (tget [] (tile s u).latch out).find? (canEnter (tile s t) inp) = some w) :
    let ws := (tget [] (tile s u).latch out).erase w
    fromLatch t u out inp chk s =
      enter t inp chk w
        (setTile s u { tile s u with
          latch := if ws = [] then tdel (tile s u).latch out else tset (tile s u).latch out ws }) := by
  have may : ¬ (partOfTile s t = none ∨ partOfTile s t ≠ partOfTile s u) := by
    rintro (unplaced | other)
    · simp [unplaced] at placed
    · exact other same
  refine (if_neg may).trans ?_
  simp only [first]

theorem tokenArrival_of_neighbour {s : State} {t src u : Nat} {chk : Ecc} (near : src < 8)
    (there : away t (src % 4) (if src < 4 then 1 else 8) = some u) :
    tokenArrival t src chk s =
      fromLatch t u ((src + 2) % 4 + (if src < 4 then 0 else 4)) (if src < 4 then src else 4) chk s := by
  refine (if_pos near).trans ?_
  simp only [there]

theorem tokenArrival_of_output {s : State} {t src k : Nat} {chk : Ecc} {w : Chan} (far : 8 ≤ src) (output : src < 10)
    (turn : nextReady (tget 7 (tile s t).lastO (src - 8)) (fun k => (loutWord (tile s t) (src - 8) k).isSome) = some k)
    (waits : loutWord (tile s t) (src - 8) k = some w) :
    tokenArrival t src chk s =
      enter t (src - 3) chk w
        (setTile s t { tile s t with
          lout := tset (tile s t).lout (src - 8) ((tget [] (tile s t).lout (src - 8)).erase w),
          lastO := tset (tile s t).lastO (src - 8) k }) := by
  have input : 5 + (src - 8) = src - 3 := by omega
  refine (if_neg (Nat.not_lt.mpr far)).trans ((if_pos output).trans ?_)
  simp only [turn, waits, input]

theorem tokenArrival_of_injector {s : State} {t : Nat} {chk : Ecc} {w : Chan}
    (word : tfind s.injectOut (t / 64 / 8) = some w) (north : t % 64 = 0) (column : t / 64 = cfgTarget w / 64)
    (free : canEnter (tile s t) 0 w = true) :
    tokenArrival t 10 chk s = enter t 0 chk w { s with injectOut := tdel s.injectOut (t / 64 / 8) } := by
  have enters := And.intro north (And.intro column free)
  simp only [tokenArrival, (by decide : ¬ 10 < 8), (by decide : ¬ 10 < 10), if_false, word, if_pos enters]

/-! ### Entering an input -/

theorem enter_of_bad (s : State) (t inp : Nat) (w : Chan) :
    enter t inp .bad w s = tileFault (holdAt s t inp w) t 1 0 (tagBytes w) := by
  simp only [enter, if_true]

theorem enter_of_data {s : State} {t inp : Nat} {w : Chan} (fits : epochFits (tile s t) t inp w.ctx.toNat w = true)
    (data : w.kind.toNat ≠ 3) (routed : w.epoch = (tile s t).epoch → rOut (tile s t).rwA inp w.ctx.toNat < 12) :
    enter t inp .ok w s = setTile s t (refresh t
      { tile s t with
        inq := tset (tile s t).inq (8 * inp + w.ctx.toNat) (inQueue (tile s t) inp w.ctx.toNat ++ [w])
        heldSince := if w.epoch = (tile s t).epoch then (tile s t).heldSince
          else some ((tile s t).heldSince.getD s.time.watch) }) := by
  have goes : ¬ (w.epoch = (tile s t).epoch ∧ 12 ≤ rOut (tile s t).rwA inp w.ctx.toNat) :=
    fun ⟨now, unrouted⟩ => Nat.not_le.mpr (routed now) unrouted
  simp only [enter, reduceCtorEq, fits, data, goes, Bool.not_true, Bool.false_eq_true, if_false]

theorem enter_of_config {s : State} {t inp : Nat} {w : Chan} (fits : epochFits (tile s t) t inp w.ctx.toNat w = true)
    (config : w.kind.toNat = 3) :
    enter t inp .ok w s =
      setTile s t (refresh t { tile s t with cfgq := tset (tile s t).cfgq inp (tget [] (tile s t).cfgq inp ++ [w]) }) := by
  simp only [enter, reduceCtorEq, fits, config, Bool.not_true, Bool.false_eq_true, if_false, if_true]

/-! ### Configuration -/

/-- A configuration token of the next epoch that has reached its target is judged by its word alone. -/
theorem configWrite_of_target {s : State} {t inp : Nat} {w : Chan} {r : List Chan}
    (queue : tget [] (tile s t).cfgq inp = w :: r) (target : cfgTarget w = t)
    (free : thas (tile s t).held (heldKey inp w) = false) (next : w.epoch = (tile s t).epoch + 1)
    (typed : cfgType w ≤ 1) (epoch : cEpoch w.payload = w.epoch.toNat)
    (valid : cfgType w = 0 → contextOk w.payload = true) :
    let y := refresh t { tile s t with cfgq := tset (tile s t).cfgq inp r }
    configWrite t inp s =
      if cfgType w = 0 then setTile (setTile s t y) t { y with ctxP := tset y.ctxP w.ctx.toNat w.payload }
      else setTile (setTile s t y) t { y with rwP := some w.payload } := by
  have here : ¬ (cfgTarget w ≠ t ∨ thas (tile s t).held (heldKey inp w) = true) := by simp [target, free]
  have good : ¬ (cEpoch w.payload ≠ w.epoch.toNat ∨ (cfgType w = 0 ∧ contextOk w.payload = false)) := by
    rintro (other | ⟨context, bad⟩)
    · exact other epoch
    · simp [valid context] at bad
  simp only [configWrite, queue, if_neg here, next, ne_eq, not_true_eq_false, if_false, Nat.not_lt.mpr typed]
  exact if_neg (next ▸ good)

theorem injectorSend_of_free {s : State} {p j c tgt slot : Nat} {i : Inject} {w : Line} {r : List (Nat × Nat × Line)}
    (injects : (part s p).inject = some i) (column : (colsOf (part s p))[j]? = some c)
    (next : tget [] i.recs j = (tgt, slot, w) :: r) (read : i.left = 0) (running : halted (part s p) = false)
    (ungated : s.power.gate ≠ 65536) (free : thas s.injectOut c = false)
    (ready : tilesReady s (part s p) i.epoch = true) :
    injectorSend p j s =
      modPart { s with injectOut := tset s.injectOut c (Chan.mk (withEpoch w i.epoch)
        (BitVec.ofNat 16 (8192 * (tgt / 8192) + 512 * c + tgt % 512)) 3 i.epoch (BitVec.ofNat 3 slot)) } p
        fun x => { x with inject := some { i with recs := tset i.recs j r } } := by
  simp only [injectorSend, injects, column, next]
  exact if_neg (by simp [read, running, ungated, free, ready])

/-- Settles O42: what each row of a router, of the configuration path and of an injector does under the condition it
names. -/
theorem routerRowsComplete : Obligations.RouterRowsComplete := by
  refine ⟨fun s t inp lbl out w r x acts => ?hops, fun s t inp lbl out w r x l y acts => ?queued,
    fun s t inp lbl out w r x l y acts => ?collected, fun s t inp out w r x acts => ?forwarded,
    fun s t inp lbl out w r x acts => ?unrouted, fun s t src u out inp chk w y ws acts => ?neighbour,
    fun s t src chk x k w acts => ?output, fun s t chk w acts word north column free => ?injector,
    fun s t inp w x => ?joins, fun s t inp w x => ?config, fun s t inp w x chk good => ?stray,
    fun s t inp w => enter_of_bad s t inp w, fun s t inp x w r y acts => ?router, fun s t inp x w r y acts => ?context,
    fun s p j x i c tgt slot w r word i' acts => ?sends, fun s t acts switches => ?switch⟩
  case hops =>
    rintro rfl data wanted turn take queue near
    show execRouterOutputGrant t inp lbl true s = _
    exact onWf_acts_eq acts
      ((outputGrant_of_route data wanted turn take queue (Nat.lt_trans near (by decide))).trans (if_pos near))
  case queued =>
    rintro rfl data wanted turn take queue far routed rfl rfl empty
    show execRouterOutputGrant t inp lbl true s = _
    exact onWf_acts_eq acts ((outputGrant_of_route data wanted turn take queue routed).trans
      ((if_neg (Nat.not_lt.mpr far)).trans (if_neg (Bool.not_eq_true _ ▸ empty))))
  case collected =>
    rintro rfl data wanted turn take queue far routed rfl rfl collects
    show execRouterOutputGrant t inp lbl true s = _
    exact onWf_acts_eq acts ((outputGrant_of_route data wanted turn take queue routed).trans
      ((if_neg (Nat.not_lt.mpr far)).trans (if_pos collects)))
  case forwarded =>
    rintro rfl wanted turn take queue
    show execRouterOutputGrant t inp 8 true s = _
    exact onWf_acts_eq acts (outputGrant_of_config wanted turn take queue)
  case unrouted =>
    rintro rfl data wanted turn take queue unrouted free
    show execRouterOutputGrant t inp lbl true s = _
    exact onWf_acts_eq acts (outputGrant_of_unrouted data wanted turn take queue unrouted free)
  case neighbour =>
    rintro near rfl rfl there placed same rfl first rfl
    show execRouterTokenArrival t src chk s = _
    exact onWf_acts_eq acts ((tokenArrival_of_neighbour near there).trans (fromLatch_of_find placed same first))
  case output =>
    rintro rfl far output turn waits
    show execRouterTokenArrival t src chk s = _
    exact onWf_acts_eq acts (tokenArrival_of_output far output turn waits)
  case injector =>
    show execRouterTokenArrival t 10 chk s = _
    exact onWf_acts_eq acts (tokenArrival_of_injector word north column free)
  case joins =>
    rintro rfl fits data routed
    exact enter_of_data fits data routed
  case config =>
    rintro rfl fits config
    exact enter_of_config fits config
  case stray =>
    rintro rfl stray
    exact enter_of_stray good stray
  case router =>
    rintro rfl queue target free next type epoch rfl
    show execConfigTokenWrite t inp s = _
    exact onWf_acts_eq acts ((configWrite_of_target queue target free next (by simp [type]) epoch (by simp [type])).trans
      (if_neg (by simp [type])))
  case context =>
    rintro rfl queue target free next type epoch valid rfl
    show execConfigTokenWrite t inp s = _
    exact onWf_acts_eq acts ((configWrite_of_target queue target free next (by simp [type]) epoch fun _ => valid).trans
      (if_pos type))
  case sends =>
    rintro rfl injects column next read running ungated free ready rfl rfl
    show execInjectorSend p j s = _
    exact onWf_acts_eq acts (injectorSend_of_free injects column next read running ungated free ready)
  case switch =>
    show execTileEpochSwitch t s = _
    exact onWf_acts_eq acts (if_pos switches)

end Sys2Proof.Machine
end

section
/-! The operand port and the handshake watchdog (05 R119; 06 R121; 07 R145; 16 Table 3). -/

namespace Sys2Proof.Machine

theorem portDelivery_of_item {s : State} {b lane : Nat} {i : PortItem} {r : List PortItem}
    (ungated : s.power.gate ≠ 65536) (queue : tget [] (ve s b).lanes lane = i :: r) :
    portDelivery b lane s = deliverVe b lane i s := by
  refine (if_neg ungated).trans ?_
  simp only [queue]

theorem portDelivery_of_stream {s : State} {b lane p : Nat} {a : Active} (ungated : s.power.gate ≠ 65536)
    (queue : tget [] (ve s b).lanes lane = []) (placed : partOfBlock s b = some p)
    (next : (part s p).stream.active.find? (deliverable s p b lane) = some a) :
    portDelivery b lane s = deliverStream p a s := by
  refine (if_neg ungated).trans ?_
  simp only [queue, placed, next, Option.elim_some]

theorem deliverVe_scratch {s : State} {b lane : Nat} {i : PortItem} {r : List PortItem}
    (queue : tget [] (ve s b).lanes lane = i :: r) (scratch : i.dest = none) :
    deliverVe b lane i s =
      modTile (modVe s b fun x => { x with lanes := tset x.lanes lane r }) (tileIn b i.tile)
        fun x => { x with scratch := tset x.scratch i.line i.word.payload } := by
  have took : (modVe s b fun x => { x with lanes := tset x.lanes lane (tget [] x.lanes lane).tail }) =
      modVe s b fun x => { x with lanes := tset x.lanes lane r } := by
    simp only [modVe, queue, List.tail_cons]
  simp only [deliverVe, scratch, took]

theorem deliverVe_queue {s : State} {b lane k : Nat} {i : PortItem} (queue : i.dest = some k) :
    deliverVe b lane i s =
      deliver s (tileIn b i.tile) (k / 4) (k % 4) i.word fun u =>
        modVe u b fun x => { x with lanes := tset x.lanes lane (tget [] x.lanes lane).tail } := by
  simp only [deliverVe, queue]

theorem epoch_ne_next (e : BitVec 4) : e ≠ e + 1 := by
  bv_omega

/-- A word of the tile's own epoch is taken as soon as its queue has room. -/
theorem deliver_of_room {s : State} {t slot role : Nat} {w : Chan} {took : State → State} (now : w.epoch = (tile s t).epoch)
    (room : roomIn (ctxQueue (tile s t) slot role) = true) :
    deliver s t slot role w took = modTile (took s) t fun x => qPush x slot role w := by
  simp only [deliver, now, epoch_ne_next, ne_eq, not_true_eq_false, if_false, room, if_true]

/-- Settles O43: the port's two sources, and the three places that the handshake watchdog watches. -/
theorem deliveryRowsComplete : Obligations.DeliveryRowsComplete := by
  refine ⟨fun s b lane i r u acts ungated queue => ?scratch, fun s b lane i r k acts ungated queue dest => ?queue,
    fun s t slot role w took now room => deliver_of_room now room,
    fun s b lane p a acts ungated queue placed next => ?stream, fun s t x acts => ?tile, fun s b acts late => ?engine,
    fun s t slot acts late => ?context⟩
  case scratch =>
    rintro rfl scratch
    show execOperandPortDelivery b lane s = _
    exact onWf_acts_eq acts ((portDelivery_of_item ungated queue).trans (deliverVe_scratch queue scratch))
  case queue =>
    show execOperandPortDelivery b lane s = _
    exact onWf_acts_eq acts ((portDelivery_of_item ungated queue).trans (deliverVe_queue dest))
  case stream =>
    show execOperandPortDelivery b lane s = _
    exact onWf_acts_eq acts (portDelivery_of_stream ungated queue placed next)
  case tile =>
    rintro rfl late
    show execHandshakeWatchdogExpiry (.tileSwitch t) s = _
    exact onWf_acts_eq acts (if_pos (Bool.or_eq_true_iff.mpr late))
  case engine =>
    show execHandshakeWatchdogExpiry (.ve b) s = _
    exact onWf_acts_eq acts (if_pos late)
  case context =>
    show execHandshakeWatchdogExpiry (.context t slot) s = _
    exact onWf_acts_eq acts (if_pos late)

end Sys2Proof.Machine
end
